-- ==== Sys2Proof/Word.lean ====
section
/-! DEFINITION. The 72-bit word of spec/02_tagged_words.md (R47, R48): a 64-bit payload with an 8-bit tag, and the
type of the sparse tables every unit of the machine is held in. -/

namespace Sys2Proof

/-- One byte. -/
abbrev Byte := BitVec 8

/-- A word (R47): 64 payload bits and an 8-bit tag E, G, TYPE (R48). -/
structure Word where
  tag : BitVec 8
  payload : BitVec 64
  deriving DecidableEq, Repr

/-- A sparse table: entries at rising keys; a key that is not listed holds the table's default value. -/
abbrev Table (α : Type) := List (Nat × α)

end Sys2Proof
end

