-- ==== Sys2Proof/Syntax.lean ====
section
/-! DEFINITION. The commands of the block: one constructor of `Instr` per row of spec/opcode_table.json, with the
row's operands. Instructions of a core (spec/03_encodings.md) carry the physical core number on which the context
runs and the operand fields of one of the instruction's encodings; the other rows carry what the event or the write
brings from outside. -/

namespace Sys2Proof

/-- A 4-bit register field of a 16-bit instruction (R84). -/
abbrev R4 := BitVec 4
/-- A 5-bit register field of a 32-bit instruction (R90). -/
abbrev R5 := BitVec 5

/-- GADD and GSUB (R88, R93): the 16-bit RR form, or the 32-bit R form. -/
inductive ArithForm where
  | rr (rd rs : R4)
  | r (rd ra rb : R5)
  deriving DecidableEq, Repr

/-- GADDI (R86, R92): RI7 or I. -/
inductive AddImmForm where
  | ri7 (rd : R4) (imm : BitVec 7)
  | i (rd ra : R5) (imm : BitVec 15)
  deriving DecidableEq, Repr

/-- GCMP and WCMP (R88, R93): RR, or R with rd zero. -/
inductive CmpForm where
  | rr (rd rs : R4)
  | r (ra rb : R5)
  deriving DecidableEq, Repr

/-- MOV, CAR and CDR (R88, R93): RR, or R with rb zero. -/
inductive UnaryForm where
  | rr (rd rs : R4)
  | r (rd ra : R5)
  deriving DecidableEq, Repr

/-- LDI (R86, R92): RI7 or U. -/
inductive LdiForm where
  | ri7 (rd : R4) (imm : BitVec 7)
  | u (rd : R5) (imm : BitVec 20)
  deriving DecidableEq, Repr

/-- BR (R86, R92): B11 or J. -/
inductive BrForm where
  | b11 (disp : BitVec 11)
  | j (disp : BitVec 25)
  deriving DecidableEq, Repr

/-- Bcond (R86, R92): BC in either width. -/
inductive BcondForm where
  | bc16 (cond : BitVec 3) (disp : BitVec 8)
  | bc32 (cond : BitVec 3) (disp : BitVec 22)
  deriving DecidableEq, Repr

/-- BNIL and BNNIL (R86, R92): BR7 or BN. -/
inductive BnilForm where
  | br7 (rs : R4) (disp : BitVec 7)
  | bn (ra : R5) (disp : BitVec 19)
  deriving DecidableEq, Repr

/-- LD and ST (R86, R92): LS or I. -/
inductive MemForm where
  | ls (rt rb : R4) (off : BitVec 3)
  | i (rd ra : R5) (imm : BitVec 15)
  deriving DecidableEq, Repr

/-- The instructions REP may precede, in the forms of R102. -/
inductive RepOp where
  | nop
  | mov (f : UnaryForm)
  | car (f : UnaryForm)
  | cdr (f : UnaryForm)
  | gadd (f : ArithForm)
  | gsub (f : ArithForm)
  | gmul (rd ra rb : R5)
  | gaddi (f : AddImmForm)
  deriving DecidableEq, Repr

/-- The agents that send register accesses (spec/01_the_part.md, the list before R31). -/
inductive Initiator where
  /-- a context, by its software context number, and the stair of the access -/
  | ctx (scn stair : Nat)
  /-- a transfer engine -/
  | engine (e : Nat)
  /-- a Gleaner engine -/
  | gleaner (b : Nat)
  /-- the PCIe physical function, driven by the manager -/
  | pf
  /-- a virtual function -/
  | vf (h : Nat)
  /-- the CoE mailbox handler -/
  | coe
  /-- the JTAG port -/
  | jtag
  deriving DecidableEq, Repr

/-- Features of the PCI Express Base Specification, supported or not (R429). -/
inductive PcieFeature where
  | tag10 | ecrc | aer | ari | cplTimeout
  | relaxedOrdering | noSnoop | aspm | l1pm | atomics | tph | ltr | ats | pri | pasid | vfMigration | intx | msi
  deriving DecidableEq, Repr

/-- ENCODER_EDGE brings the levels that ENCx_A and ENCx_B take, and the ns for which each holds its level (R348). -/
structure PinEdge where
  a : Bool
  b : Bool
  nsA : Nat
  nsB : Nat
  deriving DecidableEq, Repr

/-- What asks for a stop (R374): STOP_REQ_N goes low and holds its level for a number of ns, or an initiator writes
AX_STOP.REQ. -/
inductive StopCause where
  | pin (ns : Nat)
  | req (who : Initiator)
  deriving DecidableEq, Repr

/-- How a cell of the cascade arrives (R481): the part it names as its own, the port, 0 E and 1 W, and how often it failed its
CRC on the link. -/
structure Arrival where
  src : Nat
  port : Nat
  fails : Nat
  deriving DecidableEq, Repr

/-- The flags of an axis sample (R489): the axis's LOSS, and the sender's suspect flag. -/
structure SampleFlags where
  loss : Bool
  suspect : Bool
  deriving DecidableEq, Repr

/-- The answer to a hand-off cell (R492): its STATUS, and how it arrived. -/
structure HandAnswer where
  status : Nat
  port : Nat
  fails : Nat
  deriving DecidableEq, Repr

/-- Z_INDEX brings the axis whose ENCx_Z rises, and the ns for which it holds its level (R348, R353). -/
structure ZPulse where
  axis : Nat
  ns : Nat
  deriving DecidableEq, Repr

/-- What a configuration request to a function does (log entry 66): the power state that D3HOT names (R430), Bus Master
Enable (R434), MSI-X Enable with the function mask, the mask of a vector (R437), a control bit of a feature, Max Payload Size,
Max Read Request Size and the Completion Timeout (R429), a clearing of the AER log (R445), or a read of the headers (R431,
R432). -/
inductive CfgReq where
  | power (d3 : Bool)
  | master (on : Bool)
  | msixControl (on mask : Bool)
  | vector (k : Nat) (masked : Bool)
  | control (k : PcieFeature) (on : Bool)
  | maxPayload (bytes : Nat)
  | maxReadReq (bytes : Nat)
  | cplTimeout (range : Nat) (off : Bool)
  | clearAer
  | read
  deriving DecidableEq, Repr

/-- Instructions of the JTAG port (R536) that move its data register. -/
inductive JtagIr where
  | bypass | idcode | sample | extest | clamp | highz
  deriving DecidableEq, Repr

/-- What JTAG_ACCESS does (R536): a memory or register load or store, or a scan with an instruction of IEEE 1149.1. -/
inductive JtagOp where
  | load
  | store
  | scan (ir : JtagIr)
  deriving DecidableEq, Repr

/-- A sync manager of the plant port (R475): start address and bytes, buffered or mailbox by its control byte, active. -/
structure SmCfg where
  start : Nat
  bytes : Nat
  ctrl : Nat
  on : Bool
  deriving DecidableEq, Repr

/-- An FMMU of the plant port (R475): logical start address and bytes, physical start address, inputs or outputs, active. -/
structure FmmuCfg where
  logical : Nat
  bytes : Nat
  phys : Nat
  outputs : Bool
  on : Bool
  deriving DecidableEq, Repr

/-- What the plant controller asks of the plant port (R475): an AL state, or the setting of a sync manager or FMMU. -/
inductive PlantReq where
  | al (st : Nat)
  | sm (k : Nat) (c : SmCfg)
  | fmmu (k : Nat) (c : FmmuCfg)
  deriving DecidableEq, Repr

/-- What FRAME_RETURN brings beside the cyclic datagrams (R467, R472, R474), each where it was read: the reference clock's system
time, the propagation delay measured to it in ns, the lowest actual ESM state of the SubDevices. -/
structure LineNews where
  time : Option Nat
  delay : Option Nat
  low : Option Nat
  deriving DecidableEq, Repr

/-- What an SDO does (R475): an upload or download of a value, or a request of the SDO Information service: the list of
objects, an object's description, an entry's description. -/
inductive SdoOp where
  | upload
  | download
  | list
  | object
  | entry
  deriving DecidableEq, Repr

/-- A cache whose arrays are checked (R300): the Crib of a core slot, a barn cache, a last-level cache slice. -/
inductive CacheArray where
  | crib (p : Nat)
  | barn (b : Nat)
  | llc (slice : Nat)
  deriving DecidableEq, Repr

/-- What MONITOR_SAMPLE reports: the ageing monitors of R500 (core slot, SerDes lane, memory channel, DRAM row, way of a
slice, context row), and the errors that arise in the silicon, for which the table has no row of their own (log entry 60):
in a data word and in a tag, state and directory entry of a cache (R300), in a core's own state (R221) and in a word of
its patch RAM (R230). `link`: what the PHY of a port shows, 0 line A, 1 line B, 2 plant IN, 3 plant OUT, 4 the PCI Express
port (log entry 60). `ctxWord`: an error in a word of a row of a context store (R498, R506). -/
inductive Monitor where
  | core (p : Nat)
  | lane (l : Nat)
  | channel (c : Nat)
  | row (pa : Nat)
  | way (slice way : Nat)
  | ctxRow (p slot : Nat)
  | word (a : CacheArray) (pa : Nat)
  | entry (a : CacheArray) (line : Nat)
  | coreState (p : Nat)
  | patchWord (p addr : Nat)
  | link (port : Nat)
  | ctxWord (p slot : Nat)
  deriving DecidableEq, Repr


/-- The commands: one constructor per row of the table. `p` is a physical core number (R24). `stop`: an interrupt or
a preemption is taken at the first yield point after that many steps of this execution (log entry 11). -/
inductive Instr where
  | gadd (p : Nat) (f : ArithForm)
  | gsub (p : Nat) (f : ArithForm)
  | gmul (p : Nat) (rd ra rb : R5)
  | gaddi (p : Nat) (f : AddImmForm)
  | gcmp (p : Nat) (f : CmpForm)
  | wcmp (p : Nat) (f : CmpForm)
  | mov (p : Nat) (f : UnaryForm)
  | ldi (p : Nat) (f : LdiForm)
  | ldk (p : Nat) (rd : R4) (k : BitVec 3)
  | ldik (p : Nat) (rd : R5) (k : BitVec 2) (imm : BitVec 16)
  | tagi (p : Nat) (rd ra : R5) (ty : BitVec 6)
  | typeq (p : Nat) (rd ra : R5) (ty : BitVec 6)
  | tagw (p : Nat) (rd ra : R5) (tag : BitVec 8)
  | br (p : Nat) (f : BrForm)
  | bcond (p : Nat) (f : BcondForm)
  | bnil (p : Nat) (f : BnilForm)
  | bnnil (p : Nat) (f : BnilForm)
  | tbr (p : Nat) (ra : R5) (ty : BitVec 6) (sense : Bool) (disp : BitVec 13)
  | jmp (p : Nat) (ra : R5)
  | callm (p : Nat) (ra : R5) (mask : BitVec 16)
  | retm (p : Nat)
  | brk (p : Nat)
  | nop (p : Nat)
  | rep (p : Nat) (op : RepOp) (stop : Option Nat)
  | ld (p : Nat) (f : MemForm)
  | st (p : Nat) (f : MemForm)
  | ldx (p : Nat) (rd ra rb : R5)
  | stx (p : Nat) (rd ra rb : R5)
  | ldsp (p : Nat) (rt : R4) (off : BitVec 7)
  | stsp (p : Nat) (rt : R4) (off : BitVec 7)
  | fence (p : Nat)
  | car (p : Nat) (f : UnaryForm)
  | cdr (p : Nat) (f : UnaryForm)
  | cons (p : Nat) (rd ra rb : R5)
  | rplaca (p : Nat) (ra rb : R5)
  | rplacd (p : Nat) (ra rb : R5)
  | memq (p : Nat) (rd ra rb : R5) (stop : Option Nat)
  | assq (p : Nat) (rd ra rb : R5) (stop : Option Nat)
  | llen (p : Nat) (rd ra : R5) (stop : Option Nat)
  | vref (p : Nat) (rd ra rb : R5)
  | vset (p : Nat) (rd ra rb : R5)
  | vfill (p : Nat) (rd ra rb : R5) (stop : Option Nat)
  | vcopy (p : Nat) (rd ra rb : R5) (stop : Option Nat)
  | alloc (p : Nat) (rd ra : R5) (ty : BitVec 6) (pin : Bool) (sub : BitVec 8)
  | gets (p : Nat) (rd : R5) (sel : BitVec 8)
  | sets (p : Nat) (sel : BitVec 8) (rd : R5)
  | scall (p : Nat) (st : Bool)
  | sret (p : Nat)
  | xret (p : Nat)
  | wget (p : Nat) (rd : R5) (sel : BitVec 8)
  | wput (p : Nat) (sel : BitVec 8) (rd : R5)
  | tlbwi (p : Nat) (ra rb : R5)
  | tlbwr (p : Nat) (ra : R5)
  | tlbi (p : Nat) (ra : R5)
  | twalk (p : Nat) (rd ra : R5)
  | waitp (p : Nat) (rd ra : R5)
  | specOpen (p : Nat) (ra rb : R5)
  | specClose (p : Nat)
  | largeInitDone (scn : Nat)
  | alertDelivery (p : Nat)
  | dispatch (p : Nat)
  | preemption (p : Nat)
  | quantumEnd (p : Nat)
  | fill (who : Initiator) (scn arg : Nat)
  | spill (who : Initiator) (scn : Nat)
  | park (who : Initiator) (scn : Nat)
  | resume (who : Initiator) (scn : Nat)
  | setprio (who : Initiator) (scn prio : Nat)
  | post (who : Initiator) (scn bits : Nat)
  | cancel (who : Initiator) (scn : Nat)
  | create (who : Initiator) (scn : Nat)
  | retire (who : Initiator) (scn : Nat)
  | fillOnDemand
  | timerWake
  | watchdog (h : Nat)
  | alertRouteWrite (who : Initiator) (h : Nat) (v : BitVec 64)
  | watchdogKick (who : Initiator) (h : Nat)
  | registerScan (hcn : Nat)
  | tlbiAck (p : Nat)
  | illegalEncoding (p : Nat)
  /-- ACCESS_TIMEOUT: the access of an initiator at an offset; `va`: the address of a load of a core -/
  | accessTimeout (who : Initiator) (off : Nat) (write : Bool) (va : BitVec 64)
  /-- REGISTER_WRITE: the bits of `mask` are written -/
  | registerWrite (who : Initiator) (off : Nat) (mask v : BitVec 64)
  | patchBegin (who : Initiator)
  | patchData (who : Initiator) (v : BitVec 64)
  | patchCheck (who : Initiator)
  | patchApply (who : Initiator)
  | patchCoreSwitch (p : Nat)
  | cribDisable (p : Nat)
  | cribEnable (p : Nat)
  /-- MAINT_GO: OP and IRQ of CRIB_MAINT_CTRL -/
  | maintGo (who : Initiator) (p op : Nat) (irq : Bool)
  | maintDone (p : Nat)
  | scrubRead
  | memInj
  /-- ASSIGN_ROOT: HALL, COUNT, ANY and BIN of GL_CMD -/
  | assignRoot (who : Initiator) (h count : Nat) (any : Bool) (bin : Nat)
  /-- ASSIGN_PLAIN: HALL, COUNT, ANY and BIN of GL_CMD -/
  | assignPlain (who : Initiator) (h count : Nat) (any : Bool) (bin : Nat)
  | release (who : Initiator) (h count bin : Nat)
  | cycleYoung (who : Initiator) (h : Nat)
  | cycleFull (who : Initiator) (h : Nat)
  | armAck (p h : Nat)
  | flip (p h : Nat)
  | gleanerTrace (h : Nat)
  | finish (h : Nat)
  /-- ENCODER_EDGE: ENCx_A and ENCx_B take levels -/
  | encoderEdge (x : Nat) (e : PinEdge)
  /-- Z_INDEX: a rise of ENCx_Z -/
  | zIndex (e : ZPulse)
  | ssiFrameStart (x : Nat)
  /-- SSI_FRAME: the bits clocked in, and the data line before the first clock edge and after the last bit -/
  | ssiFrame (x bits : Nat) (before after : Bool)
  | extrapEnd (x : Nat)
  | recover (who : Initiator) (x : Nat)
  | estimatorSample
  /-- SWAP: COUNT written with SWAP -/
  | swap (who : Initiator) (x count : Nat)
  /-- MARK_EDGE: an edge at MARK_IN[m], `ns` into the present CLK_TB cycle -/
  | markEdge (m ns : Nat) (rising : Bool)
  | msSample (c value : Nat)
  | camOnAt (who : Initiator) (k : Nat) (target : BitVec 64)
  | camOffAt (who : Initiator) (k : Nat) (target : BitVec 64)
  | camOnDt (who : Initiator) (k : Nat) (target : BitVec 64)
  | camOffDt (who : Initiator) (k : Nat) (target : BitVec 64)
  | flush (who : Initiator) (k : Nat)
  | now (who : Initiator) (k : Nat) (level : Bool)
  | camFire (k : Nat)
  | iringWrite (who : Initiator) (x : Nat) (v : BitVec 64)
  | iptrTail (who : Initiator) (x tail : Nat)
  /-- STOP_REQ -/
  | stopReq (who : StopCause)
  | releaseStop (who : Initiator)
  | stopped
  | specCheck
  | abandon (who : Initiator) (speck : BitVec 32)
  | remoteTimeout
  /-- MIRROR_ENABLE: BASE written with EN -/
  | mirrorEnable (who : Initiator) (h : Nat) (base : BitVec 29)
  | hallCtrlCreate (who : Initiator) (h : Nat)
  | hallCtrlStart (who : Initiator) (h : Nat)
  | hallCtrlRemove (who : Initiator) (h : Nat)
  | hallSlotCmd (who : Initiator) (lcn first count h : Nat)
  | hallDevmap (who : Initiator) (h j : Nat) (v : BitVec 64)
  /-- HALL_RESET_GO: MODE, GRACE and DRAIN_LIMIT written with GO -/
  | hallResetGo (who : Initiator) (h : Nat) (squash : Bool) (grace limit : Nat)
  | hallDrainAck (who : Initiator) (h : Nat)
  | graceEnd (h : Nat)
  | drainLimitEnd (h : Nat)
  | hallResetDone (h : Nat)
  | flr (h : Nat)
  | vfEnableWrite (enable : Bool) (num : Nat)
  | pfFlr
  | perst
  /-- REQ_SEQ: the manager mailbox for none, else the OD window of a hall -/
  | reqSeq (box : Option Nat) (seq : BitVec 16)
  /-- RSP_SEQ: written by a context of hall 0 -/
  | rspSeq (scn : Nat) (box : Option Nat) (seq : BitVec 16)
  | version
  | odRead (box : Option Nat)
  | odWrite (box : Option Nat)
  | hallCreate (h : Nat)
  /-- HALL_SET_SHARE: `lcn` and `first` serve CONTEXTS; for CAMS `lcn` is the cam group and `value` 1 grants, 0 revokes -/
  | hallSetShare (h id value lcn first : Nat)
  /-- HALL_START: `first`: the context that the device kernel resumes -/
  | hallStart (h : Nat) (first : Option Nat)
  | hallReset (h mode grace limit : Nat)
  | hallRemove (h : Nat)
  | hallQuery (h : Nat)
  | eventRead
  | serviceStatus
  | serviceRespare
  | serviceRowspare
  | servicePpr
  | serviceWayspare
  | serviceCtxrow
  | serviceFreeze
  | serviceUnfreeze
  | cascadeStatus
  | cascadePromote
  | cascadeRetime
  | cascadeRejoin
  | doorbell (who : Initiator) (h q tail : Nat)
  | qCfgWrite (who : Initiator) (h q : Nat) (v : BitVec 64)
  | hqNotifySet (who : Initiator) (h : Nat) (set : BitVec 30)
  /-- DESCRIPTOR_FETCH: `reply`: what the host delivered, none where the read failed -/
  | descriptorFetch (h q : Nat) (reply : Option (List (BitVec 64)))
  /-- DESCRIPTOR_COMPLETE: the host's side of the transfer: the bytes delivered, the bytes moved before a failed request, whether a request failed, whether the completion write failed, and the words that arrived poisoned -/
  | descriptorComplete (h e : Nat) (data : List Byte) (done : Nat) (fail cplFail : Bool) (poisoned : List Nat)
  /-- COMMIT_IMMEDIATE: path 0 is the plant, 1 the manager, 2 + h hall h -/
  | commitImmediate (path : Nat)
  | commitNextCycle (path : Nat)
  | commitNextPitch (path : Nat)
  | discard (path : Nat)
  | commitBoundary
  | transitionStep (path : Nat)
  | storeParameters (path sig : Nat)
  | restoreDefaults (path sig : Nat)
  | restoreCalibration (path sig : Nat)
  | stopObject (path v : Nat)
  | esmRequest (path v : Nat)
  | clearEmergency (path v : Nat)
  | clearOverride (path j v : Nat)
  | patchUnlock (path v : Nat)
  | jtagUnlock (path v : Nat)
  | pdoMapping (path index sub v : Nat)
  | lineCycleStart
  | outputSnapshot
  /-- FRAME_RETURN: the datagrams that came back, as index, working counter and data; the line port at which the ring is broken; the reference clock in ns -/
  | frameReturn (back : List (Nat × Nat × List Byte)) (brk : Option Nat) (news : LineNews)
  | eclModeWrite (who : Initiator) (v : BitVec 64)
  | sdoRequest (op : SdoOp) (index sub : Nat) (complete : Bool) (data : List Byte)
  | alStateRequest (q : PlantReq)
  | sync0 (plant : BitVec 64)
  | sm2Watchdog
  /-- LINK_TRAINED: `closed`: the ring is closed -/
  | linkTrained (closed : Bool)
  | syncSend
  /-- SYNC_CELL: the sender, its EPOCH and DT, the measured path delay in ns, and the values of its join check -/
  | syncCell (src : Arrival) (epoch time path : Nat) (join : List Nat)
  | linkDelayMeasure (port ns : Nat)
  | syncLoss
  | joinComplete
  | cascJoinWrite (who : Initiator) (v : BitVec 64)
  /-- AXIS_SAMPLE_CELL: link cells resent before it on its port, the sender and its axis, and the sample -/
  | axisSampleCell (port n src a : Nat) (pos vel acc time : BitVec 64) (flags : SampleFlags)
  | remoteAxisStale (x : Nat)
  | cascAxmapWrite (who : Initiator) (x : Nat) (v : BitVec 64)
  | handoffSend (who : Initiator) (tail : Nat)
  | handoffReceive (port n : Nat) (cell : List Word)
  /-- HANDOFF_STATUS: the index of a transmit cell, and its answer or none after 1 ms -/
  | handoffStatus (index : Nat) (answer : Option HandAnswer)
  | promote (who : Initiator)
  | retime (who : Initiator)
  | rejoin (who : Initiator)
  | respare (who : Initiator) (lcn : Nat)
  | respareGroup
  /-- ROWSPARE: PA bits 39:6 -/
  | rowspare (who : Initiator) (sector : Nat)
  | ppr (who : Initiator) (ch entry : Nat)
  | wayspare (who : Initiator) (slice way : Nat)
  | ctxrow (who : Initiator) (p slot : Nat)
  | serviceDone
  /-- MONITOR_SAMPLE: the value, the eye width of a lane, and whether a tracker saw an uncorrectable error -/
  | monitorSample (m : Monitor) (v width : Nat) (ue : Bool)
  | monitorHour (m : Monitor)
  | hourlySummary
  | recordWrite
  | freeze (who : Initiator)
  | unfreeze (who : Initiator)
  | powerFail
  /-- POR: the straps as sampled -/
  | por (bootSrc : BitVec 2) (cascId : BitVec 3) (legacyN : Bool)
  /-- DEVICE_RESET: the straps as sampled -/
  | deviceReset (who : Initiator) (key : BitVec 32) (bootSrc : BitVec 2) (cascId : BitVec 3) (legacyN : Bool)
  /-- PLL_LOCK: `tb`: TBCLK_IN is present -/
  | pllLock (tb : Bool)
  | memoryInitDone
  /-- BOOT_LOAD_DONE: the two copies in the flash and the image in host memory, none where the read failed -/
  | bootLoadDone (a b host : Option (List Byte))
  | bootGo (who : Initiator)
  | readySet (who : Initiator)
  | coreReset (who : Initiator) (p : Nat)
  | tbLost
  | kick (who : Initiator)
  | heartbeatToggle
  | heartbeatLost
  | tempSample (raw : Nat)
  | jtagHalt (scn : Nat)
  | jtagDeviceReset (bootSrc : BitVec 2) (cascId : BitVec 3) (legacyN : Bool)
  | jtagAccess (op : JtagOp) (pa : Nat) (w : Word)
  | commitTimeout (path : Nat)
  | ringBreak (port : Nat)
  | joinAnnouncement (src : Arrival) (join : List Nat)
  | stopReqNHigh
  /-- PATCH_WE_CHANGE: the level of the PATCH_WE pin -/
  | patchWeChange (level : Bool)
  | plantProcessData (rx : List Byte)
  /-- D3HOT: function 0 is the PF, h is VF h -/
  | d3hot (fn : Nat) (q : CfgReq)
  deriving DecidableEq, Repr

end Sys2Proof
end

