-- ==== Sys2Proof/Config.lean ====
section
/-! DEFINITION. What no rule of the spec fixes: the free values. Every open value of a step is `Config.freeNat`
applied to the state's counter `free` (log entry 8); nothing in Lean can evaluate it. -/

namespace Sys2Proof.Config

/-- The free values of the machine, by the number of the use: an opaque constant without a body (log entry 8). -/
opaque freeNat : Nat → Nat

/-- The free value of a step that depends on what the step reads (a word of host memory, an outcome of the host
link): by the number of the use and the address it is about (log entry 8). -/
opaque freeAt : Nat → Nat → Nat

/-- The bank of a DRAM row (R508): spec/ gives no row and bank layout. -/
opaque bankOf : Nat → Nat

/-- The set of a line in its slice of the last-level cache (R289): spec/ gives no index (log entry 57). -/
opaque llcSet : Nat → Nat

/-- The ROM microwords of a stepping's control store, by address (R229): spec/ lists none (log entry 58). -/
opaque romWord : Nat → Nat → BitVec 40

/-- The entry address of each microcode routine on a stepping (R235): spec/ lists none (log entry 58). -/
opaque routineEntry : Nat → Nat → Nat

/-- What CMP of a microword gives for the conditions of two payloads (R232): spec/ gives no encoding (log entry 58). -/
opaque microOrder : Nat → BitVec 64

/-- What TCHK and PTRQ of a microword give for a test that holds or fails (R232; log entry 58). -/
opaque microFlag : Bool → BitVec 64

/-- The tag that TSET of a microword forms from C/IMM and B (R232; log entry 58). -/
opaque microTag : Nat → Word → BitVec 8

/-- The DRAM row that holds a 256-byte line (R296, R507): spec/ gives no row layout. -/
opaque rowOf : Nat → Nat

/-- The bytes, for one unit of weight, by which an engine may serve a hall ahead of another that waits (R441): spec/ bounds the
proportion by no number (log entry 66). -/
opaque xeLead : Nat

/-- Quinavo's JEP106 code in IDCODE (R536): spec/ does not give the number. -/
opaque jep106 : Nat

/-- Quinavo's PCI-SIG vendor ID (R431): spec/ does not give the number. -/
opaque vendorId : Nat

/-- The log entries that a hall's META bins hold, by their number (R321): spec/ gives no layout of META (log entry 63). -/
opaque metaEntries : Nat → Nat

/-- A cell for a part leaves this part by port E (R482), by the part and the number of broken links: the wiring of the
cascade gives it (log entry 68). -/
opaque cascEast : Nat → Nat → Bool

end Sys2Proof.Config
end

