-- ==== Sys2Proof/Machine/Table.lean ====
section
/-! DEFINITION. Named operations on the sparse tables and on bit fields of 64-bit registers. -/

namespace Sys2Proof.Machine

/-- The value a table holds at a key: the listed one, or the default `d`. -/
def look {α : Type} (d : α) : Table α → Nat → α
  | [], _ => d
  | (k, v) :: t, n => if n = k then v else look d t n

/-- The table without the entries at a key. -/
def erase {α : Type} : Table α → Nat → Table α
  | [], _ => []
  | (k, v) :: t, n => if n = k then erase t n else (k, v) :: erase t n

/-- The table with an entry at a key, keys rising. -/
def insert {α : Type} : Table α → Nat → α → Table α
  | [], n, v => [(n, v)]
  | (k, u) :: t, n, v =>
    if n = k then (n, v) :: t else if n < k then (n, v) :: (k, u) :: t else (k, u) :: insert t n v

/-- The table with a value at a key, in canonical form: the default value is not listed. -/
def put {α : Type} [DecidableEq α] (d : α) (t : Table α) (n : Nat) (v : α) : Table α :=
  if v = d then erase t n else insert t n v

/-- The keys rise strictly. -/
def keysRise {α : Type} : Table α → Bool
  | [] => true
  | [_] => true
  | (a, _) :: (b, v) :: t => decide (a < b) && keysRise ((b, v) :: t)

/-- No listed value is the default. -/
def noDefault {α : Type} [DecidableEq α] (d : α) (t : Table α) : Bool :=
  t.all (fun e => decide (e.2 ≠ d))

/-- The canonical form of a table: keys strictly rising, no entry equal to the default. -/
def Canon {α : Type} [DecidableEq α] (d : α) (t : Table α) : Bool :=
  keysRise t && noDefault d t

/-- The keys of a table whose value meets a test. -/
def keysWhere {α : Type} (f : Nat → α → Bool) (t : Table α) : List Nat :=
  (t.filter (fun e => f e.1 e.2)).map Prod.fst

/-- Bits hi:lo of a 64-bit value, as a number. -/
def fld (v : BitVec 64) (hi lo : Nat) : Nat := (v >>> lo).toNat % 2 ^ (hi + 1 - lo)

/-- The mask with ones in bits hi:lo. -/
def fmask (hi lo : Nat) : BitVec 64 := BitVec.ofNat 64 ((2 ^ (hi + 1 - lo) - 1) * 2 ^ lo)

/-- A 64-bit value with bits hi:lo replaced by the low bits of a number. -/
def setFld (v : BitVec 64) (hi lo x : Nat) : BitVec 64 :=
  (v &&& ~~~(fmask hi lo)) ||| ((BitVec.ofNat 64 x <<< lo) &&& fmask hi lo)

/-- One bit of a 64-bit value. -/
def bit (v : BitVec 64) (i : Nat) : Bool := v.getLsbD i

/-- A 64-bit value with one bit set to a truth value. -/
def setBit (v : BitVec 64) (i : Nat) (b : Bool) : BitVec 64 := setFld v i i (if b then 1 else 0)

/-- A number saturated at the largest value of w bits. -/
def sat (w n : Nat) : Nat := min n (2 ^ w - 1)

/-- A saturating counter field of a register, raised by n. -/
def bumpFld (v : BitVec 64) (hi lo n : Nat) : BitVec 64 := setFld v hi lo (sat (hi + 1 - lo) (fld v hi lo + n))

/-- The signed reading of the low w bits of a number. -/
def signed (w n : Nat) : Int := if n % 2 ^ w < 2 ^ (w - 1) then (n % 2 ^ w : Int) else (n % 2 ^ w : Int) - 2 ^ w

/-- The i-th bit of a number. -/
def natBit (n i : Nat) : Bool := n / 2 ^ i % 2 = 1

/-- The number of ones among the low w bits of a number. -/
def ones (w n : Nat) : Nat := ((List.range w).filter (natBit n)).length

/-- The entry of a list that a number picks, counting round. -/
def pick (l : List Nat) (i : Nat) : Option Nat := if l.length = 0 then none else l[i % l.length]?

end Sys2Proof.Machine
end

