-- ==== Sys2Proof/Machine/RegMap.lean ====
section
/-! DEFINITION. The control-register map of the part: the offset of every register within the control-register
region (R44) and, from each register's map in spec/, its fields with their access types (R19), reset values and
reserved encodings (R21), its reset domain and its home domain. -/

namespace Sys2Proof.Machine

/-- The access types of R19; a bit of no field is RSV. -/
inductive FTy where
  | rw | ro | wo | w1c | w1s
  deriving DecidableEq, Repr

/-- The reset domains (spec/00_scope.md, Register access types and reserved values). -/
inductive Dom where
  | por | device | hall | core
  deriving DecidableEq, Repr

/-- The clock domains of R27; CLK_CORE stands for the barn's own. -/
inductive Home where
  | core | fab | mem | pcie | net | tb | casc | aon
  deriving DecidableEq, Repr

/-- One field of a register map: bits hi:lo, type, reset value, and the ranges of values it takes ([] for every
value; outside them the value is a reserved encoding under R21). -/
structure Field where
  hi : Nat
  lo : Nat
  ty : FTy
  rst : Nat
  ok : List (Nat × Nat)
  deriving DecidableEq, Repr

/-- One register map: the offset of its first instance, two dimensions of instances as (stride, count), the number
of the first instance of the first dimension, its domains and its fields. -/
structure RegDesc where
  name : String
  base : Nat
  s1 : Nat
  n1 : Nat
  s2 : Nat
  n2 : Nat
  first : Nat
  dom : Dom
  home : Home
  fields : List Field
  deriving DecidableEq, Repr

namespace Reg

/-- DEV_FEATURES -/
def devFeatures : Nat := 0x8
/-- DEV_RSV_WRITES -/
def devRsvWrites : Nat := 0x10
/-- DEV_XSTAT -/
def devXstat : Nat := 0x20
/-- DEV_DT -/
def devDt : Nat := 0x18
/-- EVR_CTXTAB -/
def evrCtxtab : Nat := 0xE00000
/-- EVR_CTX_CMD -/
def evrCtxCmd : Nat := 0xE00010
/-- EVR_CTX[n] -/
def evrCtx (i : Nat) : Nat := 0xE80000 + i * 0x8
/-- CTX_SCHED -/
def ctxSched (i : Nat) : Nat := 0x107F00 + 0x10000 * i
/-- CTX_SLOT[s] -/
def ctxSlot (i j : Nat) : Nat := 0x108000 + 0x10000 * i + j * 0x8
/-- CTX_DIRTY[s] -/
def ctxDirty (i j : Nat) : Nat := 0x108400 + 0x10000 * i + j * 0x8
/-- EVR_ALERT_ROUTE[h] -/
def evrAlertRoute (i : Nat) : Nat := 0xE01000 + i * 0x8
/-- CORE_STATE -/
def coreState (i : Nat) : Nat := 0x107E00 + 0x10000 * i
/-- CORE_STH_BASE -/
def coreSthBase (i : Nat) : Nat := 0x107E08 + 0x10000 * i
/-- CORE_STH_SP_INIT -/
def coreSthSpInit (i : Nat) : Nat := 0x107E10 + 0x10000 * i
/-- CORE_STH_CAUSE -/
def coreSthCause (i : Nat) : Nat := 0x107E18 + 0x10000 * i
/-- DEV_PATCH_MATCH[k] -/
def devPatchMatch (i : Nat) : Nat := 0x200 + i * 0x8
/-- DEV_PATCH_CTRL -/
def devPatchCtrl : Nat := 0x100
/-- DEV_PATCH_DATA -/
def devPatchData : Nat := 0x110
/-- DEV_PATCH_STAT -/
def devPatchStat : Nat := 0x108
/-- TLB_STAT -/
def tlbStat (i : Nat) : Nat := 0x107D00 + 0x10000 * i
/-- CRIB_CTRL -/
def cribCtrl (i : Nat) : Nat := 0x107000 + 0x10000 * i
/-- CRIB_STAT -/
def cribStat (i : Nat) : Nat := 0x107008 + 0x10000 * i
/-- CRIB_AMASK_MUT, CRIB_AMASK_PF, CRIB_AMASK_CTX, CRIB_AMASK_BAR -/
def cribAmaskMut (i : Nat) : Nat := 0x107010 + 0x10000 * i
/-- CRIB_AMASK_MUT, CRIB_AMASK_PF, CRIB_AMASK_CTX, CRIB_AMASK_BAR -/
def cribAmaskPf (i : Nat) : Nat := 0x107018 + 0x10000 * i
/-- CRIB_AMASK_MUT, CRIB_AMASK_PF, CRIB_AMASK_CTX, CRIB_AMASK_BAR -/
def cribAmaskCtx (i : Nat) : Nat := 0x107020 + 0x10000 * i
/-- CRIB_AMASK_MUT, CRIB_AMASK_PF, CRIB_AMASK_CTX, CRIB_AMASK_BAR -/
def cribAmaskBar (i : Nat) : Nat := 0x107028 + 0x10000 * i
/-- CRIB_LOCK -/
def cribLock (i : Nat) : Nat := 0x107030 + 0x10000 * i
/-- CRIB_MAINT_START, CRIB_MAINT_END -/
def cribMaintStart (i : Nat) : Nat := 0x107040 + 0x10000 * i
/-- CRIB_MAINT_START, CRIB_MAINT_END -/
def cribMaintEnd (i : Nat) : Nat := 0x107048 + 0x10000 * i
/-- CRIB_MAINT_CTRL -/
def cribMaintCtrl (i : Nat) : Nat := 0x107050 + 0x10000 * i
/-- CRIB_MAINT_STAT -/
def cribMaintStat (i : Nat) : Nat := 0x107058 + 0x10000 * i
/-- DEV_MEM_SCRUB -/
def devMemScrub : Nat := 0x1000
/-- DEV_MEM_ERR[c] -/
def devMemErr (i : Nat) : Nat := 0x1040 + i * 0x8
/-- DEV_MEM_ERRADDR[c] -/
def devMemErraddr (i : Nat) : Nat := 0x1080 + i * 0x8
/-- DEV_MEM_INJ -/
def devMemInj : Nat := 0x1008
/-- BIN_ENTRY[n] -/
def binEntry (i : Nat) : Nat := 0x610000 + i * 0x8
/-- GL_CMD -/
def glCmd : Nat := 0x600008
/-- GL_CMD_STAT -/
def glCmdStat : Nat := 0x600010
/-- GL_HALL[h] -/
def glHall (i : Nat) : Nat := 0x600800 + i * 0x8
/-- GL_CFG -/
def glCfg : Nat := 0x600000
/-- GL_EPOCH[h] -/
def glEpoch (i : Nat) : Nat := 0x600400 + i * 0x8
/-- GL_HSTAT[h] -/
def glHstat (i : Nat) : Nat := 0x600C00 + i * 0x8
/-- AX_CFG[x] -/
def axCfg (i : Nat) : Nat := 0x700000 + i * 0x100
/-- AX_SSI[x] -/
def axSsi (i : Nat) : Nat := 0x700010 + i * 0x100
/-- AX_POS[x] -/
def axPos (i : Nat) : Nat := 0x700018 + i * 0x100
/-- AX_SMP_POS[x] -/
def axSmpPos (i : Nat) : Nat := 0x700020 + i * 0x100
/-- AX_VEL[x] -/
def axVel (i : Nat) : Nat := 0x700028 + i * 0x100
/-- AX_ACC[x] -/
def axAcc (i : Nat) : Nat := 0x700030 + i * 0x100
/-- AX_SMP_DT[x] -/
def axSmpDt (i : Nat) : Nat := 0x700038 + i * 0x100
/-- AX_STAT[x] -/
def axStat (i : Nat) : Nat := 0x700008 + i * 0x100
/-- AX_CTRL[x] -/
def axCtrl (i : Nat) : Nat := 0x700040 + i * 0x100
/-- AX_PITCH_ORG[x] -/
def axPitchOrg (i : Nat) : Nat := 0x700048 + i * 0x100
/-- AX_PITCH_LEN[x] (active) and AX_PITCH_LENP[x] (pending) -/
def axPitchLen (i : Nat) : Nat := 0x700050 + i * 0x100
/-- AX_PITCH_LEN[x] (active) and AX_PITCH_LENP[x] (pending) -/
def axPitchLenp (i : Nat) : Nat := 0x700058 + i * 0x100
/-- AX_PITCH_ADJ[x] -/
def axPitchAdj (i : Nat) : Nat := 0x700060 + i * 0x100
/-- AX_PITCH[x] -/
def axPitch (i : Nat) : Nat := 0x700068 + i * 0x100
/-- AX_PTAB_CTRL[x] -/
def axPtabCtrl (i : Nat) : Nat := 0x700070 + i * 0x100
/-- MARK_CFG[m] -/
def markCfg (i : Nat) : Nat := 0x750000 + i * 0x40
/-- MARK_STAT[m] -/
def markStat (i : Nat) : Nat := 0x750008 + i * 0x40
/-- MARK_POS[m], MARK_DT[m] -/
def markPos (i : Nat) : Nat := 0x750010 + i * 0x40
/-- MARK_POS[m], MARK_DT[m] -/
def markDt (i : Nat) : Nat := 0x750018 + i * 0x40
/-- MS_CFG[c] -/
def msCfg (i : Nat) : Nat := 0x751000 + i * 0x40
/-- MS_VAL[c] -/
def msVal (i : Nat) : Nat := 0x751008 + i * 0x40
/-- MS_SNAP[c] -/
def msSnap (i : Nat) : Nat := 0x751010 + i * 0x40
/-- CAM_CFG[k] -/
def camCfg (k : Nat) : Nat := 0x730000 + 0x4000 * (k / 8) + k % 8 * 0x80
/-- CAM_STAT[k] -/
def camStat (k : Nat) : Nat := 0x730008 + 0x4000 * (k / 8) + k % 8 * 0x80
/-- CAM_ON_AT[k], CAM_OFF_AT[k], CAM_ON_DT[k], CAM_OFF_DT[k] -/
def camOnAt (k : Nat) : Nat := 0x730010 + 0x4000 * (k / 8) + k % 8 * 0x80
/-- CAM_ON_AT[k], CAM_OFF_AT[k], CAM_ON_DT[k], CAM_OFF_DT[k] -/
def camOffAt (k : Nat) : Nat := 0x730018 + 0x4000 * (k / 8) + k % 8 * 0x80
/-- CAM_ON_AT[k], CAM_OFF_AT[k], CAM_ON_DT[k], CAM_OFF_DT[k] -/
def camOnDt (k : Nat) : Nat := 0x730020 + 0x4000 * (k / 8) + k % 8 * 0x80
/-- CAM_ON_AT[k], CAM_OFF_AT[k], CAM_ON_DT[k], CAM_OFF_DT[k] -/
def camOffDt (k : Nat) : Nat := 0x730028 + 0x4000 * (k / 8) + k % 8 * 0x80
/-- CAM_CTRL[k] -/
def camCtrl (k : Nat) : Nat := 0x730030 + 0x4000 * (k / 8) + k % 8 * 0x80
/-- AX_IRING[x] -/
def axIring (i : Nat) : Nat := 0x700078 + i * 0x100
/-- AX_IPTR[x] -/
def axIptr (i : Nat) : Nat := 0x700080 + i * 0x100
/-- AX_STN[x][s] -/
def axStn (i j : Nat) : Nat := 0x701000 + i * 0x100 + j * 0x8
/-- AX_STOP -/
def axStop : Nat := 0x701800
/-- AX_STOP_DT -/
def axStopDt : Nat := 0x701808
/-- AX_COAST[x] -/
def axCoast (i : Nat) : Nat := 0x700088 + i * 0x100
/-- GAL_CFG -/
def galCfg : Nat := 0x800000
/-- GAL_STAT -/
def galStat : Nat := 0x800008
/-- GAL_CMD -/
def galCmd : Nat := 0x800010
/-- GAL_SLICE[b] -/
def galSlice (i : Nat) : Nat := 0x800100 + i * 0x8
/-- GAL_HALL[h] -/
def galHall (i : Nat) : Nat := 0x800400 + i * 0x8
/-- GAL_HSTAT[h] -/
def galHstat (i : Nat) : Nat := 0x800800 + i * 0x8
/-- GAL_MIRROR[h] -/
def galMirror (i : Nat) : Nat := 0x800C00 + i * 0x8
/-- GAL_MSEL[h] -/
def galMsel (i : Nat) : Nat := 0x801000 + i * 0x8
/-- GAL_SPEC[i] -/
def galSpec (i : Nat) : Nat := 0x810000 + i * 0x10
/-- GAL_SPEC_KEY[i] -/
def galSpecKey (i : Nat) : Nat := 0x810008 + i * 0x10
/-- HALL_CFG[h] -/
def hallCfg (i : Nat) : Nat := 0xD00000 + i * 0x8
/-- HALL_STATE[h] -/
def hallState (i : Nat) : Nat := 0xD00200 + i * 0x8
/-- HALL_CTRL[h] -/
def hallCtrl (i : Nat) : Nat := 0xD00400 + i * 0x8
/-- HALL_SHARE[h] -/
def hallShare (i : Nat) : Nat := 0xD00A00 + i * 0x8
/-- HALL_SLOT_CMD -/
def hallSlotCmd : Nat := 0xD01000
/-- HALL_SLOT_STAT -/
def hallSlotStat : Nat := 0xD01008
/-- HALL_PDWIN[h] -/
def hallPdwin (i : Nat) : Nat := 0xD00C00 + i * 0x8
/-- HALL_DEVMAP[h][j] -/
def hallDevmap (i j : Nat) : Nat := 0xD02000 + i * 0x80 + j * 0x8
/-- HALL_RESET[h] -/
def hallReset (i : Nat) : Nat := 0xD00600 + i * 0x8
/-- HALL_DRAIN_ACK[h] -/
def hallDrainAck (i : Nat) : Nat := 0xD00800 + i * 0x8
/-- XE_HW_BASE[h] -/
def xeHwBase (i : Nat) : Nat := 0x902000 + i * 0x10
/-- XE_HW_LEN[h] -/
def xeHwLen (i : Nat) : Nat := 0x902008 + i * 0x10
/-- HQ_STAT -/
def hqStat (i : Nat) : Nat := 0x900000 + 0x4000 * i
/-- HQ_NOTIFY -/
def hqNotify (i : Nat) : Nat := 0x900008 + 0x4000 * i
/-- DEV_MB_CTRL -/
def devMbCtrl : Nat := 0x80000
/-- ODW_CTRL -/
def odwCtrl (i : Nat) : Nat := 0x901800 + 0x4000 * i
/-- Q_CFG[q] -/
def qCfg (i j : Nat) : Nat := 0x900100 + 0x4000 * i + j * 0x20
/-- Q_DBASE[q], Q_CBASE[q] -/
def qDbase (i j : Nat) : Nat := 0x900108 + 0x4000 * i + j * 0x20
/-- Q_DBASE[q], Q_CBASE[q] -/
def qCbase (i j : Nat) : Nat := 0x900110 + 0x4000 * i + j * 0x20
/-- Q_PTR[q] -/
def qPtr (i j : Nat) : Nat := 0x900118 + 0x4000 * i + j * 0x20
/-- XE_HCNT[e] -/
def xeHcnt (i j : Nat) : Nat := 0x901000 + 0x4000 * i + j * 0x8
/-- DEV_OVR[j] -/
def devOvr (i : Nat) : Nat := 0x400 + i * 0x8
/-- ECL_CFG -/
def eclCfg : Nat := 0xA00000
/-- ECL_CYC -/
def eclCyc : Nat := 0xA00008
/-- ECL_STAT -/
def eclStat : Nat := 0xA00010
/-- ECL_WKCMAP -/
def eclWkcmap : Nat := 0xA00018
/-- ECL_DC -/
def eclDc : Nat := 0xA00020
/-- ECL_DC_OFS -/
def eclDcOfs : Nat := 0xA00028
/-- ECL_PDVIOL -/
def eclPdviol : Nat := 0xA00030
/-- ECL_FT[i] -/
def eclFt (i : Nat) : Nat := 0xA00100 + i * 0x8
/-- ECL_CAMNET[k] -/
def eclCamnet (i : Nat) : Nat := 0xA00800 + i * 0x8
/-- word i of the input process image (R470) -/
def pdIn (i : Nat) : Nat := 0xA10000 + i * 0x8
/-- word i of the output process image (R470) -/
def pdOut (i : Nat) : Nat := 0xA12000 + i * 0x8
/-- ECP_CFG -/
def ecpCfg : Nat := 0xA04000
/-- ECP_STAT -/
def ecpStat : Nat := 0xA04008
/-- ECP_DC_PLANT, ECP_DC_DT -/
def ecpDcPlant : Nat := 0xA04010
/-- ECP_DC_PLANT, ECP_DC_DT -/
def ecpDcDt : Nat := 0xA04018
/-- ECP_RXD[i], ECP_TXD[i] -/
def ecpRxd (i : Nat) : Nat := 0xA04400 + i * 0x8
/-- ECP_RXD[i], ECP_TXD[i] -/
def ecpTxd (i : Nat) : Nat := 0xA04800 + i * 0x8
/-- CASC_STATE -/
def cascState : Nat := 0xB00000
/-- CASC_CMD -/
def cascCmd : Nat := 0xB00008
/-- CASC_JOIN -/
def cascJoin : Nat := 0xB00010
/-- CASC_TIME -/
def cascTime : Nat := 0xB00018
/-- CASC_AXMAP[x] -/
def cascAxmap (i : Nat) : Nat := 0xB00100 + i * 0x8
/-- CASC_HORING[d] -/
def cascHoring (i : Nat) : Nat := 0xB00200 + i * 0x10
/-- CASC_HOPTR[d] -/
def cascHoptr (i : Nat) : Nat := 0xB00208 + i * 0x10
/-- DEV_ERRSUM -/
def devErrsum : Nat := 0x30
/-- DEV_ERRCFG -/
def devErrcfg : Nat := 0x38
/-- AGE_THR[i] -/
def ageThr (i : Nat) : Nat := 0xC00800 + i * 0x8
/-- AGE_CORE[p] -/
def ageCore (i : Nat) : Nat := 0xC00000 + i * 0x8
/-- AGE_LANE[l] -/
def ageLane (i : Nat) : Nat := 0xC00400 + i * 0x8
/-- SEED_CMD -/
def seedCmd : Nat := 0xC01000
/-- SEED_CMD_STAT -/
def seedCmdStat : Nat := 0xC01008
/-- SEED_MAP[c] -/
def seedMap (i : Nat) : Nat := 0xC01100 + i * 0x8
/-- SEED_SLOT[p] -/
def seedSlot (i : Nat) : Nat := 0xC01400 + i * 0x8
/-- SEED_STAT -/
def seedStat : Nat := 0xC01010
/-- SEED_MEM[ch] -/
def seedMem (i : Nat) : Nat := 0xC01200 + i * 0x8
/-- FREC_STAT -/
def frecStat : Nat := 0xC02000
/-- FREC_CTRL -/
def frecCtrl : Nat := 0xC02010
/-- FREC_RIDX -/
def frecRidx : Nat := 0xC02018
/-- FREC_RDATA[i] -/
def frecRdata (i : Nat) : Nat := 0xC02020 + i * 0x8
/-- CAL_WORD[i] -/
def calWord (i : Nat) : Nat := 0xC03000 + i * 0x8
/-- CAL_STAT -/
def calStat : Nat := 0xC03800
/-- DEV_STRAPS -/
def devStraps : Nat := 0x28
/-- DEV_RESET -/
def devReset : Nat := 0x40
/-- DEV_CORE_RST -/
def devCoreRst : Nat := 0x48
/-- DEV_STATE -/
def devState : Nat := 0x0
/-- DEV_BOOT_HOST -/
def devBootHost : Nat := 0x50
/-- DEV_BOOT_CTRL -/
def devBootCtrl : Nat := 0x68
/-- DEV_ALERT -/
def devAlert : Nat := 0x60
/-- DEV_THERM -/
def devTherm : Nat := 0x58
/-- PTAB_SHADOW[x][i] -/
def ptabShadow (i j : Nat) : Nat := 0x710000 + 0x4000 * i + j * 0x8
/-- PTAB_ACTIVE[x][i] -/
def ptabActive (i j : Nat) : Nat := 0x712000 + 0x4000 * i + j * 0x8
/-- mailbox request buffer -/
def mbReq (i : Nat) : Nat := 0x81000 + i * 0x8
/-- mailbox response buffer -/
def mbRsp (i : Nat) : Nat := 0x82000 + i * 0x8
/-- OD-window request buffer -/
def odwReq (i j : Nat) : Nat := 0x902000 + 0x4000 * i + j * 0x8
/-- OD-window response buffer -/
def odwRsp (i j : Nat) : Nat := 0x903000 + 0x4000 * i + j * 0x8

end Reg

/-- The register maps of the block from +0x0 (R44). -/
def regsDev : List RegDesc := [
  ⟨"DEV_FEATURES", 0x8, 0x8, 1, 0x8, 1, 0, .por, .aon,
    [⟨55, 48, .ro, 0, []⟩, ⟨47, 44, .ro, 0, []⟩, ⟨43, 38, .ro, 0, []⟩, ⟨37, 32, .ro, 0, []⟩, ⟨31, 28, .ro, 0, []⟩, ⟨27, 27, .ro, 0, []⟩, ⟨26, 23, .ro, 0, []⟩, ⟨22, 16, .ro, 0, []⟩, ⟨11, 8, .ro, 0, []⟩, ⟨7, 0, .ro, 0, []⟩]⟩,
  ⟨"DEV_RSV_WRITES", 0x10, 0x8, 1, 0x8, 1, 0, .device, .fab,
    [⟨59, 56, .ro, 0, []⟩, ⟨55, 32, .ro, 0, []⟩, ⟨31, 0, .rw, 0, []⟩]⟩,
  ⟨"DEV_XSTAT", 0x20, 0x8, 1, 0x8, 1, 0, .device, .fab,
    [⟨63, 63, .w1c, 0, []⟩, ⟨62, 62, .ro, 0, []⟩, ⟨55, 32, .ro, 0, []⟩, ⟨31, 16, .ro, 0, []⟩, ⟨15, 0, .ro, 0, []⟩]⟩,
  ⟨"DEV_DT", 0x18, 0x8, 1, 0x8, 1, 0, .device, .tb,
    [⟨63, 0, .ro, 0, []⟩]⟩,
  ⟨"DEV_PATCH_MATCH[k]", 0x200, 0x8, 64, 0x8, 1, 0, .device, .fab,
    [⟨63, 63, .ro, 0, []⟩, ⟨28, 16, .ro, 0, []⟩, ⟨12, 0, .ro, 0, []⟩]⟩,
  ⟨"DEV_PATCH_CTRL", 0x100, 0x8, 1, 0x8, 1, 0, .device, .fab,
    [⟨1, 0, .wo, 0, []⟩]⟩,
  ⟨"DEV_PATCH_DATA", 0x110, 0x8, 1, 0x8, 1, 0, .device, .fab,
    [⟨63, 0, .wo, 0, []⟩]⟩,
  ⟨"DEV_PATCH_STAT", 0x108, 0x8, 1, 0x8, 1, 0, .device, .fab,
    [⟨63, 32, .ro, 0, []⟩, ⟨31, 31, .ro, 0, []⟩, ⟨30, 30, .ro, 0, []⟩, ⟨29, 29, .ro, 0, []⟩, ⟨28, 24, .ro, 0, []⟩, ⟨23, 7, .ro, 0, []⟩, ⟨6, 0, .ro, 0, []⟩]⟩,
  ⟨"DEV_MEM_SCRUB", 0x1000, 0x8, 1, 0x8, 1, 0, .device, .mem,
    [⟨31, 24, .rw, 0x18, [(1, 0xff)]⟩, ⟨19, 19, .rw, 1, []⟩, ⟨18, 18, .rw, 1, []⟩, ⟨17, 17, .rw, 1, []⟩, ⟨15, 0, .ro, 0, []⟩]⟩,
  ⟨"DEV_MEM_ERR[c]", 0x1040, 0x8, 8, 0x8, 1, 0, .device, .mem,
    [⟨63, 48, .ro, 0, []⟩, ⟨47, 32, .ro, 0, []⟩, ⟨31, 16, .ro, 0, []⟩, ⟨0, 0, .w1s, 0, []⟩]⟩,
  ⟨"DEV_MEM_ERRADDR[c]", 0x1080, 0x8, 8, 0x8, 1, 0, .device, .mem,
    [⟨39, 6, .ro, 0, []⟩, ⟨0, 0, .ro, 0, []⟩]⟩,
  ⟨"DEV_MEM_INJ", 0x1008, 0x8, 1, 0x8, 1, 0, .device, .mem,
    [⟨63, 62, .rw, 0, [(0, 2)]⟩, ⟨61, 56, .rw, 0, [(0, 0x27)]⟩, ⟨39, 6, .rw, 0, []⟩, ⟨0, 0, .w1s, 0, []⟩]⟩,
  ⟨"DEV_MB_CTRL", 0x80000, 0x8, 1, 0x8, 1, 0, .device, .fab,
    [⟨63, 48, .rw, 0, []⟩, ⟨47, 32, .rw, 0, []⟩, ⟨31, 31, .ro, 0, []⟩, ⟨30, 30, .w1c, 0, []⟩]⟩,
  ⟨"DEV_OVR[j]", 0x400, 0x8, 6, 0x8, 1, 0, .device, .fab,
    [⟨63, 0, .w1c, 0, []⟩]⟩,
  ⟨"DEV_ERRSUM", 0x30, 0x8, 1, 0x8, 1, 0, .device, .fab,
    [⟨63, 48, .ro, 0, []⟩, ⟨47, 32, .ro, 0, []⟩, ⟨31, 24, .ro, 0, []⟩, ⟨23, 21, .ro, 0, []⟩, ⟨16, 16, .w1s, 0, []⟩, ⟨15, 0, .ro, 0, []⟩]⟩,
  ⟨"DEV_ERRCFG", 0x38, 0x8, 1, 0x8, 1, 0, .device, .fab,
    [⟨3, 3, .rw, 1, []⟩, ⟨2, 2, .rw, 1, []⟩, ⟨1, 1, .rw, 1, []⟩, ⟨0, 0, .rw, 0, []⟩]⟩,
  ⟨"DEV_STRAPS", 0x28, 0x8, 1, 0x8, 1, 0, .device, .aon,
    [⟨63, 62, .ro, 0, []⟩, ⟨61, 59, .ro, 0, []⟩, ⟨58, 58, .ro, 0, []⟩, ⟨57, 57, .ro, 0, []⟩, ⟨56, 56, .ro, 0, []⟩, ⟨55, 55, .w1c, 0, []⟩]⟩,
  ⟨"DEV_RESET", 0x40, 0x8, 1, 0x8, 1, 0, .por, .aon,
    [⟨63, 32, .wo, 0, []⟩, ⟨31, 28, .ro, 1, []⟩, ⟨15, 0, .ro, 0, []⟩]⟩,
  ⟨"DEV_CORE_RST", 0x48, 0x8, 1, 0x8, 1, 0, .device, .fab,
    [⟨63, 57, .wo, 0, []⟩, ⟨56, 56, .w1s, 0, []⟩, ⟨55, 52, .ro, 0, []⟩]⟩,
  ⟨"DEV_STATE", 0x0, 0x8, 1, 0x8, 1, 0, .device, .fab,
    [⟨63, 60, .ro, 1, []⟩, ⟨59, 59, .w1s, 0, []⟩, ⟨58, 56, .ro, 0, []⟩]⟩,
  ⟨"DEV_BOOT_HOST", 0x50, 0x8, 1, 0x8, 1, 0, .device, .pcie,
    [⟨63, 3, .rw, 0, []⟩]⟩,
  ⟨"DEV_BOOT_CTRL", 0x68, 0x8, 1, 0x8, 1, 0, .device, .pcie,
    [⟨63, 63, .w1s, 0, []⟩, ⟨62, 62, .ro, 0, []⟩]⟩,
  ⟨"DEV_ALERT", 0x60, 0x8, 1, 0x8, 1, 0, .device, .aon,
    [⟨63, 63, .w1s, 0, []⟩, ⟨55, 48, .rw, 0xa, [(1, 0xff)]⟩, ⟨37, 32, .rw, 0x3f, []⟩, ⟨5, 5, .ro, 1, []⟩, ⟨4, 4, .w1c, 0, []⟩, ⟨3, 3, .ro, 0, []⟩, ⟨2, 2, .w1c, 0, []⟩, ⟨1, 1, .ro, 0, []⟩, ⟨0, 0, .w1c, 0, []⟩]⟩,
  ⟨"DEV_THERM", 0x58, 0x8, 1, 0x8, 1, 0, .device, .aon,
    [⟨63, 48, .ro, 0, []⟩, ⟨47, 36, .rw, 0x2f8, []⟩, ⟨35, 24, .rw, 0x320, []⟩, ⟨23, 20, .rw, 4, []⟩, ⟨19, 18, .ro, 0, []⟩]⟩,
  ⟨"mailbox request buffer", 0x81000, 0x8, 512, 0x8, 1, 0, .device, .fab,
    [⟨63, 0, .rw, 0, []⟩]⟩,
  ⟨"mailbox response buffer", 0x82000, 0x8, 512, 0x8, 1, 0, .device, .fab,
    [⟨63, 0, .rw, 0, []⟩]⟩]

/-- The register maps of the block from +0x100000 (R44). -/
def regsCore : List RegDesc := [
  ⟨"CTX_SCHED", 0x107F00, 0x10000, 72, 0x8, 1, 0, .core, .core,
    [⟨15, 0, .rw, 0x50, []⟩]⟩,
  ⟨"CTX_SLOT[s]", 0x108000, 0x10000, 72, 0x8, 64, 0, .core, .core,
    [⟨63, 48, .ro, 0, []⟩, ⟨47, 42, .ro, 0, []⟩, ⟨41, 39, .ro, 0, []⟩, ⟨38, 35, .ro, 0, []⟩, ⟨34, 31, .ro, 0, []⟩, ⟨30, 30, .ro, 0, []⟩]⟩,
  ⟨"CTX_DIRTY[s]", 0x108400, 0x10000, 72, 0x8, 64, 0, .core, .core,
    [⟨6, 0, .ro, 0, []⟩]⟩,
  ⟨"CORE_STATE", 0x107E00, 0x10000, 72, 0x8, 1, 0, .core, .core,
    [⟨7, 4, .ro, 0, []⟩, ⟨1, 0, .ro, 0, []⟩]⟩,
  ⟨"CORE_STH_BASE", 0x107E08, 0x10000, 72, 0x8, 1, 0, .device, .core,
    [⟨63, 63, .ro, 0, []⟩, ⟨39, 0, .rw, 0, []⟩]⟩,
  ⟨"CORE_STH_SP_INIT", 0x107E10, 0x10000, 72, 0x8, 1, 0, .device, .core,
    [⟨39, 3, .rw, 0, []⟩]⟩,
  ⟨"CORE_STH_CAUSE", 0x107E18, 0x10000, 72, 0x8, 1, 0, .device, .core,
    [⟨63, 60, .ro, 0, []⟩, ⟨59, 54, .ro, 0, []⟩, ⟨53, 48, .ro, 0, []⟩, ⟨47, 32, .ro, 0, []⟩, ⟨15, 0, .ro, 0, []⟩]⟩,
  ⟨"TLB_STAT", 0x107D00, 0x10000, 72, 0x8, 1, 0, .core, .core,
    [⟨63, 48, .ro, 0, []⟩, ⟨47, 32, .ro, 0, []⟩, ⟨31, 16, .ro, 0, []⟩, ⟨0, 0, .w1s, 0, []⟩]⟩,
  ⟨"CRIB_CTRL", 0x107000, 0x10000, 72, 0x8, 1, 0, .core, .core,
    [⟨1, 1, .rw, 1, []⟩, ⟨0, 0, .rw, 1, []⟩]⟩,
  ⟨"CRIB_STAT", 0x107008, 0x10000, 72, 0x8, 1, 0, .core, .core,
    [⟨63, 63, .ro, 0, []⟩, ⟨62, 62, .w1c, 0, []⟩, ⟨55, 48, .ro, 0, []⟩, ⟨47, 32, .ro, 0, []⟩, ⟨0, 0, .w1s, 0, []⟩]⟩,
  ⟨"CRIB_AMASK_MUT, CRIB_AMASK_PF, CRIB_AMASK_CTX, CRIB_AMASK_BAR", 0x107010, 0x10000, 72, 0x8, 1, 0, .core, .core,
    [⟨47, 0, .rw, 0xffffffffffff, []⟩]⟩,
  ⟨"CRIB_AMASK_MUT, CRIB_AMASK_PF, CRIB_AMASK_CTX, CRIB_AMASK_BAR", 0x107018, 0x10000, 72, 0x8, 1, 0, .core, .core,
    [⟨47, 0, .rw, 0xffffffffffff, []⟩]⟩,
  ⟨"CRIB_AMASK_MUT, CRIB_AMASK_PF, CRIB_AMASK_CTX, CRIB_AMASK_BAR", 0x107020, 0x10000, 72, 0x8, 1, 0, .core, .core,
    [⟨47, 0, .rw, 0xffffffffffff, []⟩]⟩,
  ⟨"CRIB_AMASK_MUT, CRIB_AMASK_PF, CRIB_AMASK_CTX, CRIB_AMASK_BAR", 0x107028, 0x10000, 72, 0x8, 1, 0, .core, .core,
    [⟨47, 0, .rw, 0xffffffffffff, []⟩]⟩,
  ⟨"CRIB_LOCK", 0x107030, 0x10000, 72, 0x8, 1, 0, .core, .core,
    [⟨47, 0, .rw, 0, []⟩]⟩,
  ⟨"CRIB_MAINT_START, CRIB_MAINT_END", 0x107040, 0x10000, 72, 0x8, 1, 0, .core, .core,
    [⟨39, 6, .rw, 0, []⟩]⟩,
  ⟨"CRIB_MAINT_START, CRIB_MAINT_END", 0x107048, 0x10000, 72, 0x8, 1, 0, .core, .core,
    [⟨39, 6, .rw, 0, []⟩]⟩,
  ⟨"CRIB_MAINT_CTRL", 0x107050, 0x10000, 72, 0x8, 1, 0, .core, .core,
    [⟨3, 3, .rw, 0, []⟩, ⟨2, 2, .w1s, 0, []⟩, ⟨1, 0, .rw, 0, []⟩]⟩,
  ⟨"CRIB_MAINT_STAT", 0x107058, 0x10000, 72, 0x8, 1, 0, .core, .core,
    [⟨63, 63, .ro, 0, []⟩, ⟨62, 62, .w1c, 0, []⟩, ⟨61, 61, .w1c, 0, []⟩, ⟨55, 48, .ro, 0, []⟩, ⟨47, 40, .ro, 0, []⟩, ⟨39, 32, .ro, 0, []⟩]⟩]

/-- The register maps of the block from +0x600000 (R44). -/
def regsGl : List RegDesc := [
  ⟨"BIN_ENTRY[n]", 0x610000, 0x8, 8192, 0x8, 1, 0, .device, .fab,
    [⟨63, 58, .ro, 0, []⟩, ⟨57, 54, .ro, 0, []⟩, ⟨53, 52, .ro, 0, []⟩, ⟨51, 49, .ro, 0, []⟩, ⟨48, 48, .ro, 0, []⟩, ⟨47, 40, .ro, 0, []⟩, ⟨39, 24, .ro, 0, []⟩, ⟨15, 0, .ro, 0, []⟩]⟩,
  ⟨"GL_CMD", 0x600008, 0x8, 1, 0x8, 1, 0, .device, .fab,
    [⟨63, 60, .wo, 0, [(1, 5)]⟩, ⟨59, 54, .wo, 0, []⟩, ⟨31, 18, .wo, 0, []⟩, ⟨13, 13, .wo, 0, []⟩, ⟨12, 0, .wo, 0, []⟩]⟩,
  ⟨"GL_CMD_STAT", 0x600010, 0x8, 1, 0x8, 1, 0, .device, .fab,
    [⟨63, 63, .ro, 0, []⟩, ⟨59, 56, .ro, 0, []⟩, ⟨12, 0, .ro, 0, []⟩]⟩,
  ⟨"GL_HALL[h]", 0x600800, 0x8, 64, 0x8, 1, 0, .hall, .fab,
    [⟨63, 56, .rw, 0, []⟩, ⟨55, 42, .rw, 0, [(0, 0x2000)]⟩, ⟨41, 34, .rw, 0x10, []⟩, ⟨33, 27, .rw, 0x3c, [(0, 0x64)]⟩, ⟨26, 26, .rw, 1, []⟩]⟩,
  ⟨"GL_CFG", 0x600000, 0x8, 1, 0x8, 1, 0, .device, .fab,
    [⟨23, 17, .rw, 0x32, [(0, 0x64)]⟩, ⟨16, 12, .rw, 8, []⟩, ⟨10, 8, .rw, 3, [(1, 7)]⟩, ⟨7, 4, .rw, 2, [(0, 7)]⟩]⟩,
  ⟨"GL_EPOCH[h]", 0x600400, 0x8, 64, 0x8, 1, 0, .hall, .fab,
    [⟨63, 32, .ro, 0, []⟩, ⟨31, 28, .ro, 0, []⟩, ⟨27, 27, .ro, 0, []⟩, ⟨26, 26, .ro, 0, []⟩, ⟨25, 25, .ro, 0, []⟩, ⟨24, 24, .ro, 0, []⟩, ⟨22, 16, .ro, 0, []⟩]⟩,
  ⟨"GL_HSTAT[h]", 0x600C00, 0x8, 64, 0x8, 1, 0, .hall, .fab,
    [⟨63, 50, .ro, 0, []⟩, ⟨47, 44, .ro, 0, []⟩, ⟨39, 24, .ro, 0, []⟩, ⟨23, 8, .ro, 0, []⟩, ⟨7, 1, .ro, 0, []⟩, ⟨0, 0, .w1s, 0, []⟩]⟩]

/-- The register maps of the block from +0x700000 (R44). -/
def regsWpu : List RegDesc := [
  ⟨"AX_CFG[x]", 0x700000, 0x100, 8, 0x8, 1, 0, .device, .tb,
    [⟨63, 62, .rw, 0, [(0, 2)]⟩, ⟨61, 61, .rw, 0, []⟩, ⟨60, 60, .rw, 0, []⟩, ⟨59, 58, .rw, 0, [(0, 1)]⟩, ⟨57, 48, .rw, 0x14, [(1, 0x3ff)]⟩, ⟨47, 40, .rw, 2, []⟩, ⟨39, 32, .rw, 0x10, [(1, 0xff)]⟩, ⟨31, 0, .rw, 0, []⟩]⟩,
  ⟨"AX_SSI[x]", 0x700010, 0x100, 8, 0x8, 1, 0, .device, .tb,
    [⟨63, 58, .rw, 0x19, [(8, 0x28)]⟩, ⟨57, 57, .rw, 1, []⟩, ⟨53, 40, .rw, 0x14, [(0xa, 0x3e8)]⟩, ⟨39, 24, .rw, 0x14, [(1, 0xffff)]⟩, ⟨23, 0, .rw, 0x1000, []⟩]⟩,
  ⟨"AX_POS[x]", 0x700018, 0x100, 8, 0x8, 1, 0, .device, .tb,
    [⟨63, 16, .ro, 0, []⟩, ⟨15, 0, .ro, 0, []⟩]⟩,
  ⟨"AX_SMP_POS[x]", 0x700020, 0x100, 8, 0x8, 1, 0, .device, .tb,
    [⟨63, 0, .ro, 0, []⟩]⟩,
  ⟨"AX_VEL[x]", 0x700028, 0x100, 8, 0x8, 1, 0, .device, .tb,
    [⟨63, 0, .ro, 0, []⟩]⟩,
  ⟨"AX_ACC[x]", 0x700030, 0x100, 8, 0x8, 1, 0, .device, .tb,
    [⟨63, 0, .ro, 0, []⟩]⟩,
  ⟨"AX_SMP_DT[x]", 0x700038, 0x100, 8, 0x8, 1, 0, .device, .tb,
    [⟨63, 0, .ro, 0, []⟩]⟩,
  ⟨"AX_STAT[x]", 0x700008, 0x100, 8, 0x8, 1, 0, .device, .tb,
    [⟨63, 63, .ro, 0, []⟩, ⟨62, 62, .ro, 0, []⟩, ⟨61, 61, .w1c, 0, []⟩, ⟨60, 60, .ro, 0, []⟩, ⟨59, 56, .ro, 0, []⟩, ⟨47, 32, .ro, 0, []⟩, ⟨31, 0, .ro, 0, []⟩]⟩,
  ⟨"AX_CTRL[x]", 0x700040, 0x100, 8, 0x8, 1, 0, .device, .tb,
    [⟨0, 0, .w1s, 0, []⟩]⟩,
  ⟨"AX_PITCH_ORG[x]", 0x700048, 0x100, 8, 0x8, 1, 0, .device, .tb,
    [⟨63, 16, .ro, 0, []⟩, ⟨15, 0, .ro, 0, []⟩]⟩,
  ⟨"AX_PITCH_LEN[x]", 0x700050, 0x100, 8, 0x8, 1, 0, .device, .tb,
    [⟨47, 16, .ro, 0, []⟩, ⟨15, 0, .ro, 0, []⟩]⟩,
  ⟨"AX_PITCH_LENP[x]", 0x700058, 0x100, 8, 0x8, 1, 0, .device, .tb,
    [⟨47, 16, .rw, 0, []⟩, ⟨15, 0, .rw, 0, []⟩]⟩,
  ⟨"AX_PITCH_ADJ[x]", 0x700060, 0x100, 8, 0x8, 1, 0, .device, .tb,
    [⟨63, 0, .rw, 0, [(0, 0xfffffffffffffff), (0xf000000000000001, 0xffffffffffffffff)]⟩]⟩,
  ⟨"AX_PITCH[x]", 0x700068, 0x100, 8, 0x8, 1, 0, .device, .tb,
    [⟨63, 32, .ro, 0, []⟩, ⟨31, 22, .ro, 0, []⟩]⟩,
  ⟨"AX_PTAB_CTRL[x]", 0x700070, 0x100, 8, 0x8, 1, 0, .device, .tb,
    [⟨63, 63, .w1s, 0, []⟩, ⟨62, 62, .w1c, 0, []⟩, ⟨58, 48, .rw, 0, [(1, 0x400)]⟩, ⟨36, 26, .ro, 0, []⟩]⟩,
  ⟨"MARK_CFG[m]", 0x750000, 0x40, 16, 0x8, 1, 0, .device, .tb,
    [⟨63, 61, .rw, 0, []⟩, ⟨60, 59, .rw, 1, []⟩, ⟨58, 58, .rw, 0, []⟩, ⟨57, 50, .rw, 2, []⟩]⟩,
  ⟨"MARK_STAT[m]", 0x750008, 0x40, 16, 0x8, 1, 0, .device, .tb,
    [⟨63, 32, .ro, 0, []⟩, ⟨31, 16, .ro, 0, []⟩, ⟨15, 15, .ro, 0, []⟩, ⟨0, 0, .w1s, 0, []⟩]⟩,
  ⟨"MARK_POS[m], MARK_DT[m]", 0x750010, 0x40, 16, 0x8, 1, 0, .device, .tb,
    [⟨63, 0, .ro, 0, []⟩]⟩,
  ⟨"MARK_POS[m], MARK_DT[m]", 0x750018, 0x40, 16, 0x8, 1, 0, .device, .tb,
    [⟨63, 0, .ro, 0, []⟩]⟩,
  ⟨"MS_CFG[c]", 0x751000, 0x40, 8, 0x8, 1, 0, .device, .tb,
    [⟨63, 63, .rw, 0, []⟩, ⟨55, 44, .rw, 0x800, []⟩, ⟨43, 32, .rw, 0x700, []⟩]⟩,
  ⟨"MS_VAL[c]", 0x751008, 0x40, 8, 0x8, 1, 0, .device, .tb,
    [⟨63, 32, .ro, 0, []⟩, ⟨11, 0, .ro, 0, []⟩]⟩,
  ⟨"MS_SNAP[c]", 0x751010, 0x40, 8, 0x8, 1, 0, .device, .tb,
    [⟨63, 32, .ro, 0, []⟩, ⟨31, 22, .ro, 0, []⟩, ⟨21, 19, .ro, 0, []⟩, ⟨11, 0, .ro, 0, []⟩]⟩,
  ⟨"CAM_CFG[k]", 0x730000, 0x4000, 8, 0x80, 8, 0, .device, .tb,
    [⟨63, 58, .rw, 0, []⟩, ⟨57, 57, .rw, 0, []⟩, ⟨56, 55, .rw, 1, [(1, 3)]⟩, ⟨54, 54, .rw, 0, []⟩, ⟨53, 42, .rw, 0, []⟩, ⟨0, 0, .ro, 0, []⟩]⟩,
  ⟨"CAM_STAT[k]", 0x730008, 0x4000, 8, 0x80, 8, 0, .device, .tb,
    [⟨63, 58, .ro, 0, []⟩, ⟨57, 42, .ro, 0, []⟩, ⟨41, 26, .ro, 0, []⟩, ⟨25, 10, .ro, 0, []⟩, ⟨0, 0, .w1s, 0, []⟩]⟩,
  ⟨"CAM_ON_AT[k], CAM_OFF_AT[k], CAM_ON_DT[k], CAM_OFF_DT[k]", 0x730010, 0x4000, 8, 0x80, 8, 0, .device, .tb,
    [⟨63, 0, .wo, 0, []⟩]⟩,
  ⟨"CAM_ON_AT[k], CAM_OFF_AT[k], CAM_ON_DT[k], CAM_OFF_DT[k]", 0x730018, 0x4000, 8, 0x80, 8, 0, .device, .tb,
    [⟨63, 0, .wo, 0, []⟩]⟩,
  ⟨"CAM_ON_AT[k], CAM_OFF_AT[k], CAM_ON_DT[k], CAM_OFF_DT[k]", 0x730020, 0x4000, 8, 0x80, 8, 0, .device, .tb,
    [⟨63, 0, .wo, 0, []⟩]⟩,
  ⟨"CAM_ON_AT[k], CAM_OFF_AT[k], CAM_ON_DT[k], CAM_OFF_DT[k]", 0x730028, 0x4000, 8, 0x80, 8, 0, .device, .tb,
    [⟨63, 0, .wo, 0, []⟩]⟩,
  ⟨"CAM_CTRL[k]", 0x730030, 0x4000, 8, 0x80, 8, 0, .device, .tb,
    [⟨2, 2, .w1s, 0, []⟩, ⟨1, 0, .wo, 0, [(0, 0), (2, 3)]⟩]⟩,
  ⟨"AX_IRING[x]", 0x700078, 0x100, 8, 0x8, 1, 0, .device, .tb,
    [⟨63, 58, .rw, 0, []⟩, ⟨57, 53, .rw, 0, [(0, 0), (4, 0x10)]⟩, ⟨39, 4, .rw, 0, []⟩]⟩,
  ⟨"AX_IPTR[x]", 0x700080, 0x100, 8, 0x8, 1, 0, .device, .tb,
    [⟨63, 48, .rw, 0, []⟩, ⟨47, 32, .ro, 0, []⟩, ⟨31, 16, .ro, 0, []⟩, ⟨0, 0, .w1c, 0, []⟩]⟩,
  ⟨"AX_STN[x][s]", 0x701000, 0x100, 8, 0x8, 32, 0, .device, .tb,
    [⟨63, 63, .rw, 0, []⟩, ⟨31, 0, .rw, 0, []⟩]⟩,
  ⟨"AX_STOP", 0x701800, 0x8, 1, 0x8, 1, 0, .device, .tb,
    [⟨63, 62, .ro, 0, []⟩, ⟨61, 61, .ro, 0, []⟩, ⟨60, 60, .rw, 0, []⟩, ⟨59, 59, .w1s, 0, []⟩, ⟨58, 58, .w1c, 0, []⟩, ⟨57, 48, .rw, 0x28, [(1, 0x3ff)]⟩, ⟨31, 0, .ro, 0, []⟩]⟩,
  ⟨"AX_STOP_DT", 0x701808, 0x8, 1, 0x8, 1, 0, .device, .tb,
    [⟨63, 0, .ro, 0, []⟩]⟩,
  ⟨"AX_COAST[x]", 0x700088, 0x100, 8, 0x8, 1, 0, .device, .tb,
    [⟨63, 63, .ro, 0, []⟩, ⟨47, 0, .ro, 0, []⟩]⟩,
  ⟨"PTAB_SHADOW[x][i]", 0x710000, 0x4000, 8, 0x8, 1024, 0, .device, .tb,
    [⟨63, 63, .rw, 0, []⟩, ⟨62, 60, .rw, 0, []⟩, ⟨47, 16, .rw, 0, []⟩, ⟨15, 0, .rw, 0, []⟩]⟩,
  ⟨"PTAB_ACTIVE[x][i]", 0x712000, 0x4000, 8, 0x8, 1024, 0, .device, .tb,
    [⟨63, 63, .ro, 0, []⟩, ⟨62, 60, .ro, 0, []⟩, ⟨47, 16, .ro, 0, []⟩, ⟨15, 0, .ro, 0, []⟩]⟩]

/-- The register maps of the block from +0x800000 (R44). -/
def regsGal : List RegDesc := [
  ⟨"GAL_CFG", 0x800000, 0x8, 1, 0x8, 1, 0, .device, .fab,
    [⟨28, 16, .rw, 0x100, [(1, 0x1000)]⟩, ⟨15, 0, .rw, 0x64, [(1, 0xffff)]⟩]⟩,
  ⟨"GAL_STAT", 0x800008, 0x8, 1, 0x8, 1, 0, .device, .fab,
    [⟨42, 32, .ro, 0, []⟩, ⟨31, 16, .ro, 0, []⟩, ⟨10, 0, .ro, 0, []⟩]⟩,
  ⟨"GAL_CMD", 0x800010, 0x8, 1, 0x8, 1, 0, .device, .fab,
    [⟨63, 60, .wo, 0, [(1, 1)]⟩, ⟨31, 0, .wo, 0, []⟩]⟩,
  ⟨"GAL_SLICE[b]", 0x800100, 0x8, 8, 0x8, 1, 0, .device, .fab,
    [⟨28, 16, .ro, 0, []⟩, ⟨12, 0, .ro, 0, []⟩]⟩,
  ⟨"GAL_HALL[h]", 0x800400, 0x8, 64, 0x8, 1, 0, .device, .fab,
    [⟨47, 32, .rw, 0, [(0, 0x8000)]⟩, ⟨15, 0, .ro, 0, []⟩]⟩,
  ⟨"GAL_HSTAT[h]", 0x800800, 0x8, 64, 0x8, 1, 0, .hall, .fab,
    [⟨63, 48, .ro, 0, []⟩, ⟨47, 32, .ro, 0, []⟩, ⟨31, 16, .ro, 0, []⟩, ⟨15, 12, .ro, 0, []⟩, ⟨0, 0, .w1s, 0, []⟩]⟩,
  ⟨"GAL_MIRROR[h]", 0x800C00, 0x8, 64, 0x8, 1, 0, .hall, .fab,
    [⟨63, 63, .rw, 0, []⟩, ⟨39, 11, .rw, 0, []⟩]⟩,
  ⟨"GAL_MSEL[h]", 0x801000, 0x8, 64, 0x8, 1, 0, .hall, .fab,
    [⟨23, 16, .rw, 0, []⟩, ⟨15, 0, .rw, 0, []⟩]⟩,
  ⟨"GAL_SPEC[i]", 0x810000, 0x10, 1024, 0x8, 1, 0, .device, .fab,
    [⟨63, 61, .ro, 0, []⟩, ⟨60, 55, .ro, 0, []⟩, ⟨54, 39, .ro, 0, []⟩, ⟨38, 38, .ro, 0, []⟩, ⟨37, 37, .ro, 0, []⟩, ⟨36, 36, .ro, 0, []⟩, ⟨35, 22, .ro, 0, []⟩, ⟨12, 0, .ro, 0, []⟩]⟩,
  ⟨"GAL_SPEC_KEY[i]", 0x810008, 0x10, 1024, 0x8, 1, 0, .device, .fab,
    [⟨63, 0, .ro, 0, []⟩]⟩]

/-- The register maps of the block from +0x900000 (R44). -/
def regsXe : List RegDesc := [
  ⟨"XE_HW_BASE[h]", 0x902000, 0x10, 64, 0x8, 1, 0, .device, .pcie,
    [⟨63, 12, .rw, 0, []⟩]⟩,
  ⟨"XE_HW_LEN[h]", 0x902008, 0x10, 64, 0x8, 1, 0, .device, .pcie,
    [⟨32, 12, .rw, 0, [(0, 0x100000)]⟩]⟩,
  ⟨"HQ_STAT", 0x900000, 0x4000, 64, 0x8, 1, 0, .hall, .pcie,
    [⟨63, 61, .ro, 0, []⟩, ⟨31, 16, .ro, 0, []⟩]⟩,
  ⟨"HQ_NOTIFY", 0x900008, 0x4000, 64, 0x8, 1, 0, .hall, .pcie,
    [⟨61, 32, .wo, 0, []⟩, ⟨29, 0, .w1c, 0, []⟩]⟩,
  ⟨"ODW_CTRL", 0x905800, 0x4000, 63, 0x8, 1, 1, .hall, .pcie,
    [⟨63, 48, .rw, 0, []⟩, ⟨47, 32, .rw, 0, []⟩, ⟨31, 31, .ro, 0, []⟩, ⟨30, 30, .w1c, 0, []⟩]⟩,
  ⟨"Q_CFG[q]", 0x900100, 0x4000, 64, 0x20, 32, 0, .hall, .pcie,
    [⟨63, 63, .rw, 0, []⟩, ⟨62, 62, .rw, 0, []⟩, ⟨61, 61, .rw, 0, []⟩, ⟨60, 60, .w1c, 0, []⟩, ⟨59, 56, .rw, 0, [(4, 0xc)]⟩, ⟨55, 53, .rw, 0, []⟩]⟩,
  ⟨"Q_DBASE[q], Q_CBASE[q]", 0x900108, 0x4000, 64, 0x20, 32, 0, .hall, .pcie,
    [⟨63, 12, .rw, 0, []⟩]⟩,
  ⟨"Q_DBASE[q], Q_CBASE[q]", 0x900110, 0x4000, 64, 0x20, 32, 0, .hall, .pcie,
    [⟨63, 12, .rw, 0, []⟩]⟩,
  ⟨"Q_PTR[q]", 0x900118, 0x4000, 64, 0x20, 32, 0, .hall, .pcie,
    [⟨63, 48, .rw, 0, []⟩, ⟨47, 32, .ro, 0, []⟩]⟩,
  ⟨"XE_HCNT[e]", 0x901000, 0x4000, 64, 0x8, 8, 0, .hall, .pcie,
    [⟨63, 32, .ro, 0, []⟩, ⟨31, 0, .ro, 0, []⟩]⟩,
  ⟨"OD-window request buffer", 0x906000, 0x4000, 63, 0x8, 512, 1, .hall, .pcie,
    [⟨63, 0, .rw, 0, []⟩]⟩,
  ⟨"OD-window response buffer", 0x907000, 0x4000, 63, 0x8, 512, 1, .hall, .pcie,
    [⟨63, 0, .rw, 0, []⟩]⟩]

/-- The register maps of the block from +0xA00000 (R44). -/
def regsEc : List RegDesc := [
  ⟨"ECL_CFG", 0xA00000, 0x8, 1, 0x8, 1, 0, .device, .net,
    [⟨63, 62, .rw, 0, [(0, 2)]⟩, ⟨61, 61, .rw, 1, []⟩, ⟨60, 60, .rw, 0, []⟩, ⟨31, 0, .rw, 0x10000, []⟩]⟩,
  ⟨"ECL_CYC", 0xA00008, 0x8, 1, 0x8, 1, 0, .device, .net,
    [⟨63, 55, .rw, 0x20, [(1, 0x140)]⟩, ⟨31, 0, .ro, 0, []⟩]⟩,
  ⟨"ECL_STAT", 0xA00010, 0x8, 1, 0x8, 1, 0, .device, .net,
    [⟨63, 63, .ro, 0, []⟩, ⟨62, 62, .ro, 0, []⟩, ⟨61, 61, .ro, 0, []⟩, ⟨60, 60, .ro, 0, []⟩, ⟨59, 59, .w1c, 0, []⟩, ⟨47, 32, .ro, 0, []⟩, ⟨31, 16, .ro, 0, []⟩, ⟨15, 0, .ro, 0, []⟩]⟩,
  ⟨"ECL_WKCMAP", 0xA00018, 0x8, 1, 0x8, 1, 0, .device, .net,
    [⟨63, 0, .ro, 0, []⟩]⟩,
  ⟨"ECL_DC", 0xA00020, 0x8, 1, 0x8, 1, 0, .device, .net,
    [⟨63, 48, .rw, 0, []⟩, ⟨31, 0, .ro, 0, []⟩]⟩,
  ⟨"ECL_DC_OFS", 0xA00028, 0x8, 1, 0x8, 1, 0, .device, .net,
    [⟨63, 0, .rw, 0, []⟩]⟩,
  ⟨"ECL_PDVIOL", 0xA00030, 0x8, 1, 0x8, 1, 0, .device, .net,
    [⟨63, 58, .ro, 0, []⟩, ⟨47, 16, .ro, 0, []⟩, ⟨0, 0, .w1s, 0, []⟩]⟩,
  ⟨"ECL_FT[i]", 0xA00100, 0x8, 64, 0x8, 1, 0, .device, .net,
    [⟨63, 63, .rw, 0, []⟩, ⟨59, 56, .rw, 0, []⟩, ⟨55, 48, .rw, 0, [(0xa, 0xc)]⟩, ⟨44, 34, .rw, 0, [(1, 0x5ce)]⟩, ⟨31, 20, .rw, 0, []⟩, ⟨15, 0, .rw, 0, []⟩]⟩,
  ⟨"ECL_CAMNET[k]", 0xA00800, 0x8, 64, 0x8, 1, 0, .device, .net,
    [⟨63, 63, .rw, 0, []⟩, ⟨59, 48, .rw, 0, [(0, 0xff4)]⟩]⟩,
  ⟨"ECP_CFG", 0xA04000, 0x8, 1, 0x8, 1, 0, .device, .net,
    [⟨63, 48, .rw, 0, []⟩, ⟨47, 47, .rw, 1, []⟩]⟩,
  ⟨"ECP_STAT", 0xA04008, 0x8, 1, 0x8, 1, 0, .device, .net,
    [⟨63, 60, .ro, 1, []⟩, ⟨59, 59, .ro, 0, []⟩, ⟨58, 58, .ro, 0, []⟩, ⟨47, 32, .ro, 0, []⟩, ⟨31, 16, .ro, 0, []⟩]⟩,
  ⟨"ECP_DC_PLANT, ECP_DC_DT", 0xA04010, 0x8, 1, 0x8, 1, 0, .device, .net,
    [⟨63, 0, .ro, 0, []⟩]⟩,
  ⟨"ECP_DC_PLANT, ECP_DC_DT", 0xA04018, 0x8, 1, 0x8, 1, 0, .device, .net,
    [⟨63, 0, .ro, 0, []⟩]⟩,
  ⟨"ECP_RXD[i], ECP_TXD[i]", 0xA04400, 0x8, 64, 0x8, 1, 0, .device, .net,
    [⟨31, 0, .ro, 0, []⟩]⟩,
  ⟨"ECP_RXD[i], ECP_TXD[i]", 0xA04800, 0x8, 64, 0x8, 1, 0, .device, .net,
    [⟨31, 0, .rw, 0, []⟩]⟩,
  ⟨"process image, inputs", 0xA10000, 0x8, 512, 0x8, 1, 0, .device, .net,
    [⟨63, 0, .ro, 0, []⟩]⟩,
  ⟨"process image, outputs", 0xA12000, 0x8, 512, 0x8, 1, 0, .device, .net,
    [⟨63, 0, .rw, 0, []⟩]⟩]

/-- The register maps of the block from +0xB00000 (R44). -/
def regsCasc : List RegDesc := [
  ⟨"CASC_STATE", 0xB00000, 0x8, 1, 0x8, 1, 0, .device, .casc,
    [⟨63, 60, .ro, 0, []⟩, ⟨59, 56, .ro, 0, []⟩, ⟨55, 53, .ro, 0, []⟩, ⟨52, 50, .ro, 0, []⟩, ⟨49, 42, .ro, 0, []⟩, ⟨41, 41, .ro, 0, []⟩, ⟨31, 16, .ro, 0, []⟩, ⟨15, 0, .ro, 0, []⟩]⟩,
  ⟨"CASC_CMD", 0xB00008, 0x8, 1, 0x8, 1, 0, .device, .casc,
    [⟨63, 60, .wo, 0, [(1, 3)]⟩, ⟨3, 0, .ro, 0, []⟩]⟩,
  ⟨"CASC_JOIN", 0xB00010, 0x8, 1, 0x8, 1, 0, .device, .casc,
    [⟨63, 32, .rw, 0, []⟩, ⟨31, 0, .rw, 0, []⟩]⟩,
  ⟨"CASC_TIME", 0xB00018, 0x8, 1, 0x8, 1, 0, .device, .casc,
    [⟨63, 63, .ro, 0, []⟩, ⟨62, 62, .ro, 0, []⟩, ⟨61, 48, .ro, 0, []⟩, ⟨31, 0, .ro, 0, []⟩]⟩,
  ⟨"CASC_AXMAP[x]", 0xB00100, 0x8, 8, 0x8, 1, 0, .device, .casc,
    [⟨63, 63, .rw, 0, []⟩, ⟨62, 60, .rw, 0, []⟩, ⟨59, 57, .rw, 0, []⟩, ⟨56, 56, .ro, 0, []⟩, ⟨55, 55, .ro, 0, []⟩]⟩,
  ⟨"CASC_HORING[d]", 0xB00200, 0x10, 2, 0x8, 1, 0, .device, .casc,
    [⟨63, 58, .rw, 0, []⟩, ⟨57, 54, .rw, 0, [(0, 0), (4, 0xc)]⟩, ⟨53, 38, .rw, 0, []⟩, ⟨37, 33, .rw, 0, []⟩, ⟨31, 4, .rw, 0, []⟩]⟩,
  ⟨"CASC_HOPTR[d]", 0xB00208, 0x10, 2, 0x8, 1, 0, .device, .casc,
    [⟨63, 48, .rw, 0, []⟩, ⟨47, 32, .rw, 0, []⟩, ⟨31, 16, .ro, 0, []⟩, ⟨0, 0, .w1c, 0, []⟩]⟩]

/-- The register maps of the block from +0xC00000 (R44). DESIGN CHOICE (log entry 55): SEED_MAP[32] to SEED_MAP[39] and
SEED_MEM[0] to SEED_MEM[7] are laid out at the same offsets, and the first row that holds an offset has it. -/
def regsSvc : List RegDesc := [
  ⟨"AGE_THR[i]", 0xC00800, 0x8, 8, 0x8, 1, 0, .device, .aon,
    [⟨31, 0, .rw, 0, []⟩]⟩,
  ⟨"AGE_CORE[p]", 0xC00000, 0x8, 72, 0x8, 1, 0, .por, .aon,
    [⟨63, 48, .ro, 0, []⟩, ⟨47, 32, .ro, 0, []⟩, ⟨31, 16, .ro, 0xffff, []⟩, ⟨15, 15, .ro, 0, []⟩]⟩,
  ⟨"AGE_LANE[l]", 0xC00400, 0x8, 12, 0x8, 1, 0, .por, .aon,
    [⟨63, 48, .ro, 0, []⟩, ⟨47, 32, .ro, 0, []⟩, ⟨31, 16, .ro, 0xffff, []⟩, ⟨15, 15, .ro, 0, []⟩]⟩,
  ⟨"SEED_CMD", 0xC01000, 0x8, 1, 0x8, 1, 0, .device, .aon,
    [⟨63, 60, .wo, 0, [(1, 5)]⟩, ⟨33, 0, .wo, 0, []⟩]⟩,
  ⟨"SEED_CMD_STAT", 0xC01008, 0x8, 1, 0x8, 1, 0, .device, .aon,
    [⟨63, 63, .ro, 0, []⟩, ⟨59, 56, .ro, 0, []⟩, ⟨55, 52, .ro, 0, []⟩, ⟨51, 48, .ro, 0, []⟩]⟩,
  ⟨"SEED_MAP[c]", 0xC01100, 0x8, 64, 0x8, 1, 0, .device, .aon,
    [⟨6, 0, .ro, 0, []⟩]⟩,
  ⟨"SEED_SLOT[p]", 0xC01400, 0x8, 72, 0x8, 1, 0, .device, .aon,
    [⟨63, 61, .ro, 0, []⟩, ⟨57, 52, .ro, 0, []⟩, ⟨51, 50, .ro, 2, []⟩]⟩,
  ⟨"SEED_STAT", 0xC01010, 0x8, 1, 0x8, 1, 0, .device, .aon,
    [⟨63, 63, .ro, 0, []⟩, ⟨62, 55, .ro, 0, []⟩, ⟨47, 16, .ro, 0, []⟩]⟩,
  ⟨"SEED_MEM[ch]", 0xC01200, 0x8, 8, 0x8, 1, 0, .device, .aon,
    [⟨63, 48, .ro, 0, []⟩, ⟨47, 32, .ro, 0, []⟩]⟩,
  ⟨"FREC_STAT", 0xC02000, 0x8, 1, 0x8, 1, 0, .por, .aon,
    [⟨63, 48, .ro, 0, []⟩, ⟨47, 32, .ro, 0, []⟩, ⟨31, 31, .ro, 0, []⟩, ⟨15, 0, .ro, 0, []⟩]⟩,
  ⟨"FREC_CTRL", 0xC02010, 0x8, 1, 0x8, 1, 0, .device, .aon,
    [⟨63, 63, .w1s, 0, []⟩, ⟨62, 62, .w1s, 0, []⟩, ⟨7, 0, .rw, 5, []⟩]⟩,
  ⟨"FREC_RIDX", 0xC02018, 0x8, 1, 0x8, 1, 0, .device, .aon,
    [⟨15, 0, .rw, 0, []⟩]⟩,
  ⟨"FREC_RDATA[i]", 0xC02020, 0x8, 4, 0x8, 1, 0, .device, .aon,
    [⟨63, 0, .ro, 0, []⟩]⟩,
  ⟨"CAL_WORD[i]", 0xC03000, 0x8, 256, 0x8, 1, 0, .device, .aon,
    [⟨63, 0, .ro, 0, []⟩]⟩,
  ⟨"CAL_STAT", 0xC03800, 0x8, 1, 0x8, 1, 0, .device, .aon,
    [⟨63, 63, .ro, 1, []⟩, ⟨62, 62, .ro, 0, []⟩, ⟨61, 61, .ro, 0, []⟩, ⟨31, 0, .ro, 0, []⟩]⟩]

/-- The register maps of the block from +0xD00000 (R44). -/
def regsHall : List RegDesc := [
  ⟨"HALL_CFG[h]", 0xD00000, 0x8, 64, 0x8, 1, 0, .device, .fab,
    [⟨0, 0, .rw, 0, []⟩]⟩,
  ⟨"HALL_STATE[h]", 0xD00200, 0x8, 64, 0x8, 1, 0, .device, .fab,
    [⟨63, 61, .ro, 0, []⟩, ⟨60, 58, .ro, 0, []⟩, ⟨57, 57, .ro, 0, []⟩, ⟨56, 56, .ro, 0, []⟩, ⟨55, 55, .ro, 0, []⟩, ⟨48, 35, .ro, 0, []⟩, ⟨34, 24, .ro, 0, []⟩, ⟨23, 13, .ro, 0, []⟩, ⟨12, 0, .ro, 0, []⟩]⟩,
  ⟨"HALL_CTRL[h]", 0xD00408, 0x8, 63, 0x8, 1, 1, .device, .fab,
    [⟨63, 60, .wo, 0, [(1, 3)]⟩, ⟨3, 0, .ro, 0, []⟩]⟩,
  ⟨"HALL_SHARE[h]", 0xD00A00, 0x8, 64, 0x8, 1, 0, .device, .fab,
    [⟨63, 48, .rw, 0x100, []⟩, ⟨47, 34, .rw, 0, [(0, 0x2000)]⟩, ⟨33, 26, .rw, 0x10, [(1, 0xff)]⟩, ⟨15, 8, .rw, 0, []⟩]⟩,
  ⟨"HALL_SLOT_CMD", 0xD01000, 0x8, 1, 0x8, 1, 0, .device, .fab,
    [⟨63, 56, .wo, 0, []⟩, ⟨55, 50, .wo, 0, []⟩, ⟨49, 43, .wo, 0, []⟩, ⟨42, 37, .wo, 0, []⟩]⟩,
  ⟨"HALL_SLOT_STAT", 0xD01008, 0x8, 1, 0x8, 1, 0, .device, .fab,
    [⟨63, 63, .ro, 0, []⟩, ⟨62, 60, .ro, 0, []⟩, ⟨52, 40, .ro, 0, []⟩]⟩,
  ⟨"HALL_PDWIN[h]", 0xD00C00, 0x8, 64, 0x8, 1, 0, .device, .fab,
    [⟨63, 48, .rw, 0, []⟩, ⟨47, 32, .rw, 0, []⟩, ⟨31, 16, .rw, 0, []⟩, ⟨15, 0, .rw, 0, []⟩]⟩,
  ⟨"HALL_DEVMAP[h][j]", 0xD02080, 0x80, 63, 0x8, 16, 1, .device, .fab,
    [⟨63, 0, .rw, 0, []⟩]⟩,
  ⟨"HALL_RESET[h]", 0xD00608, 0x8, 63, 0x8, 1, 1, .device, .fab,
    [⟨63, 63, .w1s, 0, []⟩, ⟨62, 62, .rw, 0, []⟩, ⟨61, 61, .w1c, 0, []⟩, ⟨55, 48, .rw, 0xa, []⟩, ⟨44, 40, .rw, 0x14, [(0, 0x1e)]⟩]⟩,
  ⟨"HALL_DRAIN_ACK[h]", 0xD00808, 0x8, 63, 0x8, 1, 1, .device, .fab,
    [⟨0, 0, .w1s, 0, []⟩]⟩]

/-- The register maps of the block from +0xE00000 (R44). -/
def regsEvr : List RegDesc := [
  ⟨"EVR_CTXTAB", 0xE00000, 0x8, 1, 0x8, 1, 0, .device, .fab,
    [⟨39, 19, .rw, 0, []⟩]⟩,
  ⟨"EVR_CTX_CMD", 0xE00010, 0x8, 1, 0x8, 1, 0, .device, .fab,
    [⟨63, 60, .wo, 0, [(1, 9)]⟩, ⟨59, 44, .wo, 0, []⟩, ⟨31, 0, .wo, 0, []⟩]⟩,
  ⟨"EVR_CTX[n]", 0xE80000, 0x8, 65536, 0x8, 1, 0, .device, .fab,
    [⟨63, 61, .ro, 0, []⟩, ⟨60, 58, .ro, 0, []⟩, ⟨57, 52, .ro, 0, []⟩, ⟨51, 49, .ro, 0, []⟩, ⟨48, 48, .ro, 0, []⟩, ⟨47, 44, .ro, 0, []⟩, ⟨43, 32, .ro, 0, []⟩]⟩,
  ⟨"EVR_ALERT_ROUTE[h]", 0xE01000, 0x8, 64, 0x8, 1, 0, .hall, .fab,
    [⟨63, 63, .rw, 0, []⟩, ⟨55, 40, .rw, 0, []⟩, ⟨16, 16, .w1s, 0, []⟩, ⟨15, 0, .rw, 0, []⟩]⟩]

/-- The register maps of the block an offset lies in (R44). -/
def regsAt (off : Nat) : List RegDesc :=
  if off < 0x100000 then regsDev
  else if off < 0x580000 then regsCore
  else if off < 0x600000 then []
  else if off < 0x700000 then regsGl
  else if off < 0x800000 then regsWpu
  else if off < 0x900000 then regsGal
  else if off < 0xA00000 then regsXe
  else if off < 0xB00000 then regsEc
  else if off < 0xC00000 then regsCasc
  else if off < 0xD00000 then regsSvc
  else if off < 0xE00000 then regsHall
  else if off < 0xF00000 then regsEvr
  else []

/-- Number of the instance of a map's first dimension at an offset. -/
def RegDesc.i1 (d : RegDesc) (off : Nat) : Nat := (off - d.base) / d.s1 + d.first

/-- Number of the instance of a map's second dimension at an offset. -/
def RegDesc.i2 (d : RegDesc) (off : Nat) : Nat := (off - d.base) % d.s1 / d.s2

/-- The map has an instance at this offset. -/
def RegDesc.covers (d : RegDesc) (off : Nat) : Bool :=
  d.base ≤ off && (off - d.base) / d.s1 < d.n1 && (off - d.base) % d.s1 / d.s2 < d.n2
    && (off - d.base) % d.s1 % d.s2 = 0

/-- The map of the register at an offset of the control-register region. -/
def regDesc (off : Nat) : Option RegDesc := (regsAt off).find? (fun d => d.covers off)

/-- The value of the fields of a map at reset. -/
def RegDesc.resetValue (d : RegDesc) : BitVec 64 := d.fields.foldl (fun v f => setFld v f.hi f.lo f.rst) 0

end Sys2Proof.Machine
end

