-- ==== Sys2Proof/Machine/State.lean ====
section
/-! DEFINITION. The state of the part as plain data: everything INVENTORY.md lists under State. Per-instance state is
held in sparse tables whose unlisted keys hold the reset value. -/

namespace Sys2Proof.Machine

/-- Why the machine stops. No command of this block stops it (NOTES.md, Stops): the type has no constructor. -/
inductive Fault where
  deriving DecidableEq, Repr

/-- What the model refuses to run. -/
inductive Refusal where
  /-- raised by a dispatch arm of a command that has no meaning yet; safe: nothing is claimed of such a step -/
  | notModelled (mnemonic : String)
  deriving DecidableEq, Repr

/-- The three parts of the family (R1). -/
inductive Variant where
  | nrm8640 | nrm8632 | nrm8616
  deriving DecidableEq, Repr

/-- What is fixed outside the part's registers: the variant and its silicon (R3), and the straps (R526). -/
structure Part where
  variant : Variant
  stepping : BitVec 8
  bootSrc : BitVec 2
  cascId : BitVec 3
  legacyN : Bool
  patchWe : Bool
  deriving DecidableEq, Repr

/-- States of a software context (R166). -/
inductive CtxState where
  | none | parked | ready | running | waiting | spilled
  deriving DecidableEq, Repr

/-- What an allocation wait completes (R146, R316). -/
inductive AllocWait where
  /-- the engine initialises a large object: the register that receives the pointer, and the pointer (R146) -/
  | large (rd : Nat) (ptr : Word)
  /-- the instruction is retried once when the hall's cycle has finished (R316) -/
  | cycle
  deriving DecidableEq, Repr

/-- The event a context waits for (R175, R154, R155, R157, R146). -/
inductive Wait where
  | timer (deadline : Nat)
  | doorbell (queue : Nat)
  | message (mask : BitVec 32)
  | transfer (engine : Nat) (seq : BitVec 32)
  /-- WAITP: the POS payload and the register that receives the event -/
  | position (key : BitVec 64) (rd : Nat)
  /-- the crossing-wait cases of SPEC.OPEN -/
  | crossing (key : BitVec 64)
  /-- the outcome of the context's speculation; `close`: the wait is that of SPEC.CLOSE -/
  | outcome (close : Bool)
  | alloc (a : AllocWait)
  deriving DecidableEq, Repr

/-- The registers of one context (R162). w0-w31, lw0-lw7 of L0-L3 at key 8k + j, LF of Lk at key k. -/
structure Regs where
  w : Table Word
  pc : BitVec 44
  status : BitVec 64
  cnt : BitVec 32
  slim : BitVec 44
  allocp : BitVec 44
  allocl : BitVec 44
  speck : BitVec 32
  bankwin : BitVec 16
  wait : BitVec 64
  msgp : BitVec 32
  sh1pc : BitVec 44
  sh1sp : BitVec 64
  sh1status : BitVec 64
  sh2pc : BitVec 44
  sh2sp : BitVec 64
  sh2status : BitVec 64
  shuse : BitVec 2
  landctl : BitVec 64
  lw : Table Word
  lf : Table (BitVec 44)
  deriving DecidableEq, Repr

/-- One slot of a context store, by hardware context number (R159, R161, R180). `scn`: the bound software context;
`unchecked`: the allocation region was written by SETS and not yet checked (R314); `scan`: the registers wait for the
scan of a flip before the context runs again (R332). -/
structure Slot where
  owner : Nat
  pend : Option Nat
  scn : Option Nat
  dirty : BitVec 7
  unchecked : Bool
  scan : Bool
  regs : Regs
  deriving DecidableEq, Repr

/-- The context commands of EVR_CTX_CMD (R168). -/
inductive CtxOp where
  | fill | spill | park | resume | setprio | post | cancel | create | retire
  deriving DecidableEq, Repr

/-- What the event router keeps of one software context (R166 to R182, R211). `desc`: physical address of the descriptor;
`pend`: pending alerts, bit k for cause 0x20 + k, and `alertWord` their faulting words; `deferred`: SPILL and PARK
commands that wait for a speculation's outcome or for an allocation; `busy`: commands that wait until the context leaves
the stairhead (R217); `fillNo`: the order in which a fill became pending; `fillLcn`: the LCN a pending FILL names, 0xFF
none; `reopens`: for a level of entries (LANDCTL.DEPTH and the landings in use), the PC of a SPEC.OPEN that restarts there
and what the discard made of it (R156): 1 the crossing-wait case once, 2 the non-speculative case at once; `fillAgain`: a
LANDING_FILL that its entry could not deliver arises again (R218); `retries`: for a level of entries, the PC of an
allocating instruction whose retry is due (R316). -/
structure SwCtx where
  st : CtxState
  resume : CtxState
  hall : Nat
  prio : Nat
  fillPending : Bool
  result : Nat
  hcn : Nat
  desc : Nat
  homeLcn : Nat
  wait : Option Wait
  pend : BitVec 6
  alertWord : Table Word
  deferred : List CtxOp
  busy : List CtxOp
  fillNo : Nat
  fillLcn : Nat
  reopens : List (Nat × BitVec 44 × Nat)
  fillAgain : Bool
  retries : List (Nat × BitVec 44)
  deriving DecidableEq, Repr

/-- One TLB entry (R251). -/
structure TlbEntry where
  v : Bool
  hall : Nat
  asid : Nat
  g : Bool
  level : Nat
  vpn : Nat
  addr : Nat
  r : Bool
  w : Bool
  x : Bool
  u : Bool
  stk : Bool
  a : Bool
  d : Bool
  deriving DecidableEq, Repr

/-- Coherence state of a Crib sector (R272). -/
inductive Mesi where
  | i | s | e | m
  deriving DecidableEq, Repr

/-- One Crib sector. `alt`: eight words kept beside the state: of an M sector of an enabled Crib, the sector as last
written back; of a disabled Crib, what the Crib holds; of a sector an enable re-registered unrefreshed, its old
contents (R284, R286). [] where nothing differs from memory. -/
structure Sector where
  st : Mesi
  alt : List Word
  deriving DecidableEq, Repr

/-- One Crib entry (R271): the line tag (PA bits 39:8) and the four sectors. -/
structure CribEntry where
  line : Nat
  s0 : Sector
  s1 : Sector
  s2 : Sector
  s3 : Sector
  deriving DecidableEq, Repr

/-- A value for each of the four sectors of a line. -/
structure Quad (α : Type) where
  s0 : α
  s1 : α
  s2 : α
  s3 : α
  deriving DecidableEq, Repr

/-- A sector of a barn cache line (R288): its state towards the rest of the part, the core slots of the barn that hold it,
and its eight words where they differ from the coherent view (R300: a word lost further out; `[]` where they agree). -/
structure BarnSector where
  st : Mesi
  sharers : BitVec 9
  alt : List Word
  deriving DecidableEq, Repr

/-- One way of a barn cache set: the line (PA bits 39:8) and its sectors. -/
structure BarnLine where
  line : Nat
  secs : Quad BarnSector
  deriving DecidableEq, Repr

/-- A barn cache (R288): way w of set n at key 16 × n + w, and the replacement tree of each set. -/
structure BarnCache where
  lines : Table BarnLine
  plru : Table (Table Bool)
  deriving DecidableEq, Repr

/-- A sector of a last-level cache line (R289): M where memory holds an older copy, and the barns that hold it. -/
structure LlcSector where
  st : Mesi
  barns : BitVec 8
  deriving DecidableEq, Repr

/-- A line of the last-level cache (R289), kept under its line number: the way it takes and its sectors. -/
structure LlcLine where
  way : Nat
  secs : Quad LlcSector
  deriving DecidableEq, Repr

/-- A running Crib maintenance operation (R283). -/
structure Maint where
  op : Nat
  start : Nat
  stop : Nat
  deriving DecidableEq, Repr

/-- One entry of the relocation cache (R323): hall, window address of the old copy, of the destination. -/
structure Reloc where
  hall : Nat
  old : Nat
  dest : Nat
  deriving DecidableEq, Repr

/-- An entry of a write barrier's log (R320, R321): the word overwritten, or a card by PA / 512. -/
inductive LogEntry where
  | word (w : Word)
  | card (n : Nat)
  deriving DecidableEq, Repr

/-- One core slot, by physical core number. `run`: HCN of the Running context; `halt`: HALT_REASON in Halted-Fault; `vt`:
virtual time at key level × 64 + hall; `lastSlot`: last slot run, per hall; `pramErr`: bits in error of patch RAM words
(R230); `logBuf`: the log buffer, each entry with its hall, oldest first, and `logFull`: the store that waits for it has
been counted (R321); `lastZero`: last zero-weight hall run, per level; `cribOn`: the Crib is enabled; `plru`: node n of
the replacement tree points to its upper half. -/
structure Core where
  run : Option Nat
  halt : Option Nat
  itlb : Table TlbEntry
  dtlb : Table TlbEntry
  stage : BitVec 64
  keepD : BitVec 64
  keepI : BitVec 64
  lsLw : Table Word
  lsLf : BitVec 44
  armed : List Nat
  flipped : List Nat
  reloc : List Reloc
  pram : Table (BitVec 40)
  pmatch : Table (BitVec 64)
  pramErr : Table Nat
  logBuf : List (Nat × LogEntry)
  logFull : Bool
  vt : Table Nat
  lastSlot : Table Nat
  lastZero : Table Nat
  cribOn : Bool
  crib : Table CribEntry
  plru : Table Bool
  maint : Option Maint
  deriving DecidableEq, Repr

/-- A register write posted by an initiator and not yet applied (R31): offset in the control-register region, the
bits it writes and their values; `code` and `hall`: INITIATOR of DEV_XSTAT and hall of the initiator when it issued the
write. -/
structure Posted where
  who : Initiator
  off : Nat
  mask : BitVec 64
  value : BitVec 64
  code : Nat
  hall : Nat
  deriving DecidableEq, Repr

/-- A TLBI whose acknowledgements are outstanding (R265): the issuing core and context, its scope and the cores that
have not acknowledged. -/
structure TlbiJob where
  core : Nat
  scn : Nat
  scope : BitVec 64
  left : List Nat
  deriving DecidableEq, Repr

/-- The patch staging buffer and the patch set being switched in (R242, R246). -/
structure PatchUnit where
  staging : List Byte
  unlocked : Bool
  image : List Byte
  left : List Nat
  deriving DecidableEq, Repr

/-- Bin kinds (R305). -/
inductive BinKind where
  | free | eden | surv | old | large | largeCont | root | plain | metaData
  deriving DecidableEq, Repr

/-- Bin states (BIN_ENTRY). -/
inductive BinState where
  | closed | opened | fromSet
  deriving DecidableEq, Repr

/-- One bin of the Granary (BIN_ENTRY, R304 to R307); `top`: allocated extent in bytes; `fullSeen`: an OLD bin has been
through a full cycle (R330); `starts`: physical address and pointer type of the objects known to start in it, since a HDR
word is a header only where an object starts (R61). -/
structure Bin where
  hall : Nat
  kind : BinKind
  state : BinState
  age : Nat
  stays : Bool
  epoch : Nat
  live : Nat
  top : Nat
  fullSeen : Bool
  starts : List (Nat × BitVec 6)
  deriving DecidableEq, Repr

/-- Phases of a collection cycle (R329). -/
inductive Phase where
  | idle | arm | flip | trace | finish
  deriving DecidableEq, Repr

/-- Copy state of an object in a FROM bin (R325), with the physical address of the destination. -/
inductive CopyState where
  | none
  | claimed (dest progress : Nat)
  | forwarded (dest : Nat)
  | stay
  deriving DecidableEq, Repr

/-- What the Gleaner keeps of one hall (GL_EPOCH, GL_HSTAT, R318 to R338). Objects are named by the physical address
of their first word; cards by PA / 512. `tenure`: GL_CFG.TENURE as taken at the last ARM; `marks`, `queue`: objects marked
and still to be traced, with the type of the pointer that named them, so that a cons cell is known from a headed object;
`held`: a request held until FINISH, true for full; `metas`: the META bins of the cycle; `badBins`: bins whose every object
is STAY (R328); `edenOpened`: EDEN bins opened since the last cycle. -/
structure GlHall where
  cycles : BitVec 32
  phase : Phase
  full : Bool
  tenure : Nat
  goodO : Bool
  goodY : Bool
  marking : Bool
  armAcks : List Nat
  flipAcks : List Nat
  marks : List (Nat × BitVec 6)
  queue : List (Nat × BitVec 6)
  snapshot : List Word
  cards : List Nat
  cardLog : List Nat
  remembered : List Nat
  copies : Table CopyState
  held : Option Bool
  metas : List Nat
  badBins : List Nat
  edenOpened : Nat
  raReason : Nat
  raCount : Nat
  exhCount : Nat
  logStall : Nat
  deriving DecidableEq, Repr

/-- Speculation states (R382). -/
inductive SpecState where
  | free | opened | crossed | publishing
  deriving DecidableEq, Repr

/-- One Gallery line of a speculation (R384): R bits of the four sectors, and the tentative words at keys 0-31. -/
structure GalLine where
  r : BitVec 4
  w : Table Word
  deriving DecidableEq, Repr

/-- One speculation record (R380 to R385). `lines` by PA / 256; `ckpt`: the checkpoint of G0-G4; `item`: physical
address of slot 2 of the ITEM given at the opening; `crossDt`: DT of the crossing; `held`: was held for cascade
time. -/
structure GalRec where
  st : SpecState
  hall : Nat
  scn : Nat
  item : Option Nat
  remote : Bool
  conflict : Bool
  seq : Nat
  key : BitVec 64
  slice : Nat
  lines : Table GalLine
  ckpt : Regs
  crossDt : Nat
  held : Bool
  deriving DecidableEq, Repr

/-- Record classes (R497). -/
inductive Class where
  | event | notice | corrected | contained | uncontained
  deriving DecidableEq, Repr

/-- A Failure Recorder record (R511): its index, its class and the fields of its words. -/
structure Record where
  index : Nat
  dt : BitVec 64
  code : Nat
  cls : Class
  suspect : Bool
  source : Nat
  hall : Nat
  inst : Nat
  scn : Nat
  addr : Nat
  detail : BitVec 64
  deriving DecidableEq, Repr

/-- The recorder (R513, R514): records waiting to be written, the index and count of an OVERFLOW record being
collected, next index, next SEQ, base of the frozen block, LOST. -/
structure Recorder where
  queue : List Record
  ovf : Option (Nat × Nat)
  next : Nat
  seq : BitVec 32
  frozen : Option Nat
  lost : Nat
  deriving DecidableEq, Repr

/-- Capabilities of a function (R431). -/
inductive CfgCap where
  | power | pcie | msix | aer | ari | sriov
  deriving DecidableEq, Repr

/-- A memory BAR (R431, R432): its number, its bytes, 64-bit addressing, prefetchable. -/
structure Bar where
  number : Nat
  bytes : Nat
  wide : Bool
  prefetch : Bool
  deriving DecidableEq, Repr

/-- The trained PCI Express link (R429): the generation of its speed, 1 to 4 for 2.5 to 16.0 GT/s, and its lanes. -/
structure PcieLink where
  gen : Nat
  width : Nat
  deriving DecidableEq, Repr

/-- A configuration header (R431), and the link as the PCI Express capability shows it. -/
structure CfgHeader where
  vendor : Nat
  device : Nat
  revision : BitVec 8
  classCode : Nat
  subsystem : BitVec 32
  bars : List Bar
  intPin : Nat
  caps : List CfgCap
  link : Option PcieLink
  deriving DecidableEq, Repr

/-- The SR-IOV capability (R432). -/
structure SriovCap where
  initialVfs : Nat
  totalVfs : Nat
  firstOffset : Nat
  stride : Nat
  vfDevice : Nat
  pageSizes : Nat
  vfBar0 : Bar
  migration : Bool
  dependency : Nat
  enable : Bool
  numVfs : Nat
  deriving DecidableEq, Repr

/-- The configuration state of a function (R429, R434, R437): Bus Master Enable; MSI-X Enable, the function mask, the vectors
that are not masked and the messages held pending; the control bits set; Max Payload Size and Max Read Request Size in bytes;
the Completion Timeout value and its disable; the errors that AER has logged, oldest first, by their STATUS (R445; log entry
66). -/
structure FnCfg where
  master : Bool
  msixOn : Bool
  msixMask : Bool
  unmasked : List Nat
  pending : List Nat
  features : List PcieFeature
  payload : Nat
  readReq : Nat
  cplRange : Nat
  cplOff : Bool
  aer : List Nat
  deriving DecidableEq, Repr

/-- A datagram of the line as it leaves: command, logical address and output data (R469). -/
structure LineGram where
  cmd : Nat
  addr : Nat
  data : List Byte
  deriving DecidableEq, Repr

/-- What the part sends, newest first: MSI-X messages (R437), events to the device kernel and to hall kernels, CoE
Emergencies (R477), reads and writes of host memory with the function whose Requester ID they carry (R433), configuration
reads answered, frames and cells. -/
inductive Out where
  | msix (fn vec : Nat)
  | event (hall : Nat) (name : String) (arg : Nat)
  | emcy (code reg cls index hall inst : Nat)
  | hostRead (fn addr bytes : Nat)
  | hostWrite (fn addr : Nat) (bytes : List Byte)
  | cfgRead (fn : Nat) (hdr : CfgHeader) (cap : Option SriovCap) (cfg : FnCfg)
  | netCam (output : Nat) (level : Bool) (dt : Nat)
  /-- a frame of a line cycle, and the ports it leaves on: 0 A, 1 B (R469, R471) -/
  | lineFrame (ports : List Nat) (cycle frame : Nat) (grams : List LineGram)
  /-- the access of a cycle to the system time of the reference clock: a write of a time, or a read (R472) -/
  | lineClock (ports : List Nat) (station : Nat) (time : Option (BitVec 64))
  /-- a cell on the cascade: the part it comes from, its destination (0xFF: every part), and the ports it leaves on, 0 E and
  1 W (R482) -/
  | cell (kind : String) (src dest : Nat) (ports : List Nat) (data : List (BitVec 64))
  | sdo (abort : Nat) (data : List Byte)
  | plantFrame (data : List Byte)
  | completion (who : Initiator) (tag : BitVec 8) (data : BitVec 64)
  /-- what a JTAG scan shifts out: the bits of the data register, and their value (R536) -/
  | jtag (bits value : Nat)
  /-- an answer of the SDO Information service (R475) -/
  | odInfo (abort : Nat) (data : List Nat)
  deriving DecidableEq, Repr
/-- An event that EVENT_READ returns (R439, R496): DT, vector, hall, event code, index of its record. -/
structure MgrEvent where
  dt : Nat
  vector : Nat
  hall : Nat
  code : Nat
  index : Nat
  deriving DecidableEq, Repr

/-- The plant port's Emergency state (R477): object 0x1001, the queue of Emergencies and the drops of the open burst
(none: no burst is open). -/
structure Emcy where
  obj1001 : BitVec 8
  queue : List Out
  burst : Option Nat
  deriving DecidableEq, Repr


/-- How the position of an axis ran before the DT `till` (R351, R354): from `base` at `since` with velocity `vel`, or
extrapolated with the deceleration `dec`. -/
structure Track where
  till : Nat
  base : BitVec 64
  since : Nat
  vel : Int
  dec : Option Nat
  deriving DecidableEq, Repr

/-- What the WPU keeps of one axis beside its registers (R348 to R376). `base`: position at the last count change or
sample cell, `chgDt` its DT; `updDt`: DT of the last position update; `ill`: DTs of recent illegal transitions; `bad`:
consecutive bad frames; `ssi`: value of the last good frame; `zref`: count of the first Z edge; `lossDt`: DT of the
declaration of loss; `recov`: RECOVER waits for a good frame or sample; `exPos`, `exDt`, `exVel`: the point from which
the position is extrapolated and its velocity; `ssiStart`: DT at which the frame in progress began, `ssiNext`: earliest
start of the next; `pitchStart`: position at which the present pitch began; `bounds`: pitch boundaries crossed;
`cursors`: cursor of station s, as entry index + 1; `still`: DT since which the velocity has been at most STILL; `v0`:
velocity at COAST entry; `cellDt`: DT of the last received sample; `pinA`, `pinB`: filtered levels of the inputs; `nextPt`:
index of the next point, up to POINTS; `past`: how the position ran of late, newest first; `updFrom`: DT of the update before
the last; `tabWait`: DT of the crossed boundary at which an armed table waits for its swap (R378); `dec`: DECEL as the last
sample took it (R376). -/
structure AxRec where
  base : BitVec 64
  chgDt : Nat
  updDt : Nat
  ill : List Nat
  bad : Nat
  ssi : Nat
  zref : Option Nat
  lossDt : Nat
  recov : Bool
  exPos : BitVec 64
  exDt : Nat
  exVel : Int
  ssiStart : Option Nat
  ssiNext : Nat
  pitchStart : BitVec 64
  bounds : Nat
  cursors : Table Nat
  still : Option Nat
  v0 : Int
  cellDt : Nat
  pinA : Bool
  pinB : Bool
  nextPt : Nat
  past : List Track
  updFrom : Nat
  tabWait : Option Nat
  dec : Nat
  deriving DecidableEq, Repr

/-- One queued cam action (R364): the level it sets, its position or none for a time action, and its fire DT once it is
locked (R365). -/
structure CamAct where
  level : Bool
  pos : Option (BitVec 64)
  fire : Option Nat
  deriving DecidableEq, Repr

/-- One sample of a mark-sensor channel (R362): DT, value and comparator level after it. -/
structure MsSample where
  dt : Nat
  value : Nat
  level : Bool
  deriving DecidableEq, Repr


/-- A descriptor that an engine has fetched and not completed (R441 to R445). `counted`: it was accepted, and counts in
XE_OPS; `status`: the outcome found at the fetch, 0 when it is to be executed; `obj`: physical address of the named
object or first word; `slots`: its extent in words or bytes; `phase`: the PHASE bit of its completion; `waits`: a FENCE holds
it, and its header and bounds are read when it starts (R441). -/
structure XeOp where
  hall : Nat
  queue : Nat
  engine : Nat
  seq : BitVec 32
  entry : Nat
  phase : Bool
  words : List (BitVec 64)
  counted : Bool
  status : Nat
  obj : Nat
  slots : Nat
  waits : Bool := false
  deriving DecidableEq, Repr

/-- What an engine keeps of a hall it serves (R441): the queue it looks at first, and the bytes moved for the hall, counted from
when a hall was last the only one with an entry to fetch. -/
structure XeTurn where
  queue : Nat
  moved : Nat
  deriving DecidableEq, Repr

/-- What a hall reset in progress keeps (R420): DT at which the grace period or the drain limit ends, DT at which STOP
began. -/
structure HallRst where
  deadline : Nat
  stopAt : Nat
  deriving DecidableEq, Repr

/-- One subindex write of a pending set (R458): its value, or the bytes of a DOMAIN. -/
structure Staged where
  index : Nat
  sub : Nat
  value : Nat
  bytes : List Byte
  deriving DecidableEq, Repr

/-- One step of a transition (R464). -/
inductive TrStep where
  /-- one bank of 256 points of axis x into the shadow -/
  | bank (x i : Nat)
  /-- one bin of hall h assigned (`up`) or released, ROOT or PLAIN -/
  | bin (h : Nat) (root up : Bool)
  /-- one hall created (`up`) or removed -/
  | hall (up : Bool)
  deriving DecidableEq, Repr

/-- A commit in progress (R460, R461). `boundary`: 0 IMMEDIATE, 1 NEXT_CYCLE, 2 NEXT_PITCH; `due`: DT of the boundary of
NEXT_CYCLE; `bounds`: pitch boundaries of the axis crossed before the end of step 2; `since`: DT of the COMMIT;
`order`: its place in the order of arming (R462), 0 before; `steps`: transition steps left. -/
structure Commit where
  boundary : Nat
  axis : Nat
  due : Nat
  bounds : Nat
  since : Nat
  order : Nat
  group : List Staged
  steps : List TrStep
  deriving DecidableEq, Repr

/-- What the dictionary keeps of one path (R458 to R464): objects 0x2F00 to 0x2F02, the pending set, the commit in
progress, and a DOMAIN series under way (R452). -/
structure PathSt where
  axis : Nat
  status : Nat
  count : Nat
  timeout : Nat
  pend : List Staged
  commit : Option Commit
  badIndex : Nat
  badSub : Nat
  badAbort : Nat
  badDetail : Nat
  trState : Nat
  trDone : Nat
  trTotal : Nat
  trKind : Nat
  series : Option Staged
  deriving DecidableEq, Repr

/-- What the line keeps of the network action of one cam output (R473): its sequence byte, the last action placed, and the
cycle that carries it first, plus 1. -/
structure CamNet where
  seq : BitVec 8
  last : Option (Bool × Nat)
  cycle : Nat
  deriving DecidableEq, Repr

/-- A network action of a cam output that is locked and not yet placed (R473): output, level, fire DT, DT of its locking,
whether NETLATE has counted it. -/
structure NetCam where
  output : Nat
  level : Bool
  fire : Nat
  lock : Nat
  late : Bool
  deriving DecidableEq, Repr

/-- What the line MainDevice keeps (R467 to R472). `sent`: DT at which the frames of the open cycle left, none while no cycle is
open; `image`: the output image they carry; `cycle`, `snap`: number of the last cycle started and of the last snapshot's
cycle, plus 1; `was`: cycle period, in units of 31.25 µs, in force until a DT (R468); `delay`: propagation delay measured to the
reference clock, in ns; `low`: lowest actual ESM state of the SubDevices. -/
structure LineSt where
  sent : Option Nat
  image : Table (BitVec 64)
  cycle : Nat
  snap : Nat
  was : Option (Nat × Nat)
  delay : Nat
  low : Nat
  deriving DecidableEq, Repr

/-- What the plant controller has set in the plant port (R475): its sync managers and FMMUs. -/
structure PlantSt where
  sms : Table SmCfg
  fmmus : Table FmmuCfg
  deriving DecidableEq, Repr

/-- A hand-off cell that was sent and not answered (R492): index in the transmit ring, destination, DT sent. -/
structure HandOut where
  entry : Nat
  dest : Nat
  sent : Nat
  deriving DecidableEq, Repr

/-- What the cascade unit keeps (R482 to R492). `trained`: a link has trained; `links`: broken links of the ring;
`lastSync`: DT of the last sync cell of the master; `epochMax`: highest EPOCH heard; `trim`: speed up or slow down, and N
(R486); `ticks`: cycles since the last trimmed one; `tolFrom`: DT since which |OFFSET| has been at most 20 ns; `heard`: DT
at which a part was last heard, plus 1; `stepped`: DT has stepped in this join (R487); `retime`: RETIME waits for |OFFSET|
(R488); `delays`: measured delay of a port's link; `expect`: identities expected, as origin, position and lane (R492);
`hoWait`: cells behind TAIL that wait for one of 1,024 places (R46); `masterJoin`: the master's stepping, patch level,
KVER and CFGHASH as last heard (R484); `lastOff`: OFFSET without its saturation; `odWait`: halls whose OD-window request
waits for one of the 1,024 places (R46). -/
structure Casc where
  trained : Bool
  links : Nat
  lastSync : Option Nat
  epochMax : Nat
  trim : Option (Bool × Nat)
  ticks : Nat
  tolFrom : Option Nat
  heard : Table Nat
  stepped : Bool
  retime : Bool
  delays : Table Nat
  expect : List (Nat × Nat × Nat)
  handOut : List HandOut
  hoWait : List Nat
  masterJoin : List Nat
  lastOff : Int
  odWait : List Nat
  deriving DecidableEq, Repr

/-- What an ageing monitor keeps (R500, R501). `last`: value of the last sample; `sum`, `n`: samples of the hour; `means`:
hourly means, newest first; `clearFrom`: DT since which the value has been clear after a notice; `noticed`: a notice was
raised for this crossing. -/
structure AgeRec where
  last : Nat
  sum : Int
  n : Nat
  means : List Int
  clearFrom : Option Nat
  noticed : Bool
  deriving DecidableEq, Repr

/-- Service resources beyond the registers (R502 to R509). `cmd`: the command in progress, as written; `hit`: SEED_CMD was
written meanwhile; `rows`: spared row by channel × 16 + entry, as its number plus 1; `banks`: banks whose post-package repair is
used; `ways`: ways taken out, as slice × 16 + way; `ctxRows`: remapped slots, as PCN × 64 + slot; `log`: the
service log. -/
structure Service where
  cmd : Option (BitVec 64)
  hit : Bool
  rows : Table Nat
  banks : List Nat
  ways : List Nat
  ctxRows : List Nat
  log : List (BitVec 64)
  ages : Table AgeRec
  deriving DecidableEq, Repr

/-- The xSPI port (R533): XSPI_RESET_N low, reading the SFDP tables in 1S-1S-1S at 25 MHz, 1S-1S-1S at up to 50 MHz,
8D-8D-8D at up to 100 MHz, or left by the boot ROM. -/
inductive XspiMode where
  | held | sfdp | single | octal | unused
  deriving DecidableEq, Repr

/-- Power-up, heartbeat and identity (R515, R522, R530 to R534). `memOk`: MEMORY is initialised; `warm`: the last DEVICE
reset was not by POR; `drained`: DRAINED as it stood when POR began; `kick`: DT of the last KICK; `beat`: level of
HEARTBEAT; `failed`: power-fail detection has tripped; `subsys`: Subsystem IDs of the boot image; `hostLoad`: a host load
is awaited (R532); `stopHigh`: DT since which STOP_REQ_N has been high while AX_STOP.PIN still shows low (R374); `link`: the
PCI Express link, none while it is down, as while PERST_N is low (R527); `xspi`: mode of the xSPI port (R533); `ir`: the JTAG
instruction (R536). -/
structure Life where
  memOk : Bool
  warm : Bool
  drained : Bool
  kick : Option Nat
  beat : Bool
  failed : Bool
  subsys : BitVec 32
  hostLoad : Bool
  stopHigh : Option Nat
  link : Option PcieLink
  xspi : XspiMode
  ir : JtagIr
  deriving DecidableEq, Repr

/-- FIX 0: what every MEMORY word holds after initialisation (R528), and an unwritten register. -/
def Word.fix0 : Word := ⟨0, 0⟩

/-- The registers of a fresh context (log entry 5). -/
def Regs.zero : Regs :=
  { w := [], pc := 0, status := 0, cnt := 0, slim := 0, allocp := 0, allocl := 0, speck := 0, bankwin := 0, wait := 0,
    msgp := 0, sh1pc := 0, sh1sp := 0, sh1status := 0, sh2pc := 0, sh2sp := 0, sh2status := 0, shuse := 0,
    landctl := 0, lw := [], lf := [] }

/-- A free slot of hall 0 (R413: at reset hall 0 owns every slot). -/
def Slot.reset : Slot :=
  { owner := 0, pend := none, scn := none, dirty := 0, unchecked := false, scan := false,
    regs := Regs.zero }

/-- A software context number in state NONE. -/
def SwCtx.reset : SwCtx :=
  { st := .none, resume := .none, hall := 0, prio := 0, fillPending := false, result := 0, hcn := 0, desc := 0,
    homeLcn := 0, wait := none, pend := 0, alertWord := [], deferred := [], busy := [], fillNo := 0,
    fillLcn := 0xFF, reopens := [], fillAgain := false, retries := [] }

/-- An invalid TLB entry. -/
def TlbEntry.invalid : TlbEntry :=
  { v := false, hall := 0, asid := 0, g := false, level := 0, vpn := 0, addr := 0, r := false, w := false, x := false,
    u := false, stk := false, a := false, d := false }

/-- A sector in I. -/
def Sector.invalid : Sector := ⟨.i, []⟩

/-- The same value for every sector. -/
def Quad.all {α : Type} (a : α) : Quad α := ⟨a, a, a, a⟩

/-- A barn cache way without a line. -/
def BarnLine.none : BarnLine := ⟨0, Quad.all ⟨.i, 0, []⟩⟩

/-- A barn cache without lines (log entry 5). -/
def BarnCache.reset : BarnCache := ⟨[], []⟩

/-- An invalid Crib entry. -/
def CribEntry.invalid : CribEntry :=
  ⟨0, Sector.invalid, Sector.invalid, Sector.invalid, Sector.invalid⟩

/-- A core slot after a DEVICE reset (R528, R269, R280; log entry 5). -/
def Core.reset : Core :=
  { run := none, halt := none, itlb := [], dtlb := [], stage := 0, keepD := 0,
    keepI := 0xACE1000000000000, lsLw := [], lsLf := 0, armed := [], flipped := [], reloc := [], pram := [],
    pmatch := [], pramErr := [], logBuf := [], logFull := false, vt := [], lastSlot := [], lastZero := [], cribOn := true, crib := [], plru := [], maint := none }

/-- A FREE bin. -/
def Bin.free : Bin :=
  { hall := 0, kind := .free, state := .closed, age := 0, stays := false, epoch := 0, live := 0, top := 0,
    fullSeen := false, starts := [] }

/-- The Gleaner's state of a hall at reset (GL_EPOCH, GL_HSTAT). -/
def GlHall.reset : GlHall :=
  { cycles := 0, phase := .idle, full := false, tenure := 3, goodO := false, goodY := false, marking := false, armAcks := [],
    flipAcks := [], marks := [], queue := [], snapshot := [], cards := [], cardLog := [], remembered := [],
    copies := [], held := none, metas := [], badBins := [], edenOpened := 0, raReason := 0, raCount := 0, exhCount := 0, logStall := 0 }

/-- A FREE speculation record. -/
def GalRec.reset : GalRec :=
  { st := .free, hall := 0, scn := 0, item := none, remote := false, conflict := false, seq := 0, key := 0, slice := 0,
    lines := [], ckpt := Regs.zero, crossDt := 0, held := false }

/-- An axis at reset. -/
def AxRec.reset : AxRec :=
  { base := 0, chgDt := 0, updDt := 0, ill := [], bad := 0, ssi := 0, zref := none, lossDt := 0, recov := false,
    exPos := 0, exDt := 0, exVel := 0, ssiStart := none, ssiNext := 0, pitchStart := 0, bounds := 0, cursors := [],
    still := none, v0 := 0, cellDt := 0, pinA := false, pinB := false, nextPt := 0, past := [], updFrom := 0, tabWait := none,
    dec := 0 }

/-- The configuration state of a function at reset (log entry 66): nothing enabled, every vector masked. -/
def FnCfg.reset : FnCfg :=
  { master := false, msixOn := false, msixMask := false, unmasked := [], pending := [], features := [], payload := 128,
    readReq := 512, cplRange := 0, cplOff := false, aer := [] }

/-- A path at reset (R459). -/
def PathSt.reset : PathSt :=
  { axis := 0, status := 0, count := 0, timeout := 1000, pend := [], commit := none, badIndex := 0, badSub := 0,
    badAbort := 0, badDetail := 0, trState := 0, trDone := 0, trTotal := 0, trKind := 0, series := none }

/-- A cam output without network actions. -/
def CamNet.reset : CamNet := { seq := 0, last := none, cycle := 0 }

/-- The line MainDevice at reset: no cycle is open, and nothing has been measured or heard (log entry 26). -/
def LineSt.reset : LineSt := { sent := none, image := [], cycle := 0, snap := 0, was := none, delay := 0, low := 0 }

/-- A sync manager or FMMU that is not set. -/
def SmCfg.reset : SmCfg := { start := 0, bytes := 0, ctrl := 0, on := false }
/-- An FMMU that is not set. -/
def FmmuCfg.reset : FmmuCfg := { logical := 0, bytes := 0, phys := 0, outputs := false, on := false }

/-- The plant port at reset: nothing is set (log entry 26). -/
def PlantSt.reset : PlantSt := { sms := [], fmmus := [] }

/-- The cascade unit at reset. -/
def Casc.reset : Casc :=
  { trained := false, links := 0, lastSync := none, epochMax := 0, trim := none, ticks := 0, tolFrom := none, heard := [],
    stepped := false, retime := false, delays := [], expect := [], handOut := [], hoWait := [], masterJoin := [],
    lastOff := 0, odWait := [] }

/-- A monitor without history. -/
def AgeRec.reset : AgeRec := { last := 0, sum := 0, n := 0, means := [], clearFrom := none, noticed := false }

/-- No service command, no spare in use. -/
def Service.reset : Service :=
  { cmd := none, hit := false, rows := [], banks := [], ways := [], ctxRows := [], log := [], ages := [] }

/-- Power-up (log entry 3). -/
def Life.reset : Life :=
  { memOk := false, warm := false, drained := true, kick := none, beat := false, failed := false, subsys := 0,
    hostLoad := false, stopHigh := none, link := some ⟨4, 4⟩, xspi := .held, ir := .idcode }

/-- The state of the part. -/
structure State where
  /-- variant, silicon and straps -/
  part : Part
  /-- device time (R39) -/
  dt : BitVec 64
  /-- CLK_TB has locked and DT counts (R39) -/
  dtRun : Bool
  /-- payload bytes of MEMORY that are not 0, by physical address (R42) -/
  mem : List Host.Cell
  /-- tag bytes of MEMORY words that are not 0, by the physical address of the word (R47) -/
  tags : List Host.Cell
  /-- bytes of the Failure Recorder MRAM that are not 0, by MRAM offset (R42, R511) -/
  mram : List Host.Cell
  /-- sectors whose stored codeword is in error: the symbols that differ, each with what it differs by (R297, R302) -/
  planted : Table (List (Nat × Nat))
  /-- barn caches, by barn (R288) -/
  barns : Table BarnCache
  /-- lines of the last-level cache, by line number (R289) -/
  llc : Table LlcLine
  /-- corrected errors of the hour by unit: channel c at c, Crib of core slot p at 100 + p, barn cache b at 200 + b,
  slice at 300 + slice, context store of p at 400 + p, cascade port at 500 + port (R498) -/
  hourCe : Table Nat
  /-- next sector of the patrol scrub (R301) -/
  scrubPos : Nat
  /-- control registers that do not hold their reset value, by offset (R44) -/
  ctl : Table (BitVec 64)
  /-- posted writes not yet applied, oldest first (R31) -/
  posted : List Posted
  /-- hall-scoped and device-scoped system registers that do not hold their reset value, at key hall × 256 + SEL8,
  device-scoped ones at hall 0 (R196) -/
  sysregs : Table (BitVec 64)
  cores : Table Core
  slots : Table Slot
  ctxs : Table SwCtx
  /-- number of the next fill to become pending (R182) -/
  fillNo : Nat
  /-- doorbell ring flags that are set, at hall × 32 + queue (R175) -/
  rings : List Nat
  /-- DT from which the watchdog of each hall counts (R213) -/
  wdogFrom : Table Nat
  tlbis : List TlbiJob
  patch : PatchUnit
  /-- object 0x2F81:01 holds its unlock value (R536) -/
  jtagUnlocked : Bool
  bins : Table Bin
  gl : Table GlHall
  gal : Table GalRec
  /-- speculations opened, 22 bits (R381) -/
  galSeq : Nat
  /-- what the WPU keeps of each axis -/
  axes : Table AxRec
  /-- queues of the cam outputs, in the order written (R364) -/
  cams : Table (List CamAct)
  /-- DT, plus 1, at which each output last took a level that made an edge (R366) -/
  camEdge : Table Nat
  /-- network cam actions locked and not yet placed, oldest first: output, level, fire DT, DT of the lock (R473) -/
  netCams : List NetCam
  /-- DT of the last accepted edge of each mark input, plus 1 (R361) -/
  marks : Table Nat
  /-- comparator level of each mark-sensor channel at the crossing DT of its snapshot (R390) -/
  msLevel : Table Bool
  /-- recent samples of each mark-sensor channel, newest first (R362) -/
  ms : Table (List MsSample)
  /-- applied values of the dictionary objects that no register holds, at index × 256 + subindex, where they do not
  hold their default (R448) -/
  objs : Table Nat
  /-- VF Enable of the SR-IOV capability (R419, R432) -/
  vfEnable : Bool
  /-- NumVFs of the SR-IOV capability -/
  numVfs : Nat
  /-- functions in D3hot: 0 the PF, h VF h (R430) -/
  d3hot : List Nat
  /-- configuration state of the functions: 0 the PF, h VF h (R429 to R437) -/
  fns : Table FnCfg
  /-- descriptors fetched and not completed, oldest first -/
  xe : List XeOp
  /-- what an engine keeps of a hall, at hall × 8 + engine (R441) -/
  xeTurns : Table XeTurn
  /-- queues whose ring is on an even pass, at hall × 32 + queue (PHASE of R444) -/
  evenPass : List Nat
  /-- hall resets in progress -/
  hallRst : Table HallRst
  /-- process-data windows in force since the last line cycle boundary (R415) -/
  pdActive : Table (BitVec 64)
  /-- staged commits, by path: 0 the plant, 1 the manager, 2 + h hall h -/
  dict : Table PathSt
  /-- applied value of object 0x2A10 -/
  eni : List Byte
  /-- the user parameter store, when it is not empty (R465) -/
  params : Option (List Staged)
  /-- the line MainDevice (R467 to R472) -/
  line : LineSt
  /-- sync managers and FMMUs of the plant port (R475) -/
  plant : PlantSt
  /-- words of the output image as taken at the last snapshot (R468) -/
  lineSnap : Table (BitVec 64)
  /-- network actions of the cam outputs -/
  camNets : Table CamNet
  casc : Casc
  service : Service
  life : Life
  recorder : Recorder
  emcy : Emcy
  /-- events that EVENT_READ returns, oldest first (R439) -/
  mgrEvents : List MgrEvent
  out : List Out
  /-- the waiting commands, oldest first (log entry 7) -/
  pending : List Instr
  /-- number of free values used (log entry 8) -/
  free : Nat
  deriving DecidableEq, Repr

/-- The values of part and straps the model starts from (log entries 1 and 2). -/
def Part.reset : Part :=
  { variant := .nrm8640, stepping := 0, bootSrc := 0, cascId := 0, legacyN := true, patchWe := false }

/-- The bytes that are not 0 of a calibration set with zero trims and unity gains, at an MRAM offset (R516; log entry 5). -/
def calAtReset (a : Nat) : List Host.Cell :=
  (List.range 8).map (fun c => (a + 129 + 8 * c, 0x80)) ++
    [(a + 2040, 0x56), (a + 2041, 0xD9), (a + 2042, 0xB4), (a + 2043, 0x93)]

/-- CAL_WORD and CAL_STAT with that set applied. -/
def calWordsAtReset : Table (BitVec 64) :=
  (List.range 8).map (fun c => (0xC03080 + 8 * c, 0x8000)) ++ [(0xC037F8, 0x93B4D956), (0xC03800, 0x8000000093B4D956)]

/-- The machine right after reset: a power-on reset at step 3 of R530, with the always-on logic running and no PLL
locked (log entry 3). -/
def State.reset : State :=
  { part := Part.reset, dt := 0, dtRun := false, mem := [], tags := [],
    mram := (0x200018, 1) :: calAtReset 0x300000 ++ calAtReset 0x301000,
    planted := [], barns := [], llc := [], hourCe := [], scrubPos := 0, ctl := calWordsAtReset, posted := [],
    sysregs := [], cores := [], slots := [], ctxs := [], fillNo := 0,
    rings := [], wdogFrom := [], tlbis := [],
    patch := { staging := [], unlocked := false, image := [], left := [] }, jtagUnlocked := false,
    bins := [], gl := [], gal := [], galSeq := 0,
    axes := [], cams := [], camEdge := [], netCams := [], marks := [], msLevel := [], ms := [], objs := [], vfEnable := false,
    numVfs := 0, d3hot := [], fns := [], xe := [], xeTurns := [], evenPass := [], hallRst := [], pdActive := [],
    dict := [], eni := [], params := none, line := LineSt.reset, plant := PlantSt.reset, lineSnap := [],
    camNets := [], casc := Casc.reset, service := Service.reset, life := Life.reset,
    recorder := { queue := [], ovf := none, next := 0, seq := 0, frozen := none, lost := 0 },
    emcy := { obj1001 := 0, queue := [], burst := none }, mgrEvents := [], out := [], pending := [], free := 0 }

end Sys2Proof.Machine
end

