-- ==== Sys2Proof/Machine/Regs.lean ====
section
/-! DEFINITION. Resources of the variants (R1, R4, R25), accessors of the per-instance tables, and the stored value of
control registers and system registers. -/

namespace Sys2Proof.Machine

/-- DEV_FEATURES.VARIANT (R4). -/
def Variant.code : Variant → Nat
  | .nrm8640 => 0
  | .nrm8632 => 1
  | .nrm8616 => 2

/-- Active logical cores (R4). -/
def Part.cores (pt : Part) : Nat :=
  match pt.variant with
  | .nrm8640 => 64
  | .nrm8632 => 32
  | .nrm8616 => 16

/-- Barns present (R25). -/
def Part.barns (pt : Part) : Nat := pt.cores / 8

/-- GiB of tagged memory (R4). -/
def Part.memGib (pt : Part) : Nat := pt.cores / 4

/-- Bytes of MEMORY payload (R43). -/
def Part.memSize (pt : Part) : Nat := 2 ^ 30 * pt.memGib

/-- Bins (R304). -/
def Part.nbins (pt : Part) : Nat := pt.cores * 128

/-- Highest hall number (R4). -/
def Part.hallMax (pt : Part) : Nat :=
  match pt.variant with
  | .nrm8640 => 63
  | .nrm8632 => 15
  | .nrm8616 => 3

/-- Gallery size in MiB, 0 when absent (R4). -/
def Part.galMib (pt : Part) : Nat :=
  match pt.variant with
  | .nrm8640 => 8
  | .nrm8632 => 4
  | .nrm8616 => 0

/-- A Gallery is present (R4). -/
def Part.hasGallery (pt : Part) : Bool := pt.variant ≠ .nrm8616

/-- A Cascade Link is present (R4). -/
def Part.hasCascade (pt : Part) : Bool := pt.variant = .nrm8640

/-- Encoder axes (R4). -/
def Part.axes (pt : Part) : Nat :=
  match pt.variant with
  | .nrm8616 => 4
  | _ => 8

/-- Cam outputs (R4). -/
def Part.cams (pt : Part) : Nat :=
  match pt.variant with
  | .nrm8616 => 32
  | _ => 64

/-- The core slot exists on the variant (R24, R25). -/
def Part.hasPcn (pt : Part) (p : Nat) : Bool := p < 72 && p / 9 < pt.barns

/-- The physical core numbers present, in order. -/
def Part.pcns (pt : Part) : List Nat := (List.range 72).filter pt.hasPcn

/-- DEV_FEATURES (R3, R4). -/
def Part.features (pt : Part) : BitVec 64 :=
  BitVec.ofNat 64 (2 ^ 48 * pt.cores + 2 ^ 44 * pt.barns + 2 ^ 38 * pt.hallMax + 2 ^ 32 * pt.memGib
    + 2 ^ 28 * pt.galMib + (if pt.hasCascade then 2 ^ 27 else 0) + 2 ^ 23 * pt.axes + 2 ^ 16 * pt.cams
    + pt.variant.code * 2 ^ 8 + pt.stepping.toNat)

/-- The core slot's record. -/
def State.core (s : State) (p : Nat) : Core := look Core.reset s.cores p
/-- The state with a core slot's record replaced. -/
def State.setCore (s : State) (p : Nat) (c : Core) : State := { s with cores := put Core.reset s.cores p c }
/-- The context-store slot of an HCN. -/
def State.slot (s : State) (n : Nat) : Slot := look Slot.reset s.slots n
/-- The state with a context-store slot replaced. -/
def State.setSlot (s : State) (n : Nat) (c : Slot) : State := { s with slots := put Slot.reset s.slots n c }
/-- The event router's record of an SCN. -/
def State.ctx (s : State) (n : Nat) : SwCtx := look SwCtx.reset s.ctxs n
/-- The state with an SCN's record replaced. -/
def State.setCtx (s : State) (n : Nat) (c : SwCtx) : State := { s with ctxs := put SwCtx.reset s.ctxs n c }
/-- A bin. -/
def State.bin (s : State) (n : Nat) : Bin := look Bin.free s.bins n
/-- The state with a bin replaced. -/
def State.setBin (s : State) (n : Nat) (b : Bin) : State := { s with bins := put Bin.free s.bins n b }
/-- The Gleaner's record of a hall. -/
def State.glh (s : State) (h : Nat) : GlHall := look GlHall.reset s.gl h
/-- The state with a hall's Gleaner record replaced. -/
def State.setGl (s : State) (h : Nat) (g : GlHall) : State := { s with gl := put GlHall.reset s.gl h g }
/-- A speculation record. -/
def State.galr (s : State) (i : Nat) : GalRec := look GalRec.reset s.gal i
/-- The state with a speculation record replaced. -/
def State.setGal (s : State) (i : Nat) (g : GalRec) : State := { s with gal := put GalRec.reset s.gal i g }

/-- Changes every listed core slot; a slot at its reset value is not listed. -/
def State.mapCores (s : State) (f : Core → Core) : State :=
  { s with cores := (s.cores.map (fun e => (e.1, f e.2))).filter (fun e => e.2 ≠ Core.reset) }

/-- Changes every listed bin; a FREE bin is not listed. -/
def State.mapBins (s : State) (f : Bin → Bin) : State :=
  { s with bins := (s.bins.map (fun e => (e.1, f e.2))).filter (fun e => e.2 ≠ Bin.free) }

/-- Changes every listed context; an SCN in state NONE is not listed. -/
def State.mapCtxs (s : State) (f : SwCtx → SwCtx) : State :=
  { s with ctxs := (s.ctxs.map (fun e => (e.1, f e.2))).filter (fun e => e.2 ≠ SwCtx.reset) }

/-- The next free value, and the state that has used it (log entry 8). -/
def State.freeNat (s : State) : Nat × State := (Config.freeNat s.free, { s with free := s.free + 1 })

/-- The next free value about an address, and the state that has used it (log entry 8). -/
def State.freeAt (s : State) (a : Nat) : Nat × State := (Config.freeAt s.free a, { s with free := s.free + 1 })

/-- Default thresholds of object 0x5C00, which AGE_THR holds at reset (R501). -/
def ageDefaults : List Nat := [40, 8760, 25, 180, 4, 1000, 8, 2]

/-- The reset value of the register at an offset (the Reset column of its map, R24, R12, R526). -/
def regReset (pt : Part) (off : Nat) : BitVec 64 :=
  match regDesc off with
  | none => 0
  | some d =>
    let v := d.resetValue
    if 0xD00008 ≤ off && off < 0xD00200 then setBit v 0 (!pt.legacyN)
    else if off = Reg.hallState 0 then setFld v 63 61 2
    else if off = Reg.hallShare 0 then setFld v 15 8 (2 ^ pt.axes - 1)
    else if off = Reg.cascState then
      if pt.hasCascade then
        setFld (setFld v 63 60 (if pt.cascId = 0 then 5 else 1)) 55 53 pt.cascId.toNat
      else 0
    else if 0xC01100 ≤ off && off < 0xC01300 then
      let c := (off - 0xC01100) / 8
      if c < pt.cores then setFld v 6 0 (c / 8 * 9 + c % 8) else 0
    else if 0xC01400 ≤ off && off < 0xC01640 then
      let p := (off - 0xC01400) / 8
      if pt.hasPcn p then
        setFld (setFld v 63 61 (if p % 9 = 8 then 2 else 1)) 57 52 (if p % 9 = 8 then 0 else p / 9 * 8 + p % 9)
      else 0
    else if 0xC00800 ≤ off && off < 0xC00840 then setFld v 31 0 (ageDefaults.getD ((off - 0xC00800) / 8) 0)
    else v

/-- The stored value of a control register. -/
def State.reg (s : State) (off : Nat) : BitVec 64 := look (regReset s.part off) s.ctl off

/-- The state with a stored control register replaced; a register at its reset value is not listed. -/
def State.setReg (s : State) (off : Nat) (v : BitVec 64) : State :=
  { s with ctl := put (regReset s.part off) s.ctl off v }

/-- A field of a stored control register. -/
def State.rf (s : State) (off hi lo : Nat) : Nat := fld (s.reg off) hi lo

/-- The state with a field of a stored control register replaced. -/
def State.setRf (s : State) (off hi lo x : Nat) : State := s.setReg off (setFld (s.reg off) hi lo x)

/-- The state with a saturating counter field raised by n. -/
def State.bumpRf (s : State) (off hi lo n : Nat) : State := s.setReg off (bumpFld (s.reg off) hi lo n)

/-- Reset values of the hall-scoped and device-scoped system registers (R198, R255; SCALLn_PC: log entry 5). -/
def sysReset (sel : Nat) : BitVec 64 :=
  if sel = 0x42 then 2 else if sel = 0x44 then 4 else if sel = 0x49 ∨ sel = 0x4D then setFld 0 58 54 0xC else 0

/-- A hall-scoped system register of hall h, or a device-scoped one at h = 0 (R196). -/
def State.sys (s : State) (h sel : Nat) : BitVec 64 := look (sysReset sel) s.sysregs (h * 256 + sel)

/-- The state with such a register replaced. -/
def State.setSys (s : State) (h sel : Nat) (v : BitVec 64) : State :=
  { s with sysregs := put (sysReset sel) s.sysregs (h * 256 + sel) v }

/-- The hall a system register is kept under: selectors of device scope are kept under 0 (R196). -/
def sysHall (h sel : Nat) : Nat := if sel = 0x44 ∨ sel = 0x45 ∨ sel = 0x4C ∨ sel = 0x4D then 0 else h

/-- NRM-5200-compatible mode as sampled at the hall's last START (R13): HALL_STATE[h].COMPAT_ACTIVE. -/
def State.compat (s : State) (h : Nat) : Bool := s.rf (Reg.hallState h) 57 57 = 1

/-- The logical core a core slot carries: the LCN whose SEED_MAP entry names it (R24). -/
def State.lcnOf (s : State) (p : Nat) : Option Nat :=
  (List.range s.part.cores).find? (fun c => s.rf (Reg.seedMap c) 6 0 = p)

/-- The slot is held in CORE reset, as a seed or retired (R24, R503, R505). -/
def State.held (s : State) (p : Nat) : Bool :=
  let st := s.rf (Reg.seedSlot p) 63 61
  st = 0 || st = 2 || st = 5

/-- A hall that has been created: HALL_STATE[h].STATE is not NONE. -/
def State.hallCreated (s : State) (h : Nat) : Bool := s.rf (Reg.hallState h) 63 61 ≠ 0

/-- The hall is RESETTING. -/
def State.resetting (s : State) (h : Nat) : Bool := s.rf (Reg.hallState h) 63 61 = 3

/-- What an axis keeps beside its registers. -/
def State.axr (s : State) (x : Nat) : AxRec := look AxRec.reset s.axes x
/-- The state with an axis's record replaced. -/
def State.setAxr (s : State) (x : Nat) (r : AxRec) : State := { s with axes := put AxRec.reset s.axes x r }

/-- Default of a dictionary object that no register holds (R376), by index and subindex. -/
def objDefault (index sub : Nat) : Nat :=
  if index = 0x2740 then if sub = 0 then 0x18 else if sub % 3 = 2 then 20 else if sub % 3 = 0 then 100 else 0 else 0

/-- The applied value of such an object (R448). -/
def State.obj (s : State) (index sub : Nat) : Nat := look (objDefault index sub) s.objs (index * 256 + sub)
/-- The state with such a value applied. -/
def State.setObj (s : State) (index sub v : Nat) : State :=
  { s with objs := put (objDefault index sub) s.objs (index * 256 + sub) v }

end Sys2Proof.Machine
end

