-- ==== Sys2Proof/Machine/Pcie.lean ====
section
/-! DEFINITION. The functions of the PCI Express endpoint (spec/14_host_pcie.md, R429 to R433, R437): what their
configuration space holds and reads, which requests they issue and how their MSI-X messages are masked. -/

namespace Sys2Proof.Machine

/-- The state with something sent. -/
def State.send (s : State) (o : Out) : State := { s with out := o :: s.out }

/-- VF h is enabled (R409, R432). -/
def State.vfOn (s : State) (h : Nat) : Bool := s.vfEnable && 1 ≤ h && h ≤ s.numVfs

/-- The configuration state of a function: 0 the PF, h VF h. -/
def State.fnCfg (s : State) (f : Nat) : FnCfg := look FnCfg.reset s.fns f
/-- The state with the configuration of a function replaced. -/
def State.setFn (s : State) (f : Nat) (c : FnCfg) : State := { s with fns := put FnCfg.reset s.fns f c }

/-- A function exists: the PF, or an enabled VF. -/
def State.hasFn (s : State) (f : Nat) : Bool := f = 0 || s.vfOn f

/-- The PCI Express link is up (R527). -/
def State.linkUp (s : State) : Bool := s.life.link.isSome

/-- A function issues requests: the link is up, it exists, is not in D3hot and has Bus Master Enable (R430, R434, R527). -/
def State.requests (s : State) (f : Nat) : Bool :=
  s.linkUp && s.hasFn f && !s.d3hot.contains f && (s.fnCfg f).master

/-- A request of a function, whose Requester ID it carries (R433), or nothing. -/
def State.request (s : State) (f : Nat) (o : Out) : State := if s.requests f then s.send o else s

/-! MSI-X. -/

/-- Vectors of a function (R429). -/
def fnVectors (f : Nat) : Nat := if f = 0 then 2048 else 64

/-- A message of a function (R437): held pending while its vector or the function is masked, and not signalled while MSI-X is
not enabled or the function issues no request (log entry 66). -/
def State.msix (s : State) (f vec : Nat) : State :=
  let c := s.fnCfg f
  if !c.msixOn || !s.requests f then s
  else if c.msixMask || !c.unmasked.contains vec then s.setFn f { c with pending := vec :: c.pending.filter (· ≠ vec) }
  else s.send (.msix f vec)

/-- The pending messages that are no longer masked are signalled. -/
def State.releaseMsix (s : State) (f : Nat) : State :=
  let c := s.fnCfg f
  if !c.msixOn || c.msixMask || !s.requests f then s
  else
    let s := s.setFn f { c with pending := c.pending.filter (fun k => !c.unmasked.contains k) }
    (c.pending.filter c.unmasked.contains).foldl (fun s k => s.send (.msix f k)) s

/-! Configuration space. -/

/-- The features that the part implements (R429). -/
def featureThere : PcieFeature → Bool
  | .tag10 | .ecrc | .aer | .ari | .cplTimeout => true
  | .relaxedOrdering | .noSnoop | .aspm | .l1pm | .atomics | .tph | .ltr | .ats | .pri | .pasid | .vfMigration | .intx
  | .msi => false

/-- A control bit of a feature as it reads: not supported reads 0 (R429). -/
def State.featureOn (s : State) (f : Nat) (k : PcieFeature) : Bool := featureThere k && (s.fnCfg f).features.contains k

/-- A write of a control bit: that of a feature which is not supported has no effect (R429). -/
def State.setFeature (s : State) (f : Nat) (k : PcieFeature) (on : Bool) : State :=
  let c := s.fnCfg f
  if !featureThere k then s
  else s.setFn f { c with features := (if on then [k] else []) ++ c.features.filter (· ≠ k) }

/-- The configuration header of a function (R431). -/
def State.cfgHeader (s : State) (f : Nat) : CfgHeader :=
  { vendor := if f = 0 then Config.vendorId else 0xFFFF, device := if f = 0 then 0x8640 else 0xFFFF,
    revision := s.part.stepping, classCode := 0x120000, subsystem := s.life.subsys,
    bars := if f = 0 then [⟨0, 16777216, true, false⟩] else [], intPin := 0,
    caps := if f = 0 then [.power, .pcie, .msix, .aer, .ari, .sriov] else [.pcie, .msix, .aer, .ari],
    link := s.life.link }

/-- The SR-IOV capability of the PF (R432). -/
def State.sriov (s : State) : SriovCap :=
  { initialVfs := s.part.hallMax, totalVfs := s.part.hallMax, firstOffset := 1, stride := 1, vfDevice := 0x8641,
    pageSizes := 1, vfBar0 := ⟨0, 65536, true, false⟩, migration := false, dependency := 0, enable := s.vfEnable, numVfs := s.numVfs }

/-- A function moves to D3hot or back to D0 (R430). -/
def State.setD3 (s : State) (f : Nat) (on : Bool) : State :=
  { s with d3hot := (if on then [f] else []) ++ s.d3hot.filter (· ≠ f) }

/-- Max Payload Size up to 512 bytes, and Max Read Request Size up to 4,096 (R429). -/
def sizeOk (n most : Nat) : Bool := [128, 256, 512, 1024, 2048, 4096].contains n && n ≤ most

/-- Completion Timeout values of Ranges A and B, and the default (R429; log entry 66). -/
def cplRangeOk (n : Nat) : Bool := [0, 1, 2, 5, 6].contains n

/-- WORD_REJECTED or HOST_ERROR is logged through AER of the hall's function (R445; log entry 66). -/
def State.logAer (s : State) (f status : Nat) : State :=
  s.setFn f { s.fnCfg f with aer := (s.fnCfg f).aer ++ [status] }

/-- What a read of the configuration shows: control bits of features that are not supported read 0 (R429). -/
def State.cfgShown (s : State) (f : Nat) : FnCfg :=
  { s.fnCfg f with features := (s.fnCfg f).features.filter (s.featureOn f) }

/-- A configuration request to a function (log entry 66); one to a function that does not exist, or over a link that is down,
changes nothing, and a setting that is not supported has no effect (R429). -/
def State.cfgRequest (s : State) (f : Nat) (q : CfgReq) : State :=
  let c := s.fnCfg f
  if !s.linkUp || !s.hasFn f then s
  else match q with
    | .power on => s.setD3 f on
    | .master on => (s.setFn f { c with master := on }).releaseMsix f
    | .msixControl on mask => (s.setFn f { c with msixOn := on, msixMask := mask }).releaseMsix f
    | .vector k masked =>
      if fnVectors f ≤ k then s
      else (s.setFn f { c with unmasked := (if masked then [] else [k]) ++ c.unmasked.filter (· ≠ k) }).releaseMsix f
    | .control k on => s.setFeature f k on
    | .maxPayload n => if sizeOk n 512 then s.setFn f { c with payload := n } else s
    | .maxReadReq n => if sizeOk n 4096 then s.setFn f { c with readReq := n } else s
    | .cplTimeout range off => if cplRangeOk range then s.setFn f { c with cplRange := range, cplOff := off } else s
    | .clearAer => s.setFn f { c with aer := [] }
    | .read => s.send (.cfgRead f (s.cfgHeader f) (if f = 0 then some s.sriov else none) (s.cfgShown f))

/-- The configuration state of a function is reset: an FLR, or a VF that goes (R425, R430). -/
def State.resetFn (s : State) (f : Nat) : State :=
  (s.setFn f FnCfg.reset).setD3 f false

end Sys2Proof.Machine
end

