-- ==== Sys2Proof/Machine/Report.lean ====
section
/-! DEFINITION. Reporting (spec/17_service_life.md, R496, R497, R513; R477, R437): one shared operation allocates a
record and fans out to every channel. -/

namespace Sys2Proof.Machine

/-- An event to the device kernel (hall 0) or to a hall kernel. -/
def State.event (s : State) (h : Nat) (name : String) (arg : Nat := 0) : State := s.send (.event h name arg)

/-- A PF MSI-X message that EVENT_READ details (R437, R439, R496): vector, hall, event code, index of the record. -/
def State.mgrMsix (s : State) (vec hall code index : Nat) : State :=
  { s.msix 0 vec with mgrEvents := s.mgrEvents ++ [⟨s.dt.toNat, vec, hall, code, index⟩] }

/-- The event to the device kernel that a record raises (R496): its code, and its index above (log entry 19). -/
def State.recordEvent (s : State) (code index : Nat) : State := s.event 0 "record" (code + 65536 * index)

/-- The index after i in the ring of 65,536 records, skipping the frozen block of 4,096 (R513, R514). -/
def ringNext (frozen : Option Nat) (i : Nat) : Nat :=
  let j := (i + 1) % 65536
  match frozen with
  | none => j
  | some b => if (j + 65536 - b) % 65536 < 4096 then (b + 4096) % 65536 else j

/-- The MRAM with one byte written (the table's default is 0). -/
def State.setMram (s : State) (a : Nat) (b : Byte) : State := { s with mram := put 0 s.mram a b }

/-- The MRAM with the low bytes of a number written at an offset, little-endian. -/
def State.setMramN (s : State) (a : Nat) : Nat → Nat → State
  | 0, _ => s
  | n + 1, v => (s.setMram a (BitVec.ofNat 8 v)).setMramN (a + 1) n (v / 256)

/-- A 64-bit word of the MRAM (R511). -/
def State.mramWord (s : State) (a : Nat) : BitVec 64 :=
  BitVec.ofNat 64 ((List.range 8).foldr (fun i n => (look 0 s.mram (a + i)).toNat + 256 * n) 0)

/-- DRAINED of the ring control (R549). -/
def State.setDrained (s : State) (b : Bool) : State := s.setMram 0x200018 (if b then 1 else 0)

/-- The code of DEV_ERRSUM.LAST_CLASS. -/
def Class.code : Class → Nat
  | .event => 0
  | .notice => 1
  | .corrected => 2
  | .contained => 3
  | .uncontained => 4

/-- Emergency error code of a record code (R477; log entry 15). -/
def emcyCode (code : Nat) : Nat :=
  if code = 0x021 ∨ code = 0x022 ∨ code = 0x023 ∨ code = 0x031 then 0x5000
  else if code = 0x050 then 0x7300
  else if (0x060 ≤ code ∧ code ≤ 0x063) ∨ code = 0x070 then 0x8100
  else if code = 0x081 then 0x8700
  else 0xFF00

/-- The plant port sends Emergencies in PREOP, SAFEOP and OP (R477). -/
def State.plantSends (s : State) : Bool :=
  let al := s.rf Reg.ecpStat 63 60
  al = 2 || al = 4 || al = 8

/-- Sends or queues one Emergency with 0x1001 as it then stands (R477). -/
def State.emergencyRaw (s : State) (code cls index hall inst : Nat) : State :=
  let o := Out.emcy code s.emcy.obj1001.toNat cls index hall inst
  if s.rf Reg.ecpCfg 47 47 = 0 then s
  else if s.plantSends then s.send o
  else if s.emcy.queue.length < 16 then { s with emcy := { s.emcy with queue := s.emcy.queue ++ [o] } }
  else
    let n := match s.emcy.burst with
      | none => 1
      | some k => k + 1
    { s.bumpRf Reg.ecpStat 31 16 1 with emcy := { s.emcy with burst := some n } }

/-- The Emergency of a CONTAINED or UNCONTAINED error (R477). -/
def State.emergency (s : State) (code cls index hall inst : Nat) : State :=
  let bits : BitVec 8 := if code / 0x1000 = 8 then 0x11 else 0x81
  let s := { s with emcy := { s.emcy with obj1001 := s.emcy.obj1001 ||| bits } }
  s.emergencyRaw code cls index hall inst

/-- What a report says (R511): absent parts hold their codes for none. -/
structure Note where
  code : Nat
  cls : Class
  source : Nat
  hall : Nat := 0xFF
  inst : Nat := 0xFF
  scn : Nat := 0xFFFF
  addr : Nat := 0
  detail : BitVec 64 := 0

/-- The ring control in the MRAM (R549): word 0 is FREC_STAT.NEXT, word 1 the next SEQ, word 2 the frozen block. -/
def State.storeRing (s : State) : State :=
  let r := s.recorder
  let s := (s.setMramN 0x200000 8 r.next).setMramN 0x200008 8 r.seq.toNat
  s.setMramN 0x200010 8 (match r.frozen with
    | some b => 2 ^ 63 + b
    | none => 0)

/-- Allocates the record index of a report and queues the record (R513): the index, and the state. -/
def State.allocRecord (s : State) (n : Note) : Nat × State :=
  let r := s.recorder
  if r.queue.length < 64 then
    let c : Record :=
      { index := r.next, dt := s.dt, code := n.code, cls := n.cls, suspect := s.rf Reg.cascTime 63 63 = 1,
        source := n.source, hall := n.hall, inst := n.inst, scn := n.scn, addr := n.addr, detail := n.detail }
    let s := { s with recorder := { r with queue := r.queue ++ [c], next := ringNext r.frozen r.next } }
    (r.next, (s.setDrained false).storeRing)
  else
    match r.ovf with
    | some (i, k) => (i, { s with recorder := { r with ovf := some (i, k + 1), lost := sat 16 (r.lost + 1) } })
    | none =>
      let s := { s with recorder :=
        { r with ovf := some (r.next, 1), next := ringNext r.frozen r.next, lost := sat 16 (r.lost + 1) } }
      (r.next, s.storeRing)

/-- DEV_ERRSUM after a report (R496 step 2). -/
def State.errsum (s : State) (c : Class) (index : Nat) : State :=
  let v := s.reg Reg.devErrsum
  let v := match c with
    | .corrected => bumpFld v 63 48 1
    | .contained => bumpFld v 47 32 1
    | .uncontained => bumpFld v 31 24 1
    | _ => v
  s.setReg Reg.devErrsum (setFld (setFld v 23 21 c.code) 15 0 index)

/-- The MSI-X message of a report, where one is configured (R497, R499, DEV_ERRCFG). -/
def State.reportMsix (s : State) (n : Note) (i : Nat) : State :=
  let cfg := s.reg Reg.devErrcfg
  match n.cls with
  | .event => if bit cfg 3 then s.mgrMsix 2 n.hall n.code i else s
  | .notice => if bit cfg 3 then s.mgrMsix 2 n.hall n.code i else s
  | .corrected => if bit cfg 0 then s.mgrMsix 1 n.hall n.code i else s
  | .contained => if bit cfg 1 then s.mgrMsix 1 n.hall n.code i else s
  | .uncontained => if bit cfg 2 then s.mgrMsix 1 n.hall n.code i else s

/-- Reports a happening on every channel (R496, R497): the record index, and the state. -/
def State.report (s : State) (n : Note) : Nat × State :=
  let (i, s) := s.allocRecord n
  let s := s.errsum n.cls i
  let s := (s.recordEvent n.code i).reportMsix n i
  let inst := if emcyCode n.code = 0x7300 ∨ n.code = 0x031 then n.inst else 0xFF
  match n.cls with
  | .contained => (i, s.emergency (emcyCode n.code) 2 i n.hall inst)
  | .uncontained => (i, (s.setRf Reg.devAlert 4 4 1).emergency (emcyCode n.code) 3 i n.hall inst)
  | _ => (i, s)

/-- A report whose index nobody needs. -/
def State.note (s : State) (n : Note) : State := (s.report n).2

/-- A change of a share of hall h (R411, R437): event to its hall kernel, manager message and record. DETAIL holds the
share id in bits 7:0 and the value above it (log entry 19). -/
def State.shareChanged (s : State) (h id value : Nat) : State :=
  let (i, s) := s.report { code := 0x092, cls := .event, source := 0xB, hall := h,
                           detail := BitVec.ofNat 64 (id + value * 256) }
  let s := s.event h "SHARE_CHANGED" id
  if h = 0 then s else s.mgrMsix (64 + h) h 0x092 i

/-- A share held in a field of a register takes a value; a change raises its event and record (R411). -/
def State.setShare (s : State) (h id off hi lo v : Nat) : State :=
  if s.rf off hi lo = v then s else (s.setRf off hi lo v).shareChanged h id v

end Sys2Proof.Machine
end

