-- ==== Sys2Proof/Machine/Ageing.lean ====
section
/-! DEFINITION. The histories of the ageing monitors and the notices they give (spec/17_service_life.md, R500, R501). -/

namespace Sys2Proof.Machine

/-- Key of a monitor's history; the second of a lane is its width's, and a row's is that of the DRAM row that holds
the address (R296). -/
def monKey : Monitor → Nat
  | .core p => p
  | .lane l => 100 + l
  | .channel c => 200 + c
  | .way a b => 300 + a * 16 + b
  | .ctxRow p k => 1000 + p * 64 + k
  | .row pa => 10000 + Config.rowOf (pa / 256)
  | .word _ _ | .entry _ _ | .coreState _ | .patchWord _ _ | .link _ | .ctxWord _ _ => 0

/-- Key of the second value. -/
def widthKey (l : Nat) : Nat := 150 + l

/-- A monitor's history. -/
def State.age (s : State) (k : Nat) : AgeRec := look AgeRec.reset s.service.ages k
/-- The state with a monitor's history replaced. -/
def State.setAge (s : State) (k : Nat) (a : AgeRec) : State :=
  { s with service := { s.service with ages := put AgeRec.reset s.service.ages k a } }

/-- Least-squares slope of values, oldest first, as numerator and denominator per hour (R500). -/
def slopeOf (l : List Int) : Int × Int :=
  let n : Int := l.length
  let ts := (List.range l.length).map (fun (i : Nat) => (i : Int))
  let st := ts.foldl (· + ·) 0
  let sy := l.foldl (· + ·) 0
  let sty := (ts.zip l).foldl (fun a e => a + e.1 * e.2) 0
  let stt := ts.foldl (fun a t => a + t * t) 0
  (n * sty - st * sy, n * stt - st * st)

/-- ESTIMATE in hours, none when the value does not approach its threshold from above (R500). -/
def estimateOf (v thr : Int) (num den : Int) : Option Nat :=
  if den ≤ 0 || 0 ≤ num then none else if v ≤ thr then some 0 else some (((v - thr) * den) / (-num)).toNat

/-- ESTIMATE in hours of a value that its threshold bounds from above, a tracker's (R500). -/
def estimateUp (v thr : Int) (num den : Int) : Option Nat := estimateOf (-v) (-thr) (-num) den

/-- ESTIMATE as a register shows it, in units of 10 h. -/
def estimateField (o : Option Nat) : Nat :=
  match o with
  | none => 0xFFFF
  | some h => min (h / 10) 0xFFFE

/-- The nearer of two estimates. -/
def nearer : Option Nat → Option Nat → Option Nat
  | some a, some b => some (min a b)
  | some a, none => some a
  | none, o => o

/-- The estimate of one series at its present value. -/
def State.seriesEstimate (s : State) (k : Nat) (v thr : Nat) : Option Nat :=
  let (num, den) := slopeOf (s.age k).means.reverse
  estimateOf v thr num den

/-- A threshold of 0x5C00. -/
def State.ageThr (s : State) (i : Nat) : Nat := s.rf (Reg.ageThr i) 31 0

/-- Where a WEAR_NOTICE points (R501): INSTANCE and ADDR. -/
def monPlace : Monitor → Nat × Nat
  | .core p => (p, 0)
  | .lane l => (l, 0)
  | .channel c => (c, 0)
  | .row pa => (0xFF, pa)
  | .way a b => (a * 16 + b, 0)
  | .ctxRow p k => (p, p * 64 + k)
  | .word _ _ | .entry _ _ | .coreState _ | .patchWord _ _ | .link _ | .ctxWord _ _ => (0xFF, 0)

/-- The register that shows a monitor. -/
def monReg : Monitor → Option Nat
  | .core p => some (Reg.ageCore p)
  | .lane l => some (Reg.ageLane l)
  | _ => none

/-- A notice, once for each crossing, and again only after 24 h clear (R501). -/
def State.wear (s : State) (m : Monitor) (bad : Bool) (v : Nat) (est : Option Nat) : State :=
  let a := s.age (monKey m)
  let now := s.dt.toNat
  let show' := fun (s : State) (b : Nat) => match monReg m with
    | some off => s.setRf off 15 15 b
    | none => s
  if bad then
    if a.noticed then s.setAge (monKey m) { a with clearFrom := none }
    else
      let s := show' (s.setAge (monKey m) { a with noticed := true, clearFrom := none }) 1
      let e := match est with
        | some h => min h (2 ^ 32 - 2)
        | none => 2 ^ 32 - 1
      s.note { code := 0x010, cls := .notice, source := 0, inst := (monPlace m).1, addr := (monPlace m).2,
               detail := BitVec.ofNat 64 (v % 2 ^ 32 + 2 ^ 32 * e) }
  else if !a.noticed then s
  else match a.clearFrom with
    | none => s.setAge (monKey m) { a with clearFrom := some now }
    | some t =>
      if t + 86400000000000 ≤ now then show' (s.setAge (monKey m) { a with noticed := false, clearFrom := none }) 0 else s

/-- A value joins its hour. -/
def State.addSample (s : State) (k v : Nat) : State :=
  let a := s.age k
  s.setAge k { a with last := v, sum := a.sum + v, n := a.n + 1 }

/-- What a tracker's count means (R501): above threshold `i` of 0x5C00, or with an uncorrectable error where `ue` counts, it gives
notice. -/
def State.judgeTracker (s : State) (m : Monitor) (i : Nat) (ue : Bool) : State :=
  let v := (s.age (monKey m)).last
  let (num, den) := slopeOf (s.age (monKey m)).means.reverse
  s.wear m (ue || s.ageThr i < v) v (estimateUp v (s.ageThr i) num den)

/-- A tracker's sample (R500, R501). -/
def State.trackSample (s : State) (m : Monitor) (i v : Nat) (ue : Bool) : State :=
  (s.addSample (monKey m) v).judgeTracker m i ue

end Sys2Proof.Machine
end

