-- ==== Sys2Proof/Machine/Ecc.lean ====
section
/-! DEFINITION. The check code of a stored sector (spec/09_crib_and_memory.md R297): a Reed-Solomon code over GF(2^16)
with 40 symbols, its encoder and its decoder. -/

namespace Sys2Proof.Machine

/-- x times an element, modulo the field polynomial x^16 + x^12 + x^3 + x + 1. -/
def gfDouble (a : Nat) : Nat := if a < 0x8000 then 2 * a else Nat.xor (2 * a) 0x1100B

/-- The product of an element and the low `n` bits of another. -/
def gfTimes (a b : Nat) : Nat → Nat
  | 0 => 0
  | n + 1 => Nat.xor (if b % 2 = 1 then a else 0) (gfTimes (gfDouble a) (b / 2) n)

/-- The product of two elements. -/
def gfMul (a b : Nat) : Nat := gfTimes a b 16

/-- The powers of α = x. -/
def alphaPow : Nat → Nat
  | 0 => 1
  | n + 1 => gfDouble (alphaPow n)

/-- Coefficients, highest first, of a polynomial times x - r; `last` carries the one before. -/
def timesRoot (r : Nat) : List Nat → Nat → List Nat
  | [], last => [gfMul last r]
  | c :: cs, last => Nat.xor c (gfMul last r) :: timesRoot r cs c

/-- g(x) of R297, highest coefficient first. -/
def genPoly : List Nat := (List.range 4).foldl (fun g k => timesRoot (alphaPow k) g 0) [1]

/-- The four check symbols of 36 symbols: the remainder of their polynomial times x^4 by g. -/
def checkSymbols (d : List Nat) : List Nat :=
  d.foldl (fun r c =>
    let f := Nat.xor c (r.headD 0)
    ((r.drop 1 ++ [0]).zip (genPoly.drop 1)).map (fun (a, g) => Nat.xor a (gfMul f g))) [0, 0, 0, 0]

/-- Symbols 0 to 35 of eight words: payload bytes in pairs, then tag bytes in pairs. -/
def dataSymbols (ws : List Word) : List Nat :=
  ws.flatMap (fun w => (List.range 4).map (fun i => fld w.payload (16 * i + 15) (16 * i))) ++
    (List.range 4).map (fun j => (ws.getD (2 * j) ⟨0, 0⟩).tag.toNat + 256 * (ws.getD (2 * j + 1) ⟨0, 0⟩).tag.toNat)

/-- The codeword of eight words. -/
def codeword (ws : List Word) : List Nat := dataSymbols ws ++ checkSymbols (dataSymbols ws)

/-- A codeword with some of its symbols differing. -/
def withErrors (c : List Nat) (err : List (Nat × Nat)) : List Nat :=
  ((List.range 40).zip c).map (fun (i, x) => err.foldl (fun x e => if e.1 = i then Nat.xor x e.2 else x) x)

/-- Syndrome k: c(x) at α^k. -/
def syndrome (c : List Nat) (k : Nat) : Nat := c.foldl (fun a x => Nat.xor (gfMul a (alphaPow k)) x) 0

/-- What the decoder makes of 40 symbols. -/
inductive Decoded where
  | clean
  | corrected (symbol : Nat)
  | uncorrectable
  deriving DecidableEq, Repr

/-- The decoder of R297: an error in one symbol is corrected, every other non-zero syndrome is uncorrectable. -/
def decodeSector (c : List Nat) : Decoded :=
  let a := syndrome c 0
  let b := syndrome c 1
  let d := syndrome c 2
  let e := syndrome c 3
  if a = 0 && b = 0 && d = 0 && e = 0 then .clean
  else match (List.range 40).find? (fun i =>
      let x := alphaPow (39 - i)
      a ≠ 0 && b = gfMul a x && d = gfMul b x && e = gfMul d x) with
    | some i => .corrected i
    | none => .uncorrectable

/-- `n` symbols inverted from symbol `k` on, modulo 40 (R302). -/
def invertedFrom (k n : Nat) : List (Nat × Nat) := (List.range n).map (fun i => ((k + i) % 40, 0xFFFF))

end Sys2Proof.Machine
end

