-- ==== Sys2Proof/Machine/Mem.lean ====
section
/-! DEFINITION. MEMORY (spec/01_the_part.md R42, R43; spec/02_tagged_words.md R47; spec/09_crib_and_memory.md): words
and their canonical tables, and the sectors the memory controllers read and write with their check codes. The payload
table is the coherent view of MEMORY, what the caches hold in M included; an uncorrectable sector that a cache has read
stands in it as POISON, its stored copy staying in error until it is written. -/

namespace Sys2Proof.Machine

/-- The regions of the physical address space (R42). -/
inductive Region where
  | memory | device | mram | hostwin | outside
  deriving DecidableEq, Repr

/-- The region of a physical address (R42, R43). -/
def regionOf (pt : Part) (pa : Nat) : Region :=
  if pa < pt.memSize then .memory
  else if 0x4000000000 ≤ pa ∧ pa < 0x4001000000 then .device
  else if 0x4010000000 ≤ pa ∧ pa < 0x4011000000 then .mram
  else if 0x8000000000 ≤ pa ∧ pa < 0xC000000000 then .hostwin
  else .outside

/-- The canonical form of a byte memory: addresses strictly rising, no listed byte equal to 0, which is what an
unlisted address reads as (R528). -/
def Memory.wf (m : List Host.Cell) : Bool := Canon (0 : Byte) m

/-- One payload byte of MEMORY. -/
def State.memByte (s : State) (pa : Nat) : Byte := look 0 s.mem pa

/-- Eight bytes of a table as a little-endian 64-bit value (R47). -/
def bytes8 (t : List Host.Cell) (a : Nat) : BitVec 64 :=
  look 0 t (a + 7) ++ look 0 t (a + 6) ++ look 0 t (a + 5) ++ look 0 t (a + 4) ++ look 0 t (a + 3) ++ look 0 t (a + 2)
    ++ look 0 t (a + 1) ++ look 0 t a

/-- A byte table with a little-endian 64-bit value at an address. -/
def setBytes8 (t : List Host.Cell) (a : Nat) (v : BitVec 64) : List Host.Cell :=
  put 0 (put 0 (put 0 (put 0 (put 0 (put 0 (put 0 (put 0 t a (v.extractLsb' 0 8)) (a + 1) (v.extractLsb' 8 8)) (a + 2)
    (v.extractLsb' 16 8)) (a + 3) (v.extractLsb' 24 8)) (a + 4) (v.extractLsb' 32 8)) (a + 5) (v.extractLsb' 40 8))
    (a + 6) (v.extractLsb' 48 8)) (a + 7) (v.extractLsb' 56 8)

/-- The word of MEMORY at a word address (R47). -/
def State.memWord (s : State) (pa : Nat) : Word := ⟨look 0 s.tags pa, bytes8 s.mem pa⟩

/-- MEMORY with a word written. -/
def State.setMemWord (s : State) (pa : Nat) (w : Word) : State :=
  { s with mem := setBytes8 s.mem pa w.payload, tags := put 0 s.tags pa w.tag }

/-- The word address a byte lies in. -/
def wordOf (pa : Nat) : Nat := pa / 8 * 8

/-- The eight words of the 64-byte sector that holds an address. -/
def State.sectorWords (s : State) (pa : Nat) : List Word :=
  (List.range 8).map (fun j => s.memWord (pa / 64 * 64 + 8 * j))

/-- MEMORY with a list of words written from an address on. -/
def State.setWords (s : State) (pa : Nat) : List Word → State
  | [] => s
  | w :: ws => (s.setMemWord pa w).setWords (pa + 8) ws

/-- TYPE POISON with the index of a record (R58). -/
def poisonWord (i : Nat) : Word := ⟨0x32, BitVec.ofNat 64 (i % 65536)⟩

/-- The memory channel of a line (R296). -/
def channelOf (pa : Nat) : Nat :=
  Nat.xor (Nat.xor (pa / 2 ^ 8 % 8) (pa / 2 ^ 11 % 8)) (pa / 2 ^ 14 % 8)

/-- A corrected error of a unit counted for the hour (R498). -/
def State.countHour (s : State) (unit : Nat) : State :=
  { s with hourCe := put 0 s.hourCe unit (look 0 s.hourCe unit + 1) }

/-- A sector written to memory (R296): its codeword replaces what was stored, with the symbols of an armed injection
inverted (R302). -/
def State.memWrite (s : State) (pa : Nat) : State :=
  let v := s.reg Reg.devMemInj
  if bit v 0 && fld v 39 6 = pa / 64 then
    { s.setReg Reg.devMemInj (setBit v 0 false) with
      planted := put [] s.planted (pa / 64) (invertedFrom (fld v 61 56) (fld v 63 62)) }
  else { s with planted := put [] s.planted (pa / 64) [] }

/-- What the decoder finds in the stored copy of a sector (R297). -/
def State.stored (s : State) (pa : Nat) : Decoded :=
  match look [] s.planted (pa / 64) with
  | [] => .clean
  | err => decodeSector (withErrors (codeword (s.sectorWords pa)) err)

/-- A read of a sector by the memory controller (R298, R299): `some i` when it is uncorrectable and reported as
record i; its DRAM row gives notice then (R501). -/
def State.eccRead (s : State) (pa : Nat) : Option Nat × State :=
  let c := channelOf pa
  match s.stored pa with
  | .clean => (none, s)
  | .corrected _ =>
    let s := (s.bumpRf (Reg.devMemErr c) 63 48 1).countHour c
    let s := s.setReg (Reg.devMemErraddr c) (BitVec.ofNat 64 (pa / 64 * 64))
    (none, if s.rf Reg.devMemScrub 18 18 = 1 then s.memWrite pa else s)
  | .uncorrectable =>
    let (i, s) := s.report { code := 0x021, cls := .contained, source := 2, inst := c, addr := pa / 64 * 64 }
    let s := (s.bumpRf (Reg.devMemErr c) 47 32 1).setRf (Reg.devMemErr c) 31 16 i
    (some i, (s.setReg (Reg.devMemErraddr c) (BitVec.ofNat 64 (pa / 64 * 64 + 1))).judgeTracker (.row pa) 4 true)

/-- Eight POISON words in a sector (R299). -/
def State.poisonSector (s : State) (pa i : Nat) : State := s.setWords (pa / 64 * 64) (List.replicate 8 (poisonWord i))

end Sys2Proof.Machine
end

