-- ==== Sys2Proof/Machine/Cache.lean ====
section
/-! DEFINITION. The caches before MEMORY (spec/09_crib_and_memory.md): the last-level cache (R289), the barn caches with
their directories (R288) and the Cribs (R271 to R280), each with the coherence states of its sectors (R291), and the loads
and stores of cores and of the other agents. Data stand once, in the payload table; a Crib keeps beside it only what
differs (R284, R286). -/

namespace Sys2Proof.Machine

/-! Sectors of a line. -/

/-- The value of sector k. -/
def Quad.get {α : Type} (q : Quad α) (k : Nat) : α :=
  if k = 0 then q.s0 else if k = 1 then q.s1 else if k = 2 then q.s2 else q.s3

/-- The values with that of sector k replaced. -/
def Quad.set {α : Type} (q : Quad α) (k : Nat) (a : α) : Quad α :=
  if k = 0 then { q with s0 := a } else if k = 1 then { q with s1 := a } else if k = 2 then { q with s2 := a }
  else { q with s3 := a }

/-- The sector of a line that an address lies in (R271). -/
def sectorOf (pa : Nat) : Nat := pa / 64 % 4

/-! Trees of replacement (R277). -/

/-- The tree after a hit or fill of a leaf: the nodes on its path point away from it. `n`: a node or leaf, with leaf e of
2^k at 2^k + e. -/
def plruTouch (t : Table Bool) (n : Nat) : Nat → Table Bool
  | 0 => t
  | k + 1 => plruTouch (put false t (n / 2) (n % 2 = 0)) (n / 2) k

/-- The leaf the tree leads to among the eligible ones; `lo` and `w`: first leaf and width of the node's subtree. -/
def plruVictim (t : Table Bool) (el : Nat → Bool) (n lo : Nat) : Nat → Nat
  | 0 => lo
  | k + 1 =>
    let half := 2 ^ k
    let hiHas := (List.range half).any (fun i => el (lo + half + i))
    let loHas := (List.range half).any (fun i => el (lo + i))
    let up := if look false t n then hiHas else !loHas
    if up then plruVictim t el (2 * n + 1) (lo + half) k else plruVictim t el (2 * n) lo k

/-! What the Cribs hold. -/

/-- A sector of an entry. -/
def CribEntry.sector (e : CribEntry) (k : Nat) : Sector :=
  if k = 0 then e.s0 else if k = 1 then e.s1 else if k = 2 then e.s2 else e.s3

/-- An entry with a sector replaced. -/
def CribEntry.setSector (e : CribEntry) (k : Nat) (x : Sector) : CribEntry :=
  if k = 0 then { e with s0 := x } else if k = 1 then { e with s1 := x } else if k = 2 then { e with s2 := x }
  else { e with s3 := x }

/-- An entry is valid when a sector is not I (R272). -/
def CribEntry.valid (e : CribEntry) : Bool :=
  e.s0.st ≠ .i || e.s1.st ≠ .i || e.s2.st ≠ .i || e.s3.st ≠ .i

/-- Entry e of a core's Crib. -/
def Core.entry (c : Core) (e : Nat) : CribEntry := look CribEntry.invalid c.crib e

/-- A core's Crib with an entry replaced; an entry without a valid sector is not listed. -/
def Core.setEntry (c : Core) (e : Nat) (x : CribEntry) : Core :=
  { c with crib := put CribEntry.invalid c.crib e (if x.valid then x else CribEntry.invalid) }

/-- The entry that holds a line (R271). -/
def Core.findLine (c : Core) (line : Nat) : Option Nat :=
  (c.crib.find? (fun x => x.2.line = line && x.2.valid)).map Prod.fst

/-- What a core's Crib holds of the sector of an address. -/
def Core.sectorAt (c : Core) (pa : Nat) : Sector :=
  match c.findLine (pa / 256) with
  | none => Sector.invalid
  | some e => (c.entry e).sector (sectorOf pa)

/-- A Crib of one of the chosen cores, enabled, holds the sector in a state (R284: a disabled Crib is not snooped). -/
def State.cribAny (s : State) (sel : Nat → Bool) (pa : Nat) (f : Mesi → Bool) : Bool :=
  s.cores.any (fun (q, c) => sel q && c.cribOn && f (c.sectorAt pa).st)

/-- Applies a change to one sector of a line in the enabled Cribs of the chosen cores. -/
def State.snoop (s : State) (sel : Nat → Bool) (pa : Nat) (f : Sector → Sector) : State :=
  { s with cores := s.cores.map (fun (q, c) =>
      if !sel q || !c.cribOn then (q, c)
      else match c.findLine (pa / 256) with
        | none => (q, c)
        | some e => (q, c.setEntry e ((c.entry e).setSector (sectorOf pa) (f ((c.entry e).sector (sectorOf pa)))))) }

/-- The sector of a line after another agent's load: M is written back and M and E become S. -/
def Sector.snoopLoad (x : Sector) : Sector :=
  match x.st with
  | .m => ⟨.s, []⟩
  | .e => ⟨.s, x.alt⟩
  | _ => x

/-! The last-level cache (R289). -/

/-- The slice of a line: PA[11:8] XOR PA[15:12] XOR PA[19:16] XOR PA[23:20]. -/
def llcSlice (line : Nat) : Nat :=
  Nat.xor (Nat.xor (line % 16) (line / 16 % 16)) (Nat.xor (line / 256 % 16) (line / 4096 % 16))

/-- The set of a line in its slice: one of 512 (R289); which one spec/ does not say (log entry 57). -/
def llcSet (line : Nat) : Nat := Config.llcSet line % 512

/-- The line as the last-level cache holds it. -/
def State.llcLine (s : State) (line : Nat) : Option LlcLine := (s.llc.find? (fun e => e.1 = line)).map Prod.snd

/-- What the last-level cache holds of the sector of an address. -/
def State.llcSec (s : State) (pa : Nat) : LlcSector :=
  match s.llcLine (pa / 256) with
  | none => ⟨.i, 0⟩
  | some x => x.secs.get (sectorOf pa)

/-- A change to a sector of a line that the last-level cache holds. -/
def State.setLlcSec (s : State) (pa : Nat) (f : LlcSector → LlcSector) : State :=
  match s.llcLine (pa / 256) with
  | none => s
  | some x => { s with llc := insert s.llc (pa / 256) { x with secs := x.secs.set (sectorOf pa) (f (x.secs.get (sectorOf pa))) } }

/-- The last-level cache holds a newer copy of the sector than memory. -/
def State.llcDirty (s : State) (pa : Nat) : State := s.setLlcSec pa (fun x => { x with st := .m })

/-- The ways of a slice that lines may take: its 16 without those taken out, and the spare ways 16 and 17 in use (R509). -/
def State.llcWays (s : State) (slice : Nat) : List Nat :=
  (List.range 18).filter (fun w =>
    if w < 16 then !s.service.ways.contains (slice * 16 + w) else bit (s.reg Reg.seedStat) (2 * slice + w))

/-! The barn caches (R288). -/

/-- The barn of a core slot (R24). -/
def barnOf (p : Nat) : Nat := p / 9

/-- The set of a line: PA bits 16:8. -/
def barnSet (line : Nat) : Nat := line % 512

/-- A barn's cache. -/
def State.barn (s : State) (b : Nat) : BarnCache := look BarnCache.reset s.barns b
/-- The state with a barn's cache replaced. -/
def State.setBarn (s : State) (b : Nat) (x : BarnCache) : State := { s with barns := put BarnCache.reset s.barns b x }

/-- The key of the way that holds a line. -/
def BarnCache.find (c : BarnCache) (line : Nat) : Option Nat := (c.lines.find? (fun e => e.2.line = line)).map Prod.fst

/-- What a barn cache holds of the sector of an address. -/
def BarnCache.sec (c : BarnCache) (pa : Nat) : BarnSector :=
  match c.find (pa / 256) with
  | none => ⟨.i, 0, []⟩
  | some k => (look BarnLine.none c.lines k).secs.get (sectorOf pa)

/-- A change to a sector of a line that a barn cache holds. -/
def State.setBarnSec (s : State) (b pa : Nat) (f : BarnSector → BarnSector) : State :=
  let c := s.barn b
  match c.find (pa / 256) with
  | none => s
  | some k =>
    let x := look BarnLine.none c.lines k
    let y := { x with secs := x.secs.set (sectorOf pa) (f (x.secs.get (sectorOf pa))) }
    s.setBarn b { c with lines := insert c.lines k y }

/-- A barn holds a newer copy of the sector than the last-level cache: its cache does, or one of its Cribs. -/
def State.barnNewer (s : State) (b pa : Nat) : Bool :=
  ((s.barn b).sec pa).st = .m || s.cribAny (fun q => barnOf q = b) pa (· = .m)

/-- The four sector addresses of a line. -/
def lineSectors (line : Nat) : List Nat := (List.range 4).map (fun k => line * 256 + 64 * k)

/-- A barn cache evicts a line (R288): the Cribs of the barn give it up first, and what is newer goes on. -/
def State.barnEvict (s : State) (b line : Nat) : State :=
  match (s.barn b).find line with
  | none => s
  | some k =>
    let s := (lineSectors line).foldl (fun s a =>
      let s := if s.barnNewer b a then s.llcDirty a else s
      (s.snoop (fun q => barnOf q = b) a (fun _ => Sector.invalid)).setLlcSec a
        (fun x => { x with barns := x.barns &&& ~~~(BitVec.ofNat 8 (2 ^ b)) })) s
    s.setBarn b { s.barn b with lines := erase (s.barn b).lines k }

/-- The last-level cache evicts a line: every barn gives it up, and its M sectors are written to memory. -/
def State.llcEvict (s : State) (line : Nat) : State :=
  let s := (List.range 8).foldl (fun s b => s.barnEvict b line) s
  let s := (lineSectors line).foldl (fun s a => if (s.llcSec a).st = .m then s.memWrite a else s) s
  { s with llc := erase s.llc line }

/-- A way for a line in the last-level cache (R289). spec/ gives neither the set of a line nor the replacement rule: a line
takes the lowest way that no line of its slice takes, or else of its set, or else that of a line of its set that is a free
value (log entry 57). -/
def State.llcPlace (s : State) (line : Nat) : State :=
  let mates := s.llc.filter (fun e => llcSlice e.1 = llcSlice line)
  let ways := s.llcWays (llcSlice line)
  let empty := fun (s : State) (w : Nat) => { s with llc := insert s.llc line ⟨w, Quad.all ⟨.i, 0⟩⟩ }
  match ways.find? (fun w => !mates.any (fun e => e.2.way = w)) with
  | some w => empty s w
  | none =>
    let set := mates.filter (fun e => llcSet e.1 = llcSet line)
    match ways.find? (fun w => !set.any (fun e => e.2.way = w)) with
    | some w => empty s w
    | none =>
      let (n, s) := s.freeNat
      match set.drop (n % set.length) with
      | [] => s
      | e :: _ => empty (s.llcEvict e.1) e.2.way

/-- The last-level cache obtains the line of an address: a line fill reads its sectors from memory (R296), the wanted one
first; an uncorrectable sector arrives as POISON (R299). -/
def State.llcTake (s : State) (pa : Nat) : State :=
  let s := if (s.llcLine (pa / 256)).isSome then s else s.llcPlace (pa / 256)
  (List.range 4).foldl (fun s i =>
    let a := pa / 256 * 256 + ((pa / 64 + i) % 4) * 64
    if (s.llcSec a).st ≠ .i then s
    else
      let (bad, s) := s.eccRead a
      let s := match bad with
        | none => s
        | some n => s.poisonSector a n
      s.setLlcSec a (fun x => { x with st := .e })) s

/-- The barns but one whose caches hold the sector. -/
def State.otherBarns (s : State) (but : Option Nat) (pa : Nat) : List Nat :=
  (List.range 8).filter (fun b => some b ≠ but && ((s.barn b).sec pa).st ≠ .i)

/-- The other barns let a load have the sector: what is newer goes to the last-level cache, and they keep it in S. -/
def State.shareBarns (s : State) (but : Option Nat) (pa : Nat) : State :=
  (s.otherBarns but pa).foldl (fun s b =>
    let s := if s.barnNewer b pa then s.llcDirty pa else s
    (s.snoop (fun q => barnOf q = b) pa Sector.snoopLoad).setBarnSec b pa (fun x => { x with st := .s })) s

/-- The other barns give the sector up to a store: what is newer goes to the last-level cache. -/
def State.clearBarns (s : State) (but : Option Nat) (pa : Nat) : State :=
  let s := (s.otherBarns but pa).foldl (fun s b =>
    let s := if s.barnNewer b pa then s.llcDirty pa else s
    (s.snoop (fun q => barnOf q = b) pa (fun _ => Sector.invalid)).setBarnSec b pa (fun _ => ⟨.i, 0, []⟩)) s
  s.setLlcSec pa (fun x => { x with barns := match but with
    | none => 0
    | some b => x.barns &&& BitVec.ofNat 8 (2 ^ b) })

/-- The way of a barn cache that is never chosen: a Crib of the barn holds its line locked and valid (R288). -/
def State.barnLocked (s : State) (b line : Nat) : Bool :=
  s.cores.any (fun (q, c) => barnOf q = b && c.cribOn && (match c.findLine line with
    | none => false
    | some e => bit (s.reg (Reg.cribLock q)) e))

/-- The way that a new line takes in its set (R288): the lowest that is empty, else by the tree among those not locked. -/
def State.barnWay (s : State) (b line : Nat) : Option Nat :=
  let c := s.barn b
  let n := barnSet line
  let at' := fun w => (c.lines.find? (fun e => e.1 = 16 * n + w)).map Prod.snd
  let el := fun w => match at' w with
    | none => true
    | some x => !s.barnLocked b x.line
  match (List.range 16).find? (fun w => (at' w).isNone) with
  | some w => some w
  | none => if (List.range 16).any el then some (plruVictim (look [] c.plru n) el 1 0 4) else none

/-- A use of the way at a key. -/
def BarnCache.touch (c : BarnCache) (k : Nat) : BarnCache :=
  { c with plru := put [] c.plru (k / 16) (plruTouch (look [] c.plru (k / 16)) (16 + k % 16) 4) }

/-- The line of an address in a barn cache, allocated if need be; false when every way of its set is excluded (R288). -/
def State.barnBring (s : State) (b line : Nat) : Bool × State :=
  match (s.barn b).find line with
  | some k => (true, s.setBarn b ((s.barn b).touch k))
  | none =>
    match s.barnWay b line with
    | none => (false, s)
    | some w =>
      let k := 16 * barnSet line + w
      let s := match (s.barn b).lines.find? (fun e => e.1 = k) with
        | none => s
        | some (_, x) => s.barnEvict b x.line
      let c := s.barn b
      (true, s.setBarn b ({ c with lines := insert c.lines k ⟨line, Quad.all ⟨.i, 0, []⟩⟩ }.touch k))

/-- A barn cache that has the line obtains the sector for a load: S where another barn holds it, else E. -/
def State.barnTake (s : State) (b pa : Nat) : State :=
  if ((s.barn b).sec pa).st ≠ .i then s
  else
    let s := s.llcTake pa
    let shared := !(s.otherBarns (some b) pa).isEmpty
    let s := (s.shareBarns (some b) pa).setBarnSec b pa (fun _ => ⟨if shared then .s else .e, 0, []⟩)
    s.setLlcSec pa (fun x => { x with barns := x.barns ||| BitVec.ofNat 8 (2 ^ b) })

/-- The other Cribs of the barn let a load have the sector: M is written back to the barn cache. -/
def State.shareCribs (s : State) (b : Nat) (sel : Nat → Bool) (pa : Nat) : State :=
  let s := if s.cribAny sel pa (· = .m) then s.setBarnSec b pa (fun x => { x with st := .m }) else s
  s.snoop sel pa Sector.snoopLoad

/-- A barn cache's only copy of a sector becomes the coherent view. -/
def State.barnShow (s : State) (b pa : Nat) : State :=
  let x := (s.barn b).sec pa
  if x.alt.isEmpty then s else (s.setWords (pa / 64 * 64) x.alt).setBarnSec b pa (fun x => { x with alt := [] })

/-- A barn cache that has the line obtains the sector for a store of a core; `own`: the core keeps it in its Crib. -/
def State.barnOwn (s : State) (b pa : Nat) (keeps : Nat → Bool) (sharers : BitVec 9) : State :=
  let s := ((s.barnTake b pa).clearBarns (some b) pa).barnShow b pa
  let others := fun q => barnOf q = b && !keeps q
  let newer := ((s.barn b).sec pa).st = .m || s.cribAny others pa (· = .m)
  (s.snoop others pa (fun _ => Sector.invalid)).setBarnSec b pa
    (fun _ => ⟨if newer || sharers = 0 then .m else .e, sharers, []⟩)

/-! The Cribs. -/

/-- The requesters of R276, by the register of their mask. -/
inductive CribReq where
  | mut | pf | ctx | bar
  deriving DecidableEq, Repr

/-- The mask register of a requester (R276). -/
def CribReq.reg (r : CribReq) (p : Nat) : Nat :=
  match r with
  | .mut => Reg.cribAmaskMut p
  | .pf => Reg.cribAmaskPf p
  | .ctx => Reg.cribAmaskCtx p
  | .bar => Reg.cribAmaskBar p

/-- The entry a requester's allocation takes (R277), if any is eligible; `but`: an entry that is being filled. -/
def State.cribVictim (s : State) (p : Nat) (r : CribReq) (but : Option Nat := none) : Option Nat :=
  let c := s.core p
  let mask := s.reg (r.reg p)
  let lock := s.reg (Reg.cribLock p)
  let el := fun e => e < 48 && some e ≠ but && bit mask e && !((c.entry e).valid && bit lock e)
  match (List.range 48).find? (fun e => el e && !(c.entry e).valid) with
  | some e => some e
  | none => if (List.range 48).any el then some (plruVictim c.plru el 1 0 6) else none

/-- Bit of a core slot in the sharer vector of its barn. -/
def shareBit (p : Nat) : BitVec 9 := BitVec.ofNat 9 (2 ^ (p % 9))

/-- Fills one sector of entry e for a load (R273), the barn cache having its line: S when another Crib or barn holds it,
else E. -/
def State.fillSector (s : State) (p e pa : Nat) : State :=
  let b := barnOf p
  let s := s.barnTake b pa
  let others := fun q => barnOf q = b && q ≠ p
  let shared := s.cribAny others pa (· ≠ .i) || ((s.barn b).sec pa).st = .s
  let s := (s.shareCribs b others pa).setBarnSec b pa (fun x => { x with sharers := x.sharers ||| shareBit p })
  let c := s.core p
  let x : Sector := ⟨if shared then .s else .e, ((s.barn b).sec pa).alt⟩
  s.setCore p (c.setEntry e ((c.entry e).setSector (sectorOf pa) x))

/-- Fills the sectors of entry e that are I, the critical one first (R273). -/
def State.fillLine (s : State) (p e pa : Nat) : State :=
  (List.range 4).foldl (fun s i =>
    let a := pa / 256 * 256 + ((pa / 64 + i) % 4) * 64
    if (((s.core p).entry e).sector (sectorOf a)).st = .i then s.fillSector p e a else s) s

/-- The line of a victim entry leaves the Crib (R275): its M sectors are written back to the barn cache. -/
def State.cribEvict (s : State) (p e : Nat) : State :=
  let x := (s.core p).entry e
  let s := (List.range 4).foldl (fun s k =>
    s.setBarnSec (barnOf p) (x.line * 256 + 64 * k) (fun y =>
      { y with st := if (x.sector k).st = .m then .m else y.st, sharers := y.sharers &&& ~~~(shareBit p) })) s
  let c := s.core p
  s.setCore p (c.setEntry e CribEntry.invalid)

/-- Allocates an entry for a line: the entry's record carries the line's tag and no sector yet. -/
def State.allocEntry (s : State) (p e line : Nat) : State :=
  let s := if ((s.core p).entry e).valid then s.cribEvict p e else s
  let c := s.core p
  s.setCore p { c with crib := insert c.crib e { CribEntry.invalid with line := line },
                       plru := plruTouch c.plru (64 + e) 6 }

/-- The next-line fetch of a miss (R274); `but`: the entry that the miss fills. -/
def State.nextLine (s : State) (p : Nat) (but : Option Nat) (pa : Nat) : State :=
  let nx := pa / 256 * 256 + 256
  if s.rf (Reg.cribCtrl p) 1 1 = 1 && nx / 0x4000 = pa / 0x4000 && ((s.core p).findLine (nx / 256)).isNone then
    match s.cribVictim p .pf but with
    | none => s
    | some e =>
      match s.barnBring (barnOf p) (nx / 256) with
      | (false, s) => s
      | (true, s) => (s.allocEntry p e (nx / 256)).fillLine p e nx
  else s

/-- An access that could not allocate (R278, R288). -/
def State.noAlloc (s : State) (p : Nat) : State := s.bumpRf (Reg.cribStat p) 47 32 1

/-- Brings the sector of an address into the Crib of core p for a requester: the entry, if the access allocates or
hits, and the state (R273, R277, R278, R288). -/
def State.cribBring (s : State) (p : Nat) (r : CribReq) (pa : Nat) : Option Nat × State :=
  match (s.core p).findLine (pa / 256) with
  | some e =>
    let c := s.core p
    let s := s.setCore p { c with plru := plruTouch c.plru (64 + e) 6 }
    if (((s.core p).entry e).sector (sectorOf pa)).st ≠ .i then (some e, s)
    else match s.barnBring (barnOf p) (pa / 256) with
      | (false, s) => (none, (s.noAlloc p).nextLine p none pa)
      | (true, s) => (some e, (s.fillLine p e pa).nextLine p (some e) pa)
  | none =>
    match s.barnBring (barnOf p) (pa / 256) with
    | (false, s) => (none, (s.noAlloc p).nextLine p none pa)
    | (true, s) =>
      match s.cribVictim p r with
      | none => (none, (s.noAlloc p).nextLine p none pa)
      | some e => (some e, ((s.allocEntry p e (pa / 256)).fillLine p e pa).nextLine p (some e) pa)

/-- The word of a sector as its Crib sees it. -/
def State.sectorSees (s : State) (x : Sector) (pa : Nat) : Word :=
  if x.st = .m || x.alt.isEmpty then s.memWord pa else x.alt.getD (pa / 8 % 8) (s.memWord pa)

/-- A load of a MEMORY word by an agent that is no core (R289). -/
def State.agentLoad (s : State) (pa : Nat) : Word × State :=
  let s := (s.llcTake pa).shareBarns none pa
  (s.memWord pa, s)

/-- The word of a sector as a barn cache sees it. -/
def State.barnSees (s : State) (b pa : Nat) : Word :=
  let x := (s.barn b).sec pa
  if x.alt.isEmpty then s.memWord pa else x.alt.getD (pa / 8 % 8) (s.memWord pa)

/-- A word read past the Crib of core p: from its barn cache, or beyond where that has no way (R278, R284, R288). `first`:
the access has not asked the barn cache for its line before, so that the want of a way counts here (R288). -/
def State.loadBeyond (s : State) (p pa : Nat) (first : Bool) : Word × State :=
  let b := barnOf p
  match s.barnBring b (pa / 256) with
  | (false, s) => (if first then s.noAlloc p else s).agentLoad pa
  | (true, s) =>
    let s := (s.barnTake b pa).shareCribs b (fun q => barnOf q = b && q ≠ p) pa
    (s.barnSees b pa, s)

/-- A load of a MEMORY word by core p through its Crib: the word, and the state. -/
def State.coreLoad (s : State) (p : Nat) (r : CribReq) (pa : Nat) : Word × State :=
  if (s.core p).cribOn then
    match s.cribBring p r pa with
    | (some e, s) => (s.sectorSees (((s.core p).entry e).sector (sectorOf pa)) pa, s)
    | (none, s) => s.loadBeyond p pa false
  else s.loadBeyond p pa true

/-- A hit in the Crib of core p sets the nodes of the tree on its path (R277). -/
def State.cribTouch (s : State) (p pa : Nat) : State :=
  let c := s.core p
  match c.findLine (pa / 256) with
  | some e => s.setCore p { c with plru := plruTouch c.plru (64 + e) 6 }
  | none => s

/-- A word that a routine of core p reads from a sector it holds (R238): through the Crib where the sector is there, else
through the barn cache, and never with an allocation in the Crib. -/
def State.heldLoad (s : State) (p pa : Nat) : Word × State :=
  let c := s.core p
  if c.cribOn && (c.sectorAt pa).st ≠ .i then (s.sectorSees (c.sectorAt pa) pa, s.cribTouch p pa)
  else s.loadBeyond p pa true

/-- Records a store against the read sets of the open speculations (R388), but not against speculation `but`. -/
def State.conflict (s : State) (pa : Nat) (but : Option Nat) : State :=
  { s with gal := s.gal.map (fun (i, g) =>
      if some i = but then (i, g)
      else match g.lines.find? (fun l => l.1 = pa / 256) with
        | none => (i, g)
        | some (_, l) => if l.r.getLsbD (pa / 64 % 4) then (i, { g with conflict := true }) else (i, g)) }

/-- Core p's sector obtained in M: the words it holds become the coherent view, and what the barn cache has is kept as last
written back. -/
def State.cribOwn (s : State) (p e pa : Nat) : State :=
  let x := ((s.core p).entry e).sector (sectorOf pa)
  let s := s.barnOwn (barnOf p) pa (· = p) (shareBit p)
  if x.st = .m then s
  else
    let back := s.sectorWords pa
    let s := if x.alt.isEmpty then s else s.setWords (pa / 64 * 64) x.alt
    let c := s.core p
    s.setCore p (c.setEntry e ((c.entry e).setSector (sectorOf pa) ⟨.m, back⟩))

/-- A sector obtained for a store by an agent that is no core (R289). -/
def State.agentOwn (s : State) (pa : Nat) : State := ((s.llcTake pa).clearBarns none pa).llcDirty pa

/-- Core p's barn cache obtains a sector for a store that its Crib does not hold (R278, R284, R288); `first` as for a load. -/
def State.ownBeyond (s : State) (p pa : Nat) (first : Bool) : State :=
  match s.barnBring (barnOf p) (pa / 256) with
  | (false, s) => (if first then s.noAlloc p else s).agentOwn pa
  | (true, s) => s.barnOwn (barnOf p) pa (fun _ => false) 0

/-- A sector that a routine of core p holds for a store (R238): exclusive in the barn, in the Crib where the sector is there,
and never with an allocation in the Crib. -/
def State.heldOwn (s : State) (p pa : Nat) : State :=
  let b := barnOf p
  match s.barnBring b (pa / 256) with
  | (false, s) => ((s.noAlloc p).llcTake pa).clearBarns none pa
  | (true, s) =>
    let s := (((s.barnTake b pa).clearBarns (some b) pa).barnShow b pa).cribTouch p pa
    let others := fun q => barnOf q = b && q ≠ p
    let newer := s.cribAny others pa (· = .m)
    let here := (s.core p).cribOn && ((s.core p).sectorAt pa).st ≠ .i
    let s := (s.snoop others pa (fun _ => Sector.invalid)).setBarnSec b pa
      (fun x => ⟨if newer || x.st = .m then .m else .e, if here then shareBit p else 0, []⟩)
    s.snoop (· = p) pa (fun x => if x.st = .s then { x with st := .e } else x)

/-- Core p obtains a sector for a store; the state in which the store writes (R273, R278, R284). -/
def State.coreOwn (s : State) (p : Nat) (r : CribReq) (pa : Nat) : State :=
  if (s.core p).cribOn then
    match s.cribBring p r pa with
    | (some e, s) => s.cribOwn p e pa
    | (none, s) => s.ownBeyond p pa false
  else s.ownBeyond p pa true

/-- A store of a MEMORY word by core p through its Crib. -/
def State.coreStore (s : State) (p : Nat) (r : CribReq) (pa : Nat) (w : Word) : State :=
  ((s.coreOwn p r pa).conflict pa none).setMemWord pa w

/-- A heal or copy write of core p: as a store, but no conflict (R341, R388). -/
def State.coreHeal (s : State) (p : Nat) (pa : Nat) (w : Word) : State :=
  (s.coreOwn p .bar pa).setMemWord pa w

/-- A store of a MEMORY word by an agent that is no core. -/
def State.agentStore (s : State) (pa : Nat) (w : Word) : State :=
  ((s.agentOwn pa).conflict pa none).setMemWord pa w

/-- A write by the Gleaner: no conflict (R341, R388). -/
def State.agentHeal (s : State) (pa : Nat) (w : Word) : State := (s.agentOwn pa).setMemWord pa w

/-- The part's atomic OR into a word (R294, R299): a POISON word stays unchanged. -/
def State.atomicOr (s : State) (pa : Nat) (v : BitVec 64) : State :=
  let s := s.agentOwn pa
  let w := s.memWord pa
  if w.tag.extractLsb' 0 6 = 0x32 then s
  else (s.conflict pa none).setMemWord pa ⟨w.tag, w.payload ||| v⟩

/-- A read of the sector of an address gives POISON: it is no longer good in memory and no cache has it (R299). -/
def State.sectorLost (s : State) (pa : Nat) : Bool := (s.llcSec pa).st = .i && s.stored pa = .uncorrectable

/-- A cache holds the sector of an address in M (R301). -/
def State.heldModified (s : State) (pa : Nat) : Bool :=
  (s.llcSec pa).st = .m || (List.range 8).any (fun b => s.barnNewer b pa)

end Sys2Proof.Machine
end

