-- ==== Sys2Proof/Machine/Ctx.lean ====
section
/-! DEFINITION. Contexts (spec/05_contexts.md) as the event router and the cores hold them: fields of STATUS and
LANDCTL, the registers of a context and their dirty groups, context states and wake-ups, alerts and their routes
(R210 to R213), and who may write what (R169, R545). -/

namespace Sys2Proof

/-- TYPE of a word (R48). -/
def Word.type (w : Word) : Nat := w.tag.toNat % 64
/-- The G bit (R48). -/
def Word.g (w : Word) : Bool := w.tag.getLsbD 6
/-- The E bit (R48). -/
def Word.e (w : Word) : Bool := w.tag.getLsbD 7
/-- The TYPE is a pointer type (R49). -/
def Word.isPtr (w : Word) : Bool := 0x10 ≤ w.type && w.type ≤ 0x2F

/-- A malformed word (R53). -/
def Word.malformed (w : Word) : Bool :=
  let t := w.type
  let v := w.payload.toNat
  (!w.isPtr && (w.e || w.g)) ||
  (0x06 ≤ t && t ≤ 0x0F) || (0x1A ≤ t && t ≤ 0x2F) || (0x33 ≤ t && t ≤ 0x3E) ||
  (t = 2 && (0x200000 ≤ v || (0xD800 ≤ v && v ≤ 0xDFFF) || 0x10FFFF < v)) ||
  (t = 3 && 3 < v) ||
  (w.isPtr && (v % 8 ≠ 0 || 2 ^ 44 ≤ v))

/-- The word is a FIX. -/
def Word.isFix (w : Word) : Bool := w.tag = 0

/-- Two initiators are the same one (R33). -/
def Initiator.same (a b : Initiator) : Bool :=
  match a, b with
  | .ctx m _, .ctx n _ => m = n
  | _, _ => a = b

end Sys2Proof

namespace Sys2Proof.Machine

/-! Fields of STATUS (the map before R193) and LANDCTL (R183). -/

/-- STATUS.STAIR. -/
def stStair (v : BitVec 64) : Nat := fld v 1 0
/-- STATUS.CC. -/
def stCc (v : BitVec 64) : Nat := fld v 3 2
/-- STATUS.AM. -/
def stAm (v : BitVec 64) : Nat := fld v 21 16
/-- STATUS.STH. -/
def stSth (v : BitVec 64) : Bool := bit v 8
/-- STATUS.TOFF. -/
def stToff (v : BitVec 64) : Bool := bit v 7
/-- STATUS.SS. -/
def stSs (v : BitVec 64) : Bool := bit v 6
/-- LANDCTL.DEPTH. -/
def lcDepth (v : BitVec 64) : Nat := fld v 15 8
/-- LANDCTL.L3. -/
def lcL3 (v : BitVec 64) : Bool := bit v 2
/-- LANDCTL.LUSE. -/
def lcUse (v : BitVec 64) : Nat := fld v 1 0

/-! Registers. -/

/-- A word as a compatible hall holds it: tag bits 7:6 zero (R225). -/
def strip (compat : Bool) (w : Word) : Word := if compat then ⟨w.tag &&& 0x3F, w.payload⟩ else w

/-- A FIX word. -/
def fix (v : BitVec 64) : Word := ⟨0, v⟩
/-- A FIX word of a number. -/
def fixN (n : Nat) : Word := ⟨0, BitVec.ofNat 64 n⟩
/-- A RAW word. -/
def raw (v : BitVec 64) : Word := ⟨0x3F, v⟩
/-- SPC NIL (R51). -/
def nil : Word := ⟨3, 0⟩
/-- SPC T. -/
def specialT : Word := ⟨3, 1⟩
/-- SPC UNBOUND. -/
def unbound : Word := ⟨3, 2⟩
/-- SPC NOVALUE. -/
def novalue : Word := ⟨3, 3⟩
/-- A TIME word (R75). -/
def timeW (dt : Nat) : Word := ⟨5, BitVec.ofNat 64 dt⟩

/-- Which context runs on a core: physical core, hardware and software context numbers, hall. -/
structure Run where
  p : Nat
  hcn : Nat
  scn : Nat
  hall : Nat
  deriving DecidableEq, Repr

/-- The Running context of a core that issues instructions. -/
def State.running (s : State) (p : Nat) : Option Run :=
  let c := s.core p
  if !s.part.hasPcn p || c.halt.isSome || s.held p then none
  else match c.run with
    | none => none
    | some n => match (s.slot n).scn with
      | none => none
      | some k => some ⟨p, n, k, (s.ctx k).hall⟩

/-- The registers of a context in its slot. -/
def State.regs (s : State) (r : Run) : Regs := (s.slot r.hcn).regs

/-- The state with those registers replaced and the dirty bits of the groups written set (R180). -/
def State.setRegs (s : State) (r : Run) (x : Regs) (groups : BitVec 7) : State :=
  s.setSlot r.hcn { s.slot r.hcn with regs := x, dirty := (s.slot r.hcn).dirty ||| groups }

/-- Register wn. -/
def Regs.getW (x : Regs) (n : Nat) : Word := look Word.fix0 x.w n
/-- The registers with wn replaced. -/
def Regs.putW (x : Regs) (n : Nat) (v : Word) : Regs := { x with w := put Word.fix0 x.w n v }
/-- lw j of landing Lk. -/
def Regs.getLw (x : Regs) (k j : Nat) : Word := look Word.fix0 x.lw (8 * k + j)
/-- The registers with lw j of landing Lk replaced. -/
def Regs.putLw (x : Regs) (k j : Nat) (v : Word) : Regs := { x with lw := put Word.fix0 x.lw (8 * k + j) v }
/-- LF of landing Lk. -/
def Regs.getLf (x : Regs) (k : Nat) : BitVec 44 := look 0 x.lf k
/-- The registers with LF of landing Lk replaced. -/
def Regs.putLf (x : Regs) (k : Nat) (v : BitVec 44) : Regs := { x with lf := put 0 x.lf k v }

/-- The dirty group of wn (R162). -/
def groupOfW (n : Nat) : BitVec 7 := BitVec.ofNat 7 (2 ^ (n / 8))
/-- Group G4. -/
def g4 : BitVec 7 := 0x10
/-- Group G5. -/
def g5 : BitVec 7 := 0x20
/-- Group G6. -/
def g6 : BitVec 7 := 0x40

/-- Register wn of a running context, tag bits 7:6 read as zero in a compatible hall (R225). -/
def State.getW (s : State) (r : Run) (n : Nat) : Word := strip (s.compat r.hall) ((s.regs r).getW n)

/-- A write of register wn of a running context. -/
def State.setW (s : State) (r : Run) (n : Nat) (v : Word) : State :=
  s.setRegs r ((s.regs r).putW n (strip (s.compat r.hall) v)) (groupOfW n)

/-- STATUS of a running context. -/
def State.status (s : State) (r : Run) : BitVec 64 := (s.regs r).status

/-- A write of STATUS of a running context. -/
def State.setStatus (s : State) (r : Run) (v : BitVec 64) : State :=
  s.setRegs r { s.regs r with status := v } g4

/-- A write of PC of a running context. -/
def State.setPc (s : State) (r : Run) (v : BitVec 44) : State := s.setRegs r { s.regs r with pc := v } g4

/-- log2 of the page size of a leaf's level (R248). -/
def pageShift (level : Nat) : Nat := if level = 0 then 36 else if level = 1 then 25 else 14

/-! Descriptors (R164). -/

/-- Physical address of slot k of the descriptor at `desc`. -/
def descSlot (desc k : Nat) : Nat := desc + 8 * (1 + k)

/-! Where contexts run. -/

/-- The core slot that runs the contexts of an HCN: the SEED_MAP entry of its LCN, or during a resparing the seed core
for the groups that have migrated (R24, R503). -/
def State.pcnOf (s : State) (hcn : Nat) : Nat :=
  let p := s.rf (Reg.seedMap (hcn / 64)) 6 0
  if s.rf (Reg.seedSlot p) 63 61 = 3 && hcn % 64 / 8 < s.rf Reg.seedCmdStat 51 48 then p / 9 * 9 + 8 else p

/-- A slot of hall h that holds no context and waits for no owner change, lowest in the context store of an LCN. -/
def State.freeSlotOn (s : State) (h lcn : Nat) : Option Nat :=
  ((List.range 64).map (fun k => lcn * 64 + k)).find? (fun n =>
    let sl := s.slot n
    sl.scn.isNone && sl.owner = h && sl.pend.isNone)

/-- The slot a fill takes (R182): on the LCN named, else by the HOME_LCN rule; an LCN the part does not have has none (log entry
50). -/
def State.fillSlot (s : State) (scn : Nat) (named : Option Nat) : Option Nat :=
  let c := s.ctx scn
  match named with
  | some l => if l < s.part.cores then s.freeSlotOn c.hall l else none
  | none =>
    if c.homeLcn = 0xFF then (List.range s.part.cores).findSome? (s.freeSlotOn c.hall)
    else s.freeSlotOn c.hall c.homeLcn

/-- Marks a fill that finds no slot pending and reports it (R182, FILL_BLOCKED). -/
def State.fillBlocked (s : State) (scn : Nat) : State :=
  let c := s.ctx scn
  let s := if c.fillPending then s
    else { s.setCtx scn { c with fillPending := true, fillNo := s.fillNo } with fillNo := s.fillNo + 1 }
  let s := s.event 0 "FILL_BLOCKED" scn
  if c.hall = 0 then s else s.event c.hall "FILL_BLOCKED" scn

/-- A context in Spilled (Ready) asks for its fill on demand (R182); the FILL_ON_DEMAND step makes it. -/
def State.demand (s : State) (scn : Nat) : State :=
  if (s.fillSlot scn none).isSome then s else s.fillBlocked scn

/-! Virtual time (R173). -/

/-- Core-time weight W[h]. -/
def State.weight (s : State) (h : Nat) : Nat := s.rf (Reg.hallShare h) 63 48

/-- The contexts of a hall do not run: it is NONE or IDLE (R407), or its reset has passed step 3 (R420). -/
def State.stopped (s : State) (h : Nat) : Bool :=
  let v := s.reg (Reg.hallState h)
  fld v 63 61 < 2 || 2 ≤ fld v 60 58

/-- The halls with a Ready context at a level on a core, as far as the halls execute. -/
def State.readyHalls (s : State) (p level : Nat) : List Nat :=
  (s.ctxs.filter (fun (_, c) => c.st = .ready && c.prio = level && s.pcnOf c.hcn = p &&
    !s.stopped c.hall)).map (fun (_, c) => c.hall)

/-- A hall whose first context becomes Ready at a level, or whose weight leaves 0, does not bank time (R173). DEDUCED (log
entry 49): "at that level" makes VT[h] one value per hall and level. -/
def State.raiseVt (s : State) (p level h : Nat) : State :=
  let others := (s.readyHalls p level).filter (fun k => k ≠ h && s.weight k ≠ 0)
  match others.map (fun k => look 0 (s.core p).vt (level * 64 + k)) with
  | [] => s
  | v :: vs =>
    let m := vs.foldl min v
    let c := s.core p
    if look 0 c.vt (level * 64 + h) < m then s.setCore p { c with vt := put 0 c.vt (level * 64 + h) m } else s

/-- The code of a state in CONTROL.RESUME and EVR_CTX.RESUME (R164, R168). -/
def CtxState.resumeCode : CtxState → Nat
  | .parked => 1
  | .ready => 2
  | .waiting => 4
  | _ => 0

/-- CONTROL of a context's descriptor: HOME_LCN, RESUME and PRIO (R164). -/
def SwCtx.control (c : SwCtx) : Word := fixN (c.homeLcn * 256 + c.resume.resumeCode * 16 + c.prio)

/-- The event router writes CONTROL of a Spilled context. -/
def State.writeControl (s : State) (scn : Nat) : State :=
  s.agentStore (descSlot (s.ctx scn).desc 0) (s.ctx scn).control

/-- A context becomes Ready: in its slot, or as resume state of a Spilled one with a fill on demand. -/
def State.makeReady (s : State) (scn : Nat) : State :=
  let c := s.ctx scn
  if c.st = .spilled then ((s.setCtx scn { c with resume := .ready, wait := none }).writeControl scn).demand scn
  else
    let p := s.pcnOf c.hcn
    let first := !(s.readyHalls p c.prio).contains c.hall
    let s := s.setCtx scn { c with st := .ready, wait := none }
    if first then s.raiseVt p c.prio c.hall else s

/-- The virtual time of a hall after one of its contexts has run: by cycles run × 256 ÷ W[h], the number of cycles
being open (R173, log entry 8). -/
def State.chargeVt (s : State) (p level h : Nat) : State :=
  if s.weight h = 0 then s
  else
    let (f, s) := s.freeNat
    let c := s.core p
    s.setCore p { c with vt := put 0 c.vt (level * 64 + h) (look 0 c.vt (level * 64 + h) + f * 256 / s.weight h) }

/-- The Running context of a core leaves Running; a TLBI it executes is abandoned (R265). -/
def State.leaveCore (s : State) (p : Nat) : State :=
  match s.running p with
  | none => s
  | some r =>
    let s := s.chargeVt p (s.ctx r.scn).prio r.hall
    { s.setCore p { s.core p with run := none } with tlbis := s.tlbis.filter (fun j => j.core ≠ p) }

/-- A core enters Halted-Fault (R221), with the hall and context it was in. -/
def State.haltSlot (s : State) (p hall scn reason : Nat) : State :=
  (s.setCore p { s.core p with halt := some reason }).note
    { code := 0x031, cls := .uncontained, source := 1, hall := hall, inst := p, scn := scn,
      detail := BitVec.ofNat 64 reason }

/-- An uncorrectable error in a core's own state (R221, R230, R237): Halted-Fault with HALT_REASON 0x4. -/
def State.coreFails (s : State) (p : Nat) : State :=
  if (s.core p).halt.isSome then s
  else match s.running p with
    | some r => s.haltSlot p r.hall r.scn 4
    | none => s.haltSlot p 0xFF 0xFFFF 4

/-! Alerts. -/

/-- Bits of STATUS.AM of a context, from its slot, or from its descriptor, which is read through the last-level cache (R212,
R289); a STATUS word that is POISON masks every alert (R58). -/
def State.alertMask (s : State) (scn : Nat) : Nat × State :=
  let c := s.ctx scn
  if c.st = .spilled then
    let (w, s) := s.agentLoad (descSlot c.desc 34)
    (if w.type = 0x32 then 0x3F else fld w.payload 21 16, s)
  else (stAm (s.slot c.hcn).regs.status, s)

/-- A wait that PARK or an alert ends with PC left on the instruction (R172, R212). -/
def Wait.parkable : Wait → Bool
  | .timer _ | .doorbell _ | .message _ | .transfer _ _ | .position _ _ | .crossing _ => true
  | .outcome _ | .alloc _ => false

/-- What a discard restores (R396): groups G0 to G4 from the checkpoint but MSGP, with PC on the SPEC.OPEN and
SPECK 0. -/
def restoreRegs (x ck : Regs) : Regs :=
  { x with w := ck.w, pc := ck.pc, status := ck.status, cnt := ck.cnt, slim := ck.slim, allocp := ck.allocp,
           allocl := ck.allocl, speck := 0, bankwin := ck.bankwin, wait := ck.wait }

/-- An open speculation of a context, by record number. -/
def State.specOf (s : State) (scn : Nat) : Option Nat :=
  (s.gal.find? (fun (_, g) => g.st ≠ .free && g.scn = scn)).map Prod.fst

/-- Frees a record and its lines, counting a discard with its reason (R396). -/
def State.dropSpec (s : State) (i reason : Nat) : State :=
  let g := s.galr i
  let a := Reg.galHstat g.hall
  (s.setReg a (setFld (bumpFld (s.reg a) 47 32 1) 15 12 reason)).setGal i GalRec.reset

/-- The events and records of the discards that are reported (R396). -/
def State.noteDiscard (s : State) (g : GalRec) (i reason : Nat) : State :=
  if reason = 4 || reason = 5 || reason = 6 then
    let s := s.note { code := 0x057, cls := .event, source := 5, hall := g.hall, scn := g.scn,
                      detail := BitVec.ofNat 64 (2 ^ 32 * (1024 * g.seq + i) + reason) }
    if g.hall = 0 then s else s.event g.hall "SPEC_DISCARD" g.scn
  else s

/-- The SPEC.OPEN of the context's last speculation is not re-evaluated in the ordinary way (R156). -/
def reopenOf (reason : Nat) : Nat :=
  if reason = 5 then 1 else if reason = 1 || reason = 4 then 2 else 0

/-- The level of entries at which a context runs: one more with each handler entered, one less with each return. -/
def entryLevel (lc : BitVec 64) : Nat := 8 * lcDepth lc + 2 * lcUse lc + if lcL3 lc then 1 else 0

/-- Discards speculation i and restores its context (R396); the region that comes back is checked before its next use, since an
ARM may have closed its bin meanwhile (R314; log entry 17). The context's state is the caller's affair. -/
def State.restoreSpec (s : State) (i reason : Nat) : State :=
  let g := s.galr i
  let c := s.ctx g.scn
  let sl := s.slot c.hcn
  let s := s.dropSpec i reason
  let s := s.setSlot c.hcn { sl with regs := restoreRegs sl.regs g.ckpt, dirty := sl.dirty ||| 0x1F, unchecked := true }
  let l := entryLevel sl.regs.landctl
  let rest := (s.ctx g.scn).reopens.filter (fun e => e.1 < l)
  let k := reopenOf reason
  (s.setCtx g.scn { s.ctx g.scn with reopens := if k = 0 then rest else (l, g.ckpt.pc, k) :: rest }).noteDiscard g i reason

/-- What an unmasked pending alert does to a context that is not Running (R212). -/
def State.alertActs (s : State) (scn : Nat) : State :=
  let c := s.ctx scn
  let waits := c.st = .waiting || (c.st = .spilled && c.resume = .waiting)
  if !waits then s
  else match c.wait with
    | none => s
    | some (.alloc _) => s
    | some (.outcome _) =>
      match s.specOf scn with
      | some i => (s.restoreSpec i 2).makeReady scn
      | none => s.makeReady scn
    | some _ => s.makeReady scn

/-- An alert of a context becomes pending and acts on its wait (R211 to R213). -/
def State.alertCore (s : State) (scn code : Nat) (w : Word) : State :=
  let c := s.ctx scn
  if c.st = .none then
    s.note { code := 0x037, cls := .notice, source := 0x0D, scn := scn, detail := BitVec.ofNat 64 (code + 256) }
  else
    let s := s.setCtx scn { c with pend := c.pend ||| BitVec.ofNat 6 (2 ^ (code - 0x20)),
                                   alertWord := put Word.fix0 c.alertWord (code - 0x20) w }
    let (m, s) := s.alertMask scn
    if natBit m (code - 0x20) then s else s.alertActs scn

/-! Initiators. -/

/-- The code of an initiator in DEV_XSTAT.INITIATOR. -/
def State.initCode (s : State) : Initiator → Nat
  | .ctx scn _ => (s.ctx scn).hcn % 0x10000
  | .engine e => 0x1000 + e
  | .gleaner b => 0x1100 + b
  | .pf => 0x1200
  | .vf h => 0x1200 + h
  | .coe => 0x1300
  | .jtag => 0x1400

/-- The hall an initiator belongs to, for records: 0xFF for none. -/
def State.initHall (s : State) : Initiator → Nat
  | .ctx scn _ => (s.ctx scn).hall
  | .vf h => h
  | _ => 0xFF

/-- The SCN of an initiator, for records. -/
def initScn : Initiator → Nat
  | .ctx scn _ => scn
  | _ => 0xFFFF

/-- A context of hall h. -/
def State.isCtxOf (s : State) (who : Initiator) (h : Nat) : Bool :=
  match who with
  | .ctx scn _ => (s.ctx scn).st ≠ .none && (s.ctx scn).hall = h
  | _ => false

/-- The JTAG port, while object 0x2F81:01 is unlocked (R536). -/
def State.jtagOpen (s : State) (who : Initiator) : Bool := who = .jtag && s.jtagUnlocked

/-- The initiators of R545. -/
def State.privileged (s : State) (who : Initiator) : Bool := who = .pf || s.isCtxOf who 0 || s.jtagOpen who

/-- The SOURCE code of the block an offset lies in (R511; log entry 16). -/
def sourceOf (off : Nat) : Nat :=
  if off < 0x100000 then 0
  else if off < 0x600000 then 1
  else if off < 0x700000 then 4
  else if off < 0x800000 then 6
  else if off < 0x900000 then 5
  else if off < 0xA00000 then 7
  else if off < 0xA04000 then 8
  else if off < 0xB00000 then 9
  else if off < 0xC00000 then 0xA
  else if off < 0xD00000 then 0
  else if off < 0xE00000 then 0xB
  else 0xD

/-- A write that its register does not admit: ignored, and reported as a CONTAINED error of the initiator (R545). -/
def State.refuseWrite (s : State) (who : Initiator) (off : Nat) : State :=
  s.note { code := 0x035, cls := .contained, source := sourceOf off, hall := s.initHall who, scn := initScn who,
           addr := 0x4000000000 + off, detail := BitVec.ofNat 64 (s.initCode who) }

/-- A counted write (R21): COUNT, SOURCE and LAST_OFFSET of DEV_RSV_WRITES. -/
def State.countRsv (s : State) (source last : Nat) : State :=
  s.setReg Reg.devRsvWrites (setFld (setFld (bumpFld (s.reg Reg.devRsvWrites) 31 0 1) 55 32 last) 59 56 source)

end Sys2Proof.Machine
end

