-- ==== Sys2Proof/Machine/Barrier.lean ====
section
/-! DEFINITION. The Granary's bins and the Gleaner's barriers (spec/10_granary_and_gleaner.md): good epochs and their
stagger (R318, R334), the repair of a stale pointer with marking and copying (R324 to R328, R337), and the write
barrier with its logs (R320, R321). -/

namespace Sys2Proof.Machine

/-- Who runs a barrier: a core, or an engine, the event router or a transfer engine. -/
inductive Agent where
  | core (p : Nat)
  | engine
  deriving DecidableEq, Repr

/-- A read of MEMORY by a barrier's agent. -/
def State.gread (s : State) (a : Agent) (pa : Nat) : Word × State :=
  match a with
  | .core p => s.heldLoad p pa
  | .engine => s.agentLoad pa

/-- A heal, copy or header write (R341): no conflict. -/
def State.gwrite (s : State) (a : Agent) (pa : Nat) (w : Word) : State :=
  match a with
  | .core p => s.coreHeal p pa w
  | .engine => s.agentHeal pa w

/-! Bins. -/

/-- Bytes of a bin (R304). -/
def binSize : Nat := 0x200000

/-- The bin of a physical address. -/
def State.binOf (s : State) (pa : Nat) : Bin := s.bin (pa / binSize)

/-- The numbers of the FREE bins. -/
def State.freeBins (s : State) : List Nat := (List.range s.part.nbins).filter (fun n => (s.bin n).kind = .free)

/-- The number of FREE bins. -/
def State.freeCount (s : State) : Nat :=
  s.part.nbins - (s.bins.filter (fun (n, b) => n < s.part.nbins && b.kind ≠ .free)).length

/-- Bins counted in GL_HSTAT[h].USED, whatever their kind (R308): META bins are hall 0's (R305). -/
def State.binsUsed (s : State) (h : Nat) : Nat := (s.bins.filter (fun (_, b) => b.hall = h && b.kind ≠ .free)).length

/-- GL_HALL[h].QUOTA. -/
def State.binQuota (s : State) (h : Nat) : Nat := s.rf (Reg.glHall h) 55 42

/-- GL_CFG.RESERVE_BINS. -/
def State.reserveBins (s : State) : Nat := s.rf Reg.glCfg 16 12

/-- The code of a kind (R305). -/
def BinKind.code : BinKind → Nat
  | .free => 0 | .eden => 1 | .surv => 2 | .old => 3 | .large => 4 | .largeCont => 5 | .root => 6 | .plain => 7
  | .metaData => 8

/-- Gives bin n to a hall with a kind; a change of owner writes a record (R307). -/
def State.giveBin (s : State) (n h : Nat) (k : BinKind) (st : BinState) (age : Nat) : State :=
  let was := (s.bin n).hall
  let s := s.setBin n { hall := h, kind := k, state := st, age := age, stays := false,
                        epoch := (s.glh h).cycles.toNat % 256, live := 0, top := 0,
                        fullSeen := false, starts := [] }
  if was = h then s
  else s.note { code := 0x042, cls := .event, source := 4, hall := h, addr := binSize * n,
                detail := BitVec.ofNat 64 (h + k.code * 256) }

/-- Makes bin n FREE. -/
def State.freeBin (s : State) (n : Nat) : State :=
  let was := (s.bin n).hall
  let s := s.setBin n Bin.free
  if was = 0 then s
  else s.note { code := 0x042, cls := .event, source := 4, hall := 0, addr := binSize * n, detail := 0 }

/-- A take of `count` FREE bins outside the reserve and within the quota is allowed (R308). -/
def State.mayTake (s : State) (h count : Nat) : Bool :=
  s.binsUsed h + count ≤ s.binQuota h && s.reserveBins + count ≤ s.freeCount

/-- Takes one FREE bin, which one being left open (log entry 8). -/
def State.takeBin (s : State) (h : Nat) (k : BinKind) (st : BinState) (age : Nat) : Option Nat × State :=
  let (f, s) := s.freeNat
  match pick s.freeBins f with
  | none => (none, s)
  | some n => (some n, s.giveBin n h k st age)

/-! Heap pointers. -/

/-- Base of a hall's heap window (R310). -/
def State.wbase (s : State) (h : Nat) : Nat := 2 ^ 36 * s.rf (Reg.glHall h) 63 56

/-- The physical address of a window address. -/
def State.heapPa (s : State) (h : Nat) (w : Word) : Nat := w.payload.toNat - s.wbase h

/-- A pointer of hall h to a bin the hall's heap owns (R311); every other pointer is foreign. -/
def State.isHeap (s : State) (h : Nat) (w : Word) : Bool :=
  s.wbase h ≤ w.payload.toNat && w.payload.toNat < s.wbase h + s.part.memSize &&
    (let b := s.binOf (s.heapPa h w)
     b.hall = h && (b.kind = .eden || b.kind = .surv || b.kind = .old || b.kind = .large || b.kind = .root))

/-- Generation of a referent by its bin (R317). -/
def genOf (k : BinKind) : Bool := k = .old || k = .large || k = .root

/-! Epochs. -/

/-- The flip of a cycle changes this generation (R318). -/
def GlHall.flips (g : GlHall) (gen : Bool) : Bool := g.phase = .flip && (g.full || !gen)

/-- The hall's good epoch of a generation, as GL_EPOCH shows it. -/
def GlHall.goodOf (g : GlHall) (gen : Bool) : Bool := if gen then g.goodO else g.goodY

/-- An agent has adopted the new epochs of the flip; engines use them from the start of FLIP (log entry 17). -/
def State.hasFlipped (s : State) (a : Agent) (h : Nat) : Bool :=
  match a with
  | .core p => (s.core p).flipped.contains h
  | .engine => true

/-- The good epoch of an agent for a generation; none: both values are good (R334 rule 2). -/
def State.goodE (s : State) (a : Agent) (h : Nat) (gen : Bool) : Option Bool :=
  let g := s.glh h
  if g.flips gen then if s.hasFlipped a h then some (!g.goodOf gen) else none else some (g.goodOf gen)

/-- The epoch a repaired pointer takes. -/
def State.newE (s : State) (h : Nat) (gen : Bool) : Bool :=
  let g := s.glh h
  if g.flips gen then !g.goodOf gen else g.goodOf gen

/-- A pointer is stale for an agent (R318). -/
def State.stale (s : State) (a : Agent) (h : Nat) (w : Word) : Bool :=
  match s.goodE a h w.g with
  | none => false
  | some e => w.e ≠ e

/-- A word is a reference that is stale for an agent: a malformed word is none, and is neither followed nor healed (R61; log
entry 17). -/
def State.staleRef (s : State) (a : Agent) (h : Nat) (w : Word) : Bool := w.isPtr && !w.malformed && s.stale a h w

/-- A pointer word with its E and G bits. -/
def stamp (w : Word) (payload : BitVec 64) (g e : Bool) : Word :=
  ⟨(w.tag &&& 0x3F) ||| (if g then 0x40 else 0) ||| (if e then 0x80 else 0), payload⟩

/-! Objects. -/

/-- LENGTH of a header (R62). -/
def hdrLen (w : Word) : Nat := fld w.payload 55 16
/-- PIN of a header. -/
def hdrPin (w : Word) : Bool := bit w.payload 61
/-- AGE of a header. -/
def hdrAge (w : Word) : Nat := fld w.payload 60 58

/-- Bytes of the object at pa, from its first word (R64, R326). -/
def objSize (ty : Nat) (hdr : Word) : Nat := if ty = 0x10 then 16 else 8 * (hdrLen hdr + 1)

/-- What a copy or a mark finds wrong with the object at pa: nothing, MALFORMED 2 or POISONED 3. An object of a LARGE bin
alone has a LENGTH above 511 (R315, R326, R327). -/
def headerFault (ty : Nat) (hdr : Word) (pa : Nat) (large : Bool) : Option Nat :=
  if ty = 0x10 then if pa % binSize + 16 ≤ binSize then none else some 2
  else if hdr.type = 0x32 then some 3
  else if hdr.type ≠ 0x30 then some 2
  else if large || (hdrLen hdr ≤ 511 && pa % binSize + 8 * (hdrLen hdr + 1) ≤ binSize) then none else some 2

/-- An open speculation holds a word of the object (R341). -/
def State.specHolds (s : State) (pa size : Nat) : Bool :=
  s.gal.any (fun (_, g) => g.st ≠ .free && g.lines.any (fun (n, l) =>
    !(n * 256 + 256 ≤ pa) && !(pa + size ≤ n * 256) &&
      (!l.w.isEmpty || (List.range 4).any (fun k =>
        l.r.getLsbD k && !(n * 256 + 64 * k + 64 ≤ pa) && !(pa + size ≤ n * 256 + 64 * k)))))

/-- A transfer engine holds the object named by an accepted descriptor (R443). -/
def State.xeHolds (s : State) (pa : Nat) : Bool := s.xe.any (fun o => o.counted && o.status = 0 && o.obj = pa)

/-- The cycle has marked the object at an address. -/
def GlHall.marked (g : GlHall) (pa : Nat) : Bool := g.marks.any (fun e => e.1 = pa)

/-- An object of a type begins at an address: its bin keeps it, since a HDR word is a header only where an object starts
(R61). -/
def State.startObj (s : State) (pa ty : Nat) : State :=
  let n := pa / binSize
  s.setBin n { s.bin n with starts := (pa, BitVec.ofNat 6 ty) :: (s.bin n).starts }

/-- Marks an object and queues it for tracing, unless it is marked (R324 step 3); the reason of an assist, if its
header is not valid. -/
def State.markObj (s : State) (a : Agent) (h pa ty : Nat) : Option Nat × State :=
  let g := s.glh h
  if !g.marking || g.marked pa then (none, s)
  else
    let (hdr, s) := s.gread a pa
    let k := (s.binOf pa).kind
    match headerFault ty hdr pa (k = .large) with
    | some r => (some r, s)
    | none =>
      let g := s.glh h
      let s := s.setGl h { g with marks := (pa, BitVec.ofNat 6 ty) :: g.marks, queue := g.queue ++ [(pa, BitVec.ofNat 6 ty)] }
      if ty = 0x10 || k = .root then (none, s)
      else (none, s.gwrite a pa ⟨hdr.tag, setBit hdr.payload 63 true⟩)

/-- Records an object STAY, and its bin as holding one (R325). -/
def State.makeStay (s : State) (h pa : Nat) : State :=
  let g := s.glh h
  (s.setGl h { g with copies := put CopyState.none g.copies pa .stay }).setBin (pa / binSize)
    { s.binOf pa with stays := true }

/-- A copy destination of `size` bytes in a bin of a kind and age taken in this cycle, or in a FREE bin (R308). -/
def State.copyDest (s : State) (h : Nat) (k : BinKind) (age size : Nat) : Option Nat × State :=
  let ep := (s.glh h).cycles.toNat % 256
  match s.bins.find? (fun (_, b) => b.hall = h && b.kind = k && b.age = age && b.epoch = ep && b.state = .closed &&
      b.top + size ≤ binSize) with
  | some (n, b) => (some (binSize * n + b.top), s.setBin n { b with top := b.top + size })
  | none =>
    if s.binsUsed h < s.binQuota h || 0 < min s.freeCount s.reserveBins then
      match s.takeBin h k .closed age with
      | (none, s) => (none, s)
      | (some n, s) => (some (binSize * n), s.setBin n { s.bin n with top := size })
    else (none, s)

/-- Copies n words from one address to another (R326). -/
def State.copyWords (s : State) (a : Agent) (src dst : Nat) : Nat → State
  | 0 => s
  | n + 1 =>
    let (w, s) := s.gread a src
    (s.gwrite a dst w).copyWords a (src + 8) (dst + 8) n

/-- A word of a copy is a pointer with G = 0. -/
def State.holdsYoung (s : State) (pa words : Nat) : Bool :=
  (List.range words).any (fun i => (s.memWord (pa + 8 * i)).isPtr && !(s.memWord (pa + 8 * i)).g)

/-- Enters an object in a core's relocation cache, of 32 entries (R323). -/
def State.cacheReloc (s : State) (a : Agent) (h old dest : Nat) : State :=
  match a with
  | .engine => s
  | .core p =>
    let c := s.core p
    s.setCore p { c with reloc := (⟨h, old, dest⟩ :: c.reloc).take 32 }

/-- Completes a copy: the words, the destination's header, the FWD word and the copy record (R324, R326, R337). -/
def State.finishCopy (s : State) (a : Agent) (h pa dest ty : Nat) (hdr : Word) : State :=
  let n := objSize ty hdr / 8
  let s := s.copyWords a pa dest n
  let old := (s.binOf dest).kind = .old
  let young := old && s.holdsYoung dest n
  let s := if ty = 0x10 then s else
    let v := setFld hdr.payload 60 58 (min (hdrAge hdr + 1) 7)
    s.gwrite a dest ⟨hdr.tag, setBit (setBit v 62 young) 63 (s.glh h).marking⟩
  let cards := if young then (List.range n).filterMap (fun i =>
      let w := s.memWord (dest + 8 * i)
      if w.isPtr && !w.g then some ((dest + 8 * i) / 512) else none) else []
  let g := s.glh h
  let s := s.setGl h { g with copies := put CopyState.none g.copies pa (.forwarded dest),
                              remembered := g.remembered ++ cards.filter (fun c => !g.remembered.contains c) }
  ((s.startObj dest ty).gwrite a pa ⟨0x31, BitVec.ofNat 64 (s.wbase h + dest)⟩).cacheReloc a h (s.wbase h + pa) (s.wbase h + dest)

/-- What resolving a pointer into a FROM bin gives: the object's address, the reason of an assist, or a copy that is claimed
and not complete, with its destination and the object's first word. -/
inductive Resolved where
  | at (pa : Nat)
  | assist (reason : Nat)
  | copy (dest : Nat) (hdr : Word)
  deriving DecidableEq, Repr

/-- Step 2 of R324 for an object in a FROM bin, but for the copy itself; `copying` false for a scan or a conversion (R333,
R334). -/
def State.resolve (s : State) (a : Agent) (h pa ty : Nat) (copying : Bool) : Resolved × State :=
  let g := s.glh h
  let cached : Option Reloc := match a with
    | .engine => none
    | .core p => (s.core p).reloc.find? (fun (e : Reloc) => e.hall = h && e.old = s.wbase h + pa)
  match cached with
  | some e => (.at (e.dest - s.wbase h), s)
  | none =>
    match look CopyState.none g.copies pa with
    | .forwarded d => (.at d, s.cacheReloc a h (s.wbase h + pa) (s.wbase h + d))
    | .stay => (.at pa, s)
    | .claimed d _ =>
      let (hdr, s) := s.gread a pa
      (.copy d hdr, s)
    | .none =>
      if !copying || (g.phase ≠ .trace && g.phase ≠ .finish) || g.badBins.contains (pa / binSize) then (.at pa, s.makeStay h pa)
      else
        let (hdr, s) := s.gread a pa
        match headerFault ty hdr pa false with
        | some r => (.assist r, s)
        | none =>
          let size := objSize ty hdr
          let age := if ty = 0x10 then (s.binOf pa).age else hdrAge hdr
          if (ty ≠ 0x10 && hdrPin hdr) || s.specHolds pa size || s.xeHolds pa then (.at pa, s.makeStay h pa)
          else
            let promote := g.tenure ≤ age + 1
            match (if promote then s.copyDest h .old 0 size else s.copyDest h .surv (age + 1) size) with
            | (none, s) => (.at pa, s.makeStay h pa)
            | (some d, s) => (.copy d hdr, s)

/-- The copy that a pointer's repair makes next, if any: the object, the destination, its first word, and the state that has
claimed it. -/
def State.copyAhead (s : State) (a : Agent) (h : Nat) (p : Word) : Option (Nat × Nat × Word × State) :=
  if !s.isHeap h p then none
  else
    let pa := s.heapPa h p
    if (s.binOf pa).state ≠ .fromSet then none
    else match s.resolve a h pa p.type true with
      | (.copy d hdr, s) => some (pa, d, hdr, s)
      | _ => none

/-- A copy left after n blocks of 64 bytes, with its progress (R324, R325). -/
def State.partCopy (s : State) (a : Agent) (h pa dest n : Nat) : State :=
  let s := s.copyWords a pa dest (8 * n)
  s.setGl h { s.glh h with copies := put CopyState.none (s.glh h).copies pa (.claimed dest (64 * n)) }

/-- What a repair delivers. -/
inductive Fixed where
  | good (w : Word)
  | assist (reason : Nat)
  deriving DecidableEq, Repr

/-- Steps 3 and 4 of the repair routine for a pointer whose object lies at q (R324). -/
def State.restamp (s : State) (a : Agent) (h : Nat) (p : Word) (q : Nat) : Fixed × State :=
  match s.markObj a h q p.type with
  | (some r, s) => (.assist r, s)
  | (none, s) =>
    let g := genOf (s.binOf q).kind
    (.good (stamp p (BitVec.ofNat 64 (s.wbase h + q)) g (s.newE h g)), s)

/-- Steps 1 to 4 of the repair routine for a pointer of hall h (R324). -/
def State.repair (s : State) (a : Agent) (h : Nat) (p : Word) (copying : Bool) : Fixed × State :=
  if !s.isHeap h p then (.assist 1, s)
  else
    let pa := s.heapPa h p
    let (res, s) := if (s.binOf pa).state = .fromSet then s.resolve a h pa p.type copying else (.at pa, s)
    match res with
    | .assist r => (.assist r, s)
    | .copy d hdr => (s.finishCopy a h pa d p.type hdr).restamp a h p d
    | .at q => s.restamp a h p q

/-- A loaded word after the loaded-value barrier of hall h, without the heal: none where it needs no repair. -/
def State.checkPtr (s : State) (a : Agent) (h : Nat) (w : Word) (copying : Bool) : Option Fixed × State :=
  if s.staleRef a h w then
    match s.repair a h w copying with
    | (f, s) => (some f, s)
  else (none, s)

/-- POISON in place of a stale pointer that nobody can be told of (R328). -/
def State.poisonStale (s : State) (h scn addr reason : Nat) : Word × State :=
  let (i, s) := s.report { code := 0x040, cls := .contained, source := 4, hall := h, scn := scn, addr := addr,
                           detail := BitVec.ofNat 64 reason }
  (poisonWord i, s)

/-- A pointer word taken in by an agent that cannot receive an assist (R328): a fill, a transfer or a scan. The word,
whether it became POISON, and the state; the slot at `pa` is healed when it still holds the word. -/
def State.takeIn (s : State) (a : Agent) (h scn pa : Nat) (w : Word) (heal : Bool) : Word × Bool × State :=
  match s.checkPtr a h w true with
  | (none, s) => (w, false, s)
  | (some (.good v), s) => (v, false, if heal && s.memWord pa = w then s.gwrite a pa v else s)
  | (some (.assist r), s) =>
    let (v, s) := s.poisonStale h scn pa r
    (v, true, s)

/-! The write barrier. -/

/-- MARKING(h) as an agent sees it (R329: a core logs from its acknowledgement of ARM). -/
def State.markingFor (s : State) (a : Agent) (h : Nat) : Bool :=
  match a with
  | .core p => (s.core p).armed.contains h
  | .engine => (s.glh h).marking

/-- A stored pointer of the flipping generation with the old epoch, converted (R320, R334 rule 3). -/
def State.convert (s : State) (a : Agent) (h : Nat) (v : Word) : Fixed × State :=
  let g := s.glh h
  if v.isPtr && !v.malformed && g.flips v.g && v.e = g.goodOf v.g then s.repair a h v false else (.good v, s)

/-- The log entries of a store of pointer v over the word o at pa (R320). -/
def State.logEntries (s : State) (a : Agent) (h pa : Nat) (v o : Word) : List LogEntry :=
  let g := s.glh h
  let k := (s.binOf pa).kind
  (if s.markingFor a h && o.isPtr && (g.full || !o.g) then [.word o] else []) ++
    (if !v.g && (k = .old || k = .large || k = .largeCont) && !g.cards.contains (pa / 512) then [.card (pa / 512)] else [])

/-- The hall's log after an entry. -/
def GlHall.addEntry (g : GlHall) (e : LogEntry) : GlHall :=
  match e with
  | .word w => { g with snapshot := g.snapshot ++ [w] }
  | .card n => { g with cardLog := g.cardLog ++ [n] }

/-- Space in the hall's META bins for one more log entry; another META bin is taken from the reserve where they are full
(R308, R321; log entry 63): whether there is, and the state. -/
def State.logSpace (s : State) (h : Nat) : Bool × State :=
  let room := fun (s : State) =>
    let g := s.glh h
    decide (g.snapshot.length + g.cardLog.length < Config.metaEntries g.metas.length)
  if room s then (true, s)
  else if min s.freeCount s.reserveBins = 0 then (false, s)
  else match s.takeBin 0 .metaData .closed 0 with
    | (none, s) => (false, s)
    | (some n, s) =>
      let s := s.setGl h { s.glh h with metas := (s.glh h).metas ++ [n] }
      (room s, s)

/-- The entries of a core's log buffer go to the halls' logs, oldest first, as far as there is space (R321): those left. -/
def State.drainBuf (s : State) : List (Nat × LogEntry) → List (Nat × LogEntry) × State
  | [] => ([], s)
  | (h, e) :: l =>
    match s.logSpace h with
    | (true, s) => (s.setGl h ((s.glh h).addEntry e)).drainBuf l
    | (false, s) => ((h, e) :: l, s)

/-- A core empties its log buffer (R321). -/
def State.emptyLog (s : State) (p : Nat) : State :=
  let c := s.core p
  if c.logBuf.isEmpty then s
  else
    let (l, s) := s.drainBuf c.logBuf
    s.setCore p { s.core p with logBuf := l }

/-- Every core empties its log buffer. -/
def State.emptyLogs (s : State) : State := s.part.pcns.foldl State.emptyLog s

/-- The logging part of the write barrier (R320): `v` the word as the instruction stores it, `o` the word overwritten. A
core's entries go through its buffer (R321), an engine's straight to the log. -/
def State.logStore (s : State) (a : Agent) (h pa : Nat) (v o : Word) : State :=
  let l := s.logEntries a h pa v o
  if l.isEmpty then s
  else
    let g := s.glh h
    let s := s.setGl h { g with cards := (l.filterMap (fun e => match e with
      | .card n => some n
      | .word _ => none)) ++ g.cards }
    match a with
    | .core p => (s.setCore p { s.core p with logBuf := (s.core p).logBuf ++ l.map (fun e => (h, e)) }).emptyLog p
    | .engine => s.setGl h (l.foldl GlHall.addEntry (s.glh h))

/-- A store to MEMORY of word w, through the logging of the write barrier for the word v before its conversion where `bar`
(R320). -/
def State.storeLogged (s : State) (a : Agent) (req : CribReq) (h pa : Nat) (v w : Word) (bar : Bool) : State :=
  let s := match a with
    | .core p => s.coreOwn p req pa
    | .engine => s.agentOwn pa
  let s := if bar && v.isPtr then s.logStore a h pa v (s.memWord pa) else s
  (s.conflict pa none).setMemWord pa w

/-- A store to MEMORY of a word that needs no conversion. -/
def State.storeAs (s : State) (a : Agent) (req : CribReq) (h pa : Nat) (v : Word) (bar : Bool) : State :=
  s.storeLogged a req h pa v v bar

end Sys2Proof.Machine
end

