-- ==== Sys2Proof/Machine/Spec.lean ====
section
/-! DEFINITION. Speculations (spec/12_gallery.md): Gallery lines and their limits (R384, R398), tentative words and the
read set (R385, R388), the check with its publication (R393), and discards (R396). -/

namespace Sys2Proof.Machine

/-- Lines in use in a slice. -/
def State.sliceUsed (s : State) (b : Nat) : Nat :=
  s.gal.foldl (fun n (_, g) => if g.slice = b then n + g.lines.length else n) 0

/-- Lines held by a hall's speculations. -/
def State.galUsed (s : State) (h : Nat) : Nat :=
  s.gal.foldl (fun n (_, g) => if g.hall = h then n + g.lines.length else n) 0

/-- An empty Gallery line. -/
def GalLine.empty : GalLine := ⟨0, []⟩

/-- A record that keeps an empty line differs from a record without it: lines are listed plainly. -/
def GalRec.line (g : GalRec) (n : Nat) : Option GalLine := (g.lines.find? (fun e => e.1 = n)).map Prod.snd

/-- The record with a line replaced. -/
def GalRec.setLine (g : GalRec) (n : Nat) (l : GalLine) : GalRec := { g with lines := insert g.lines n l }

/-- A new line can be taken in a slice for a hall's record that holds `held` lines (R398). -/
def State.lineFree (s : State) (b h held : Nat) : Bool :=
  s.sliceUsed b < 4096 && s.galUsed h < s.rf (Reg.galHall h) 47 32 && held < s.rf Reg.galCfg 28 16

/-- HIWATER of a slice after a line was taken. -/
def State.hiwater (s : State) (b : Nat) : State :=
  let n := s.sliceUsed b
  if s.rf (Reg.galSlice b) 28 16 < n then s.setRf (Reg.galSlice b) 28 16 n else s

/-- The line of speculation i for an address, taken if need be (R384); none when it cannot be taken. -/
def State.takeLine (s : State) (i pa : Nat) : Option State :=
  let g := s.galr i
  match g.line (pa / 256) with
  | some _ => some s
  | none =>
    if s.lineFree g.slice g.hall g.lines.length then
      some ((s.setGal i (g.setLine (pa / 256) GalLine.empty)).hiwater g.slice)
    else none

/-- A stall of a hall counted (R398). -/
def State.countStall (s : State) (h : Nat) : State := s.bumpRf (Reg.galHstat h) 31 16 1

/-- The tentative word at an address, if its W bit is set. -/
def State.tentative (s : State) (i pa : Nat) : Option Word :=
  match (s.galr i).line (pa / 256) with
  | none => none
  | some l => (l.w.find? (fun e => e.1 = pa / 8 % 32)).map Prod.snd

/-- Sets the R bit of an address's sector. -/
def State.setR (s : State) (i pa : Nat) : State :=
  let g := s.galr i
  match g.line (pa / 256) with
  | none => s
  | some l => s.setGal i (g.setLine (pa / 256) { l with r := l.r ||| BitVec.ofNat 4 (2 ^ (pa / 64 % 4)) })

/-- Writes a tentative word. -/
def State.setTentative (s : State) (i pa : Nat) (w : Word) : State :=
  let g := s.galr i
  match g.line (pa / 256) with
  | none => s
  | some l => s.setGal i (g.setLine (pa / 256) { l with w := insert l.w (pa / 8 % 32) w })

/-! The outcome. -/

/-- SPECK of a context cleared (R382). -/
def State.clearSpeck (s : State) (scn : Nat) : State :=
  let c := s.ctx scn
  let sl := s.slot c.hcn
  s.setSlot c.hcn { sl with regs := { sl.regs with speck := 0 }, dirty := sl.dirty ||| g4 }

/-- An instruction that waited retires (R195): PC moves past it, and DEBUG becomes pending under single step. -/
def State.retireWait (s : State) (scn width : Nat) : State :=
  let c := s.ctx scn
  let sl := s.slot c.hcn
  let x := sl.regs
  let s := s.setSlot c.hcn { sl with regs := { x with pc := x.pc + BitVec.ofNat 44 width }, dirty := sl.dirty ||| g4 }
  if stSs x.status then s.alertCore scn 0x24 (fixN 0) else s

/-- What a commit does to the waiting or running context (R395). -/
def State.commitCtx (s : State) (scn : Nat) : State :=
  let s := s.clearSpeck scn
  match (s.ctx scn).wait with
  | some (.outcome close) =>
    let s := s.makeReady scn
    if close then s.retireWait scn 4 else s
  | _ => s

/-- The tentative words of a record, in ascending address. -/
def GalRec.words (g : GalRec) : List (Nat × Word) :=
  g.lines.flatMap (fun (n, l) => l.w.map (fun (k, w) => (n * 256 + 8 * k, w)))

/-- The sectors of a record's read set and tentative words, in ascending address. -/
def GalRec.sectors (g : GalRec) : List Nat :=
  g.lines.flatMap (fun (n, l) => ((List.range 4).filter (fun k =>
    l.r.getLsbD k || l.w.any (fun e => e.1 / 8 = k))).map (fun k => n * 256 + 64 * k))

/-- Publishes tentative words (R393): the write barrier against the word overwritten now, a stale pointer converted. -/
def State.publishWords (s : State) (i h scn : Nat) : List (Nat × Word) → State
  | [] => s
  | (pa, w) :: ws =>
    let s := s.agentOwn pa
    let s := if w.isPtr then s.logStore .engine h pa w (s.memWord pa) else s
    let (v, s) := match s.checkPtr .engine h w true with
      | (none, s) => (w, s)
      | (some (.good v), s) => (v, s)
      | (some (.assist r), s) => s.poisonStale h scn pa r
    let s := s.agentOwn pa
    ((s.conflict pa (some i)).setMemWord pa v).publishWords i h scn ws

/-- Commits speculation i (R393): publication, TIME_SUSPECT, the record freed, the context released. -/
def State.commitSpec (s : State) (i : Nat) : State :=
  let g := s.galr i
  let s := s.setGal i { g with st := .publishing }
  let s := s.publishWords i g.hall g.scn g.words
  let s := match g.item with
    | some pa => if g.held then s.atomicOr pa 0x20 else s
    | none => s
  let s := (s.bumpRf (Reg.galHstat g.hall) 63 48 1).setGal i GalRec.reset
  s.commitCtx g.scn

/-- Discards speculation i; its context becomes Ready on the SPEC.OPEN (R395, R396). -/
def State.discardSpec (s : State) (i reason : Nat) : State :=
  let g := s.galr i
  let c := s.ctx g.scn
  let s := s.restoreSpec i reason
  if c.st = .running then (s.leaveCore (s.pcnOf c.hcn)).makeReady g.scn
  else if c.st = .waiting then s.makeReady g.scn
  else s

/-- A discard that leaves the registers as they are: the halted context of R396, or a context that a reset ends. -/
def State.cutSpec (s : State) (i reason : Nat) : State :=
  let g := s.galr i
  (s.dropSpec i reason).noteDiscard g i reason

/-- The check of a CROSSED speculation and its publication (R393). -/
def State.checkSpec (s : State) (i : Nat) : State :=
  let s := (s.galr i).sectors.foldl (fun s pa => s.agentOwn pa) s
  if (s.galr i).conflict then s.discardSpec i 1 else s.commitSpec i

end Sys2Proof.Machine
end

