-- ==== Sys2Proof/Machine/Translate.lean ====
section
/-! DEFINITION. Causes and the translation of addresses (spec/08_translation.md; R109, R194, R200): what a part of an
instruction ends with, the TLB lookup with its permission checks, and D(addr) up to step 7. -/

namespace Sys2Proof.Machine

/-- A cause with what its frame and landing receive (R200, R201). `lws`: the landing words of a GENERIC_ASSIST (R118);
`stage`: level, TLB select and hit index that TLB_STAGE takes at the entry (R257); `ra`: hall and reason of a
RELOCATION_ASSIST (R327). -/
structure Trap where
  cause : Nat
  va : BitVec 64
  word : Word
  lws : List Word
  stage : Option (Nat × Nat × Nat)
  ra : Option (Nat × Nat)
  deriving DecidableEq, Repr

/-- A cause with FAULT_VA and a faulting word. -/
def mkTrap (cause : Nat) (va : BitVec 64) (w : Word) : Trap := ⟨cause, va, w, [], none, none⟩

/-- How a part of an instruction ends: with a value, with a cause, waiting for the outcome of the open speculation
(R113), or with the instruction left where it is (a wait, an interruption). -/
inductive Res (α : Type) where
  | ok (a : α) (s : State)
  | trap (t : Trap) (s : State)
  | hold (s : State)
  | stop (s : State)

/-- The next part of an instruction. -/
def Res.bind {α β : Type} (x : Res α) (f : α → State → Res β) : Res β :=
  match x with
  | .ok a s => f a s
  | .trap t s => .trap t s
  | .hold s => .hold s
  | .stop s => .stop s

/-- An access word (R200): bit 0 a store, bit 1 a fetch. -/
def accessWord (store fetch : Bool) : Word := fixN ((if store then 1 else 0) + if fetch then 2 else 0)

/-- Kind of an access. -/
structure Acc where
  store : Bool
  fetch : Bool
  stack : Bool
  deriving DecidableEq, Repr

/-- What a translation gives. -/
inductive Xl where
  | pa (a : Nat)
  | trap (t : Trap)
  deriving DecidableEq, Repr

/-- An entry matches an address for a hall and its current ASID (R252). -/
def TlbEntry.hit (e : TlbEntry) (hall asid va : Nat) : Bool :=
  e.v && e.hall = hall && (e.g || e.asid = asid) &&
    va / 2 ^ pageShift e.level = 2 ^ 14 * e.vpn / 2 ^ pageShift e.level

/-- TLB_ROOT.ASID of a hall. -/
def State.asid (s : State) (h : Nat) : Nat := fld (s.sys h 0x80) 63 52

/-- The TLB of a core that an access uses (R251). -/
def Core.tlb (c : Core) (fetch : Bool) : Table TlbEntry := if fetch then c.itlb else c.dtlb

/-- The indices that hit, lowest first. -/
def State.tlbHits (s : State) (p hall va : Nat) (fetch : Bool) : List Nat :=
  keysWhere (fun _ e => e.hit hall (s.asid hall) va) ((s.core p).tlb fetch)

/-- The permissions of an entry refuse an access at a stair (R253). -/
def TlbEntry.refuses (e : TlbEntry) (stair : Nat) (k : Acc) (dev : Bool) : Bool :=
  (stair = 0 && !e.u) || (!k.fetch && !k.store && !e.r) || (k.store && !e.w) || (k.fetch && !e.x) ||
    (k.fetch && dev) || (stair = 0 && k.stack && !e.stk)

/-- A region that holds devices or the host window. -/
def Region.isDev (g : Region) : Bool := g = .device || g = .mram || g = .hostwin

/-- The physical address of an access with translation off (R194). -/
def State.physical (s : State) (va : Nat) (k : Acc) : Xl :=
  let w := accessWord k.store k.fetch
  if 2 ^ 40 ≤ va then .trap (mkTrap 0x0A (BitVec.ofNat 64 va) w)
  else if k.fetch && (regionOf s.part va).isDev then .trap (mkTrap 0x0A (BitVec.ofNat 64 va) w)
  else if regionOf s.part va = .outside then .trap (mkTrap 0x18 (BitVec.ofNat 64 va) w)
  else .pa va

/-- The physical address of an access to a 44-bit virtual address, or the first cause of R109 from step 3 on that it
raises (R252, R253). -/
def State.translate (s : State) (p hall stair va : Nat) (k : Acc) : Xl :=
  let w := accessWord k.store k.fetch
  let sel := if k.fetch then 1 else 0
  match s.tlbHits p hall va k.fetch with
  | [] => .trap { mkTrap (if k.fetch then 0x08 else 0x09) (BitVec.ofNat 64 va) w with stage := some (2, sel, 0) }
  | [i] =>
    let e := look TlbEntry.invalid ((s.core p).tlb k.fetch) i
    let pa := 2 ^ 14 * e.addr + va % 2 ^ pageShift e.level
    let t := fun (cause : Nat) =>
      Xl.trap { mkTrap cause (BitVec.ofNat 64 va) w with stage := some (e.level, sel, i) }
    if e.refuses stair k (regionOf s.part pa).isDev then t 0x0A
    else if !e.a then t 0x0B
    else if k.store && !e.d then t 0x0C
    else if regionOf s.part pa = .outside then .trap (mkTrap 0x18 (BitVec.ofNat 64 va) w)
    else .pa pa
  | i :: _ :: _ =>
    let e := look TlbEntry.invalid ((s.core p).tlb k.fetch) i
    .trap { mkTrap 0x0F (BitVec.ofNat 64 va) w with stage := some (e.level, sel, i) }

/-- D(addr) of R109 up to step 7, at a stair; the address sum is exact. -/
def State.dataPa (s : State) (r : Run) (stair : Nat) (addr : Int) (store stack : Bool) : Xl :=
  let va := BitVec.ofInt 64 addr
  let w := accessWord store false
  if addr % 8 ≠ 0 then .trap (mkTrap 0x07 va w)
  else if addr < 0 || 2 ^ 44 ≤ addr then .trap (mkTrap 0x0A va w)
  else if stToff (s.status r) then s.physical addr.toNat ⟨store, false, stack⟩
  else s.translate r.p r.hall stair addr.toNat ⟨store, false, stack⟩

end Sys2Proof.Machine
end

