-- ==== Sys2Proof/Machine/Flags.lean ====
section
/-! DEFINITION. The arithmetic of the generic instructions and the compare condition (R97, R115 to R119): fixnum
results, binary64 with round to nearest even, comparisons and the test of a branch condition. -/

namespace Sys2Proof.Machine

/-! binary64 (R116). -/

/-- A NaN. -/
def isNan (v : BitVec 64) : Bool := fld v 62 52 = 0x7FF && fld v 51 0 ≠ 0
/-- An infinity. -/
def isInf (v : BitVec 64) : Bool := fld v 62 52 = 0x7FF && fld v 51 0 = 0
/-- A zero of either sign. -/
def isZero (v : BitVec 64) : Bool := fld v 62 0 = 0
/-- The sign bit. -/
def isNeg (v : BitVec 64) : Bool := bit v 63

/-- The exponent of the unit of a finite value's significand. -/
def unitExp (v : BitVec 64) : Int := if fld v 62 52 = 0 then -1074 else (fld v 62 52 : Int) - 1075

/-- The significand of a finite value. -/
def significand (v : BitVec 64) : Nat := if fld v 62 52 = 0 then fld v 51 0 else 2 ^ 52 + fld v 51 0

/-- The sign bit of a result. -/
def signBits (neg : Bool) : Nat := if neg then 2 ^ 63 else 0

/-- A number divided by 2^d, rounded to nearest with ties to even. -/
def rne (m d : Nat) : Nat :=
  let q := m / 2 ^ d
  let x := m % 2 ^ d
  if 2 ^ d < 2 * x || (2 * x = 2 ^ d && q % 2 = 1) then q + 1 else q

/-- The binary64 value nearest to m × 2^e, ties to even; overflow gives an infinity, and zero is signed. -/
def roundB64 (neg : Bool) (m : Nat) (e : Int) : BitVec 64 :=
  if m = 0 then BitVec.ofNat 64 (signBits neg)
  else
    let q : Int := max (e + Nat.log2 m - 52) (-1074)
    let n := if q ≤ e then m * 2 ^ (e - q).toNat else rne m (q - e).toNat
    let bits := 2 ^ 52 * (q + 1074).toNat + n
    BitVec.ofNat 64 (signBits neg + min bits (0x7FF * 2 ^ 52))

/-- The quiet form of a NaN operand. -/
def quiet (v : BitVec 64) : BitVec 64 := setBit v 51 true

/-- The result of an invalid operation. -/
def invalidNan : BitVec 64 := 0x7FF8000000000000

/-- A finite value as a multiple of 2^e, e at most its unit. -/
def scaled (v : BitVec 64) (e : Int) : Int :=
  let m : Int := (significand v * 2 ^ (unitExp v - e).toNat : Nat)
  if isNeg v then -m else m

/-- The sum of two values that are no NaN. -/
def addB64 (a b : BitVec 64) : BitVec 64 :=
  if isInf a then if isInf b && isNeg a ≠ isNeg b then invalidNan else a
  else if isInf b then b
  else
    let e := min (unitExp a) (unitExp b)
    let m := scaled a e + scaled b e
    if m = 0 then roundB64 (isNeg a && isNeg b) 0 0 else roundB64 (m < 0) m.natAbs e

/-- The product of two values that are no NaN. -/
def mulB64 (a b : BitVec 64) : BitVec 64 :=
  let neg := isNeg a ≠ isNeg b
  if isInf a || isInf b then
    if isZero a || isZero b then invalidNan else BitVec.ofNat 64 (signBits neg + 0x7FF * 2 ^ 52)
  else roundB64 neg (significand a * significand b) (unitExp a + unitExp b)

/-- The negation of a value. -/
def negB64 (v : BitVec 64) : BitVec 64 := v ^^^ 0x8000000000000000

/-- A FIX converted to binary64 (R115). -/
def fixToB64 (v : BitVec 64) : BitVec 64 := roundB64 (v.toInt < 0) v.toInt.natAbs 0

/-- The generic operations, by the number lw3 gives them (R118). -/
inductive GOp where
  | add | sub | mul | cmp | addi
  deriving DecidableEq, Repr

/-- The number of an operation in lw3. -/
def GOp.code : GOp → Nat
  | .add => 0 | .sub => 1 | .mul => 2 | .cmp => 3 | .addi => 4

/-- Binary64 arithmetic with the NaN rule of R116. -/
def floatOp (op : GOp) (a b : BitVec 64) : BitVec 64 :=
  if isNan a then quiet a
  else if isNan b then quiet b
  else match op with
    | .sub => addB64 a (negB64 b)
    | .mul => mulB64 a b
    | _ => addB64 a b

/-- The exact integer result. -/
def fixOp (op : GOp) (a b : Int) : Int :=
  match op with
  | .sub => a - b
  | .mul => a * b
  | _ => a + b

/-! The compare condition (R97). -/

/-- EQ, LT, GT, UN. -/
def ccEq : Nat := 0
/-- LT. -/
def ccLt : Nat := 1
/-- GT. -/
def ccGt : Nat := 2
/-- UN. -/
def ccUn : Nat := 3

/-- The condition of two integers. -/
def ccInt (a b : Int) : Nat := if a = b then ccEq else if a < b then ccLt else ccGt

/-- A value that is no NaN as an integer in the order of the values, zeros equal. -/
def orderKey (v : BitVec 64) : Int := if isNeg v then -(fld v 62 0 : Int) else fld v 62 0

/-- The condition of two binary64 values. -/
def ccFloat (a b : BitVec 64) : Nat :=
  if isNan a || isNan b then ccUn else ccInt (orderKey a) (orderKey b)

/-- The 72-bit key of WCMP (R119). -/
def wcmpKey (w : Word) : Nat :=
  2 ^ 64 * (if w.isPtr then w.tag.toNat % 64 else w.tag.toNat) + w.payload.toNat

/-- Identity of two words: the EQ outcome of WCMP. -/
def identical (a b : Word) : Bool := wcmpKey a = wcmpKey b

/-- STATUS with CC replaced. -/
def State.setCc (s : State) (r : Run) (cc : Nat) : State := s.setStatus r (setFld (s.status r) 3 2 cc)

/-- The test that COND selects (R97). -/
def condHolds (c : BitVec 3) (cc : Nat) : Bool :=
  match c.toNat with
  | 0 => cc = ccEq
  | 1 => cc ≠ ccEq
  | 2 => cc = ccLt
  | 3 => cc = ccGt || cc = ccEq
  | 4 => cc = ccGt
  | 5 => cc = ccLt || cc = ccEq
  | 6 => cc = ccUn
  | _ => false

/-- STATUS.RES of a long resumable instruction (R134). -/
def State.setRes (s : State) (r : Run) (b : Bool) : State := s.setStatus r (setBit (s.status r) 4 b)

end Sys2Proof.Machine
end

