-- ==== Sys2Proof/Machine/Micro.lean ====
section
/-! DEFINITION. The microcode sequencer of a core (spec/07_microcode.md, R227 to R241): the control store, microwords and
micro-registers, segments with their commit marks, holds and yield points. spec/ lists no ROM: a routine whose path meets no
valid entry of DEV_PATCH_MATCH does what the rule of its instruction says, and one that is redirected runs here, on ROM words
and entry addresses that are free values (log entry 58). -/

namespace Sys2Proof.Machine

/-- The tag of a free word: E and G zero, and any type but a pointer's, which no code comes by this way (R50), and POISON, which
stands only where a word was lost (R58). -/
def freeTag (a : Nat) : BitVec 8 :=
  if (0x10 ≤ a % 64 && a % 64 < 0x30) || a % 64 = 0x32 then BitVec.ofNat 8 (a % 16) else BitVec.ofNat 8 (a % 64)

/-- A free word: an lw register whose contents a rule leaves open (log entry 8). -/
def State.freeWord (s : State) : Word × State :=
  let (a, s) := s.freeNat
  let (b, s) := s.freeNat
  (⟨freeTag a, BitVec.ofNat 64 b⟩, s)

/-! The control store. -/

/-- The routines of R227. -/
inductive Routine where
  | assist | barrier | log | memq | assq | llen | vfill | vcopy | twalk | entry | stairhead | spill | fill | scan
  deriving DecidableEq, Repr

/-- The number under which the entry address of a routine stands in Config. -/
def Routine.code : Routine → Nat
  | .assist => 0 | .barrier => 1 | .log => 2 | .memq => 3 | .assq => 4 | .llen => 5 | .vfill => 6 | .vcopy => 7
  | .twalk => 8 | .entry => 9 | .stairhead => 10 | .spill => 11 | .fill => 12 | .scan => 13

/-- The requester under which sectors that a routine stores into enter the Crib (R238, R276). -/
def Routine.req : Routine → CribReq
  | .barrier | .log | .scan => .bar
  | .spill | .fill => .ctx
  | _ => .mut

/-- The target of the lowest valid PATCH_MATCH entry of a core for a ROM address (R241). -/
def Core.redirect (c : Core) (a : Nat) : Option Nat :=
  ((List.range 64).find? (fun k => bit (look 0 c.pmatch k) 63 && fld (look 0 c.pmatch k) 12 0 = a)).map
    (fun k => fld (look 0 c.pmatch k) 28 16)

/-- A core has a valid PATCH_MATCH entry. -/
def Core.patched (c : Core) : Bool := c.pmatch.any (fun e => bit e.2 63)

/-- Fields of a microword (R231). -/
structure Microword where
  op : Nat
  a : Nat
  b : Nat
  c : Nat
  cmt : Bool
  yld : Bool
  next : Nat
  deriving DecidableEq, Repr

/-- A microword taken apart. -/
def microword (w : BitVec 40) : Microword :=
  let v := w.setWidth 64
  ⟨fld v 39 34, fld v 33 28, fld v 27 22, fld v 21 16, bit v 15, bit v 14, fld v 12 0⟩

/-- What the sequencer holds while it runs a segment (R233, R234, R236 to R238): temporaries, sectors held (the virtual and
the physical sector address, and whether for a store), microwords left in the committed portion, the landing being entered,
the latches, and whether a fetch of the routine was redirected. -/
structure Sequencer where
  temps : Table Word
  held : List (Nat × Nat × Bool)
  left : Option Nat
  landing : Nat
  va : BitVec 64
  cause : Nat
  moved : Bool
  deriving DecidableEq, Repr

/-- The sequencer at the start of a segment after a yield point: no temporary and no latch carries over (R234), and no sector
is held (R238). -/
def State.newSegment (s : State) (m : Sequencer) : Sequencer × State :=
  let (va, s) := s.freeNat
  let (cause, s) := s.freeNat
  ({ m with temps := [], held := [], left := none, va := BitVec.ofNat 64 va, cause := cause % 64 }, s)

/-- The fetch of a microword of core p (R229, R230, R235, R241): none at an uncorrectable error of the patch RAM. -/
def State.microFetch (s : State) (p : Nat) (m : Sequencer) (a : Nat) : Option Microword × Sequencer × State :=
  let c := s.core p
  let hit := if a < 0x1800 then c.redirect a else none
  let m := { m with moved := m.moved || hit.isSome }
  let a := hit.getD a
  if a < 0x1800 then (some (microword (Config.romWord s.part.stepping.toNat a)), m, s)
  else match look 0 c.pramErr a with
    | 0 => (some (microword (look 0 c.pram a)), m, s)
    | 1 =>
      (some (microword (look 0 c.pram a)), m,
        s.note { code := 0x034, cls := .corrected, source := 1, inst := p, detail := BitVec.ofNat 64 a })
    | _ => (none, m, s)

/-! Micro-registers (R233). -/

/-- An architectural register of R233. -/
def microArch (n : Nat) : Bool := n < 0x2E

/-- The landing in use (R196): LS in the stairhead, else L3, else L(LUSE - 1). -/
inductive Landing where
  | none
  | ls
  | own (k : Nat)
  deriving DecidableEq, Repr

/-- The current landing of a context. -/
def State.landing (s : State) (r : Run) : Landing :=
  let lc := (s.regs r).landctl
  if stSth (s.status r) then .ls
  else if lcL3 lc then .own 3
  else if lcUse lc = 0 then .none
  else .own (lcUse lc - 1)

/-- The number under which the sequencer keeps a landing: 4 is the stairhead's, 5 none. -/
def Landing.number : Landing → Nat
  | .none => 5
  | .ls => 4
  | .own k => k

/-- A landing word of the landing that the sequencer works on; none in use reads NIL (R196). -/
def State.microLw (s : State) (r : Run) (k j : Nat) : Word :=
  if k = 5 then nil else if k = 4 then look Word.fix0 (s.core r.p).lsLw j else (s.regs r).getLw k j

/-- That landing word written. -/
def State.setMicroLw (s : State) (r : Run) (k j : Nat) (w : Word) : State :=
  if k = 5 then s
  else if k = 4 then s.setCore r.p { s.core r.p with lsLw := put Word.fix0 (s.core r.p).lsLw j w }
  else s.setRegs r ((s.regs r).putLw k j w) g6

/-- A micro-register read; an undefined temporary is a free value that stays as read. -/
def State.microRead (s : State) (r : Run) (m : Sequencer) (n : Nat) : Word × Sequencer × State :=
  let x := s.regs r
  if n < 0x20 then (x.getW n, m, s)
  else if n < 0x28 then (s.microLw r m.landing (n - 0x20), m, s)
  else if n = 0x28 then (fixN x.pc.toNat, m, s)
  else if n = 0x29 then (fix x.status, m, s)
  else if n = 0x2A then (fixN x.cnt.toNat, m, s)
  else if n = 0x2B then (fixN x.slim.toNat, m, s)
  else if n = 0x2C then (fixN x.allocp.toNat, m, s)
  else if n = 0x2D then (fixN x.allocl.toNat, m, s)
  else if n = 0x2E then (fix m.va, m, s)
  else if n = 0x2F then (fixN m.cause, m, s)
  else if n = 0x3F then (Word.fix0, m, s)
  else match m.temps.find? (fun e => e.1 = n) with
    | some (_, w) => (w, m, s)
    | none =>
      let (w, s) := s.freeWord
      (w, { m with temps := insert m.temps n w }, s)

/-- A micro-register written; the constant discards. -/
def State.microWrite (s : State) (r : Run) (m : Sequencer) (n : Nat) (w : Word) : Sequencer × State :=
  let x := s.regs r
  let a := BitVec.ofNat 44 w.payload.toNat
  if n < 0x20 then (m, s.setRegs r (x.putW n w) (groupOfW n))
  else if n < 0x28 then (m, s.setMicroLw r m.landing (n - 0x20) w)
  else if n = 0x28 then (m, s.setPc r a)
  else if n = 0x29 then (m, s.setStatus r w.payload)
  else if n = 0x2A then (m, s.setRegs r { x with cnt := BitVec.ofNat 32 w.payload.toNat } g4)
  else if n = 0x2B then (m, s.setRegs r { x with slim := a } g4)
  else if n = 0x2C then (m, s.setRegs r { x with allocp := a } g4)
  else if n = 0x2D then (m, s.setRegs r { x with allocl := a } g4)
  else if n = 0x2E then ({ m with va := w.payload }, s)
  else if n = 0x2F then ({ m with cause := w.payload.toNat }, s)
  else if n = 0x3F then (m, s)
  else ({ m with temps := insert m.temps n w }, s)

/-! Operations (R232). -/

/-- How a microword ends: on to the next one, at the end of the routine, with its segment discarded, with a limit of R237
broken or core state lost, waiting for the outcome of a speculation, or with a cause. -/
inductive MicroStep where
  | next (a : Nat)
  | finish
  | discard
  | breach
  | stall
  | raise (t : Trap)

/-- The payload of an arithmetic operation 0x01 to 0x0A; MULH is signed, and a shift by more than 63 gives a free value (log
entry 58). -/
def aluOp (op : Nat) (x y : BitVec 64) (free : Nat) : BitVec 64 :=
  let n := y.toNat
  if op = 1 then x + y
  else if op = 2 then x - y
  else if op = 3 then x &&& y
  else if op = 4 then x ||| y
  else if op = 5 then x ^^^ y
  else if (op = 6 || op = 7 || op = 8) && 64 ≤ n then BitVec.ofNat 64 free
  else if op = 6 then x <<< n
  else if op = 7 then x >>> n
  else if op = 8 then x.sshiftRight n
  else if op = 9 then x * y
  else BitVec.ofInt 64 (x.toInt * y.toInt / 2 ^ 64)

/-- A binary64 operation 0x0C to 0x0E. -/
def fpuOp (op : Nat) : GOp := if op = 0x0C then .add else if op = 0x0D then .sub else .mul

/-- The condition of a branch 0x20 to 0x27 on the words that A and B name, LT and GE signed (log entry 58). -/
def State.microCond (s : State) (r : Run) (op : Nat) (x y : Word) : Bool :=
  if op = 0x20 then x.payload = y.payload
  else if op = 0x21 then x.payload ≠ y.payload
  else if op = 0x22 then x.payload.toInt < y.payload.toInt
  else if op = 0x23 then y.payload.toInt ≤ x.payload.toInt
  else if op = 0x24 then x.tag = y.tag
  else if op = 0x25 then x.isPtr
  else if op = 0x26 then x.isPtr && s.stale (.core r.p) r.hall x
  else (s.regs r).cnt = 0

/-- The physical address of a held word, and whether it is held for a store. -/
def Sequencer.heldAt (m : Sequencer) (addr : Nat) : Option (Nat × Bool) :=
  (m.held.find? (fun e => e.1 = addr / 64)).map (fun e => (64 * e.2.1 + addr % 64 / 8 * 8, e.2.2))

/-- The routines whose stores are Gleaner work (R228, R341, R388, R399): no conflict, and inside a speculation a store into
memory but for the heal of a tentative word. -/
def Routine.heals : Routine → Bool
  | .barrier | .log | .scan => true
  | _ => false

/-- A word that a routine writes into a sector it holds: tentative inside a speculation (R228), unless it is Gleaner work
(R399). -/
def State.microStore (s : State) (r : Run) (k : Routine) (pa : Nat) (w : Word) : State :=
  let plain := if k.heals then s.coreHeal r.p pa w else s.coreStore r.p k.req pa w
  match s.specOf r.scn with
  | some i => if k.heals && (s.tentative i pa).isNone then plain else s.setTentative i pa w
  | none => plain

/-- A word that a routine reads: the context's own tentative one inside a speculation, or the word of MEMORY, whose sector joins
the read set where the routine is no Gleaner work (R228, R385). -/
def State.microLoad (s : State) (r : Run) (k : Routine) (pa : Nat) : Word × State :=
  match s.specOf r.scn with
  | none => s.heldLoad r.p pa
  | some i =>
    match s.tentative i pa with
    | some w => (w, s)
    | none =>
      let (w, s) := s.heldLoad r.p pa
      (w, if k.heals then s else s.setR i pa)

/-- The Gallery line that an access of a routine needs inside a speculation (R384, R385): none where it cannot be taken. -/
def State.microLine (s : State) (r : Run) (k : Routine) (pa : Nat) : Option State :=
  match s.specOf r.scn with
  | none => some s
  | some i => if k.heals then some s else s.takeLine i pa

/-- HOLD (R232, R238): a sector already held, a ninth that is refused and sends the routine its alternative way, or the
acquisition in the coherence state that the access needs; in the committed portion only the first keeps the limits of R237. -/
def State.microHold (s : State) (r : Run) (k : Routine) (m : Sequencer) (addr : BitVec 64) (store : Bool) (next : Nat) :
    MicroStep × Sequencer × State :=
  let a := addr.toNat
  let had := match m.heldAt a with
    | some (_, b) => b || !store
    | none => false
  if had then (.next next, m, s)
  else if m.left.isSome then (.breach, m, s)
  else if 8 ≤ m.held.length && (m.heldAt a).isNone then
    let (f, s) := s.freeNat
    (.next (f % 8192), m, s)
  else match s.dataPa r (stStair (s.status r)) (a / 8 * 8 : Nat) store false with
    | .trap t => (.raise t, m, s)
    | .pa pa =>
      if regionOf s.part pa ≠ .memory then (.raise (mkTrap 0x0A addr (accessWord store false)), m, s)
      else match s.microLine r k pa with
        | none => (.stall, m, s.countStall r.hall)
        | some s =>
          let s := if store && (s.specOf r.scn).isNone then s.heldOwn r.p pa else (s.heldLoad r.p pa).2
          (.next next, { m with held := (a / 64, pa / 64, store) :: m.held.filter (fun e => e.1 ≠ a / 64) }, s)

/-- LDH, STH, ORH and XCH at an address (R232): only in a sector that is held, and a store only in the committed portion
(R236, R237). -/
def State.microHeld (s : State) (r : Run) (k : Routine) (m : Sequencer) (w : Microword) (addr : Nat) (x : Word) :
    MicroStep × Sequencer × State :=
  match m.heldAt addr with
  | none => (.breach, m, s)
  | some (pa, forStore) =>
    if w.op = 0x19 then
      if microArch w.a && m.left.isNone then (.breach, m, s)
      else
        let (v, s) := s.microLoad r k pa
        let (m, s) := s.microWrite r m w.a v
        (.next w.next, m, s)
    else if m.left.isNone || !forStore then (.breach, m, s)
    else if w.op = 0x1A then (.next w.next, m, s.microStore r k pa x)
    else
      let (v, s) := s.microLoad r k pa
      if w.op = 0x1B then
        (.next w.next, m, if v.type = 0x32 then s else s.microStore r k pa ⟨v.tag, v.payload ||| x.payload⟩)
      else
        let s := s.microStore r k pa x
        let (m, s) := s.microWrite r m w.a v
        (.next w.next, m, s)

/-- WALKSTEP (R232): a page-table word at a physical address; outside MEMORY a free word (log entry 58). -/
def State.microWalk (s : State) (r : Run) (m : Sequencer) (a : BitVec 64) : Option Word × State :=
  let pa := wordOf a.toNat
  let held := m.held.any (fun e => e.2.1 = pa / 64)
  if m.left.isSome && !held then (none, s)
  else if regionOf s.part pa ≠ .memory then
    let (w, s) := s.freeWord
    (some w, s)
  else
    let (w, s) := s.coreLoad r.p .mut pa
    (some w, s)

/-- The word an operation puts into A, where it only computes: 0x01 to 0x15, with tag 0x01 for 0x0C to 0x0F (log entry 58).
`old`: what A holds; `x`, `y`: what B and C name. -/
def microResult (w : Microword) (old x y : Word) (free : Nat) : Word :=
  if w.op ≤ 0x0A then ⟨old.tag, aluOp w.op x.payload y.payload free⟩
  else if w.op = 0x0B then ⟨old.tag, Config.microOrder (ccInt x.payload.toInt y.payload.toInt)⟩
  else if w.op ≤ 0x0E then ⟨0x01, floatOp (fpuOp w.op) x.payload y.payload⟩
  else if w.op = 0x0F then ⟨0x01, fixToB64 x.payload⟩
  else if w.op = 0x10 then fixN x.tag.toNat
  else if w.op = 0x11 then ⟨Config.microTag w.c x, old.payload⟩
  else if w.op = 0x12 then fix (Config.microFlag x.malformed)
  else if w.op = 0x13 then fix (Config.microFlag x.isPtr)
  else if w.op = 0x14 then fixN w.c
  else x

/-- EVT (R232): an event to the event router, of the kind that C/IMM selects; spec/ lists no kinds (log entry 58). -/
def State.microEvent (s : State) (r : Run) (kind : Nat) : State := s.event r.hall "MICROCODE" kind

/-- One microword in its portion of the segment (R232, R236, R237); an ABORT in the committed portion, which nothing may
discard, goes on at NEXT (log entry 58). -/
def State.microStep (s : State) (r : Run) (k : Routine) (m : Sequencer) (w : Microword) : MicroStep × Sequencer × State :=
  let (old, m, s) := s.microRead r m w.a
  let (x, m, s) := s.microRead r m w.b
  if w.op = 0 then (.next w.next, m, s)
  else if w.op ≤ 0x15 then
    if microArch w.a && m.left.isNone then (.breach, m, s)
    else
      let (y, m, s) := s.microRead r m w.c
      let (f, s) := s.freeNat
      let (m, s) := s.microWrite r m w.a (microResult w old x y f)
      (.next w.next, m, s)
  else if w.op = 0x18 then s.microHold r k m x.payload (w.c % 2 = 1) w.next
  else if 0x19 ≤ w.op && w.op ≤ 0x1C then s.microHeld r k m w (x.payload.toNat + 8 * w.c) old
  else if w.op = 0x1D then
    if microArch w.a && m.left.isNone then (.breach, m, s)
    else match s.microWalk r m x.payload with
      | (none, s) => (.breach, m, s)
      | (some v, s) =>
        let (m, s) := s.microWrite r m w.a v
        (.next w.next, m, s)
  else if 0x20 ≤ w.op && w.op ≤ 0x27 then
    (.next (if s.microCond r w.op old x then w.next / 2 * 2 + 1 else w.next), m, s)
  else if w.op = 0x30 then
    if m.left.isSome then (.breach, m, s) else (.raise (mkTrap w.c m.va x), m, s)
  else if w.op = 0x31 then
    if m.left.isNone then (.breach, m, s) else (.next w.next, m, s.setMicroLw r m.landing (w.c % 8) x)
  else if w.op = 0x32 then (.next w.next, m, s.microEvent r w.c)
  else if w.op = 0x3E then (if m.left.isSome then .next w.next else .discard, m, s)
  else if w.op = 0x3F then (.finish, m, s)
  else (.breach, m, s)

/-! Segments (R235 to R238). -/

/-- How a routine ends: done; a cause; left on its instruction, at a yield point (true) or with its segment discarded; waiting
for the outcome of a speculation; or with the core failed. -/
inductive MicroEnd where
  | done (s : State)
  | trap (t : Trap) (s : State)
  | stop (yielded : Bool) (s : State)
  | hold (s : State)
  | failed (s : State)

/-- One microword, fetched and run: how it ends, and whether a yield point follows it. -/
def State.microOne (s : State) (r : Run) (k : Routine) (m : Sequencer) (a : Nat) : MicroStep × Bool × Sequencer × State :=
  match s.microFetch r.p m a with
  | (none, m, s) => (.breach, false, m, s)
  | (some w, m, s) =>
    let m := if w.cmt && m.left.isNone then { m with left := some 48 } else m
    if m.left = some 0 then (.breach, false, m, s)
    else
      let (x, m, s) := s.microStep r k { m with left := m.left.map (· - 1) } w
      (x, w.yld, m, s)

/-- How a segment ends: at a yield point, with the address of the next segment, or with the routine. -/
inductive SegmentEnd where
  | yields (a : Nat) (m : Sequencer) (s : State)
  | ends (e : MicroEnd) (moved : Bool)

/-- Runs a segment from an address. Its abortable portion changes no architectural state, so that a discard leaves what stands
(R236); one that never ends is discarded in the end by an interrupt (log entry 58). -/
def State.segmentRun (r : Run) (k : Routine) : Nat → State → Sequencer → Nat → SegmentEnd
  | 0, s, m, _ => .ends (.stop false s) m.moved
  | n + 1, s, m, a =>
    if m.left.isNone && n < 49 then .ends (.stop false s) m.moved
    else match s.microOne r k m a with
      | (.breach, _, m, s) => .ends (.failed (s.coreFails r.p)) m.moved
      | (.raise t, _, m, s) => .ends (.trap t s) m.moved
      | (.stall, _, m, s) => .ends (.hold s) m.moved
      | (.discard, _, m, s) => .ends (.stop false s) m.moved
      | (.finish, _, m, s) => .ends (.done s) m.moved
      | (.next a, true, m, s) => .yields a m s
      | (.next a, false, m, s) => State.segmentRun r k n s m a

/-- Microwords that a segment runs before an interrupt discards it. -/
def segmentFuel : Nat := 65536 + 49

/-- Runs a routine from an address, and whether its path was redirected; `stop`: an interrupt is taken at the yield point of that
number. -/
def State.microRun (r : Run) (k : Routine) : Nat → State → Sequencer → Nat → Option Nat → MicroEnd × Bool
  | 0, s, m, _, _ => (.stop true s, m.moved)
  | n + 1, s, m, a, stop =>
    match State.segmentRun r k segmentFuel s m a with
    | .ends e b => (e, b)
    | .yields a m s =>
      if stop = some 1 then (.stop true s, m.moved)
      else
        let (m, s) := s.newSegment m
        State.microRun r k n s m a (stop.map (· - 1))

/-- A routine under the patch set of its core (R241), with the landing being entered or the current one (R233): none where no
microword on its path is redirected, so that the routine of the ROM runs. -/
def State.microcode (s : State) (r : Run) (k : Routine) (landing : Nat) (va : BitVec 64) (cause : Nat) (stop : Option Nat) :
    Option MicroEnd :=
  if !(s.core r.p).patched then none
  else
    let m : Sequencer := ⟨[], [], none, landing, va, cause, false⟩
    match State.microRun r k (2 ^ 64) s m (Config.routineEntry s.part.stepping.toNat k.code % 0x1800) stop with
    | (e, true) => some e
    | (_, false) => none

/-- A routine of an instruction or of its barriers, with the current landing. -/
def State.routine (s : State) (r : Run) (k : Routine) (va : BitVec 64) (stop : Option Nat) : Option MicroEnd :=
  s.microcode r k (s.landing r).number va 0 stop

/-- An instruction that runs as a routine (R227): `rom`: what the ROM does; `pc`: the next PC; `long`: STATUS.RES is set at a
yield point and cleared at the end (R134). -/
def State.asRoutine (s : State) (r : Run) (k : Routine) (pc : BitVec 44) (long : Bool) (stop : Option Nat)
    (rom : Res (BitVec 44)) : Res (BitVec 44) :=
  match s.routine r k 0 stop with
  | none => rom
  | some (.done s) => .ok pc (if long then s.setRes r false else s)
  | some (.trap t s) => .trap t s
  | some (.stop y s) => .stop (if y && long then s.setRes r true else s)
  | some (.hold s) => .hold s
  | some (.failed s) => .stop s

/-- What a routine under a barrier or a store gives its instruction: none where the ROM's runs. -/
def MicroEnd.part : MicroEnd → Res Unit
  | .done s => .ok () s
  | .trap t s => .trap t s
  | .stop _ s => .stop s
  | .hold s => .hold s
  | .failed s => .stop s

/-- A background routine: whether it ended, and the state. `rom`: what the ROM does. A discarded segment runs again at the next
slice; a cause that the routine raises has no instruction to be taken on, and fails the core (R237; log entry 58). -/
def State.asSlice (s : State) (r : Run) (k : Routine) (rom : State) : Bool × State :=
  match s.routine r k 0 none with
  | none => (true, rom)
  | some (.done t) => (true, t)
  | some (.trap _ t) => (false, t.coreFails r.p)
  | some (.stop _ t) => (false, t)
  | some (.hold t) => (false, t)
  | some (.failed t) => (false, t)

end Sys2Proof.Machine
end

