-- ==== Sys2Proof/Machine/Router.lean ====
section
/-! DEFINITION. The event router (spec/05_contexts.md): descriptor layout and register selectors (R164, R187), value
checks of fills and windows (R163), spill and fill (R179 to R182), wake-ups (R176), context commands (R168 to R172,
R177, R178) and scheduling (R173, R174). -/

namespace Sys2Proof.Machine

/-! Selectors of R187 and descriptor slots of R164. -/

/-- A selector names a register of the bank window (R187); 0x26 SPECK is read only. -/
def selOk (sel : Nat) : Bool :=
  sel ≤ 0x29 || (0x30 ≤ sel && sel ≤ 0x36) || (0x40 ≤ sel && sel < 0x80 && sel % 16 ≤ 8) || sel = 0x7F

/-- The descriptor slot of a selector. -/
def selSlot (sel : Nat) : Nat :=
  if sel < 0x20 then sel + 1
  else if sel < 0x30 then sel - 0x20 + 33
  else if sel < 0x40 then sel - 0x30 + 43
  else if sel = 0x7F then 50
  else 51 + 9 * ((sel - 0x40) / 16) + sel % 16

/-- The selector of a descriptor slot from 1 to 86. -/
def slotSel (k : Nat) : Nat :=
  if k ≤ 32 then k - 1
  else if k ≤ 42 then k - 33 + 0x20
  else if k ≤ 49 then k - 43 + 0x30
  else if k = 50 then 0x7F
  else 0x40 + 0x10 * ((k - 51) / 9) + (k - 51) % 9

/-- The dirty group of a selector (R162). -/
def selGroup (sel : Nat) : BitVec 7 :=
  if sel < 0x20 then groupOfW sel else if sel < 0x30 then g4 else if sel < 0x40 then g5 else g6

/-- The word a selector reads (R163: every register but w and lw reads as FIX). -/
def Regs.selWord (x : Regs) (sel : Nat) : Word :=
  if sel < 0x20 then x.getW sel
  else if sel = 0x20 then fixN x.pc.toNat
  else if sel = 0x21 then fix x.status
  else if sel = 0x22 then fixN x.cnt.toNat
  else if sel = 0x23 then fixN x.slim.toNat
  else if sel = 0x24 then fixN x.allocp.toNat
  else if sel = 0x25 then fixN x.allocl.toNat
  else if sel = 0x26 then fixN x.speck.toNat
  else if sel = 0x27 then fixN x.bankwin.toNat
  else if sel = 0x28 then fix x.wait
  else if sel = 0x29 then fixN x.msgp.toNat
  else if sel = 0x30 then fixN x.sh1pc.toNat
  else if sel = 0x31 then fix x.sh1sp
  else if sel = 0x32 then fix x.sh1status
  else if sel = 0x33 then fixN x.sh2pc.toNat
  else if sel = 0x34 then fix x.sh2sp
  else if sel = 0x35 then fix x.sh2status
  else if sel = 0x36 then fixN x.shuse.toNat
  else if sel = 0x7F then fix x.landctl
  else if sel % 16 = 8 then fixN (x.getLf ((sel - 0x40) / 16)).toNat
  else x.getLw ((sel - 0x40) / 16) (sel % 16)

/-- A STATUS value that arrives by WPUT, a fill or XRET: STH 0, and TOFF 0 when STAIR is below 2 (R193). -/
def arriveStatus (v : BitVec 64) : BitVec 64 :=
  let v := setBit v 8 false
  if stStair v < 2 then setBit v 7 false else v

/-- A STATUS as R163 stores it over an old value: reserved bits are not written, a reserved STAIR keeps the old one. -/
def checkedStatus (old v : BitVec 64) : BitVec 64 × Bool :=
  let bad := fld v 63 22 ≠ 0 || fld v 15 9 ≠ 0
  let n := setFld (setFld v 63 22 0) 15 9 0
  if stStair v = 3 then (arriveStatus (setFld n 1 0 (stStair old)), true) else (arriveStatus n, bad)

/-- A WAIT value names an event of R175 with nothing outside its argument; 0 is no wait. -/
def waitOk (v : BitVec 64) : Bool :=
  let k := fld v 63 60
  if k = 1 then true
  else if k = 2 then fld v 59 0 < 32
  else if k = 3 then fld v 59 32 = 0 && fld v 31 0 ≠ 0
  else if k = 4 then fld v 59 35 = 0
  else false

/-- The address rule of PC and SHn_PC in R163. -/
def pcOk (v : BitVec 64) : Bool := !bit v 0 && fld v 63 44 = 0

/-- The address rule of SLIM, ALLOCP, ALLOCL and LF in R163. -/
def alignedOk (v : BitVec 64) : Bool := fld v 2 0 = 0 && fld v 63 44 = 0

/-- Writes a selector under R163 over the registers: the registers and whether something was refused. Under a fill
LANDCTL.L3 is loaded; a WPUT leaves it, as read-only. -/
def Regs.selPut (x : Regs) (sel : Nat) (w : Word) (fill : Bool) : Regs × Bool :=
  let v := w.payload
  let a : BitVec 44 := BitVec.ofNat 44 v.toNat
  if sel < 0x20 then (x.putW sel w, false)
  else if sel = 0x20 then if pcOk v then ({ x with pc := a }, false) else (x, true)
  else if sel = 0x21 then
    let (n, b) := checkedStatus x.status v
    ({ x with status := n }, b)
  else if sel = 0x22 then
    if v.toNat < 2 ^ 32 then ({ x with cnt := BitVec.ofNat 32 v.toNat }, false) else (x, true)
  else if sel = 0x23 then if alignedOk v then ({ x with slim := a }, false) else (x, true)
  else if sel = 0x24 then if alignedOk v then ({ x with allocp := a }, false) else (x, true)
  else if sel = 0x25 then if alignedOk v then ({ x with allocl := a }, false) else (x, true)
  else if sel = 0x26 then (if fill then { x with speck := BitVec.ofNat 32 v.toNat } else x, false)
  else if sel = 0x27 then
    if v.toNat < 2 ^ 16 then ({ x with bankwin := BitVec.ofNat 16 v.toNat }, false) else (x, true)
  else if sel = 0x28 then if v = 0 || waitOk v then ({ x with wait := v }, false) else (x, true)
  else if sel = 0x29 then
    if v.toNat < 2 ^ 32 then ({ x with msgp := BitVec.ofNat 32 v.toNat }, false) else (x, true)
  else if sel = 0x30 then if pcOk v then ({ x with sh1pc := a }, false) else (x, true)
  else if sel = 0x31 then ({ x with sh1sp := v }, false)
  else if sel = 0x32 then
    let (n, b) := checkedStatus x.sh1status v
    ({ x with sh1status := n }, b)
  else if sel = 0x33 then if pcOk v then ({ x with sh2pc := a }, false) else (x, true)
  else if sel = 0x34 then ({ x with sh2sp := v }, false)
  else if sel = 0x35 then
    let (n, b) := checkedStatus x.sh2status v
    ({ x with sh2status := n }, b)
  else if sel = 0x36 then ({ x with shuse := BitVec.ofNat 2 v.toNat }, fld v 63 2 ≠ 0)
  else if sel = 0x7F then
    let n := setFld (setFld 0 15 8 (lcDepth v)) 1 0 (lcUse v)
    ({ x with landctl := setBit n 2 (if fill then lcL3 v else lcL3 x.landctl) },
      fld v 63 16 ≠ 0 || fld v 7 3 ≠ 0)
  else if 0x40 ≤ sel && sel % 16 = 8 then
    if alignedOk v then (x.putLf ((sel - 0x40) / 16) a, false) else (x, true)
  else if 0x40 ≤ sel then (x.putLw ((sel - 0x40) / 16) (sel % 16) w, false)
  else (x, false)

/-! Slots. -/

/-- Slots of an LCN's context store that a hall owns. -/
def State.slotsOwned (s : State) (h lcn : Nat) : Nat :=
  ((List.range 64).filter (fun k => (s.slot (lcn * 64 + k)).owner = h)).length

/-- The CONTEXTS share of a hall has changed (R411). -/
def State.slotShare (s : State) (h lcn : Nat) : State :=
  if h = 0 then s else s.shareChanged h 1 (s.slotsOwned h lcn)

/-- Frees a slot; a pending change of owner takes place (R413). -/
def State.freeSlot (s : State) (n : Nat) : State :=
  let sl := s.slot n
  match sl.pend with
  | none => s.setSlot n { Slot.reset with owner := sl.owner }
  | some h =>
    let s := s.setSlot n { Slot.reset with owner := h }
    if h = sl.owner then s else (s.slotShare sl.owner (n / 64)).slotShare h (n / 64)

/-! Spill. -/

/-- Stores a word of a descriptor at a spill, through the write barrier (R165, R181). -/
def State.spillWord (s : State) (p h scn pa : Nat) (w : Word) : State :=
  if s.compat h then s.storeAs (.core p) .ctx h pa w false
  else match s.convert (.core p) h w with
    | (.good v, s) => s.storeLogged (.core p) .ctx h pa w v true
    | (.assist r, s) =>
      let (v, s) := s.poisonStale h scn pa r
      s.storeLogged (.core p) .ctx h pa w v true

/-- Stores the slots of the groups whose dirty bits are set (R180). -/
def State.spillSlots (s : State) (p h scn desc : Nat) (x : Regs) (dirty : BitVec 7) : List Nat → State
  | [] => s
  | k :: ks =>
    let s := if dirty &&& selGroup (slotSel k) = 0 then s
      else s.spillWord p h scn (descSlot desc k) (x.selWord (slotSel k))
    s.spillSlots p h scn desc x dirty ks

/-- Spills a resident context that is not Running, with the resume state it leaves (R181); one whose redirected routine does not
end stays resident. -/
def State.spill (s : State) (scn : Nat) : State :=
  let c := s.ctx scn
  let sl := s.slot c.hcn
  let p := s.pcnOf c.hcn
  let (done, s) := s.asSlice ⟨p, c.hcn, scn, c.hall⟩ .spill
    (s.spillSlots p c.hall scn c.desc sl.regs sl.dirty ((List.range 86).map (· + 1)))
  if !done then s else
  let s := s.setCtx scn { s.ctx scn with st := .spilled, resume := c.st }
  let s := s.storeAs (.core (s.pcnOf c.hcn)) .ctx c.hall (descSlot c.desc 0) (s.ctx scn).control false
  let s := s.freeSlot c.hcn
  if c.st = .ready then s.demand scn else s

/-! Fill. -/

/-- Loads descriptor slots into registers, healing pointers; collects the first refused selector and the record index
of the last word that became POISON (R163, R165, R328, R499). -/
def State.fillSlots (s : State) (p h scn desc : Nat) (x : Regs) (refused : Option Nat) (mchk : Option Nat) :
    List Nat → Regs × Option Nat × Option Nat × State
  | [] => (x, refused, mchk, s)
  | k :: ks =>
    let pa := descSlot desc k
    let (w, s) := s.heldLoad p pa
    let lost := w.type = 0x32 && s.stored pa = .uncorrectable
    let (w, bad, s) := if s.compat h then (strip true w, false, s) else s.takeIn (.core p) h scn pa w true
    let (x, r) := x.selPut (slotSel k) w true
    s.fillSlots p h scn desc x (if r && refused.isNone then some (slotSel k) else refused)
      (if lost || bad then some (w.payload.toNat % 65536) else mchk) ks

/-- A region whose bin is no longer OPEN is retired (R314). -/
def State.retireRegion (s : State) (h : Nat) (x : Regs) : Regs :=
  let w := fixN x.allocp.toNat
  if !s.compat h && x.allocp ≠ x.allocl && !(s.isHeap h w && (s.binOf (s.heapPa h w)).state = .opened) then
    { x with allocl := x.allocp }
  else x

/-- The resume state that CONTROL gives (R164): a wait that the event router does not keep, and a reserved code, leave the
router's own (log entry 50). -/
def SwCtx.resumeFrom (c : SwCtx) (w : Word) : CtxState :=
  if w.type = 0x32 then c.resume
  else match fld w.payload 6 4 with
    | 1 => .parked
    | 2 => .ready
    | 4 => if c.wait.isSome then .waiting else c.resume
    | _ => c.resume

/-- A fill reads CONTROL: RESUME and PRIO of the context, and the record index of a word lost to an error (R164). -/
def State.readControl (s : State) (p scn : Nat) : Option Nat × State :=
  let c := s.ctx scn
  let pa := descSlot c.desc 0
  let (w, s) := s.heldLoad p pa
  let lost := w.type = 0x32
  let st := c.resumeFrom w
  (if lost then some (w.payload.toNat % 65536) else none,
    s.setCtx scn { s.ctx scn with resume := st, prio := if lost then c.prio else fld w.payload 2 0,
                                  wait := if st = .waiting then c.wait else none })

/-- What a fill loads into its slot: the registers, the first selector refused, and the record index of a word that was lost. -/
structure Loaded where
  regs : Regs
  refused : Option Nat
  lost : Option Nat

/-- The registers that a fill loads into slot n (R227): those of the descriptor's slots 1 to 86, or, under a patch that
redirects the routine, those that the sequencer leaves; none where that routine does not end. -/
def State.fillRegs (s : State) (p n scn : Nat) (c : SwCtx) (lost : Option Nat) : Option Loaded × State :=
  let fresh := s.setSlot n { s.slot n with scn := some scn, regs := Regs.zero }
  match fresh.routine ⟨p, n, scn, c.hall⟩ .fill 0 none with
  | none =>
    let (x, refused, mchk, s) := s.fillSlots p c.hall scn c.desc Regs.zero none lost ((List.range 86).map (· + 1))
    (some ⟨x, refused, mchk⟩, s)
  | some (.done t) => (some ⟨(t.slot n).regs, none, lost⟩, t)
  | some (.trap _ t) => (none, (t.coreFails p).freeSlot n)
  | some (.stop _ t) => (none, t.freeSlot n)
  | some (.hold t) => (none, t.freeSlot n)
  | some (.failed t) => (none, t.freeSlot n)

/-- A fill completes in slot n (R182). -/
def State.fillDone (s : State) (scn n : Nat) (l : Loaded) : State :=
  let p := s.pcnOf n
  let c := s.ctx scn
  let x := s.retireRegion c.hall { l.regs with speck := 0 }
  let s := match l.refused with
    | none => s
    | some sel => s.countRsv 1 (scn + 65536 * sel)
  let s := s.setSlot n { s.slot n with scn := some scn, dirty := 0, unchecked := true, regs := x,
                                       scan := (s.glh c.hall).phase = .flip && (s.core p).flipped.contains c.hall }
  let st := c.resume
  let s := s.setCtx scn { s.ctx scn with st := if st = .ready then .waiting else st, hcn := n, fillPending := false,
                                         fillLcn := 0xFF }
  let s := if st = .ready then s.makeReady scn else s
  match l.lost with
  | none => s
  | some i => s.alertCore scn 0x20 (fixN i)

/-- Fills a Spilled context into slot n (R182); one whose redirected routine does not end stays Spilled, its fill pending. -/
def State.fill (s : State) (scn n : Nat) : State :=
  let p := s.pcnOf n
  let (lost, s) := s.readControl p scn
  match s.fillRegs p n scn (s.ctx scn) lost with
  | (some l, s) => s.fillDone scn n l
  | (none, s) => s.setCtx scn { s.ctx scn with fillPending := true }

/-! Wake-ups. -/

/-- Writes a register of a context by selector, in its slot or in its descriptor (R176, R179). -/
def State.putSel (s : State) (scn sel : Nat) (w : Word) : State :=
  let c := s.ctx scn
  if c.st = .spilled then s.agentStore (descSlot c.desc (selSlot sel)) w
  else
    let sl := s.slot c.hcn
    s.setSlot c.hcn { sl with regs := (sl.regs.selPut sel w true).1, dirty := sl.dirty ||| selGroup sel }

/-- Reads a register of a context by selector, in its slot or in its descriptor: none for a word that is POISON or that
the read could not deliver (R58). -/
def State.getSel (s : State) (scn sel : Nat) : Option (BitVec 64) × State :=
  let c := s.ctx scn
  if c.st = .spilled then
    let (w, s) := s.agentLoad (descSlot c.desc (selSlot sel))
    (if w.type = 0x32 then none else some w.payload, s)
  else (some ((s.slot c.hcn).regs.selWord sel).payload, s)

/-- Changes a register of a context by selector; a word that is lost stays lost. -/
def State.updateSel (s : State) (scn sel : Nat) (f : BitVec 64 → BitVec 64) : State :=
  match s.getSel scn sel with
  | (some v, s) => s.putSel scn sel (fix (f v))
  | (none, s) => s

/-- The waiting instruction completes: PC past it, DEBUG under single step (R175, R195); the context becomes Ready. -/
def State.completeWait (s : State) (scn : Nat) : State :=
  let (st, s) := (s.updateSel scn 0x20 (· + 4)).getSel scn 0x21
  let s := s.makeReady scn
  if st.any stSs then s.alertCore scn 0x24 (fixN 0) else s

/-- Delivers the MESSAGE event: the wake word, and the delivered bits leave MSGP (R176). -/
def State.deliverMessage (s : State) (scn : Nat) (mask : BitVec 32) : State :=
  match s.getSel scn 0x29 with
  | (none, s) => s
  | (some v, s) =>
    let m : BitVec 32 := BitVec.ofNat 32 v.toNat
    let d := m &&& mask
    let s := s.putSel scn 0x28 (fixN (3 * 2 ^ 60 + d.toNat))
    s.putSel scn 0x29 (fixN (m &&& ~~~d).toNat)

/-- Wakes one context whose event has come; `dt`: the crossing DT of a position (R154, R155, R176). -/
def State.wake (s : State) (scn dt : Nat) : State :=
  match (s.ctx scn).wait with
  | some (.message mask) => (s.deliverMessage scn mask).completeWait scn
  | some (.position _ rd) => (s.putSel scn rd (timeW dt)).completeWait scn
  | some (.crossing _) => (s.putSel scn 0x26 (fixN 0)).completeWait scn
  | some _ => s.completeWait scn
  | none => s

/-- The SCNs that wait for an event, in ascending order. -/
def State.waiters (s : State) (f : SwCtx → Wait → Bool) : List Nat :=
  keysWhere (fun _ c => match c.wait with
    | some w => (c.st = .waiting || c.st = .spilled) && f c w
    | none => false) s.ctxs

/-- Wakes every context that waits for an event (R176). -/
def State.wakeAll (s : State) (f : SwCtx → Wait → Bool) : State :=
  (s.waiters f).foldl (fun s n => s.wake n 0) s

/-- A doorbell ring: the queue's ring flag is set, and a wake-up clears it (R176). -/
def State.ring (s : State) (h q : Nat) : State :=
  let f := fun (c : SwCtx) (w : Wait) => c.hall = h && w = .doorbell q
  if (s.waiters f).isEmpty then
    if s.rings.contains (h * 32 + q) then s else { s with rings := (h * 32 + q) :: s.rings }
  else { s.wakeAll f with rings := s.rings.filter (· ≠ h * 32 + q) }

/-! Context commands. -/

/-- The code of RESULT (R168). -/
def State.setResult (s : State) (scn code : Nat) : State := s.setCtx scn { s.ctx scn with result := code }

/-- A Running context is switched out and becomes Ready (R174). -/
def State.preempt (s : State) (scn : Nat) : State :=
  let c := s.ctx scn
  if c.st = .running then (s.leaveCore (s.pcnOf c.hcn)).makeReady scn else s

/-- A Running context is the one a halted core was running (R222). -/
def State.onHalted (s : State) (scn : Nat) : Bool :=
  let c := s.ctx scn
  c.st = .running && (s.core (s.pcnOf c.hcn)).halt.isSome

/-- A resident context runs in the stairhead (R217). -/
def State.inStairhead (s : State) (scn : Nat) : Bool :=
  let c := s.ctx scn
  c.st = .running && stSth (s.slot c.hcn).regs.status

/-- SPILL (R170). -/
def State.cmdSpill (s : State) (scn : Nat) : State :=
  let c := s.ctx scn
  if c.st = .spilled || s.onHalted scn then s.setResult scn 2
  else if s.inStairhead scn then s.setCtx scn { c with result := 1, busy := c.busy ++ [.spill] }
  else if (s.specOf scn).isSome then s.setCtx scn { c with result := 4, deferred := c.deferred ++ [.spill] }
  else
    let s := (s.preempt scn).spill scn
    if (s.ctx scn).st = .spilled then s.setResult scn 0
    else s.setCtx scn { s.ctx scn with result := 1, deferred := (s.ctx scn).deferred ++ [.spill] }

/-- PARK (R170, R172). -/
def State.cmdPark (s : State) (scn : Nat) : State :=
  let c := s.ctx scn
  if c.st = .spilled || c.st = .parked || s.onHalted scn then s.setResult scn 2
  else if s.inStairhead scn then s.setCtx scn { c with result := 1, busy := c.busy ++ [.park] }
  else match c.wait with
    | some (.alloc _) => s.setCtx scn { c with result := 4, deferred := c.deferred ++ [.park] }
    | _ =>
      if (s.specOf scn).isSome then s.setCtx scn { c with result := 4, deferred := c.deferred ++ [.park] }
      else
        let s := s.preempt scn
        s.setCtx scn { s.ctx scn with st := .parked, wait := none, result := 0 }

/-- FILL (R170, R182). -/
def State.cmdFill (s : State) (scn arg : Nat) : State :=
  let c := s.ctx scn
  if c.st ≠ .spilled then s.setResult scn 2
  else
    let lcn := arg % 256
    match s.fillSlot scn (if lcn = 0xFF then none else some lcn) with
    | some n =>
      let s := s.fill scn n
      s.setResult scn (if (s.ctx scn).st = .spilled then 1 else 0)
    | none => (s.setCtx scn { c with result := 3, fillLcn := lcn }).fillBlocked scn

/-- RESUME (R170). -/
def State.cmdResume (s : State) (scn : Nat) : State :=
  let c := s.ctx scn
  if c.st = .parked || (c.st = .spilled && c.resume = .parked) then (s.makeReady scn).setResult scn 0
  else s.setResult scn 2

/-- SETPRIO (R170): a Ready context that is the first of its hall at the new level raises VT there (R173). -/
def State.cmdSetprio (s : State) (scn arg : Nat) : State :=
  let c := s.ctx scn
  let p := s.pcnOf c.hcn
  let first := c.st = .ready && !(s.readyHalls p (arg % 8)).contains c.hall
  let s := s.setCtx scn { c with prio := arg % 8, result := 0 }
  let s := if first then s.raiseVt p (arg % 8) c.hall else s
  if c.st = .spilled then s.writeControl scn else s

/-- POST (R177). -/
def State.cmdPost (s : State) (scn arg : Nat) : State :=
  let c := s.ctx scn
  let s := if c.st = .spilled then s.atomicOr (descSlot c.desc (selSlot 0x29)) (BitVec.ofNat 64 (arg % 2 ^ 32))
    else s.updateSel scn 0x29 (· ||| BitVec.ofNat 64 (arg % 2 ^ 32))
  let s := s.setResult scn 0
  match c.wait with
  | some (.message mask) =>
    let (m, s) := s.getSel scn 0x29
    if m.any (fun v => BitVec.ofNat 32 v.toNat &&& mask ≠ 0) then s.wake scn 0 else s
  | _ => s

/-- CANCEL (R178; log entry 18 for a crossing wait). -/
def State.cmdCancel (s : State) (scn : Nat) : State :=
  let c := s.ctx scn
  if c.st ≠ .waiting && !(c.st = .spilled && c.resume = .waiting) then s.setResult scn 2
  else match c.wait with
    | some (.position _ rd) => ((s.putSel scn rd unbound).completeWait scn).setResult scn 0
    | some (.crossing _) => ((s.putSel scn 0x26 (fixN 0)).completeWait scn).setResult scn 0
    | some (.timer _) | some (.doorbell _) | some (.message _) | some (.transfer _ _) =>
      ((s.putSel scn 0x28 (fixN 0)).completeWait scn).setResult scn 0
    | _ => s.setResult scn 2

/-- The first condition of R171 that a descriptor fails, in list order, or 6 for one that cannot be read. -/
def createFault (cores : Nat) (hdr w0 : Word) : Option Nat :=
  let v := w0.payload
  if hdr.type = 0x32 || w0.type = 0x32 then some 6
  else if hdr.type ≠ 0x30 || hdrLen hdr ≠ 95 || fld hdr.payload 15 8 ≠ 0 || !hdrPin hdr then some 1
  else if w0.tag ≠ 0 then some 2
  else if fld v 6 4 ≠ 1 && fld v 6 4 ≠ 2 then some 3
  else if fld v 15 8 ≠ 0xFF && cores ≤ fld v 15 8 then some 4
  else if fld v 63 16 ≠ 0 || bit v 7 || bit v 3 then some 5
  else none

/-- CREATE (R160, R170, R171): a word of the context table counts by its payload, whatever its tag (log entry 50). -/
def State.cmdCreate (s : State) (who : Initiator) (scn : Nat) : State :=
  if (s.ctx scn).st ≠ .none then s.setResult scn 2
  else
    let (t, s) := s.agentLoad (2 ^ 19 * s.rf Reg.evrCtxtab 39 19 + 8 * scn)
    let h := fld t.payload 62 57
    let desc := 1024 * fld t.payload 39 10
    if !bit t.payload 63 || s.part.hallMax < h || !s.hallCreated h then s.setResult scn 5
    else
      let (hdr, s) := s.agentLoad desc
      let (w0, s) := s.agentLoad (descSlot desc 0)
      match createFault s.part.cores hdr w0 with
      | some k =>
        (s.note { code := 0x036, cls := .contained, source := 0x0D, hall := s.initHall who, scn := scn, addr := desc,
                  detail := BitVec.ofNat 64 (s.initCode who + 65536 * k) }).setResult scn 6
      | none =>
        let ready := fld w0.payload 6 4 = 2
        let s := s.setCtx scn { SwCtx.reset with
          st := .spilled, resume := if ready then .ready else .parked, hall := h, prio := fld w0.payload 2 0,
          desc := desc, homeLcn := fld w0.payload 15 8 }
        if ready then s.demand scn else s

/-- RETIRE (R170). -/
def State.cmdRetire (s : State) (scn : Nat) : State :=
  let c := s.ctx scn
  if c.st = .spilled && c.resume = .parked then s.setCtx scn SwCtx.reset else s.setResult scn 2

/-- A context command past its initiator check (R170). -/
def State.ctxApply (s : State) (who : Initiator) (op : CtxOp) (scn arg : Nat) : State :=
  if op ≠ .create && (s.ctx scn).st = .none then s.setResult scn 5
  else match op with
    | .fill => s.cmdFill scn arg
    | .spill => s.cmdSpill scn
    | .park => s.cmdPark scn
    | .resume => s.cmdResume scn
    | .setprio => s.cmdSetprio scn arg
    | .post => s.cmdPost scn arg
    | .cancel => s.cmdCancel scn
    | .create => s.cmdCreate who scn
    | .retire => s.cmdRetire scn

/-- The initiators that may command an SCN (R169). -/
def State.mayCommand (s : State) (who : Initiator) (op : CtxOp) (scn : Nat) : Bool :=
  who = .pf || s.isCtxOf who 0 ||
    (op ≠ .create && op ≠ .retire && (s.ctx scn).st ≠ .none && s.isCtxOf who (s.ctx scn).hall)

/-- A context command (R168, R169). -/
def State.ctxCommand (s : State) (who : Initiator) (op : CtxOp) (scn arg : Nat) : State :=
  if s.mayCommand who op (scn % 65536) then s.ctxApply who op (scn % 65536) arg
  else s.refuseWrite who Reg.evrCtxCmd

/-- The commands deferred until an outcome or an allocation, applied afresh (R170, R172). -/
def State.applyDeferred (s : State) (scn : Nat) : State :=
  let c := s.ctx scn
  c.deferred.foldl (fun s op => s.ctxApply .pf op scn 0) (s.setCtx scn { c with deferred := [] })

/-- The commands kept BUSY while the context was in the stairhead (R217), in the order of their arrival; others that came
meanwhile were applied as they came (log entry 50). -/
def State.applyBusy (s : State) (scn : Nat) : State :=
  let c := s.ctx scn
  c.busy.foldl (fun s op => s.ctxApply .pf op scn 0) (s.setCtx scn { c with busy := [] })

/-- A deferred SPILL or PARK is applied when the outcome it waits for has come (R170, R172). -/
def State.applyDue (s : State) (scn : Nat) : State :=
  let c := s.ctx scn
  let alloc := match c.wait with
    | some (.alloc _) => true
    | _ => false
  if c.deferred.isEmpty || (s.specOf scn).isSome || alloc then s else s.applyDeferred scn

/-! Alerts and waits. -/

/-- The route context of a hall's alerts, if one is deliverable (R213). -/
def State.route (s : State) (h : Nat) : Option Nat :=
  let v := s.reg (Reg.evrAlertRoute h)
  let scn := fld v 55 40
  if bit v 63 && (s.ctx scn).st ≠ .none && (s.ctx scn).hall = h then some scn else none

/-- Raises an alert for a context (R211 to R213); a command deferred until an outcome that the alert ends is applied at
that instant (R170). -/
def State.alertCtx (s : State) (scn code : Nat) (w : Word) : State := (s.alertCore scn code w).applyDue scn

/-- Raises an alert at the route of hall 0 (R213). -/
def State.alertHall0 (s : State) (code : Nat) (w : Word) : State :=
  match s.route 0 with
  | some scn => s.alertCtx scn code w
  | none => (s.note { code := 0x037, cls := .notice, source := 0x0D, hall := 0,
                      detail := BitVec.ofNat 64 code }).setRf Reg.devAlert 2 2 1

/-- Raises an alert at the route of a hall; an undeliverable one is escalated to hall 0 (R213). -/
def State.alertHall (s : State) (h code : Nat) (w : Word) : State :=
  if h = 0 then s.alertHall0 code w
  else match s.route h with
    | some scn => s.alertCtx scn code w
    | none => s.alertHall0 0x23 (fixN (code + 65536 * h))

/-- A pending and unmasked alert acts on a context that is not Running (R212). -/
def State.alertsDue (s : State) (scn : Nat) : State :=
  let (m, s) := s.alertMask scn
  if (s.ctx scn).pend &&& ~~~(BitVec.ofNat 6 m) = 0 then s else (s.alertActs scn).applyDue scn

/-- A Running context begins a wait (R172, R175), which a pending and unmasked alert ends at once (R212). -/
def State.await (s : State) (r : Run) (w : Wait) : State :=
  ((s.setCtx r.scn { s.ctx r.scn with st := .waiting, wait := some w }).leaveCore r.p).alertsDue r.scn

/-- A context whose allocation has completed (R146, R316): rd written where the wait names one. -/
def State.allocDone (s : State) (scn : Nat) : State :=
  match (s.ctx scn).wait with
  | some (.alloc (.large rd ptr)) =>
    ((s.putSel scn rd (strip (s.compat (s.ctx scn).hall) ptr)).completeWait scn).applyDeferred scn
  | some (.alloc .cycle) => (s.makeReady scn).applyDeferred scn
  | _ => s

/-! Scheduling. -/

/-- The Ready contexts of a core, by SCN, but for those of a hall that executes nothing. -/
def State.readyOn (s : State) (p : Nat) : List Nat :=
  keysWhere (fun _ c => c.st = .ready && s.pcnOf c.hcn = p && !s.stopped c.hall) s.ctxs

/-- The entry of a list that comes first after n, counting round modulo m. -/
def nextAfter (l : List Nat) (n m : Nat) : Option Nat :=
  ((List.range m).map (fun i => (n + 1 + i) % m)).find? (fun k => l.contains k)

/-- The hall a core runs next at a level (R173): smallest VT, ties to the lower number; zero-weight halls in turn. -/
def State.pickHall (s : State) (p level : Nat) : Option Nat :=
  let hs := s.readyHalls p level
  let c := s.core p
  let weighted := hs.filter (fun h => s.weight h ≠ 0)
  match weighted with
  | [] => nextAfter hs (look 63 c.lastZero level) 64
  | h :: rest =>
    some (rest.foldl (fun b k =>
      let vb := look 0 c.vt (level * 64 + b)
      let vk := look 0 c.vt (level * 64 + k)
      if vk < vb || (vk = vb && k < b) then k else b) h)

/-- The context a core runs next (R173). -/
def State.pickCtx (s : State) (p : Nat) : Option Nat :=
  let ready := s.readyOn p
  match (ready.map (fun n => (s.ctx n).prio)) with
  | [] => none
  | x :: xs =>
    let level := xs.foldl max x
    match s.pickHall p level with
    | none => none
    | some h =>
      let slots := (ready.filter (fun n => (s.ctx n).prio = level && (s.ctx n).hall = h)).map
        (fun n => (s.ctx n).hcn % 64)
      match nextAfter slots (look 63 (s.core p).lastSlot h) 64 with
      | none => none
      | some k => ready.find? (fun n => (s.ctx n).hcn % 64 = k)

/-- A context starts to run on its core. -/
def State.startOn (s : State) (p scn : Nat) : State :=
  let d := s.ctx scn
  let c := s.core p
  let s := s.setCore p { c with run := some d.hcn, lastSlot := put 63 c.lastSlot d.hall (d.hcn % 64),
                                lastZero := if s.weight d.hall = 0 then put 63 c.lastZero d.prio d.hall
                                  else c.lastZero }
  s.setCtx scn { d with st := .running }

/-- The core can take a context: present, out of reset, not halted, running none. -/
def State.coreFree (s : State) (p : Nat) : Bool :=
  let c := s.core p
  s.part.hasPcn p && c.halt.isNone && !s.held p && c.run.isNone

end Sys2Proof.Machine
end

