-- ==== Sys2Proof/Machine/Gleaner.lean ====
section
/-! DEFINITION. Collection cycles (spec/10_granary_and_gleaner.md, R329 to R338): their start, ARM, the flip with its
register scans, tracing and FINISH; and the removal of TLB entries (R264, R265). -/

namespace Sys2Proof.Machine

/-! TLB entries. -/

/-- Entries of both TLBs of a core, as (select, index, entry): select 0 the DTLB, 1 the ITLB. -/
def Core.tlbEntries (c : Core) : List (Nat × Nat × TlbEntry) :=
  c.dtlb.map (fun (i, e) => (0, i, e)) ++ c.itlb.map (fun (i, e) => (1, i, e))

/-- The entry at an index of a TLB is kept (R258). -/
def Core.kept (c : Core) (sel i : Nat) : Bool := if sel = 1 then i < 32 && bit c.keepI i else i < 64 && bit c.keepD i

/-- Removes the matching entries of a core and clears LIVE (R265 step 3); a kept entry removed counts in KEPT_RM and
raises an event. -/
def State.removeOn (s : State) (p : Nat) (f : TlbEntry → Bool) : State :=
  let c := s.core p
  let kept := (c.tlbEntries.filter (fun (sel, i, e) => f e && c.kept sel i)).length
  let s := s.setCore p { c with dtlb := c.dtlb.filter (fun (_, e) => !f e), itlb := c.itlb.filter (fun (_, e) => !f e),
                                stage := setBit c.stage 48 false }
  if kept = 0 then s else (s.bumpRf (Reg.tlbStat p) 31 16 kept).event 0 "TLB_KEPT_REMOVED" p

/-- Removes the matching entries of every core. -/
def State.removeAll (s : State) (f : TlbEntry → Bool) : State := s.part.pcns.foldl (fun s p => s.removeOn p f) s

/-- An entry of hall h maps a byte of [lo, hi). -/
def TlbEntry.maps (e : TlbEntry) (h lo hi : Nat) : Bool :=
  e.hall = h && 2 ^ 14 * e.addr < hi && lo < 2 ^ 14 * e.addr + 2 ^ pageShift e.level

/-- Removes the entries of hall h that map bin n (R309, R338). -/
def State.unmapBin (s : State) (h n : Nat) : State :=
  s.removeAll (fun e => e.maps h (binSize * n) (binSize * (n + 1)))

/-! The start of a cycle. -/

/-- The bins of a hall, by number. -/
def State.binsOf (s : State) (h : Nat) (f : Bin → Bool) : List Nat := keysWhere (fun _ b => b.hall = h && f b) s.bins

/-- An OLD bin joins the relocation set of a full cycle (R330). -/
def Bin.sparse (b : Bin) (pct : Nat) : Bool :=
  b.kind = .old && (if b.fullSeen then b.live else (b.top + 63) / 64) * 100 ≤ 0x8000 * pct

/-- A bin that cycles collect (R305). -/
def Bin.collected (b : Bin) : Bool :=
  b.kind = .eden || b.kind = .surv || b.kind = .old || b.kind = .large || b.kind = .largeCont

/-- A bin of the hall at ARM: OPEN bins close, and the relocation set takes FROM (R329, R330). -/
def Bin.arm (b : Bin) (full : Bool) (pct : Nat) : Bin :=
  let young := b.kind = .eden || b.kind = .surv
  { b with state := if young || (full && b.sparse pct) then .fromSet else .closed, stays := false }

/-- ARM of hall h (R329): what the Gleaner does before the cores acknowledge. -/
def State.arm (s : State) (h : Nat) (full : Bool) (metas : List Nat) : State :=
  let pct := s.rf Reg.glCfg 23 17
  let s := s.mapBins fun b => if b.hall = h && b.collected then b.arm full pct else b
  let s := s.mapCores fun c => { c with reloc := c.reloc.filter (fun e => e.hall ≠ h) }
  let g := s.glh h
  s.setGl h { g with cycles := g.cycles + 1, phase := .arm, full := full, tenure := s.rf Reg.glCfg 10 8,
                     marking := true, armAcks := [], flipAcks := [], marks := [], queue := [], snapshot := [],
                     copies := [], metas := g.metas ++ metas, badBins := [], edenOpened := 0 }

/-- A cycle of hall h can start: the hall exists, is not compatible, is not being reset and runs no cycle (R329, R331,
R344, R420). -/
def State.mayCycle (s : State) (h : Nat) : Bool :=
  s.hallCreated h && !s.resetting h && !s.compat h && (s.glh h).phase = .idle

/-- Starts a cycle, with two META bins from the reserve; without them it is refused and reported (R331): whether it
started. -/
def State.startCycle (s : State) (h : Nat) (full : Bool) : Bool × State :=
  if !s.mayCycle h then (false, s)
  else if min s.freeCount s.reserveBins < 2 then
    (false, s.note { code := 0x043, cls := .notice, source := 4, hall := h, detail := if full then 1 else 0 })
  else
    match s.takeBin 0 .metaData .closed 0 with
    | (some a, s) =>
      match s.takeBin 0 .metaData .closed 0 with
      | (some b, s) => (true, s.arm h full [a, b])
      | (none, s) => (false, s)
    | (none, s) => (false, s)

/-- The hall's trigger policy (R331), tested when a bin of the hall is opened or freed. -/
def State.cyclePolicy (s : State) (h : Nat) : State :=
  let r := s.reg (Reg.glHall h)
  let young := fld r 41 34
  let full := fld r 33 27
  let old := (s.binsOf h (fun b => b.kind = .old || b.kind = .large || b.kind = .largeCont)).length
  if !s.mayCycle h then s
  else if full ≠ 0 && full * fld r 55 42 ≤ old * 100 && old ≠ 0 then (s.startCycle h true).2
  else if young ≠ 0 && young ≤ (s.glh h).edenOpened then (s.startCycle h false).2
  else s

/-- A requested cycle (R331): held while one is in progress, a full request absorbing a young one; whether it was
queued. -/
def State.requestCycle (s : State) (h : Nat) (full : Bool) : Bool × State :=
  let g := s.glh h
  if g.phase = .idle then (false, (s.startCycle h full).2)
  else (true, s.setGl h { g with held := some (full || g.held = some true) })

/-! ARM and FLIP. -/

/-- A core acknowledges ARM and logs from then on; the last acknowledgement starts FLIP (R329). -/
def State.ackArm (s : State) (p h : Nat) : State :=
  let g := s.glh h
  if g.phase ≠ .arm || !s.part.hasPcn p || g.armAcks.contains p then s
  else
    let c := s.core p
    let s := s.setCore p { c with armed := h :: c.armed.filter (· ≠ h) }
    let acks := p :: g.armAcks
    s.setGl h { g with armAcks := acks, phase := if s.part.pcns.all acks.contains then .flip else .arm }

/-- A stale pointer of a register repaired with no copying (R333); an assist becomes POISON (R328). What a register of a
halted core refers to is resolved so whatever its epoch (R342). -/
def State.scanWord (s : State) (p h scn : Nat) (frozen : Bool) (w : Word) : Word × State :=
  match s.checkPtr (.core p) h w false with
  | (none, s) => (w, if frozen && w.isPtr && !w.malformed && s.isHeap h w then (s.repair (.core p) h w false).2 else s)
  | (some (.good v), s) => (v, s)
  | (some (.assist r), s) => s.poisonStale h scn 0 r

/-- The stale pointers of a table of words scanned: the table, its changed keys and the state. -/
def State.scanTable (s : State) (p h scn : Nat) (frozen : Bool) : Table Word → Table Word × List Nat × State
  | [] => ([], [], s)
  | (k, w) :: t =>
    let (v, s) := s.scanWord p h scn frozen w
    let (t, ks, s) := s.scanTable p h scn frozen t
    ((k, v) :: t, if v = w then ks else k :: ks, s)

/-- The POISON that a scan put in place of a pointer, by payload. -/
def newPoison (old new : Table Word) : List Nat :=
  (old.zip new).filterMap (fun (x, y) => if x.2.type ≠ 0x32 && y.2.type = 0x32 then some y.2.payload.toNat else none)

/-- The register scan of the context in a slot (R333): MCHK_CONTAINED follows for each pointer that became POISON (R328,
R499). A context that was Running at a halt is read and not written (R342). -/
def State.scanSlot (s : State) (p hcn : Nat) : State :=
  match (s.slot hcn).scn with
  | none => s
  | some scn =>
    let h := (s.ctx scn).hall
    let x := (s.slot hcn).regs
    let frozen := (s.core p).halt.isSome && (s.core p).run = some hcn
    let (w, kw, s) := s.scanTable p h scn frozen x.w
    let (lw, kl, s) := s.scanTable p h scn frozen x.lw
    let inSth := (s.core p).run = some hcn && stSth x.status
    let ls0 := (s.core p).lsLw
    let (ls, _, s) := if inSth then s.scanTable p h scn frozen ls0 else (ls0, [], s)
    let ck0 := match s.specOf scn with
      | none => []
      | some i => (s.galr i).ckpt.w
    let (ck, _, s) := s.scanTable p h scn frozen ck0
    if frozen then s.setSlot hcn { s.slot hcn with scan := false }
    else
      let s := match s.specOf scn with
        | none => s
        | some i => s.setGal i { s.galr i with ckpt := { (s.galr i).ckpt with w := ck } }
      let y := s.retireRegion h { x with w := w, lw := lw }
      let dirty := kw.foldl (fun d k => d ||| groupOfW k) (if kl.isEmpty then 0 else g6) |||
        (if y.allocl = x.allocl then 0 else g4)
      let sl := s.slot hcn
      let s := (s.setSlot hcn { sl with regs := y, dirty := sl.dirty ||| dirty, scan := false }).setCore p
        { s.core p with lsLw := ls }
      (newPoison x.w w ++ newPoison x.lw lw ++ newPoison ls0 ls ++ newPoison ck0 ck).foldl
        (fun s n => s.alertCtx scn 0x20 (fixN (n % 65536))) s

/-- The register scan as the routine of its core (R227): one that does not end leaves the slot waiting for its scan. A compatible
hall is never scanned (R225, R228). -/
def State.scanAs (s : State) (p hcn : Nat) : State :=
  match (s.slot hcn).scn with
  | none => s
  | some scn =>
    let h := (s.ctx scn).hall
    if s.compat h then s.setSlot hcn { s.slot hcn with scan := false }
    else
      let (done, s) := s.asSlice ⟨p, hcn, scn, h⟩ .scan (s.scanSlot p hcn)
      if done then s.setSlot hcn { s.slot hcn with scan := false } else s

/-- The slots of a core that hold a context of hall h. -/
def State.slotsOf (s : State) (p h : Nat) : List Nat :=
  keysWhere (fun n sl => s.pcnOf n = p && (match sl.scn with
    | none => false
    | some scn => (s.ctx scn).hall = h)) s.slots

/-- T0 (R332 step 6): the new epochs become GL_EPOCH, and TRACE begins. -/
def State.flipDone (s : State) (h : Nat) : State :=
  let g := s.glh h
  let s := s.setGl h { g with goodY := !g.goodY, goodO := if g.full then !g.goodO else g.goodO, phase := .trace }
  s.mapCores fun c => { c with flipped := c.flipped.filter (· ≠ h) }

/-- A flipped core acknowledges once its resident contexts of the hall have been scanned (R332 step 5). -/
def State.ackFlip (s : State) (p h : Nat) : State :=
  let g := s.glh h
  if g.phase ≠ .flip || g.flipAcks.contains p || !(s.core p).flipped.contains h ||
      (s.slotsOf p h).any (fun n => (s.slot n).scan) then s
  else
    let acks := p :: g.flipAcks
    let s := s.setGl h { g with flipAcks := acks }
    if s.part.pcns.all acks.contains then s.flipDone h else s

/-- A core adopts the new epochs for hall h (R332 steps 3 to 5): its Running context of the hall is scanned at once, a
core in Halted-Fault has every context scanned by the event router (R342), and the others wait for their scan. -/
def State.adopt (s : State) (p h : Nat) : State :=
  let c := s.core p
  let s := s.setCore p { c with flipped := h :: c.flipped.filter (· ≠ h) }
  let mine := s.slotsOf p h
  let now := fun n => c.halt.isSome || c.run = some n
  let s := mine.foldl (fun s n =>
    let s := s.setSlot n { s.slot n with scan := true }
    if now n then s.scanAs p n else s) s
  s.ackFlip p h

/-- The flip reaches a core in slot order (R332): every earlier present slot of the barn has acknowledged. A repeated
flip only tests for the acknowledgement. -/
def State.flipCore (s : State) (p h : Nat) : State :=
  let g := s.glh h
  if g.phase ≠ .flip || !s.part.hasPcn p then s
  else if (s.core p).flipped.contains h then s.ackFlip p h
  else if (List.range (p % 9)).all (fun k => g.flipAcks.contains (p / 9 * 9 + k)) then s.adopt p h
  else s

/-- The pending scan of one slot (R332 step 4, R333). -/
def State.scanNow (s : State) (hcn : Nat) : State :=
  match (s.slot hcn).scn with
  | none => s
  | some scn =>
    let p := s.pcnOf hcn
    let s := if (s.slot hcn).scan then s.scanAs p hcn else s
    s.ackFlip p (s.ctx scn).hall

/-! Tracing. -/

/-- The scope of a cycle (R335). -/
def GlHall.inScope (g : GlHall) (w : Word) : Bool := w.isPtr && (g.full || !w.g)

/-- A word of MEMORY is a stale pointer in the hall's scope that an engine can read. -/
def State.wantsHeal (s : State) (h pa : Nat) : Bool :=
  let w := s.memWord pa
  (s.glh h).inScope w && s.staleRef .engine h w && !s.sectorLost pa

/-- Every object of bin n is STAY and retained for the rest of the cycle, and the error is reported once (R328). -/
def State.spoilBin (s : State) (h n : Nat) : State :=
  if (s.glh h).badBins.contains n then s
  else
    let s := s.note { code := 0x041, cls := .contained, source := 4, hall := h, addr := binSize * n,
                      detail := BitVec.ofNat 64 n }
    (s.setGl h { s.glh h with badBins := n :: (s.glh h).badBins }).setBin n { s.bin n with stays := true }

/-- An engine's repair of a pointer of hall h that it took from address `pa` (R328, R335): one that it cannot resolve becomes
POISON, and the bin of an object without a valid header is spoilt. -/
def State.healWord (s : State) (h : Nat) (w : Word) (pa : Nat) : Word × State :=
  match s.repair .engine h w true with
  | (.good v, s) => (v, s)
  | (.assist r, s) => (if r = 1 then s else s.spoilBin h (s.heapPa h w / binSize)).poisonStale h 0xFFFF pa r

/-- The heal of a MEMORY slot. -/
def State.healSlot (s : State) (h pa : Nat) : State :=
  let w := s.memWord pa
  let (v, s) := s.healWord h w pa
  if s.memWord pa = w then s.agentHeal pa v else s

/-- The stale slots of ROOT bins and of logged and remembered cards. -/
def State.rootSlot (s : State) (h : Nat) : Option Nat :=
  let g := s.glh h
  (s.tags.find? (fun (pa, _) =>
    ((s.binOf pa).hall = h && (s.binOf pa).kind = .root || g.cardLog.contains (pa / 512) ||
      g.remembered.contains (pa / 512)) && s.wantsHeal h pa)).map Prod.fst

/-- A stale tentative pointer of the hall's speculations: record and address. -/
def State.galRoot (s : State) (h : Nat) : Option (Nat × Nat × Word) :=
  s.gal.findSome? (fun (i, r) =>
    if r.st = .free || r.hall ≠ h then none
    else (r.words.find? (fun (_, w) => (s.glh h).inScope w && s.staleRef .engine h w)).map (fun (pa, w) => (i, pa, w)))

/-- Heals the pointer slots of an object (R335). -/
def State.traceObject (s : State) (h pa ty : Nat) : State :=
  let size := objSize ty (s.memWord pa)
  let slots := (s.tags.filter (fun (a, _) => pa ≤ a && a < pa + size)).map Prod.fst
  slots.foldl (fun s a => if s.wantsHeal h a then s.healSlot h a else s) s

/-- A sector of the hall's META bins that has an uncorrectable error. -/
def State.metaLost (s : State) (h : Nat) : Option Nat :=
  (s.planted.find? (fun (n, _) => (s.glh h).metas.contains (64 * n / binSize) && s.sectorLost (64 * n))).map Prod.fst

/-- An engine meets an uncorrectable error in META (R328): the bin whose records stood there, open (log entry 63), is spoilt,
and the sector is written anew. -/
def State.metaError (s : State) (h n : Nat) : State :=
  let (f, s) := s.freeNat
  let s := { s with planted := erase s.planted n }
  match pick (s.binsOf h Bin.collected) f with
  | none => s
  | some b => s.spoilBin h b

/-- An entry of the snapshot log is marked (R324, R335); an object without a valid header spoils its bin (R328). -/
def State.takeEntry (s : State) (h : Nat) (w : Word) : State :=
  if w.malformed || !s.isHeap h w then s
  else match s.repair .engine h w true with
    | (.good _, s) => s
    | (.assist _, s) => s.spoilBin h (s.heapPa h w / binSize)

/-- One step of an engine on hall h (R335): an error in META, a root, an entry of the snapshot log, a tentative pointer, or a
queued object. -/
def State.traceStep (s : State) (h : Nat) : State :=
  let g := s.glh h
  if g.phase ≠ .trace then s
  else match s.metaLost h with
    | some n => s.metaError h n
    | none => match s.rootSlot h with
      | some pa => s.healSlot h pa
      | none => match g.snapshot with
        | w :: rest => ((s.setGl h { g with snapshot := rest }).takeEntry h w).emptyLogs
        | [] => match s.galRoot h with
          | some (i, pa, w) =>
            let (v, s) := s.healWord h w pa
            s.setTentative i pa v
          | none => match g.queue with
            | (pa, ty) :: rest => (s.setGl h { g with queue := rest }).traceObject h pa ty.toNat
            | [] => s

/-- The termination check of FINISH (R338 step 1). -/
def State.traceDone (s : State) (h : Nat) : Bool :=
  let g := s.glh h
  g.phase = .trace && (s.rootSlot h).isNone && g.snapshot.isEmpty && (s.galRoot h).isNone && g.queue.isEmpty

/-! FINISH. -/

/-- Frees a bin of hall h with its TLB entries (R338 step 2). -/
def State.reclaim (s : State) (h n : Nat) : State := (s.unmapBin h n).freeBin n

/-- The objects known to start in bin n: those placed in it, and those that the cycle of its hall has marked. -/
def State.objectsIn (s : State) (h n : Nat) : List (Nat × BitVec 6) :=
  ((s.bin n).starts ++ (s.glh h).marks.filter (fun e => e.1 / binSize = n)).eraseDups

/-- Bytes from the start of an object to its end; one that has been copied is as long as its copy. -/
def State.span (s : State) (h pa ty : Nat) : Nat :=
  let q := match look CopyState.none (s.glh h).copies pa with
    | .forwarded d => d
    | _ => pa
  if ty = 0x10 then 16 else if (s.memWord q).type = 0x30 then objSize ty (s.memWord q) else 8

/-- A HDR word at an address of bin n is the header of an object: it stands in no other object's body and is no CAR (R61). -/
def State.isHeader (s : State) (h n pa : Nat) : Bool :=
  (s.memWord pa).type = 0x30 &&
    (if (s.bin n).kind = .large then pa % binSize = 0
     else !(s.objectsIn h n).any (fun e => (e.1 < pa && pa < e.1 + s.span h e.1 e.2.toNat) || (e.1 = pa && e.2 = 0x10)))

/-- The pinned objects of bin n, by the address of the header, within TOP. -/
def State.pinnedIn (s : State) (n : Nat) : List Nat :=
  (s.tags.filter (fun (pa, _) => pa / binSize = n && pa % binSize < (s.bin n).top && hdrPin (s.memWord pa) &&
    s.isHeader (s.bin n).hall n pa)).map Prod.fst

/-- A bin holds a pinned object within TOP, which no cycle reclaims (R336). -/
def State.holdsPinned (s : State) (n : Nat) : Bool := !(s.pinnedIn n).isEmpty

/-- A context waits for the initialisation of the LARGE object in bin n (R146). -/
def State.largeAwaited (s : State) (h n : Nat) : Bool :=
  !(s.waiters (fun c w => c.hall = h && (match w with
    | .alloc (.large _ o) => s.heapPa h o / binSize = n
    | _ => false))).isEmpty

/-- The LARGE object whose first bin is n is retained by a full cycle (R336), or held by a descriptor in flight (R443). -/
def State.largeKept (s : State) (h n : Nat) : Bool :=
  let g := s.glh h
  (s.bin n).epoch = g.cycles.toNat % 256 || g.marked (binSize * n) || g.badBins.contains n || s.holdsPinned n ||
    s.largeAwaited h n || s.xeHolds (binSize * n)

/-- The first bin of the LARGE object that bin n belongs to. -/
def State.largeHead (s : State) (n : Nat) : Nat :=
  ((List.range (n + 1)).reverse.find? (fun k => (s.bin k).kind = .large)).getD n

/-- Bytes of bin n that retained objects take (R336): marked, STAY and pinned ones, and in a bin opened after ARM or spoilt
every one. -/
def State.liveBytes (s : State) (h n : Nat) : Nat :=
  let g := s.glh h
  let b := s.bin n
  if b.kind = .large || b.kind = .largeCont then if s.largeKept h (s.largeHead n) then b.top else 0
  else
    let all := g.badBins.contains n || (b.state ≠ .fromSet && b.epoch = g.cycles.toNat % 256)
    let l := (s.objectsIn h n).filter (fun e => all || g.marked e.1 || look CopyState.none g.copies e.1 = .stay)
    let pins := (s.pinnedIn n).filter (fun a => !l.any (fun e => e.1 = a))
    min b.top ((l.map (fun e => s.span h e.1 e.2.toNat)).sum + (pins.map (fun a => s.span h a 0x11)).sum)

/-- LIVE of a bin the cycle examined: what the retained objects take at least, and TOP at most, since a cycle may retain others
(R336); between the two it is open (log entry 8). -/
def State.measure (s : State) (h : Nat) (full : Bool) (n : Nat) : State :=
  let (f, s) := s.freeNat
  let b := s.bin n
  let hi := (b.top + 63) / 64
  let lo := min ((s.liveBytes h n + 63) / 64) hi
  s.setBin n { b with live := lo + f % (hi - lo + 1),
                      fullSeen := b.fullSeen || (full && (b.kind = .old || b.state = .fromSet)) }

/-- A kept FROM bin (R337, R338 step 3): an EDEN or SURV bin takes the kind OLD, and EPOCH with it (R306). -/
def State.keepBin (s : State) (n : Nat) : State :=
  let b := s.bin n
  let young := b.kind = .eden || b.kind = .surv
  s.setBin n { b with state := .closed, stays := false, age := 0, kind := if young then .old else b.kind,
                      epoch := if young then (s.glh b.hall).cycles.toNat % 256 else b.epoch }

/-- The objects of the relocation set that descriptors in flight hold are STAY (R443), reached by the trace or not. -/
def State.heldStay (s : State) (h : Nat) : State :=
  (s.xe.filter (fun o => o.counted && o.status = 0 && (s.binOf o.obj).hall = h && (s.binOf o.obj).state = .fromSet &&
    look CopyState.none (s.glh h).copies o.obj = .none)).foldl (fun s o => s.makeStay h o.obj) s

/-- The bins whose LIVE a cycle writes beside the kept ones (R338 step 3): those that took copies in it, and in a full cycle
every other bin of the hall's heap that is not EDEN. -/
def State.examined (s : State) (h : Nat) : List Nat :=
  let g := s.glh h
  s.binsOf h (fun b => b.state ≠ .fromSet && b.kind ≠ .eden && b.collected &&
    (g.full || ((b.kind = .surv || b.kind = .old) && b.epoch = g.cycles.toNat % 256)))

/-- The bins of a LARGE object, by its first bin. -/
def State.largeRun (s : State) (h n : Nat) : List Nat :=
  n :: ((List.range s.part.nbins).map (fun k => n + 1 + k)).takeWhile (fun k =>
    (s.bin k).hall = h && (s.bin k).kind = .largeCont)

/-- The cards of a hall's OLD and LARGE bins that hold a pointer with G = 0. -/
def State.youngCards (s : State) (h : Nat) : List Nat :=
  (s.tags.filterMap (fun (pa, _) =>
    let b := s.binOf pa
    let w := s.memWord pa
    if b.hall = h && (b.kind = .old || b.kind = .large || b.kind = .largeCont) && w.isPtr && !w.g then some (pa / 512)
    else none)).eraseDups

/-- Step 4 of R338 for a full cycle: unretained LARGE objects are freed, MARK is cleared and the remembered set is
rebuilt. -/
def State.finishFull (s : State) (h : Nat) : State :=
  let dead := (s.binsOf h (fun b => b.kind = .large)).filter (fun n => !s.largeKept h n)
  let s := (dead.flatMap (s.largeRun h)).foldl (fun s n => s.reclaim h n) s
  let cards := s.youngCards h
  s.setGl h { s.glh h with cards := cards, remembered := cards }

/-- The header of a marked object with MARK cleared; a CONS has none, whatever its CAR holds (R61). -/
def State.unmark (s : State) (o : Nat × BitVec 6) : State :=
  let w := s.memWord o.1
  if o.2 ≠ 0x10 && w.type = 0x30 && bit w.payload 63 then s.agentHeal o.1 ⟨w.tag, setBit w.payload 63 false⟩ else s

/-- Wakes the contexts of a hall whose allocation waits for the cycle (R316). -/
def State.wakeAlloc (s : State) (h : Nat) : State :=
  (s.waiters (fun c w => c.hall = h && w = .alloc .cycle)).foldl (fun s n => s.allocDone n) s

/-- Step 4 of R338 for a young cycle: the logged cards, and those of bins promoted in place (R337), join the remembered
set. -/
def State.finishYoung (s : State) (h : Nat) (kept : List Nat) : State :=
  let g := s.glh h
  let cards := g.cardLog ++ (s.youngCards h).filter (fun c => kept.contains (512 * c / binSize))
  let fresh := cards.filter (fun c => !g.remembered.contains c)
  s.setGl h { g with remembered := g.remembered ++ fresh.eraseDups, cards := (cards ++ g.cards).eraseDups }

/-- Step 1 of R338: every core empties its log buffer, and none holds an entry of the hall. -/
def State.logsEmpty (s : State) (h : Nat) : Bool :=
  s.part.pcns.all (fun p => (s.core p).logBuf.all (fun e => e.1 ≠ h))

/-- FINISH of hall h, once the termination check passes (R338); new log entries send it back to TRACE. -/
def State.finishCycle (s : State) (h : Nat) : State :=
  let s := if s.traceDone h then s.emptyLogs else s
  if !s.traceDone h || !s.logsEmpty h then s
  else
    let s := s.heldStay h
    let g := s.glh h
    let set := s.binsOf h (fun b => b.state = .fromSet)
    let stays := fun n => (s.bin n).stays || s.holdsPinned n
    let free := set.filter (fun n => !stays n)
    let keep := set.filter stays
    let seen := s.examined h
    let before := s.freeCount
    let s := (keep ++ seen).foldl (fun s n => s.measure h g.full n) s
    let s := g.marks.foldl State.unmark s
    let s := free.foldl (fun s n => s.reclaim h n) s
    let s := keep.foldl State.keepBin s
    let s := if g.full then s.finishFull h else s.finishYoung h keep
    let freed := s.freeCount - before
    let s := g.metas.foldl (fun s n => s.freeBin n) s
    let s := s.setGl h { s.glh h with phase := .idle, marking := false, marks := [], copies := [], cardLog := [],
                                      metas := [], badBins := [], held := none }
    let s := s.mapCores fun c => { c with armed := c.armed.filter (· ≠ h) }
    let s := s.note { code := 0x044, cls := .event, source := 4, hall := h,
                      detail := BitVec.ofNat 64 ((if g.full then 1 else 0) + 65536 * freed) }
    let s := if h = 0 then s else s.event h "CYCLE_DONE" freed
    let s := s.wakeAlloc h
    match g.held with
    | some full => (s.startCycle h full).2
    | none => if freed = 0 then s else s.cyclePolicy h

end Sys2Proof.Machine
end

