-- ==== Sys2Proof/Machine/Write.lean ====
section
/-! DEFINITION. A write of a control register in its home domain (R18 to R21, R545): its effect field by field, who may
make it, and what an address without a register does (R6, R44). -/

namespace Sys2Proof.Machine

/-- What the fields of a register make of a write: `new` the stored value, `act` the accepted bits of WO and W1S fields,
`bad` a reserved value was written. -/
structure Wr where
  new : BitVec 64
  act : BitVec 64
  bad : Bool
  deriving DecidableEq, Repr

/-- A field takes the value x. -/
def Field.takes (f : Field) (x : Nat) : Bool := f.ok.isEmpty || f.ok.any (fun r => r.1 ≤ x && x ≤ r.2)

/-- A write of the bits of `mask` over the stored value `old`, for one field (R19, R21). -/
def Wr.field (old mask v : BitVec 64) (w : Wr) (f : Field) : Wr :=
  let m := fmask f.hi f.lo &&& mask
  let x := v &&& m
  if m = 0 then w
  else match f.ty with
    | .ro => w
    | .rw =>
      if f.takes (fld ((old &&& ~~~m) ||| x) f.hi f.lo) then { w with new := (w.new &&& ~~~m) ||| x }
      else { w with bad := true }
    | .w1c => { w with new := w.new &&& ~~~x }
    | .w1s => { w with act := w.act ||| x }
    | .wo => if f.takes (fld x f.hi f.lo) then { w with act := w.act ||| x } else { w with bad := true }

/-- The bits that lie in a field. -/
def RegDesc.bits (d : RegDesc) : BitVec 64 := d.fields.foldl (fun m f => m ||| fmask f.hi f.lo) 0

/-- A write over a whole register; a 1 in a reserved bit is refused and counted (R21). -/
def RegDesc.write (d : RegDesc) (old mask v : BitVec 64) : Wr :=
  d.fields.foldl (Wr.field old mask v) ⟨old, 0, v &&& mask &&& ~~~d.bits ≠ 0⟩

/-- A counted write of a control register (R6, R21). -/
def State.countReg (s : State) (off : Nat) : State := s.countRsv 0 off

/-- The fields' part of a write, stored and counted; what the write starts is the caller's affair: the accepted WO and
W1S bits. -/
def State.store64 (s : State) (off : Nat) (mask v : BitVec 64) : BitVec 64 × State :=
  match regDesc off with
  | none => (0, s.countReg off)
  | some d =>
    let w := d.write (s.reg off) mask v
    let s := s.setReg off w.new
    (w.act, if w.bad then s.countReg off else s)

/-- A write with no action. -/
def State.plain (s : State) (off : Nat) (mask v : BitVec 64) : State := (s.store64 off mask v).2

/-- A write with no action of which another part was refused: the access is counted once (R21). -/
def State.plainAlso (s : State) (off : Nat) (mask v : BitVec 64) (refused : Bool) : State :=
  match regDesc off with
  | none => s.countReg off
  | some d =>
    let w := d.write (s.reg off) mask v
    let s := s.setReg off w.new
    if w.bad || refused then s.countReg off else s

/-- A write that only the initiators `ok` may make (R545). -/
def State.gate (s : State) (ok : Bool) (who : Initiator) (off : Nat) (f : State) : State :=
  if ok then f else s.refuseWrite who off

/-- A W1S bit that clears counter fields (hi, lo). -/
def State.clearFields (s : State) (off : Nat) : List (Nat × Nat) → State
  | [] => s
  | (hi, lo) :: rest => (s.setRf off hi lo 0).clearFields off rest

/-- The PF and contexts of hall 0, the writers of R347, R403, R408 and R434. -/
def State.kernelOrPf (s : State) (who : Initiator) : Bool := who = .pf || s.isCtxOf who 0

/-- All 64 bits. -/
def full64 : BitVec 64 := BitVec.allOnes 64

end Sys2Proof.Machine
end

