-- ==== Sys2Proof/Machine/Granary.lean ====
section
/-! DEFINITION. The Granary's commands and registers (spec/10_granary_and_gleaner.md, R309, R312, R331). -/

namespace Sys2Proof.Machine

/-- RESULT of GL_CMD_STAT. -/
def State.glResult (s : State) (n : Nat) : State := s.setRf Reg.glCmdStat 59 56 n

/-- The physical range [lo, hi) of MEMORY zeroed as FIX 0: no cache keeps a copy, and every read set that holds a sector of
it conflicts (R388). -/
def State.zeroRange (s : State) (lo hi : Nat) : State :=
  let drop := fun (e : CribEntry) => if lo ≤ e.line * 256 && e.line * 256 < hi then CribEntry.invalid else e
  let s := s.mapCores fun c => if c.cribOn then
      { c with crib := (c.crib.map (fun (k, e) => (k, drop e))).filter (fun (_, e) => e ≠ CribEntry.invalid) } else c
  { s with mem := s.mem.filter (fun e => e.1 < lo || hi ≤ e.1), tags := s.tags.filter (fun e => e.1 < lo || hi ≤ e.1),
           planted := s.planted.filter (fun e => e.1 * 64 < lo || hi ≤ e.1 * 64),
           barns := (s.barns.map (fun (b, c) => (b, { c with lines := c.lines.filter (fun (_, x) => x.line * 256 < lo || hi ≤ x.line * 256) }))).filter
             (fun e => e.2 ≠ BarnCache.reset),
           llc := s.llc.filter (fun e => e.1 * 256 < lo || hi ≤ e.1 * 256),
           gal := s.gal.map (fun (i, g) =>
             if g.lines.any (fun (n, l) => lo ≤ n * 256 && n * 256 < hi && l.r ≠ 0) then (i, { g with conflict := true })
             else (i, g)) }

/-- The numbers of a run of bins. -/
def runOf (n count : Nat) : List Nat := (List.range count).map (fun k => n + k)

/-- Every bin of a run is FREE. -/
def State.allFree (s : State) (n count : Nat) : Bool :=
  n + count ≤ s.part.nbins && (runOf n count).all (fun k => (s.bin k).kind = .free)

/-- The first bin an ASSIGN takes: the named one, or with ANY the lowest run of FREE bins. -/
def State.assignFirst (s : State) (any : Bool) (n count : Nat) : Option Nat :=
  if any then (List.range s.part.nbins).find? (fun k => s.allFree k count)
  else if s.allFree n count then some n else none

/-- ASSIGN_ROOT and ASSIGN_PLAIN (R308, R309): the refusals in order, or the run zeroed and given. -/
def State.assign (s : State) (h : Nat) (k : BinKind) (any : Bool) (n count : Nat) : State :=
  if count = 0 || 8192 < count || (!any && s.part.nbins < n + count) then s.glResult 7
  else if !s.hallCreated h then s.glResult 6
  else match s.assignFirst any n count with
    | none => s.glResult 2
    | some f =>
      if s.freeCount < s.reserveBins + count then s.glResult 2
      else if s.binQuota h < s.binsUsed h + count then s.glResult 3
      else
        let s := s.zeroRange (binSize * f) (binSize * (f + count))
        let s := (runOf f count).foldl (fun s m => s.giveBin m h k .closed 0) s
        (s.setRf Reg.glCmdStat 12 0 f).glResult 0

/-- A bin that a RELEASE may free for its hall (R309); META bins belong to the Gleaner. -/
def State.releasable (s : State) (h n : Nat) : Bool :=
  let k := (s.bin n).kind
  k = .free || k = .root || k = .plain || (k ≠ .metaData && s.compat h)

/-- Bins of hall h freed after their TLB entries are removed (R309). -/
def State.releaseBins (s : State) (h : Nat) (l : List Nat) : State :=
  let s := l.foldl (fun s m => s.reclaim h m) s
  s.cyclePolicy h

/-- RELEASE (R309). -/
def State.release (s : State) (h n count : Nat) : State :=
  let l := runOf n count
  if count = 0 || 8192 < count || s.part.nbins < n + count then s.glResult 7
  else if l.any (fun k => (s.bin k).hall ≠ h) then s.glResult 4
  else if l.any (fun k => !s.releasable h k) then s.glResult 5
  else (s.releaseBins h (l.filter (fun k => (s.bin k).kind ≠ .free))).glResult 0

/-- CYCLE_YOUNG and CYCLE_FULL (R309, R331, R424). -/
def State.cycleCmd (s : State) (h : Nat) (full : Bool) : State :=
  if !s.hallCreated h || s.resetting h then s.glResult 6
  else if s.compat h then s.glResult 5
  else
    let (queued, s) := s.requestCycle h full
    s.glResult (if queued then 1 else 0)

/-- A write of GL_CMD (R309). -/
def State.glCmdWrite (s : State) (who : Initiator) (mask v : BitVec 64) : State :=
  s.gate (s.isCtxOf who 0) who Reg.glCmd <|
    let (act, s) := s.store64 Reg.glCmd mask v
    let h := fld act 59 54
    let count := fld act 31 18
    let n := fld act 12 0
    match fld act 63 60 with
    | 1 => s.assign h .root (bit act 13) n count
    | 2 => s.assign h .plain (bit act 13) n count
    | 3 => s.release h n count
    | 4 => s.cycleCmd h false
    | 5 => s.cycleCmd h true
    | _ => s

/-- A hall's number from the offset of a register at a stride of 8. -/
def instOf (off base stride : Nat) : Nat := (off - base) / stride

/-- A write of GL_HALL[h] (R312, R423): WBASE is written only while the hall is IDLE, and a write that holds any of its bits
is counted otherwise. -/
def State.glHallWrite (s : State) (who : Initiator) (h : Nat) (mask v : BitVec 64) : State :=
  let off := Reg.glHall h
  s.gate (s.isCtxOf who 0) who off <|
    if s.resetting h then s.countReg off
    else
      let fixed := s.rf (Reg.hallState h) 63 61 ≠ 1 && mask &&& fmask 63 56 ≠ 0
      let s' := s.plainAlso off (if fixed then mask &&& ~~~fmask 63 56 else mask) v fixed
      let q := s'.rf off 55 42
      let w := s'.rf off 63 56
      let s' := if q = s.rf off 55 42 then s' else s'.shareChanged h 3 q
      if w = s.rf off 63 56 then s' else s'.shareChanged h 0xA w

/-- A write of a Gleaner register. -/
def State.glWrite (s : State) (who : Initiator) (off : Nat) (mask v : BitVec 64) : State :=
  if off = Reg.glCmd then s.glCmdWrite who mask v
  else if 0x600800 ≤ off && off < 0x600A00 then s.glHallWrite who (instOf off 0x600800 8) mask v
  else if 0x600C00 ≤ off && off < 0x600E00 then
    let h := instOf off 0x600C00 8
    s.gate (s.privileged who) who off <|
      if s.resetting h then s.countReg off
      else
        let (act, s) := s.store64 off mask v
        if bit act 0 then s.setGl h { s.glh h with raCount := 0, exhCount := 0, logStall := 0 } else s
  else s.gate (s.privileged who) who off (s.plain off mask v)

end Sys2Proof.Machine
end

