-- ==== Sys2Proof/Machine/Position.lean ====
section
/-! DEFINITION. Positions on axes (R73, R74), the axes a hall sees (R154, R364, R415) and a hall's reach (R260). -/

namespace Sys2Proof.Machine

/-- Bits 60:0 of the POS word of an axis position (R73). -/
def State.axisPos (s : State) (x : Nat) : Nat := (s.reg (Reg.axPos x)).toNat % 2 ^ 61

/-- The signed difference a - b of two positions (R74), in 1/65,536 count. -/
def posDiff (a b : Nat) : Int := signed 61 (a % 2 ^ 61 + 2 ^ 61 - b % 2 ^ 61)

/-- The axis of a POS payload. -/
def posAxis (k : BitVec 64) : Nat := fld k 63 61

/-- The difference of a POS payload from the present position of its axis. -/
def State.posAhead (s : State) (k : BitVec 64) : Int := posDiff (fld k 60 0) (s.axisPos (posAxis k))

/-- The axis is present and the hall may see it (R154, R415). -/
def State.seesAxis (s : State) (h x : Nat) : Bool := x < s.part.axes && bit (s.reg (Reg.hallShare h)) (8 + x)

/-- Axis x takes its position from the Cascade Link (R489). -/
def State.remoteAxis (s : State) (x : Nat) : Bool := s.part.hasCascade && s.rf (Reg.cascAxmap x) 63 63 = 1

/-- POS word of a payload (R50). -/
def posW (v : BitVec 64) : Word := ⟨4, v⟩

/-- Physical base of the DEVICE region (R42). -/
def deviceBase : Nat := 0x4000000000

/-- A device page is in the hall's reach (R416); hall 0 reaches every page. -/
def State.reachesPage (s : State) (h p : Nat) : Bool :=
  h = 0 || bit (s.reg (Reg.hallDevmap h (p / 64))) (p % 64)

/-- The physical range [pa, pa + size) is in the hall's reach (R260, R416, R434). -/
def State.reach (s : State) (h pa size : Nat) : Bool :=
  let top := pa + size
  if top ≤ s.part.memSize then
    (List.range ((top - 1) / 0x200000 + 1 - pa / 0x200000)).all (fun k => (s.bin (pa / 0x200000 + k)).hall = h)
  else if deviceBase ≤ pa && top ≤ deviceBase + 0x1000000 then
    (List.range ((size + 0x3FFF) / 0x4000)).all (fun k => s.reachesPage h ((pa - deviceBase) / 0x4000 + k))
  else 0x8000000000 + 2 ^ 32 * h ≤ pa && top ≤ 0x8000000000 + 2 ^ 32 * (h + 1)

end Sys2Proof.Machine
end

