-- ==== Sys2Proof/Machine/WebAxis.lean ====
section
/-! DEFINITION. Encoder axes (spec/11_web_position.md): positions and their interpolation (R351, R354), crossings with
their DT (R356 to R358), pitches and snapshots (R359, R360, R363), Gallery mirrors (R390, R391), items at stations (R370
to R372), edges, frames and loss (R348 to R355). -/

namespace Sys2Proof.Machine

/-! Positions in time. -/

/-- AX_VEL as a signed number, counts/s × 2^16. -/
def State.axVel (s : State) (x : Nat) : Int := signed 64 (s.reg (Reg.axVel x)).toNat

/-- Loss is in effect on an axis. -/
def State.axLoss (s : State) (x : Nat) : Bool := s.rf (Reg.axStat x) 63 63 = 1

/-- The position of an axis is extrapolated. -/
def State.axExtrap (s : State) (x : Nat) : Bool := s.rf (Reg.axStat x) 62 62 = 1

/-- AX_CFG.MODE. -/
def State.axMode (s : State) (x : Nat) : Nat := s.rf (Reg.axCfg x) 63 62

/-- The axis counts or follows samples: MODE is not OFF, or it is remote. -/
def State.axActive (s : State) (x : Nat) : Bool := x < s.part.axes && (s.remoteAxis x || s.axMode x ≠ 0)

/-- AX_STOP.STATE. -/
def State.stopState (s : State) : Nat := s.rf Reg.axStop 63 62

/-- DECEL of the coast profile (R376). -/
def State.decel (s : State) (x : Nat) : Nat := s.obj 0x2740 (3 * x + 1)

/-- A position advanced by a velocity for a time, clamped so that it never reaches the next count (R351). -/
def towards (base : BitVec 64) (v : Int) (ns : Nat) : BitVec 64 :=
  let f := base.toNat % 65536
  let m := v.natAbs * ns / 10 ^ 9
  if 0 ≤ v then BitVec.ofNat 64 (base.toNat + min m (65535 - f))
  else BitVec.ofNat 64 (base.toNat + 2 ^ 64 - min m (if f = 0 then 65535 else f - 1))

/-- The extrapolated position and velocity at a DT (R354): a deceleration of `dec` counts/s² until the web stands. -/
def AxRec.glide (r : AxRec) (dec t : Nat) : BitVec 64 × Int :=
  let ns := t - r.exDt
  let v := r.exVel.natAbs
  let τ := if dec = 0 then ns else min ns (10 ^ 9 * v / (65536 * dec))
  let dist := v * τ / 10 ^ 9 - 65536 * dec * τ * τ / (2 * 10 ^ 18)
  let w : Nat := if dec = 0 then v else if ns ≤ τ then v - 65536 * dec * τ / 10 ^ 9 else 0
  if 0 ≤ r.exVel then (BitVec.ofNat 64 (r.exPos.toNat + dist), (w : Int))
  else (BitVec.ofNat 64 (r.exPos.toNat + 2 ^ 64 - dist % 2 ^ 64), -(w : Int))

/-- The deceleration in force, of the profile as the last sample took it (R354, R365, R376). -/
def State.coastDecel (s : State) (x : Nat) : Nat := if s.stopState = 0 then 0 else (s.axr x).dec

/-- The position on a track at a DT (R351, R354). -/
def Track.at (e : Track) (t : Nat) : BitVec 64 :=
  match e.dec with
  | none => towards e.base e.vel (t - e.since)
  | some d => (({ AxRec.reset with exPos := e.base, exDt := e.since, exVel := e.vel } : AxRec).glide d t).1

/-- How the position of an axis runs at present (R351, R354, R489). -/
def State.track (s : State) (x : Nat) : Track :=
  let r := s.axr x
  let t := s.dt.toNat
  if !s.axActive x then ⟨t, s.reg (Reg.axPos x), 0, 0, none⟩
  else if s.axLoss x then
    if s.axExtrap x then ⟨t, r.exPos, r.exDt, r.exVel, some (s.coastDecel x)⟩ else ⟨t, s.reg (Reg.axPos x), 0, 0, none⟩
  else
    let v := s.axVel x
    let rev := s.rf (Reg.axStat x) 60 60 = 1
    let runs := s.remoteAxis x || (0 ≤ v && !rev) || (v ≤ 0 && rev)
    ⟨t, r.base, r.chgDt, if runs then v else 0, none⟩

/-- What decides the position changes now: the track up to now is kept for 1 µs. -/
def State.pushTrack (s : State) (x : Nat) : State :=
  let r := s.axr x
  s.setAxr x { r with past := s.track x :: r.past.filter (fun e => s.dt.toNat < e.till + 1000) }

/-- The interpolated position of an axis at a DT, of late or now (R351, R354, R361). -/
def State.axAt (s : State) (x t : Nat) : BitVec 64 :=
  (((s.axr x).past.takeWhile (fun e => t < e.till)).getLast?.getD (s.track x)).at t

/-- The first number from lo to hi that meets a test which, once met, stays met; hi where none before it does. -/
def firstNs (f : Nat → Bool) : Nat → Nat → Nat → Nat
  | 0, _, hi => hi
  | n + 1, lo, hi =>
    if hi ≤ lo then hi
    else if f ((lo + hi) / 2) then firstNs f n lo ((lo + hi) / 2) else firstNs f n ((lo + hi) / 2 + 1) hi

/-- The crossing DT of a position by an update now: the first ns at which the interpolated position reaches it, or the
update itself (R356). -/
def State.crossDt (s : State) (x : Nat) (p : BitVec 64) : Nat :=
  firstNs (fun t => posDiff p.toNat (s.axAt x t).toNat ≤ 0) 64 (s.axr x).updDt s.dt.toNat

/-- The crossing DT of a position by the last update. -/
def State.crossedDt (s : State) (x : Nat) (p : BitVec 64) : Nat :=
  firstNs (fun t => posDiff p.toNat (s.axAt x t).toNat ≤ 0) 64 (s.axr x).updFrom (s.axr x).updDt

/-- A list with an element inserted before the first that is not smaller. -/
def insertBy {α : Type} (le : α → α → Bool) (a : α) : List α → List α
  | [] => [a]
  | b :: t => if le a b then a :: b :: t else b :: insertBy le a t

/-- A list sorted, equal elements in their order. -/
def sortBy {α : Type} (le : α → α → Bool) (l : List α) : List α := l.foldr (insertBy le) []

/-! Gallery mirrors (R390, R391). -/

/-- A sector written as one store by the part, if its contents change or `all` are written (R391). -/
def State.storeSector (s : State) (all : Bool) (pa : Nat) (ws : List Word) : State :=
  if !all && s.sectorWords pa = ws then s
  else ((s.agentOwn pa).conflict pa none).setWords (pa / 64 * 64) ws

/-- Eight words, the rest FIX 0. -/
def sector8 (l : List Word) : List Word := l ++ List.replicate (8 - l.length) Word.fix0

/-- Sector k of the mirror of hall h. -/
def State.mirrorAt (s : State) (h k : Nat) : Nat := 2048 * s.rf (Reg.galMirror h) 39 11 + 64 * k

/-- The mirror of hall h is maintained. -/
def State.mirrorOn (s : State) (h : Nat) : Bool := s.part.hasGallery && h ≤ s.part.hallMax && s.rf (Reg.galMirror h) 63 63 = 1

/-- Writes the sector of mark input m in a hall's mirror. -/
def State.mirrorMark (s : State) (all : Bool) (h m : Nat) : State :=
  s.storeSector all (s.mirrorAt h m)
    (sector8 [posW (s.reg (Reg.markPos m)), timeW (s.reg (Reg.markDt m)).toNat, fixN (s.rf (Reg.markStat m) 63 32)])

/-- The comparator level of an MS channel at a DT: that of its last sample at or before it. -/
def State.msAt (s : State) (c t : Nat) : MsSample :=
  match (look [] s.ms c).find? (fun e => e.dt ≤ t) with
  | some e => e
  | none => ⟨0, 0, false⟩

/-- Writes the sectors of MS channel c in a hall's mirror, with the comparator level at the crossing of its snapshot. -/
def State.mirrorMs (s : State) (all : Bool) (h c : Nat) : State :=
  let v := s.reg (Reg.msSnap c)
  let s := s.storeSector all (s.mirrorAt h (16 + c))
    (sector8 [fixN (fld v 11 0), fixN (fld v 63 32), fixN (fld v 31 22), fixN (fld v 21 19)])
  s.storeSector all (s.mirrorAt h (24 + c)) (sector8 [fixN (if look false s.msLevel c then 1 else 0)])

/-- The halls that mirror an input: bit k of GAL_MSEL. -/
def State.mirrorHalls (s : State) (k : Nat) : List Nat :=
  (List.range 64).filter (fun h => s.mirrorOn h && bit (s.reg (Reg.galMsel h)) k)

/-- The latch of mark input m was updated. -/
def State.mirrorMarks (s : State) (m : Nat) : State := (s.mirrorHalls m).foldl (fun s h => s.mirrorMark false h m) s

/-- The snapshot of MS channel c was updated. -/
def State.mirrorSnaps (s : State) (c : Nat) : State :=
  (s.mirrorHalls (16 + c)).foldl (fun s h => s.mirrorMs false h c) s

/-! Pitches. -/

/-- An entry of the active pitch table. -/
def State.ptab (s : State) (x i : Nat) : BitVec 64 := s.reg (Reg.ptabActive x i)

/-- The active LEN. -/
def State.pitchLen (s : State) (x : Nat) : Nat := s.rf (Reg.axPitchLen x) 47 0

/-- The position of the next point, or of the next pitch boundary. -/
def State.pitchTarget (s : State) (x : Nat) : BitVec 64 :=
  let next := (s.axr x).nextPt
  if next < s.rf (Reg.axPtabCtrl x) 36 26 then (s.axr x).pitchStart + BitVec.ofNat 64 (fld (s.ptab x next) 47 0)
  else (s.axr x).pitchStart + BitVec.ofNat 64 (s.pitchLen x)

/-- A snapshot at a crossing (R363). -/
def State.snapshot (s : State) (x i t : Nat) : State :=
  let e := s.ptab x i
  if !bit e 63 then s
  else
    let c := fld e 62 60
    let m := s.msAt c t
    let v := if s.rf (Reg.msCfg c) 63 63 = 1 then m.value else 0
    let s := s.setReg (Reg.msSnap c)
      (setFld (setFld (setFld (setFld 0 63 32 (s.rf (Reg.axPitch x) 63 32)) 31 22 i) 21 19 x) 11 0 v)
    { s with msLevel := put false s.msLevel c m.level }.mirrorSnaps c

/-- The shadow table passes the check of R360: offsets rise and lie below LENP. -/
def State.shadowOk (s : State) (x n : Nat) : Bool :=
  let len := s.rf (Reg.axPitchLenp x) 47 0
  let off := fun i => fld (s.reg (Reg.ptabShadow x i)) 47 0
  len ≠ 0 && (List.range n).all (fun i => off i < len && (i = 0 || off (i - 1) < off i))

/-- Entries of the table at base offset b, moved to another base. -/
def movedPtab (ctl : Table (BitVec 64)) (b d : Nat) : Table (BitVec 64) :=
  (ctl.filter (fun e => b ≤ e.1 && e.1 < b + 0x2000)).map (fun e => (e.1 - b + d, e.2))

/-- The shadow and active tables exchange roles (R360). -/
def State.exchangePtab (s : State) (x : Nat) : State :=
  let a := Reg.ptabActive x 0
  let b := Reg.ptabShadow x 0
  let toB := movedPtab s.ctl a b
  let toA := movedPtab s.ctl b a
  let rest := s.ctl.filter (fun e => !((a ≤ e.1 && e.1 < a + 0x2000) || (b ≤ e.1 && e.1 < b + 0x2000)))
  { s with ctl := (toB ++ toA).foldl (fun t e => insert t e.1 e.2) rest }

/-- A swap at boundary position b (R360): whether it was applied. -/
def State.swapPitch (s : State) (x : Nat) (b : BitVec 64) : Bool × State :=
  let c := Reg.axPtabCtrl x
  let n := s.rf c 58 48
  let fresh := s.pitchLen x = 0
  let s := s.setRf c 63 63 0
  if !s.shadowOk x n then (false, s.setRf c 62 62 1)
  else
    let s := s.exchangePtab x
    let s := s.setRf c 36 26 n
    let s := s.setReg (Reg.axPitchLen x) (s.reg (Reg.axPitchLenp x))
    let org := b + s.reg (Reg.axPitchAdj x)
    let s := (s.setReg (Reg.axPitchOrg x) org).setReg (Reg.axPitchAdj x) 0
    let num := if fresh then 0 else (s.rf (Reg.axPitch x) 63 32 + 1) % 2 ^ 32
    let s := s.setReg (Reg.axPitch x) (setFld 0 63 32 num)
    (true, s.setAxr x { s.axr x with pitchStart := org, nextPt := 0 })

/-- The start of the next pitch is passed without a swap (R359). -/
def State.nextPitch (s : State) (x : Nat) : State :=
  let b := s.pitchTarget x
  let s := s.setReg (Reg.axPitch x) (setFld 0 63 32 ((s.rf (Reg.axPitch x) 63 32 + 1) % 2 ^ 32))
  s.setAxr x { s.axr x with pitchStart := b, nextPt := 0 }

/-- The start of the next pitch is crossed (R359, R360): whether a swap was applied. -/
def State.pitchBoundary (s : State) (x : Nat) : Bool × State :=
  let (done, s) := if s.rf (Reg.axPtabCtrl x) 63 63 = 1 then s.swapPitch x (s.pitchTarget x) else (false, s)
  if done then (true, s) else (false, s.nextPitch x)

/-- An armed commit at NEXT_PITCH(x) holds a pitch table of the axis (R378, R460). -/
def State.tableArmed (s : State) (x : Nat) : Bool :=
  s.dict.any (fun (_, q) => match q.commit with
    | some c => q.status = 1 && c.boundary = 2 && c.axis = x && c.group.any (fun e => e.index = 0x4180 + x)
    | none => false)

/-- Crosses the pitch points and boundaries that lie at or behind the position, in order (R359); `dtOf`: their crossing
DT. At a boundary for which a table is armed it stays until that commit is applied or refused (R378, R460). -/
def State.pitchRun (s : State) (x : Nat) (pos : BitVec 64) (dtOf : BitVec 64 → Nat) : Nat → State
  | 0 => s
  | n + 1 =>
    let p := s.pitchTarget x
    if s.pitchLen x = 0 || (s.axr x).tabWait.isSome || 0 < posDiff p.toNat pos.toNat then s
    else
      let i := (s.axr x).nextPt
      let t := dtOf p
      if i < s.rf (Reg.axPtabCtrl x) 36 26 then
        let s := (s.snapshot x i t).setRf (Reg.axPitch x) 31 22 ((i + 1) % 1024)
        (s.setAxr x { s.axr x with nextPt := i + 1 }).pitchRun x pos dtOf n
      else
        let s := s.setAxr x { s.axr x with bounds := (s.axr x).bounds + 1 }
        if s.tableArmed x then s.setAxr x { s.axr x with tabWait := some t }
        else match s.pitchBoundary x with
          | (true, s) => s.pitchRun x pos (fun p => max (dtOf p) t) n
          | (false, s) => s.pitchRun x pos dtOf n

/-- A table no longer waits at a crossed boundary, `swapped` or not: the points behind the position are crossed (R360). -/
def State.leaveBoundary (s : State) (x : Nat) (swapped : Bool) : State :=
  match (s.axr x).tabWait with
  | none => s
  | some t =>
    let s := s.setAxr x { s.axr x with tabWait := none }
    let s := if swapped then s else (s.pitchBoundary x).2
    s.pitchRun x (s.reg (Reg.axPos x)) (fun p => max (s.crossedDt x p) t) 2048

/-- SWAP requested (R360): applied at once when the active LEN is 0. -/
def State.requestSwap (s : State) (x : Nat) : State :=
  let s := s.setRf (Reg.axPtabCtrl x) 63 63 1
  if s.pitchLen x ≠ 0 then s
  else
    let pos := s.reg (Reg.axPos x)
    let (_, s) := s.swapPitch x pos
    let t := s.dt.toNat
    s.pitchRun x pos (fun _ => t) 2048

/-! Items at stations (R370 to R372). -/

/-- The hall whose items an axis tracks. -/
def State.ringHall (s : State) (x : Nat) : Nat := s.rf (Reg.axIring x) 63 58

/-- log2 of the ring's entries, 0 when tracking is off. -/
def State.ringSize (s : State) (x : Nat) : Nat := s.rf (Reg.axIring x) 57 53

/-- Physical address of entry i of an axis's ring. -/
def State.ringEntry (s : State) (x i : Nat) : Nat := s.rf (Reg.axIring x) 39 4 * 16 + 16 * i

/-- An entry is skipped (R372). -/
def State.itemSkip (s : State) (x i : Nat) : State :=
  (s.bumpRf (Reg.axIptr x) 31 16 1).note
    { code := 0x051, cls := .contained, source := 6, hall := s.ringHall x, inst := x, addr := s.ringEntry x i }

/-- Word 0 of an entry, a pointer of whatever type, made good as by a register scan (R372): the pointer, or none when the entry
is skipped. -/
def State.ringItem (s : State) (x i : Nat) (w : Word) : Option Word × State :=
  let h := s.ringHall x
  let pa := s.ringEntry x i
  if s.compat h then (if s.isHeap h w then some w else none, s)
  else if !s.isHeap h w then
    let (v, s) := s.poisonStale h 0xFFFF pa 1
    (none, s.agentHeal pa v)
  else match s.checkPtr .engine h w false with
    | (none, s) => (some w, s)
    | (some (.good v), s) => (some v, s.agentHeal pa v)
    | (some (.assist r), s) =>
      let (v, s) := s.poisonStale h 0xFFFF pa r
      (none, s.agentHeal pa v)

/-- A word that a unit reads for a hall (R225). -/
def State.unitLoad (s : State) (h pa : Nat) : Word × State :=
  let (w, s) := s.agentLoad pa
  (strip (s.compat h) w, s)

/-- The item of hall h at a physical address passes R72, with a FIX in slot 2 (R372); a word that cannot be read arrives as
POISON (R58) and does not. -/
def State.itemOk (s : State) (h pa : Nat) : Bool × State :=
  let (hdr, s) := s.unitLoad h pa
  let (pos, s) := s.unitLoad h (pa + 8)
  let (lane, s) := s.unitLoad h (pa + 16)
  let (st, s) := s.unitLoad h (pa + 24)
  (hdr.type = 0x30 && 4 ≤ hdrLen hdr && pos.tag = 4 && lane.isFix && lane.payload.toNat < 32 && st.isFix, s)

/-- OFF_RATE of the item of entry i (R371, R372). -/
def State.markItem (s : State) (x i : Nat) (w : Word) : State :=
  if w = nil then s
  else if !w.isPtr || w.malformed then s.itemSkip x i
  else match s.ringItem x i w with
    | (none, s) => s.itemSkip x i
    | (some v, s) =>
      let pa := s.heapPa (s.ringHall x) v
      if v.type ≠ 0x17 then s.itemSkip x i
      else match s.itemOk (s.ringHall x) pa with
        | (true, s) => s.atomicOr (pa + 24) 0x10
        | (false, s) => s.itemSkip x i

/-- What a cursor finds at entry i: nothing to pass yet, an entry to skip, or a passed one. -/
inductive Passing where
  | ahead | bad | passed (item : Word)
  deriving DecidableEq, Repr

/-- The entry against a station's distance (R370). -/
def State.passing (s : State) (x i dist : Nat) (pos : BitVec 64) : Passing × State :=
  let (w1, s) := s.agentLoad (s.ringEntry x i + 8)
  if w1.type ≠ 4 || posAxis w1.payload ≠ x then (.bad, s)
  else if 0 < posDiff (fld w1.payload 60 0 + 65536 * dist) pos.toNat then (.ahead, s)
  else
    let (w0, s) := s.agentLoad (s.ringEntry x i)
    (.passed w0, s)

/-- A cursor at entry i (R370 to R372): whether it passes the entry, and the state then; it stops at IPTR and before an
entry that lies ahead. -/
def State.cursorAt (s : State) (x dist : Nat) (pos : BitVec 64) (i : Nat) : Bool × State :=
  if i = s.rf (Reg.axIptr x) 63 48 then (false, s)
  else
    match s.passing x i dist pos with
    | (.ahead, s) => (false, s)
    | (.bad, s) => (true, s.itemSkip x i)
    | (.passed w, s) => (true, if s.stopState = 0 then s else s.markItem x i w)

/-- A cursor advances over the entries it passes, to its new index. -/
def State.runCursor (s : State) (x dist : Nat) (pos : BitVec 64) (i : Nat) : Nat → Nat × State
  | 0 => (i, s)
  | n + 1 =>
    let y := s.cursorAt x dist pos i
    if y.1 then y.2.runCursor x dist pos ((i + 1) % 2 ^ s.ringSize x) n else (i, y.2)

/-- The enabled stations of an axis. -/
def State.stationsOn (s : State) (x : Nat) : List Nat :=
  (List.range 32).filter (fun k => s.rf (Reg.axStn x k) 63 63 = 1)

/-- The cursor of station k. -/
def State.cursor (s : State) (x k : Nat) : Nat := look 0 (s.axr x).cursors k - 1

/-- The state with a cursor moved. -/
def State.setCursor (s : State) (x k i : Nat) : State :=
  s.setAxr x { s.axr x with cursors := put 0 (s.axr x).cursors k (i + 1) }

/-- Entries from index a up to index b of a ring of m entries. -/
def ringGap (a b m : Nat) : Nat := (b + m - a % m) % m

/-- HEAD advances over what every enabled cursor has passed; with no station it equals TAIL (R370). -/
def State.ringHead (s : State) (x : Nat) : State :=
  let tail := s.rf (Reg.axIptr x) 63 48
  let head := s.rf (Reg.axIptr x) 47 32
  let m := 2 ^ s.ringSize x
  let gaps := (s.stationsOn x).map (fun k => ringGap head (s.cursor x k) m)
  s.setRf (Reg.axIptr x) 47 32 ((head + gaps.foldl min (ringGap head tail m)) % m)

/-- The cursors of an axis at a position update (R370). -/
def State.runStations (s : State) (x : Nat) (pos : BitVec 64) : State :=
  if s.ringSize x = 0 then s
  else
    let s := (s.stationsOn x).foldl (fun s k =>
      let (i, s) := s.runCursor x (s.rf (Reg.axStn x k) 31 0) pos (s.cursor x k) (2 ^ s.ringSize x)
      s.setCursor x k i) s
    s.ringHead x

/-! Crossings. -/

/-- The keys of open speculations crossed by an update (R392, R396). -/
def State.crossKeys (s : State) (x : Nat) (pos : BitVec 64) (dtOf : BitVec 64 → Nat) : State :=
  let hit := (s.gal.filter (fun (_, g) => g.st = .opened && posAxis g.key = x &&
    posDiff (fld g.key 60 0) pos.toNat ≤ 0)).map Prod.fst
  hit.foldl (fun s i =>
    let g := s.galr i
    if s.onHalted g.scn then s.cutSpec i 6
    else s.setGal i { g with st := .crossed, crossDt := dtOf g.key,
                             held := g.remote && s.rf Reg.cascTime 63 63 = 1 }) s

/-- The key of a position wait or crossing wait. -/
def Wait.key : Wait → Option (BitVec 64)
  | .position k _ => some k
  | .crossing k => some k
  | _ => none

/-- The waits crossed by an update, in position order (R357): SCN and key. -/
def State.crossedWaits (s : State) (x : Nat) (old pos : BitVec 64) : List (Nat × BitVec 64) :=
  let l := s.ctxs.filterMap (fun (n, c) => match c.wait.bind Wait.key with
    | some k => if posAxis k = x && posDiff (fld k 60 0) pos.toNat ≤ 0 && 0 < posDiff (fld k 60 0) old.toNat then
        some (n, k) else none
    | none => none)
  sortBy (fun a b => posDiff (fld a.2 60 0) old.toNat ≤ posDiff (fld b.2 60 0) old.toNat) l

/-- A position update of axis x with the crossing DT of what it passes (R356): stations first, then pitch points with their
snapshots, then what the event router is told. -/
def State.moveAxisBy (s : State) (x : Nat) (pos : BitVec 64) (dtOf : BitVec 64 → Nat) : State :=
  let old := s.reg (Reg.axPos x)
  let s := s.setReg (Reg.axPos x) pos
  let s := s.setAxr x { s.axr x with updFrom := (s.axr x).updDt, updDt := s.dt.toNat }
  let s := s.runStations x pos
  let d := posDiff pos.toNat old.toNat
  if d ≤ 0 then s
  else
    let s := if s.tableArmed x then s else s.leaveBoundary x false
    let s := s.pitchRun x pos dtOf (d.toNat + 2048)
    let s := s.crossKeys x pos dtOf
    (s.crossedWaits x old pos).foldl (fun s e => s.wake e.1 (dtOf e.2)) s

/-- A position update of axis x whose crossings the interpolated position gives. -/
def State.moveAxis (s : State) (x : Nat) (pos : BitVec 64) : State := s.moveAxisBy x pos (s.crossDt x)

/-! Counts. -/

/-- The DT of a signal at a pin, corrected by a delay in ps of the calibration set, to the nearest ns (R516; log entry 67). -/
def State.trimmed (s : State) (word hi lo t : Nat) : Nat :=
  (((1000 * t + 500 : Nat) : Int) - signed (hi - lo + 1) (s.rf (Reg.calWord word) hi lo)).toNat / 1000

/-- The count changes by d at a DT (R348, R350). -/
def State.countBy (s : State) (x : Nat) (d : Int) (t : Nat) : State :=
  let s := s.pushTrack x
  let c := (s.axr x).base.toNat / 65536
  let pos := BitVec.ofInt 64 (((c : Int) + d) * 65536)
  let s := s.moveAxis x pos
  let s := if d = 0 then s else s.setRf (Reg.axStat x) 60 60 (if d < 0 then 1 else 0)
  s.setAxr x { s.axr x with base := pos, chgDt := t }

/-- Loss is declared (R353, R354, R490); `why`: none leaves WHY. -/
def State.declareLoss (s : State) (x : Nat) (why : Option Nat) : State :=
  let s := s.pushTrack x
  let a := Reg.axStat x
  let s := s.setRf a 63 63 1
  let s := match why with
    | some k => s.setRf a 59 56 k
    | none => s
  let r := { s.axr x with ill := [], bad := 0, recov := false, lossDt := s.dt.toNat }
  let s := if s.rf (Reg.axCfg x) 59 58 = 1 then
      (s.setRf a 62 62 1).setAxr x { r with exPos := s.reg (Reg.axSmpPos x), exDt := (s.reg (Reg.axSmpDt x)).toNat,
                                            exVel := s.axVel x }
    else ((s.setReg (Reg.axVel x) 0).setReg (Reg.axAcc x) 0).setAxr x r
  let s := s.setRf (Reg.axCtrl x) 0 0 0
  s.note { code := 0x050, cls := .contained, source := 6, inst := x, detail := BitVec.ofNat 64 (s.rf a 59 56) }

/-- LOSS and EXTRAP clear, and RECOVER has been applied (R355). -/
def State.endLoss (s : State) (x : Nat) : State :=
  let s := (s.pushTrack x).setRf (Reg.axCtrl x) 0 0 0
  ((s.setRf (Reg.axStat x) 63 63 0).setRf (Reg.axStat x) 62 62 0).setAxr x { s.axr x with recov := false, bad := 0 }

/-- The axis decodes its own inputs in a mode. -/
def State.decodes (s : State) (x mode : Nat) : Bool := x < s.part.axes && !s.remoteAxis x && s.axMode x = mode

/-- A pulse that holds its level for a number of ns passes the input filter of the axis (R348). -/
def State.passes (s : State) (x ns : Nat) : Bool := 5 * s.rf (Reg.axCfg x) 47 40 ≤ ns

/-- One decoded transition of A and B (R348, R353): a step of the count, of which `b` says whether B made it, or none where both
changed. -/
def State.quadEdge (s : State) (x : Nat) (step : Option Bool) (b : Bool) : State :=
  if !s.decodes x 1 || s.axLoss x then s
  else match step with
    | some up => s.countBy x (if up = (s.rf (Reg.axCfg x) 61 61 = 0) then 1 else -1)
        (if b then s.trimmed (88 + x) 19 10 s.dt.toNat else s.trimmed (88 + x) 9 0 s.dt.toNat)
    | none =>
      let r := s.axr x
      let t := s.dt.toNat
      let ill := t :: r.ill.filter (fun u => t < u + 1000000)
      let s := s.setAxr x { r with ill := ill }
      if s.rf (Reg.axCfg x) 39 32 < ill.length then s.declareLoss x (some 1) else s

/-- The quarter of a quadrature period (R348). -/
def quarter (a b : Bool) : Nat := if a then if b then 2 else 1 else if b then 3 else 0

/-- ENCx_A and ENCx_B take levels: an input's pulse shorter than the filter is ignored, whatever the other does, and the levels
that remain are decoded ×4 (R348). PRESUMED (log entry 65): the count runs up while A leads B. -/
def State.encoderPins (s : State) (x : Nat) (e : PinEdge) : State :=
  let r := s.axr x
  let a := if s.passes x e.nsA then e.a else r.pinA
  let b := if s.passes x e.nsB then e.b else r.pinB
  if !s.passes x e.nsA && !s.passes x e.nsB then s
  else
    let d := (quarter a b + 4 - quarter r.pinA r.pinB) % 4
    let s := s.setAxr x { r with pinA := a, pinB := b }
    if d = 0 then s else s.quadEdge x (if d = 2 then none else some (d = 1)) (a = r.pinA)

/-- A Z edge (R353). -/
def State.zEdge (s : State) (x : Nat) : State :=
  if !s.decodes x 1 || s.axLoss x || s.rf (Reg.axCfg x) 60 60 = 0 then s
  else
    let c := (s.axr x).base.toNat / 65536
    match (s.axr x).zref with
    | none => s.setAxr x { s.axr x with zref := some c }
    | some z =>
      let d := signed 48 (c + 2 ^ 48 - z % 2 ^ 48)
      if d.natAbs % s.rf (Reg.axCfg x) 31 0 = 0 then s
      else (s.bumpRf (Reg.axStat x) 47 32 1).event 0 "Z_MISMATCH" x

/-- Gray code of n bits decoded. -/
def unGray (v : Nat) : Nat → Nat
  | 0 => 0
  | n + 1 => Nat.xor (v / 2 ^ n) (unGray v n)

/-- An SSI frame starts (R350). -/
def State.ssiStart (s : State) (x : Nat) : State :=
  let r := s.axr x
  if s.decodes x 2 && r.ssiStart.isNone && r.ssiNext ≤ s.dt.toNat then
    s.setAxr x { r with ssiStart := some s.dt.toNat }
  else s

/-- A good frame (R350, R355). -/
def State.ssiGood (s : State) (x v : Nat) (d : Int) : State :=
  let again := (s.axr x).recov || d ≠ 0
  let s := s.endLoss x
  let s := s.setAxr x { s.axr x with ssi := v }
  if again then s.countBy x (if s.rf (Reg.axCfg x) 61 61 = 1 then -d else d) s.dt.toNat else s.moveAxis x (s.axAt x s.dt.toNat)

/-- A bad frame: the third in a row is loss (R353). -/
def State.ssiBad (s : State) (x why : Nat) : State :=
  let r := s.axr x
  let s := s.setAxr x { r with bad := r.bad + 1 }
  if s.axLoss x then s else if 3 ≤ r.bad + 1 then s.declareLoss x (some why) else s

/-- A completed SSI frame (R350, R353 to R355): the bits read, and the data line before the first clock and after the
last bit. -/
def State.ssiFrame (s : State) (x bits : Nat) (before after : Bool) : State :=
  let r := s.axr x
  match r.ssiStart with
  | none => s
  | some t =>
    if !s.decodes x 2 then s
    else
      let cfg := s.reg (Reg.axSsi x)
      let n := fld cfg 63 58
      let s := s.setAxr x { r with ssiStart := none, ssiNext := max (t + 1000 * fld cfg 39 24) (s.dt.toNat + 20000) }
      if s.axLoss x && !r.recov then s
      else
        let v := if bit cfg 57 then unGray (bits % 2 ^ n) n % 2 ^ n else bits % 2 ^ n
        let d := signed n (v + 2 ^ n - r.ssi % 2 ^ n)
        if !before || after then s.ssiBad x 2
        else if !r.recov && fld cfg 23 0 < d.natAbs then s.ssiBad x 3
        else s.ssiGood x v d

/-- The extrapolation limit (R354). -/
def State.extrapEnd (s : State) (x : Nat) : State :=
  if s.axActive x && s.axExtrap x && (s.axr x).lossDt + 1000000 * s.rf (Reg.axCfg x) 57 48 ≤ s.dt.toNat then
    let s := (s.moveAxis x (s.axAt x s.dt.toNat)).pushTrack x
    ((s.setRf (Reg.axStat x) 62 62 0).setReg (Reg.axVel x) 0).setReg (Reg.axAcc x) 0
  else s

/-- RECOVER (R355, R490): the bit reads 1 while it waits for a good frame or sample. -/
def State.recoverAxis (s : State) (x : Nat) : State :=
  if !s.axLoss x then s
  else if s.remoteAxis x || s.axMode x = 2 then (s.setRf (Reg.axCtrl x) 0 0 1).setAxr x { s.axr x with recov := true }
  else
    let s := s.endLoss x
    s.setAxr x { s.axr x with base := s.reg (Reg.axPos x), chgDt := s.dt.toNat }

end Sys2Proof.Machine
end

