-- ==== Sys2Proof/Machine/WebCam.lean ====
section
/-! DEFINITION. Cam outputs (spec/11_web_position.md, R364 to R368): queueing and refusals, projection, locking, firing
and the late policy. -/

namespace Sys2Proof.Machine

/-- The queue of an output. -/
def State.camQ (s : State) (k : Nat) : List CamAct := look [] s.cams k
/-- The state with the queue of an output replaced; DEPTH follows it. -/
def State.setCamQ (s : State) (k : Nat) (q : List CamAct) : State :=
  { s with cams := put [] s.cams k q }.setRf (Reg.camStat k) 63 58 q.length

/-- The hall that schedules an output's actions. -/
def State.camOwner (s : State) (k : Nat) : Nat := s.rf (Reg.camCfg k) 63 58

/-- An event to the hall kernel of OWNER. -/
def State.camEvent (s : State) (k : Nat) (name : String) : State := s.event (s.camOwner k) name k

/-- ROUTE includes the network. -/
def State.camNet (s : State) (k : Nat) : Bool := s.rf (Reg.camCfg k) 56 56 = 1

/-- The level of pin CAM_OUT[k] (R366): the level through POL, or level 0 through POL while ROUTE is network only. -/
def State.camPin (s : State) (k : Nat) : Bool :=
  let v := s.reg (Reg.camCfg k)
  (bit v 55 && bit v 0) != bit v 57

/-- Levels of an output one after the other: those that make an edge, and the last. -/
def edges (level : Bool) : List Bool → Nat × Bool
  | [] => (0, level)
  | b :: t =>
    let (n, last) := edges b t
    (if b = level then n else n + 1, last)

/-- Levels that take effect at the instant t (R366): only the last is emitted, and each other edge is a COLLIDE, also one that
an earlier action of the same instant made. -/
def State.camLevels (s : State) (k t : Nat) (l : List Bool) : State :=
  let now := s.rf (Reg.camCfg k) 0 0 = 1
  let (n, last) := edges now l
  let lost := if look 0 s.camEdge k = t + 1 then n else n - 1
  let s := if lost = 0 then s else s.bumpRf (Reg.camStat k) 25 10 lost
  let s := if n = 0 then s else { s with camEdge := put 0 s.camEdge k (t + 1) }
  s.setRf (Reg.camCfg k) 0 0 (if last then 1 else 0)

/-- A late network action (R473): counted, with an event to the hall kernel of OWNER. -/
def State.netLate (s : State) (k : Nat) : State := (s.bumpRf Reg.eclStat 31 16 1).camEvent k "NETLATE"

/-- A locked action passes to the line MainDevice when ROUTE includes the network (R366, R473); one that finds MODE OFF is
late. -/
def State.camToNet (s : State) (k : Nat) (level : Bool) (t : Nat) : State :=
  if !s.camNet k then s
  else
    let s := s.send (.netCam k level t)
    if s.rf (Reg.eclCamnet k) 63 63 = 0 then s
    else
      let off := s.rf Reg.eclCfg 63 62 = 0
      let s := { s with netCams := s.netCams ++ [⟨k, level, t, s.dt.toNat, off⟩] }
      if off then s.netLate k else s

/-- A late action (R367): LATE, its event and record, and its level at once under FIRE. -/
def State.camLate (s : State) (k : Nat) (level : Bool) (t : Nat) : State :=
  let s := (s.bumpRf (Reg.camStat k) 57 42 1).camEvent k "CAM_LATE"
  let s := s.note { code := 0x054, cls := .notice, source := 6, hall := s.camOwner k, inst := k,
                    detail := BitVec.ofNat 64 t }
  if s.rf (Reg.camCfg k) 54 54 = 1 then s else (s.camToNet k level s.dt.toNat).camLevels k s.dt.toNat [level]

/-- A write of a TARGET register is refused (R364). -/
def State.camRefused (s : State) (k : Nat) : State := (s.bumpRf (Reg.camStat k) 41 26 1).camEvent k "CAM_REFUSED"

/-- A position action is queued (R364). -/
def State.camAt (s : State) (k : Nat) (level : Bool) (p : BitVec 64) : State :=
  let x := posAxis p
  if 32 ≤ (s.camQ k).length || !s.seesAxis (s.camOwner k) x || s.posAhead p = -(2 ^ 60 : Int) then s.camRefused k
  else s.setCamQ k (s.camQ k ++ [⟨level, some p, none⟩])

/-- A time action is queued, locked at its DT (R364, R365), or late (R367). -/
def State.camDt (s : State) (k : Nat) (level : Bool) (t : Nat) : State :=
  if 32 ≤ (s.camQ k).length then s.camRefused k
  else if t < s.dt.toNat then s.camLate k level t
  else (s.setCamQ k (s.camQ k ++ [⟨level, none, some t⟩])).camToNet k level t

/-- The integer square root by halving. -/
def isqrt (n : Nat) : Nat → Nat → Nat → Nat
  | 0, lo, _ => lo
  | f + 1, lo, hi =>
    if hi ≤ lo + 1 then lo
    else
      let m := (lo + hi) / 2
      if m * m ≤ n then isqrt n f m hi else isqrt n f lo m

/-- The projected time in ns to a distance d > 0 (1/65,536 count) at velocity v > 0 (counts/s × 2^16) and acceleration a
(counts/s²), to the nearest ns; none when the web stops before (R365). -/
def projectNs (d v : Nat) (a : Int) : Option Nat :=
  let disc : Int := (v : Int) * v + 2 * a * (d : Int) * 65536
  if disc < 0 then none
  else
    let q := 2 ^ 40 * disc.toNat
    let r := isqrt q 300 0 (q + 1)
    let den := 2 ^ 20 * v + r
    some ((2 ^ 20 * (10 ^ 9 * (2 * d)) + den / 2) / den)

/-- The lock window of an output in ns (R365). -/
def State.lockWindow (s : State) (k : Nat) : Nat :=
  if s.camNet k then max 2000 (10000 * s.rf (Reg.camCfg k) 53 42) else 2000

/-- What a sample makes of one action: kept, locked at a DT, or late. -/
inductive Projected where
  | keep | lock (t : Nat) | late
  deriving DecidableEq, Repr

/-- The projection of one action (R365), frozen by loss under HOLD (R358). -/
def State.project (s : State) (k : Nat) (a : CamAct) : Projected :=
  match a.fire, a.pos with
  | some _, _ => .keep
  | none, none => .keep
  | none, some p =>
    let x := posAxis p
    if !s.axActive x then .keep
    else
      let d := posDiff (fld p 60 0) (s.reg (Reg.axSmpPos x)).toNat
      let v := s.axVel x
      let t0 := (s.reg (Reg.axSmpDt x)).toNat
      if d ≤ 0 then .late
      else if s.axLoss x && !s.axExtrap x then .keep
      else if v ≤ 0 then .keep
      else
        let dec := s.coastDecel x
        let acc : Int := if dec = 0 then signed 64 (s.reg (Reg.axAcc x)).toNat else -(dec : Int)
        match projectNs d.toNat v.toNat acc with
        | none => .keep
        | some dt => if t0 + dt < s.dt.toNat + s.lockWindow k then .lock (t0 + dt) else .keep

/-- The queued actions of an output at an estimator sample, in order (R365, R367). -/
def State.projectAll (s : State) (k : Nat) : List CamAct → List CamAct × State
  | [] => ([], s)
  | a :: q =>
    match s.project k a with
    | .keep =>
      let (q, s) := s.projectAll k q
      (a :: q, s)
    | .lock t =>
      let (q, s) := (s.camToNet k a.level t).projectAll k q
      ({ a with fire := some t } :: q, s)
    | .late => (s.camLate k a.level s.dt.toNat).projectAll k q

/-- The projection of an output at a sample. -/
def State.projectCam (s : State) (k : Nat) : State :=
  let (q, s) := s.projectAll k (s.camQ k)
  s.setCamQ k q

/-- The DT at which an output switches so that its pin does at a fire DT: earlier by the output's delay (R366, R516). -/
def State.switchDt (s : State) (k t : Nat) : Nat := s.trimmed (24 + k) 15 0 t

/-- The earliest fire DT of an output's locked actions. -/
def firstFire (q : List CamAct) : Option Nat :=
  match q.filterMap CamAct.fire with
  | [] => none
  | t :: ts => some (ts.foldl min t)

/-- Locked actions fire (R366): those of the earliest fire DT, once DT has reached the
instant to switch at, in the order written. -/
def State.camFire (s : State) (k : Nat) : State :=
  match firstFire (s.camQ k) with
  | none => s
  | some t =>
    if s.dt.toNat < s.switchDt k t then s
    else
      let q := s.camQ k
      let due := (q.filter (fun a => a.fire = some t)).map CamAct.level
      (s.setCamQ k (q.filter (fun a => a.fire ≠ some t))).camLevels k t due

/-- The part is WITHHELD from its cascade (R485). -/
def State.withheld (s : State) : Bool := s.rf Reg.cascState 63 60 = 3

/-- CAM_CTRL (R366): FLUSH first, then NOW, which has no effect in a WITHHELD part (R485). -/
def State.camCtrl (s : State) (k : Nat) (act : BitVec 64) : State :=
  let s := if bit act 2 then s.setCamQ k [] else s
  match if s.withheld then 0 else fld act 1 0 with
  | 2 => (s.camToNet k false s.dt.toNat).camLevels k s.dt.toNat [false]
  | 3 => (s.camToNet k true s.dt.toNat).camLevels k s.dt.toNat [true]
  | _ => s

/-- Writers of an output's action registers (R347). -/
def State.camWriter (s : State) (who : Initiator) (k : Nat) : Bool := s.kernelOrPf who || s.isCtxOf who (s.camOwner k)

/-- Number of the output at an offset. -/
def camOf (off : Nat) : Nat := (off - 0x730000) / 0x4000 * 8 + (off - 0x730000) % 0x4000 / 0x80

/-- A write of a CAM_* register (R347). -/
def State.camWrite (s : State) (who : Initiator) (off : Nat) (mask v : BitVec 64) : State :=
  let k := camOf off
  if off = Reg.camCfg k then s.gate (s.kernelOrPf who) who off <|
    let was := s.camOwner k
    let s := s.plain off mask v
    let now := s.camOwner k
    if now = was then s
    else
      let s := if was = 0 then s else s.shareChanged was 9 (k / 8)
      if now = 0 then s else s.shareChanged now 9 (k / 8)
  else s.gate (s.camWriter who k) who off <|
    let (act, s) := s.store64 off mask v
    if off = Reg.camStat k then if bit act 0 then s.clearFields off [(57, 42), (41, 26), (25, 10)] else s
    else if off = Reg.camCtrl k then s.camCtrl k act
    else if s.withheld then s.camRefused k
    else if off = Reg.camOnAt k then s.camAt k true act
    else if off = Reg.camOffAt k then s.camAt k false act
    else if off = Reg.camOnDt k then s.camDt k true act.toNat
    else s.camDt k false act.toNat

end Sys2Proof.Machine
end

