-- ==== Sys2Proof/Machine/WebMark.lean ====
section
/-! DEFINITION. Mark inputs and mark sensors (R361, R362), the estimator sample (R352), the stop state and coast-down
(R374 to R376), item rings (R369, R370), and the writes of AX_*, MARK_* and MS_* (R347). -/

namespace Sys2Proof.Machine

/-! Marks. -/

/-- An edge of mark input m at a DT (R361). The filtered level follows every edge but one that comes within FILT of the last
accepted one (log entry 36). -/
def State.markEdge (s : State) (m t : Nat) (rising : Bool) : State :=
  let cfg := s.reg (Reg.markCfg m)
  let a := Reg.markStat m
  let last := look 0 s.marks m
  let soon := last ≠ 0 && t < last - 1 + 5 * fld cfg 57 50
  let s := if soon then s else s.setRf a 15 15 (if rising then 1 else 0)
  let kind := if rising then bit cfg 59 else bit cfg 60
  if !kind || soon then s.bumpRf a 31 16 1
  else
    let x := fld cfg 63 61
    let p := (s.axAt x t).toNat % 2 ^ 61
    let s := { s with marks := put 0 s.marks m (t + 1) }
    let s := (s.setReg (Reg.markDt m) (BitVec.ofNat 64 t)).setReg (Reg.markPos m) (BitVec.ofNat 64 (x * 2 ^ 61 + p))
    (s.setRf a 63 32 ((s.rf a 63 32 + 1) % 2 ^ 32)).mirrorMarks m

/-- An edge at pin MARK_IN[m], `ns` into the present CLK_TB cycle, less the input's delay (R516). -/
def State.markPin (s : State) (m ns : Nat) (rising : Bool) : State :=
  if 16 ≤ m || s.rf (Reg.markCfg m) 58 58 = 1 then s
  else s.markEdge m (s.trimmed m 15 0 (s.dt.toNat + ns % 5)) rising

/-- The DT at which the line between two samples meets a threshold (R362). -/
def straddle (a b : MsSample) (th : Nat) : Nat :=
  if a.value < b.value then a.dt + (th - a.value) * (b.dt - a.dt) / (b.value - a.value)
  else if b.value < a.value then a.dt + (a.value - th) * (b.dt - a.dt) / (a.value - b.value)
  else b.dt

/-- A converter's reading corrected by the gain and offset of the channel's calibration word (R516; log entry 67). -/
def State.msCorrect (s : State) (c raw : Nat) : Nat :=
  let w := Reg.calWord (16 + c)
  let v : Int := ((16 * raw * s.rf w 15 0 / 32768 : Nat) : Int) + signed 16 (s.rf w 31 16)
  min 4095 (v.toNat / 16)

/-- A sample of MS channel c (R362). -/
def State.msSample (s : State) (c value : Nat) : State :=
  let cfg := s.reg (Reg.msCfg c)
  if 8 ≤ c || !bit cfg 63 then s
  else
    let v := s.msCorrect c (value % 4096)
    let q := look [] s.ms c
    let was := match q with
      | [] => false
      | a :: _ => a.level
    let level := if was then !(v ≤ fld cfg 43 32) else fld cfg 55 44 ≤ v
    let e : MsSample := ⟨s.dt.toNat, v, level⟩
    let t := match q with
      | [] => e.dt
      | a :: _ => straddle a e (if level then fld cfg 55 44 else fld cfg 43 32)
    let s := { s with ms := put [] s.ms c ((e :: q).take 8) }
    let r := Reg.msVal c
    let s := (s.setRf r 63 32 ((s.rf r 63 32 + 1) % 2 ^ 32)).setRf r 11 0 v
    if level ≠ was && s.rf (Reg.markCfg (c + 8)) 58 58 = 1 then s.markEdge (c + 8) t level else s

/-! The estimator. -/

/-- Velocity and acceleration of a sample (R352, R354): estimated from count changes in a way left open (log entry 8). -/
def State.estimate (s : State) (x : Nat) : BitVec 64 × BitVec 64 × State :=
  if s.axLoss x then
    if s.axExtrap x then
      let dec := s.coastDecel x
      let v := ((s.axr x).glide dec s.dt.toNat).2
      (BitVec.ofInt 64 v, BitVec.ofInt 64 (if 0 < v then -(dec : Int) else if v < 0 then (dec : Int) else 0), s)
    else (0, 0, s)
  else if s.remoteAxis x then (s.reg (Reg.axVel x), s.reg (Reg.axAcc x), s)
  else
    let (v, s) := s.freeNat
    let (a, s) := s.freeNat
    (BitVec.ofNat 64 v, BitVec.ofNat 64 a, s)

/-- EXPECT and DEV of an axis in the profile during COAST (R376). -/
def State.coastSample (s : State) (x : Nat) : State :=
  let dec := s.decel x
  if s.stopState ≠ 1 || dec = 0 then s
  else
    let v := s.axVel x
    let c := Reg.axCoast x
    let e := (s.reg (Reg.axPos x)).toNat + v.natAbs * v.natAbs / (2 ^ 17 * dec)
    let s := s.setRf c 47 0 (e / 65536 % 2 ^ 48)
    let v0 := (s.axr x).v0
    let line := v0 - (65536 * dec * (s.dt.toNat - (s.reg Reg.axStopDt).toNat) / 10 ^ 9 : Int)
    if s.rf c 63 63 = 0 && v0 * s.obj 0x2740 (3 * x + 2) < (v - line) * 100 then
      ((s.setRf c 63 63 1).note { code := 0x053, cls := .notice, source := 6, inst := x,
                                   detail := s.reg (Reg.axVel x) }).event 0 "COAST_DEV" x
    else s

/-- An extrapolated axis goes on from its position and velocity now (R354). -/
def State.rebase (s : State) (x : Nat) : State :=
  if s.axExtrap x then
    let (p, v) := (s.axr x).glide (s.coastDecel x) s.dt.toNat
    (s.pushTrack x).setAxr x { s.axr x with exPos := p, exDt := s.dt.toNat, exVel := v }
  else s

/-- A sample takes the committed profile (R376): an extrapolated axis goes on from here with the new DECEL. -/
def State.takeProfile (s : State) (x : Nat) : State :=
  let d := s.decel x
  if d = (s.axr x).dec then s.pushTrack x
  else
    let s := if s.axExtrap x then s.rebase x else s.pushTrack x
    s.setAxr x { s.axr x with dec := d }

/-- The sample of one axis: the fraction update, then the sample (R351, R352). -/
def State.sampleAxis (s : State) (x : Nat) : State :=
  let s := (if s.axActive x then s.moveAxis x (s.axAt x s.dt.toNat) else s).takeProfile x
  let (v, a, s) := s.estimate x
  let s := ((s.setReg (Reg.axSmpPos x) (s.reg (Reg.axPos x))).setReg (Reg.axVel x) v).setReg (Reg.axAcc x) a
  let s := s.setReg (Reg.axSmpDt x) s.dt
  let s := s.setRf (Reg.axStat x) 31 0 ((s.rf (Reg.axStat x) 31 0 + 1) % 2 ^ 32)
  let slow := (s.axVel x).natAbs ≤ 65536 * s.obj 0x2740 (3 * x + 3)
  let r := s.axr x
  let s := s.setAxr x { r with still := if slow then (if r.still.isSome then r.still else some s.dt.toNat) else none }
  s.coastSample x

/-- ESTIMATOR_SAMPLE (R352, R365): every axis, then every output's actions. -/
def State.estimatorSample (s : State) : State :=
  let s := (List.range s.part.axes).foldl (fun s x => s.sampleAxis x) s
  (s.cams.map Prod.fst).foldl (fun s k => s.projectCam k) s

/-! The stop state. -/

/-- A change of the stop state (R374): the record and the events; extrapolated axes go on from here. -/
def State.setStop (s : State) (new : Nat) : State :=
  let old := s.stopState
  let s := (List.range s.part.axes).foldl State.rebase s
  let s := s.setRf Reg.axStop 63 62 new
  let s := if new ≠ 1 then s
    else
      let s := (s.setRf Reg.axStop 31 0 ((s.rf Reg.axStop 31 0 + 1) % 2 ^ 32)).setReg Reg.axStopDt s.dt
      (List.range s.part.axes).foldl (fun s x =>
        (s.setRf (Reg.axCoast x) 63 63 0).setAxr x { s.axr x with v0 := s.axVel x }) s
  let quiet := s.rf Reg.devErrcfg 3 3 = 0
  let (i, s) := s.report { code := 0x052, cls := .event, source := 6, detail := BitVec.ofNat 64 (new + 4 * old) }
  let s := if new = 1 && quiet then s.mgrMsix 2 0xFF 0x052 i else s
  let s := s.event 0 "STOP_STATE" new
  ((List.range 64).filter (fun h => h ≠ 0 && s.hallCreated h)).foldl (fun s h => s.event h "STOP_STATE" new) s

/-- A stop request (R374). -/
def State.stopRequest (s : State) : State := if s.stopState = 0 then s.setStop 1 else s

/-- ns that STOP_REQ_N holds a new level before the filtered level takes it (R374). -/
def State.stopFilt (s : State) : Nat := 5 * s.rf Reg.axStop 57 48

/-- The DT since which STOP_REQ_N has been high while the filtered level is still low. -/
def State.setStopHigh (s : State) (t : Option Nat) : State := { s with life := { s.life with stopHigh := t } }

/-- STOP_REQ_N goes low for `ns` (R374): for less than the filter it is ignored, but a high level that was under way begins
anew behind it. -/
def State.stopPinLow (s : State) (ns : Nat) : State :=
  if s.stopFilt ≤ ns then ((s.setStopHigh none).setRf Reg.axStop 61 61 1).stopRequest
  else if s.life.stopHigh.isSome then s.setStopHigh (some (s.dt.toNat + ns))
  else s

/-- STOP_REQ_N goes high: the filtered level follows once it has held for FILT × 5 ns (R374). -/
def State.stopPinHigh (s : State) : State :=
  if s.rf Reg.axStop 61 61 = 1 && s.life.stopHigh.isNone then s.setStopHigh (some s.dt.toNat) else s

/-- The high level of STOP_REQ_N passes the filter. -/
def State.stopFilter (s : State) : State :=
  match s.life.stopHigh with
  | none => s
  | some t => if t + s.stopFilt ≤ s.dt.toNat then (s.setStopHigh none).setRf Reg.axStop 61 61 0 else s

/-- RELEASE (R374). -/
def State.stopRelease (s : State) : State :=
  if s.stopState ≠ 0 && s.rf Reg.axStop 61 60 = 0 then s.setStop 0 else s.setRf Reg.axStop 58 58 1

/-- STOPPED (R374): every profile axis has been still for 10 ms. -/
def State.stopDone (s : State) : State :=
  let prof := (List.range s.part.axes).filter (fun x => (s.axr x).dec ≠ 0)
  let rest := prof.all (fun x => match (s.axr x).still with
    | some t => t + 10000000 ≤ s.dt.toNat
    | none => false)
  if s.stopState = 1 && !prof.isEmpty && rest then s.setStop 2 else s

/-! Item rings. -/

/-- REFUSED of AX_IPTR. -/
def State.ringRefused (s : State) (x : Nat) : State := s.setRf (Reg.axIptr x) 0 0 1

/-- The ring lies wholly within one ROOT bin of HALL (R369). -/
def State.ringPlaced (s : State) (v : BitVec 64) : Bool :=
  let a := fld v 39 4 * 16
  let b := a + 16 * 2 ^ fld v 57 53
  b ≤ s.part.memSize && a / binSize = (b - 1) / binSize &&
    (s.binOf a).kind = .root && (s.binOf a).hall = fld v 63 58

/-- The first entry from index i on, of n, whose station position lies ahead; else the one behind them (R370). -/
def State.firstAhead (s : State) (x dist i : Nat) : Nat → Nat × State
  | 0 => (i, s)
  | n + 1 =>
    let (w, s) := s.agentLoad (s.ringEntry x i + 8)
    if w.type = 4 && 0 < posDiff (fld w.payload 60 0 + 65536 * dist) (s.reg (Reg.axPos x)).toNat then (i, s)
    else s.firstAhead x dist ((i + 1) % 2 ^ s.ringSize x) n

/-- A cursor starts at the first entry whose station position lies ahead (R370). -/
def State.startCursor (s : State) (x k : Nat) : State :=
  let head := s.rf (Reg.axIptr x) 47 32
  let n := ringGap head (s.rf (Reg.axIptr x) 63 48) (2 ^ s.ringSize x)
  let (i, s) := s.firstAhead x (s.rf (Reg.axStn x k) 31 0) head n
  s.setCursor x k i

/-- A write of AX_IRING (R369). -/
def State.iringWrite (s : State) (x : Nat) (mask v : BitVec 64) : State :=
  let off := Reg.axIring x
  let old := s.reg off
  let w := (regsWpu.find? (fun d => d.covers off)).map (fun d => d.write old mask v)
  match w with
  | none => s
  | some w =>
    let count := fun (s : State) => if w.bad then s.countReg off else s
    if fld old 57 53 ≠ 0 then if w.new = old then count s else (count s).ringRefused x
    else if fld w.new 57 53 = 0 then count (s.setReg off w.new)
    else if !s.ringPlaced w.new then (count s).ringRefused x
    else
      let s := (count s).setReg off w.new
      let s := (s.setRf (Reg.axIptr x) 63 48 0).setRf (Reg.axIptr x) 47 32 0
      let s := s.setAxr x { s.axr x with cursors := [] }
      (s.stationsOn x).foldl (fun s k => s.setCursor x k 0) s

/-- A write of AX_IPTR.TAIL (R370). -/
def State.tailWrite (s : State) (x tail : Nat) : State :=
  let m := 2 ^ s.ringSize x
  let p := s.reg (Reg.axIptr x)
  let now := fld p 63 48
  if tail = now then s
  else if s.ringSize x = 0 || m ≤ tail then s.ringRefused x
  else if (fld p 47 32 + 2 * m - now - 1) % m < ringGap now tail m then s.ringRefused x
  else (s.setRf (Reg.axIptr x) 63 48 tail).ringHead x

/-- Writers of AX_IPTR.TAIL and its REFUSED bit (R347). -/
def State.tailWriter (s : State) (who : Initiator) (x : Nat) : Bool := s.kernelOrPf who || s.isCtxOf who (s.ringHall x)

/-- A write of AX_IPTR. -/
def State.iptrWrite (s : State) (x : Nat) (mask v : BitVec 64) : State :=
  let off := Reg.axIptr x
  let tail := fld v 63 48
  let wrote := mask &&& fmask 63 48 ≠ 0
  let s := s.plain off (mask &&& ~~~fmask 63 48) v
  if wrote then s.tailWrite x tail else s

/-- A write of a station (R370): one enabled while tracking is on starts its cursor. -/
def State.stationWrite (s : State) (x k : Nat) (mask v : BitVec 64) : State :=
  let off := Reg.axStn x k
  let was := s.rf off 63 63
  let s := s.plain off mask v
  let on := s.rf off 63 63
  if s.ringSize x = 0 || was = on then s
  else if on = 1 then (s.startCursor x k).ringHead x
  else (s.setAxr x { s.axr x with cursors := put 0 (s.axr x).cursors k 0 }).ringHead x

/-! Register writes. -/

/-- A write of AX_CFG (R349, R490). -/
def State.axCfgWrite (s : State) (x : Nat) (mask v : BitVec 64) : State :=
  let off := Reg.axCfg x
  let old := s.axMode x
  let new := fld ((s.reg off &&& ~~~mask) ||| (v &&& mask)) 63 62
  let free := (old = 0 || s.axLoss x) && !(s.remoteAxis x && new ≠ 0)
  if new = old || new = 3 then s.plain off mask v
  else if !free then (s.plain off (mask &&& ~~~fmask 63 62) v).setRf (Reg.axStat x) 61 61 1
  else
    let s := (s.pushTrack x).plain off mask v
    let r := s.axr x
    let asked := s.rf (Reg.axCtrl x) 0 0 = 1
    let s := s.setAxr x { r with base := s.reg (Reg.axPos x), chgDt := s.dt.toNat, ill := [], bad := 0,
                                 ssiStart := none, recov := new = 2 && (!s.axLoss x || asked) }
    let s := if new = 1 && asked then s.recoverAxis x else s
    if new = 0 then s.setRf (Reg.axStat x) 62 62 0 else s

/-- A write of AX_STOP (R374). -/
def State.axStopWrite (s : State) (mask v : BitVec 64) : State :=
  let (act, s) := s.store64 Reg.axStop mask v
  let s := if bit (v &&& mask) 60 then s.stopRequest else s
  if bit act 59 then s.stopRelease else s

/-- A write of MS_CFG (R362). -/
def State.msCfgWrite (s : State) (off : Nat) (mask v : BitVec 64) : State :=
  let n := (s.reg off &&& ~~~mask) ||| (v &&& mask)
  if fld n 55 44 < fld n 43 32 then s.countReg off else s.plain off mask v

/-- A write of MARK_CFG: an absent axis, and SRC of inputs 0 to 7, are reserved (R361). -/
def State.markCfgWrite (s : State) (off : Nat) (mask v : BitVec 64) : State :=
  let m := instOf off (Reg.markCfg 0) 0x40
  let n := (s.reg off &&& ~~~mask) ||| (v &&& mask)
  let badAxis := mask &&& fmask 63 61 ≠ 0 && s.part.axes ≤ fld n 63 61
  let badSrc := bit mask 58 && bit n 58 && m < 8
  let keep := (if badAxis then fmask 63 61 else 0) ||| (if badSrc then fmask 58 58 else 0)
  let before := s.reg Reg.devRsvWrites
  let s := s.plain off (mask &&& ~~~keep) v
  if keep ≠ 0 && s.reg Reg.devRsvWrites = before then s.countReg off else s

/-- A write of an AX_*, PTAB_*, MARK_* or MS_* register past its writer check. -/
def State.webApply (s : State) (off : Nat) (mask v : BitVec 64) : State :=
  let x := (off - 0x700000) / 0x100
  if off = Reg.axStop then s.axStopWrite mask v
  else if 0x750000 ≤ off && off < 0x751000 then
    if off % 0x40 = 0 then s.markCfgWrite off mask v
    else
      let (act, s) := s.store64 off mask v
      if off % 0x40 = 8 && bit act 0 then s.setRf off 31 16 0 else s
  else if 0x751000 ≤ off then if off % 0x40 = 0 then s.msCfgWrite off mask v else s.plain off mask v
  else if 0x710000 ≤ off then s.plain off mask v
  else if 0x701000 ≤ off && off < 0x701800 then
    s.stationWrite ((off - 0x701000) / 0x100) ((off - 0x701000) % 0x100 / 8) mask v
  else if off = Reg.axCfg x then s.axCfgWrite x mask v
  else if off = Reg.axIring x then s.iringWrite x mask v
  else if off = Reg.axIptr x then s.iptrWrite x mask v
  else
    let (act, s) := s.store64 off mask v
    if off = Reg.axCtrl x then if bit act 0 then s.recoverAxis x else s
    else if off = Reg.axPtabCtrl x then if bit act 63 then s.requestSwap x else s
    else s

/-- A write of a WPU register (R347). -/
def State.webWrite (s : State) (who : Initiator) (off : Nat) (mask v : BitVec 64) : State :=
  let x := (off - 0x700000) / 0x100
  if 0x730000 ≤ off && off < 0x750000 then s.camWrite who off mask v
  else if off < 0x701000 && off = Reg.axIptr x then s.gate (s.tailWriter who x) who off (s.webApply off mask v)
  else s.gate (s.kernelOrPf who) who off (s.webApply off mask v)

end Sys2Proof.Machine
end

