-- ==== Sys2Proof/Machine/GalleryUnit.lean ====
section
/-! DEFINITION. The Gallery's own acts and registers (spec/12_gallery.md): the check of crossed speculations (R392 to R394),
ABANDON (R397), the remote timeout (R400) and the writes of GAL_* (R389, R403). -/

namespace Sys2Proof.Machine

/-- Cascade time is flagged suspect (R488). -/
def State.suspect (s : State) : Bool := s.rf Reg.cascTime 63 63 = 1

/-- The CROSSED speculations that meet R392, first crossed first and then by SEQ (R394). -/
def State.checkDue (s : State) : List Nat :=
  let l := s.gal.filter (fun (_, g) => g.st = .crossed && !(g.remote && s.suspect))
  (sortBy (fun (a b : Nat × GalRec) => a.2.crossDt < b.2.crossDt || (a.2.crossDt = b.2.crossDt && a.2.seq ≤ b.2.seq))
    l).map Prod.fst

/-- SPEC_CHECK (R393 to R395), and what the outcome released (R170). -/
def State.specCheck (s : State) : State :=
  match s.checkDue with
  | [] => s
  | i :: _ =>
    let scn := (s.galr i).scn
    (if s.onHalted scn then s.cutSpec i 6 else s.checkSpec i).applyDeferred scn

/-- Discards a speculation for a reason, and applies what waited for its outcome. -/
def State.endSpec (s : State) (i reason : Nat) : State :=
  let scn := (s.galr i).scn
  (if s.onHalted scn then s.cutSpec i reason else s.discardSpec i reason).applyDeferred scn

/-- The record a SPECK value names (R381). -/
def State.speckRec (s : State) (k : Nat) : Option Nat :=
  let g := s.galr (k % 1024)
  if g.st ≠ .free && g.seq = k / 1024 then some (k % 1024) else none

/-- A write of GAL_CMD (R397). -/
def State.galCmdWrite (s : State) (who : Initiator) (mask v : BitVec 64) : State :=
  let i := s.speckRec (fld (v &&& mask) 31 0)
  let mine := match who, i with
    | .ctx scn _, some k => (s.ctx scn).hall = (s.galr k).hall
    | .ctx _ _, none => true
    | _, _ => false
  s.gate (s.kernelOrPf who || mine) who Reg.galCmd <|
    let (act, s) := s.store64 Reg.galCmd mask v
    match i with
    | some k => if fld act 63 60 = 1 then s.endSpec k 5 else s
    | none => s

/-- REMOTE_TIMEOUT (R400): the first speculation held for REMOTE_TO. -/
def State.remoteTimeout (s : State) : State :=
  let late := fun (e : Nat × GalRec) => e.2.st = .crossed && e.2.remote && s.suspect &&
    e.2.crossDt + 100000 * s.rf Reg.galCfg 15 0 ≤ s.dt.toNat
  match s.gal.find? late with
  | none => s
  | some (i, _) => s.endSpec i 4

/-- BASE of a mirror meets R389 for hall h. -/
def State.mirrorOk (s : State) (h : Nat) (v : BitVec 64) : Bool :=
  let a := 2048 * fld v 39 11
  a < s.part.memSize && a % binSize ≠ 0 && (s.binOf a).kind = .root && (s.binOf a).hall = h

/-- Every selected sector of a mirror (R391). -/
def State.mirrorAll (s : State) (h : Nat) : State :=
  let sel := s.reg (Reg.galMsel h)
  let s := ((List.range 16).filter (fun m => bit sel m)).foldl (fun s m => s.mirrorMark true h m) s
  ((List.range 8).filter (fun c => bit sel (16 + c))).foldl (fun s c => s.mirrorMs true h c) s

/-- A write of GAL_MIRROR[h] (R389, R391). -/
def State.mirrorWrite (s : State) (h : Nat) (mask v : BitVec 64) : State :=
  let off := Reg.galMirror h
  let n := (s.reg off &&& ~~~mask) ||| (v &&& mask)
  let was := s.rf off 63 63
  if bit n 63 && !s.mirrorOk h n then s.countReg off
  else
    let s := s.plain off mask v
    if was = 0 && bit n 63 then s.mirrorAll h else s

/-- Lines the Gallery of a variant holds (R4, R398). -/
def Part.galLines (pt : Part) : Nat := 4096 * pt.galMib

/-- A write of a GAL_* register (R403, R423). -/
def State.galWrite (s : State) (who : Initiator) (off : Nat) (mask v : BitVec 64) : State :=
  if off = Reg.galCmd then s.galCmdWrite who mask v
  else if 0x800800 ≤ off && off < 0x800A00 then
    let h := instOf off 0x800800 8
    s.gate (s.kernelOrPf who || s.isCtxOf who h) who off <|
      if s.resetting h then s.countReg off
      else
        let (act, s) := s.store64 off mask v
        if bit act 0 then s.clearFields off [(63, 48), (47, 32), (31, 16)] else s
  else s.gate (s.kernelOrPf who) who off <|
    if 0x800C00 ≤ off && off < 0x801200 && s.resetting (instOf off 0x800C00 8 % 64) then s.countReg off
    else if 0x800C00 ≤ off && off < 0x800E00 then s.mirrorWrite (instOf off 0x800C00 8) mask v
    else if 0x800400 ≤ off && off < 0x800600 then
      let t := if s.part.galLines < fld (v &&& mask) 47 32 then s.countReg off else s.plain off mask v
      if t.rf off 47 32 = s.rf off 47 32 then t else t.shareChanged (instOf off 0x800400 8) 4 (t.rf off 47 32)
    else s.plain off mask v

end Sys2Proof.Machine
end

