-- ==== Sys2Proof/Machine/Engine.lean ====
section
/-! DEFINITION. Transfer engines (spec/14_host_pcie.md, R441 to R446; wire words of R79 to R81): what a descriptor is
found to be at its fetch, what its transfer moves, and how it completes. -/

namespace Sys2Proof.Machine

/-- Descriptors of a hall accepted and not completed: HALL_STATE.XE_OPS. -/
def State.xeOps (s : State) (h : Nat) : Nat := (s.xe.filter (fun o => o.hall = h && o.counted)).length

/-! The fields of a descriptor. -/

/-- A word of a descriptor. -/
def XeOp.word (o : XeOp) (i : Nat) : BitVec 64 := o.words.getD i 0
/-- LENGTH in host bytes. -/
def XeOp.len (o : XeOp) : Nat := fld (o.word 0) 63 40
/-- TAG. -/
def XeOp.dtag (o : XeOp) : Nat := fld (o.word 0) 31 16
/-- IRQ. -/
def XeOp.irq (o : XeOp) : Bool := bit (o.word 0) 7
/-- FENCE. -/
def XeOp.fence (o : XeOp) : Bool := bit (o.word 0) 6
/-- MODE: 0 WIRE, 1 BYTES, 2 IMAGE. -/
def XeOp.mode (o : XeOp) : Nat := fld (o.word 0) 5 4
/-- DIR is host to Granary. -/
def XeOp.inbound (o : XeOp) : Bool := bit (o.word 0) 3
/-- HOST. -/
def XeOp.host (o : XeOp) : Nat := (o.word 1).toNat
/-- START. -/
def XeOp.start (o : XeOp) : Nat := fld (o.word 3) 39 0

/-! Outcomes at the fetch (R443, R444). -/

/-- BAD_DESCRIPTOR. -/
def badDescriptor (o : XeOp) : Bool :=
  fld (o.word 0) 39 32 ≠ 0 || fld (o.word 0) 15 8 ≠ 0 || fld (o.word 0) 2 0 ≠ 0 || fld (o.word 3) 63 40 ≠ 0 ||
  fld (o.word 2) 63 44 ≠ 0 || fld (o.word 2) 2 0 ≠ 0 || o.mode = 3 ||
  (o.mode ≠ 1 && (o.host % 16 ≠ 0 || o.len % 16 ≠ 0)) || (o.mode = 2 && o.start ≠ 0)

/-- The bins an object transfer may name. -/
def BinKind.holdsObjects : BinKind → Bool
  | .eden | .surv | .old | .large | .root => true
  | _ => false

/-- The bins an image transfer may name. -/
def BinKind.holdsImages : BinKind → Bool
  | .root | .plain => true
  | _ => false

/-- Physical address of a heap-window address in a bin of the hall of a kind `ok`. -/
def State.xePa (s : State) (h a : Nat) (ok : BinKind → Bool) : Option Nat :=
  let pa := a - s.wbase h
  if s.wbase h ≤ a && pa < s.part.memSize && (s.binOf pa).hall = h && ok (s.binOf pa).kind then some pa else none

/-- Bytes from an address to the end of the run of ROOT or PLAIN bins of the hall that holds it. -/
def State.imageRun (s : State) (h pa : Nat) : Nat :=
  let run := ((List.range s.part.nbins).map (fun k => pa / binSize + k)).takeWhile (fun n =>
    n < s.part.nbins && (s.bin n).hall = h && (s.bin n).kind.holdsImages)
  binSize * (pa / binSize + run.length) - pa

/-- The header at an address, a FWD word being followed once (R443): address and header. -/
def State.xeHeader (s : State) (h pa : Nat) : Nat × Word × State :=
  let (w, s) := s.agentLoad pa
  if w.type = 0x31 then
    let q := s.heapPa h w
    let (v, s) := s.agentLoad q
    (q, v, s)
  else (pa, w, s)

/-- Clauses 5 and 6 of R444: STATUS, the address of the object, its extent in words or bytes. -/
def State.xeBuffer (s : State) (o : XeOp) : Nat × Nat × Nat × State :=
  let a := (o.word 2).toNat
  if o.mode = 2 then
    match s.xePa o.hall a BinKind.holdsImages with
    | none => (7, 0, 0, s)
    | some pa =>
      let n := s.imageRun o.hall pa / 8
      (if n < o.len / 16 then 2 else 0, pa, n, s)
  else
    match s.xePa o.hall a BinKind.holdsObjects with
    | none => (7, 0, 0, s)
    | some pa =>
      let (q, hdr, s) := s.xeHeader o.hall pa
      if hdr.type ≠ 0x30 then (7, 0, 0, s)
      else if o.mode = 0 then
        (if hdrLen hdr < o.start + o.len / 16 then 2 else 0, q, hdrLen hdr, s)
      else
        let (b, s) := s.agentLoad (q + 8)
        if !b.isFix then (7, 0, 0, s)
        else (if b.payload.toInt.toNat < o.start + o.len then 2 else 0, q, b.payload.toInt.toNat, s)

/-- The first outcome of R444 for a descriptor: whether it is accepted, STATUS, object and extent. -/
def State.xeOutcome (s : State) (o : XeOp) : Bool × Nat × Nat × Nat × State :=
  if s.rf (Reg.hallShare o.hall) 47 34 ≤ s.xeOps o.hall then (false, 3, 0, 0, s)
  else if badDescriptor o then (true, 5, 0, 0, s)
  else if o.mode = 2 && s.rf (Reg.qCfg o.hall o.queue) 61 61 = 0 then (true, 6, 0, 0, s)
  else if o.len = 0 then (true, 0, 0, 0, s)
  else
    let (st, pa, n, s) := s.xeBuffer o
    (true, st, pa, n, s)

/-- A queue stops (R442): ERR, the event and the record. -/
def State.stopQueue (s : State) (h q tag : Nat) : State :=
  let s := s.setRf (Reg.qCfg h q) 60 60 1
  (s.note { code := 0x062, cls := .contained, source := 7, hall := h,
            detail := BitVec.ofNat 64 (q + 65536 * tag) }).event h "QUEUE_STOPPED" q

/-- DMA of a hall runs: RUNNING, or the grace period of a reset, and the function issues requests (R407, R420, R430,
R434). -/
def State.dmaOn (s : State) (h : Nat) : Bool :=
  let v := s.reg (Reg.hallState h)
  (fld v 63 61 = 2 || (fld v 63 61 = 3 && fld v 60 58 = 1)) && s.requests h

/-- An enabled XFER queue has an entry to fetch (R440). -/
def State.fetchReady (s : State) (h q : Nat) : Bool :=
  let c := s.reg (Reg.qCfg h q)
  h ≤ s.part.hallMax && q < 32 && s.dmaOn h && bit c 63 && !bit c 62 && !bit c 60 &&
    s.rf (Reg.qPtr h q) 47 32 ≠ s.rf (Reg.qPtr h q) 63 48 &&
    (s.xe.filter (fun o => o.engine = fld c 55 53)).length < 1024

/-- What an engine keeps of a hall. -/
def State.xeTurnOf (s : State) (h e : Nat) : XeTurn := look ⟨0, 0⟩ s.xeTurns (h * 8 + e)

/-- The queue of a hall that an engine serves next: the first, from its turn on, that has an entry to fetch (R441). -/
def State.xeTurn (s : State) (h e : Nat) : Option Nat :=
  let t := s.xeTurnOf h e
  ((List.range 32).map (fun k => (t.queue + k) % 32)).find? (fun q =>
    s.rf (Reg.qCfg h q) 55 53 = e && s.fetchReady h q)

/-- XE_WEIGHT of a hall (R414, R441). -/
def State.xeWeight (s : State) (h : Nat) : Nat := max 1 (s.rf (Reg.hallShare h) 33 26)

/-- The halls with an entry to fetch on an engine. -/
def State.xeHalls (s : State) (e : Nat) : List Nat :=
  (List.range (s.part.hallMax + 1)).filter (fun k => s.dmaOn k && (s.xeTurn k e).isSome)

/-- An engine may serve a hall: in bytes moved for its weight it is not ahead of another that waits, beyond the lead that the
part allows (R441). -/
def State.hallTurn (s : State) (h e : Nat) : Bool :=
  (s.xeHalls e).all (fun k => k = h || decide ((s.xeTurnOf h e).moved * s.xeWeight k ≤
    ((s.xeTurnOf k e).moved + Config.xeLead * s.xeWeight k) * s.xeWeight h))

/-- A queue has an entry to fetch and its turn on its engine (R440, R441). -/
def State.fetchable (s : State) (h q : Nat) : Bool :=
  let e := s.rf (Reg.qCfg h q) 55 53
  s.fetchReady h q && s.xeTurn h e = some q && s.hallTurn h e

/-- The turn of an engine among a hall's queues passes a queue, and its bytes count; they count from nothing where no other hall
has an entry to fetch. -/
def State.passTurn (s : State) (h e q n : Nat) : State :=
  let alone := (s.xeHalls e).all (· = h)
  let t := if alone then s.xeTurns.map (fun x => if x.1 % 8 = e then (x.1, { x.2 with moved := 0 }) else x) else s.xeTurns
  { s with xeTurns := put ⟨0, 0⟩ (t.filter (fun x => x.2 ≠ ⟨0, 0⟩)) (h * 8 + e)
             ⟨(q + 1) % 32, (if alone then 0 else (s.xeTurnOf h e).moved) + n⟩ }

/-- The engine numbers a descriptor (R441): ACC. -/
def State.nextAcc (s : State) (h e : Nat) : Nat := (s.rf (Reg.xeHcnt h e) 63 32 + 1) % 2 ^ 32

/-- DESCRIPTOR_FETCH (R440 to R444): `reply` is what the host's completion delivered, none where the read failed. The header and
bounds of a FENCE descriptor that must wait are judged when it starts (R441); from its acceptance it holds its object. -/
def State.fetchDescriptor (s : State) (h q : Nat) (reply : Option (List (BitVec 64))) : State :=
  let cfg := s.reg (Reg.qCfg h q)
  let i := s.rf (Reg.qPtr h q) 47 32
  let base := (s.reg (Reg.qDbase h q) &&& fmask 63 12).toNat
  if !s.fetchable h q then s
  else match reply with
    | none => (s.request h (.hostRead h (base + 32 * i) 32)).stopQueue h q 0
    | some ws =>
      let e := fld cfg 55 53
      let s := (s.request h (.hostRead h (base + 32 * i) 32)).passTurn h e q (fld (ws.getD 0 0) 63 40)
      let key := h * 32 + q
      let even := s.evenPass.contains key
      let next := (i + 1) % 2 ^ fld cfg 59 56
      let acc := s.nextAcc h e
      let s := (s.setRf (Reg.qPtr h q) 47 32 next).setRf (Reg.xeHcnt h e) 63 32 acc
      let s := if next ≠ 0 then s
        else { s with evenPass := if even then s.evenPass.filter (· ≠ key) else key :: s.evenPass }
      let o : XeOp := { hall := h, queue := q, engine := e, seq := BitVec.ofNat 32 acc, entry := i, phase := !even,
                        words := ws, counted := true, status := 0, obj := 0, slots := 0 }
      let late := o.fence && s.xe.any (fun k => k.hall = h && k.queue = q)
      let (counted, st, pa, n, s) := s.xeOutcome o
      let late := late && (st = 0 || st = 2 || st = 7) && o.len ≠ 0
      { s with xe := s.xe ++ [{ o with counted := counted, status := if late then 0 else st, obj := pa, slots := n,
                                       waits := late }] }

/-! Transfers. -/

/-- The eight bytes of a payload, low byte first. -/
def payloadBytes (v : BitVec 64) : List Byte := (List.range 8).map (fun i => v.extractLsb' (8 * i) 8)

/-- A little-endian payload of the first eight bytes of a list. -/
def payloadOf (l : List Byte) : BitVec 64 :=
  BitVec.ofNat 64 ((List.range 8).foldr (fun i n => (l.getD i 0).toNat + 256 * n) 0)

/-- The wire word of a word (R79). -/
def wireBytes (w : Word) : List Byte := payloadBytes w.payload ++ [w.tag] ++ List.replicate 7 0

/-- A word as it leaves (R79): what the loaded-value barrier of the hall would return. -/
def State.wireOut (s : State) (h pa : Nat) : Word × State :=
  let (w, s) := s.agentLoad pa
  if s.compat h then (strip true w, s)
  else
    let (v, _, s) := s.takeIn .engine h 0xFFFF pa w true
    (v, s)

/-- n words from an address as wire words. -/
def State.wireOutAll (s : State) (h pa : Nat) : Nat → List Byte × State
  | 0 => ([], s)
  | n + 1 =>
    let (w, s) := s.wireOut h pa
    let (l, s) := s.wireOutAll h (pa + 8) n
    (wireBytes w ++ l, s)

/-- The payload bytes of n words from an address. -/
def State.bytesOutAll (s : State) (pa : Nat) : Nat → List Byte × State
  | 0 => ([], s)
  | n + 1 =>
    let (w, s) := s.agentLoad pa
    let (l, s) := s.bytesOutAll (pa + 8) n
    (payloadBytes w.payload ++ l, s)

/-- A wire word passes R80; in a compatible hall tag bits 7:6 read as zero (R81, R225). -/
def wireOk (compat : Bool) (l : List Byte) (image : Bool) : Bool :=
  let w := strip compat ⟨l.getD 8 0, payloadOf l⟩
  ((l.drop 9).take 7).all (fun b => b = 0) && !w.malformed && w.type ≠ 0x32 && w.type ≠ 0x31 &&
    (image || (!w.isPtr && w.type ≠ 0x30))

/-- POISON for a word the engine rejects, with its record (R80). -/
def State.wireReject (s : State) (o : XeOp) (pa : Nat) : Word × State :=
  let (i, s) := s.report { code := 0x060, cls := .contained, source := 7, hall := o.hall, addr := pa,
                           detail := BitVec.ofNat 64 (o.queue + 65536 * o.dtag) }
  (poisonWord i, s)

/-- A word stored by an engine for a hall, through the barriers (R320, R323, R443). -/
def State.wireStore (s : State) (h pa : Nat) (w : Word) : State :=
  if s.compat h then s.storeAs .engine .bar h pa (strip true w) false
  else
    let (w, _, s) := s.takeIn .engine h 0xFFFF pa w false
    match s.convert .engine h w with
    | (.good v, s) => s.storeLogged .engine .bar h pa w v true
    | (.assist r, s) =>
      let (v, s) := s.poisonStale h 0xFFFF pa r
      s.storeLogged .engine .bar h pa w v true

/-- Wire words stored from an address: whether one was rejected. `i`: number of the first; `bad`: those that arrived in
a poisoned completion. -/
def State.wireInAll (s : State) (o : XeOp) (bad : List Nat) (pa i : Nat) (l : List Byte) : Nat → Bool × State
  | 0 => (false, s)
  | n + 1 =>
    let ok := wireOk (s.compat o.hall) l (o.mode = 2) && !bad.contains i
    let (w, s) := if ok then ((⟨l.getD 8 0, payloadOf l⟩ : Word), s) else s.wireReject o pa
    let s := s.wireStore o.hall pa w
    let (r, s) := s.wireInAll o bad (pa + 8) (i + 1) (l.drop 16) n
    (!ok || r, s)

/-- Bytes lo to hi - 1 of the word at an address replaced, the word becoming RAW (R294, R443); one that was POISON and is
not wholly replaced stays so. -/
def State.rawStore (s : State) (h pa lo hi : Nat) (l : List Byte) : State :=
  let (w, s) := s.agentLoad pa
  if w.type = 0x32 && !(lo = 0 && hi = 8) then s.storeAs .engine .bar h pa w false
  else
    let old := payloadBytes w.payload
    s.storeAs .engine .bar h pa (raw (payloadOf (old.take lo ++ l.take (hi - lo) ++ old.drop hi))) false

/-- Body bytes stored from byte `b` of the body at `body`, n at most, word by word: whether a word was rejected. -/
def State.bytesInAll (s : State) (o : XeOp) (bad : List Nat) (body b n i : Nat) (l : List Byte) : Nat → Bool × State
  | 0 => (false, s)
  | fuel + 1 =>
    if n = 0 then (false, s)
    else
      let lo := b % 8
      let k := min n (8 - lo)
      let pa := body + b / 8 * 8
      let s := if bad.contains i then
          let (w, s) := s.wireReject o pa
          s.storeAs .engine .bar o.hall pa w false
        else s.rawStore o.hall pa lo (lo + k) l
      let (r, s) := s.bytesInAll o bad body (b + k) (n - k) (i + 1) (l.drop k) fuel
      (bad.contains i || r, s)

/-- The host's side of a transfer: the bytes delivered, the host bytes moved before a failed request, whether a request
failed, whether the completion write failed, the words that arrived in a poisoned completion (log entry 9). -/
structure XeHost where
  data : List Byte
  done : Nat
  fail : Bool
  cplFail : Bool
  poisoned : List Nat
  deriving DecidableEq, Repr

/-- Address of the first Granary word of a transfer. -/
def XeOp.first (o : XeOp) : Nat := if o.mode = 2 then o.obj else o.obj + 8 + 8 * o.start

/-- The host bytes whose bit of f is set are written. -/
def State.sendSome (s : State) (o : XeOp) (f : Nat) (i : Nat) : List Byte → State
  | [] => s
  | b :: l => (if natBit f i then s.request o.hall (.hostWrite o.hall (o.host + i) [b]) else s).sendSome o f (i + 1) l

/-- The bytes of an outbound transfer: all of them, or after a failed request any subset (R445; log entry 9). -/
def State.xeSend (s : State) (o : XeOp) (fail : Bool) (l : List Byte) : State :=
  if fail then
    let (f, s) := s.freeNat
    s.sendSome o f 0 l
  else s.request o.hall (.hostWrite o.hall o.host l)

/-- The data of an accepted descriptor (R443, R444 clause 7): whether a word was rejected. -/
def State.xeMove (s : State) (o : XeOp) (x : XeHost) : Bool × State :=
  let n := if x.fail then min x.done o.len else o.len
  if o.inbound then
    let s := s.request o.hall (.hostRead o.hall o.host o.len)
    if o.mode = 1 then s.bytesInAll o x.poisoned (o.obj + 16) o.start n 0 x.data n
    else s.wireInAll o x.poisoned o.first 0 x.data (n / 16)
  else
    let (l, s) := if o.mode = 1 then
        let (l, s) := s.bytesOutAll (o.obj + 16 + o.start / 8 * 8) ((o.start % 8 + o.len + 7) / 8)
        (l.drop (o.start % 8), s)
      else s.wireOutAll o.hall o.first (o.len / 16)
    (false, s.xeSend o x.fail (l.take o.len))

/-- The completion record (R444). -/
def XeOp.record (o : XeOp) (status moved : Nat) : List Byte :=
  payloadBytes (BitVec.ofNat 64 (2 ^ 32 * o.seq.toNat + 2 ^ 16 * o.dtag + (if o.phase then 2 ^ 15 else 0) + status)) ++
  payloadBytes (BitVec.ofNat 64 moved)

/-- DONE advances, and the TRANSFER waits it meets end (R175, R176, R441). -/
def State.setDone (s : State) (h e : Nat) (n : Nat) : State :=
  let s := s.setRf (Reg.xeHcnt h e) 31 0 n
  s.wakeAll (fun c w => match w with
    | .transfer k q => c.hall = h && k = e && (n + 2 ^ 32 - q.toNat) % 2 ^ 32 < 2 ^ 31
    | _ => false)

/-- A descriptor completes (R444 to R446): record, DONE, then the MSI-X message. -/
def State.xeComplete (s : State) (o : XeOp) (status moved : Nat) (cplFail : Bool) : State :=
  let s := { s with xe := s.xe.filter (fun k => !(k.hall = o.hall && k.engine = o.engine && k.seq = o.seq)) }
  let base := (s.reg (Reg.qCbase o.hall o.queue) &&& fmask 63 12).toNat
  let s := if cplFail then s.stopQueue o.hall o.queue o.dtag
    else s.request o.hall (.hostWrite o.hall (base + 16 * o.entry) (o.record status moved))
  let s := s.setDone o.hall o.engine o.seq.toNat
  if o.irq && o.hall ≠ 0 && !cplFail then s.msix o.hall o.queue else s

/-- The oldest descriptor of a hall on an engine, which completes next (R441). -/
def State.xeNext (s : State) (h e : Nat) : Option XeOp := s.xe.find? (fun o => o.hall = h && o.engine = e)

/-- A FENCE descriptor waits for an earlier one of its queue (R441). -/
def State.xeFenced (s : State) (o : XeOp) : Bool :=
  o.fence && match s.xe.find? (fun k => k.hall = o.hall && k.queue = o.queue) with
    | none => false
    | some k => !(k.engine = o.engine && k.seq = o.seq)

/-- The engines' requests of a hall run: up to the end of step 4 of a reset. -/
def State.xeOn (s : State) (h : Nat) : Bool :=
  let v := s.reg (Reg.hallState h)
  (fld v 63 61 = 2 || (fld v 63 61 = 3 && fld v 60 58 ≤ 3)) && s.requests h

/-- A descriptor starts: one that a FENCE held back has its header and bounds read now (R441, R444). -/
def State.xeStart (s : State) (o : XeOp) : XeOp × State :=
  if !o.waits then (o, s)
  else
    let (st, pa, n, s) := s.xeBuffer o
    ({ o with status := st, obj := pa, slots := n, waits := false }, s)

/-- DESCRIPTOR_COMPLETE (R444 to R446). -/
def State.completeDescriptor (s : State) (h e : Nat) (x : XeHost) : State :=
  match s.xeNext h e with
  | none => s
  | some o =>
    if !s.xeOn h || s.xeFenced o then s
    else
      let (o, s) := s.xeStart o
      if o.status ≠ 0 then s.xeComplete o o.status 0 x.cplFail
      else if o.len = 0 then s.xeComplete o 0 0 x.cplFail
      else
        let (rejected, s) := s.xeMove o x
        if x.fail then
          ((s.logAer h 8).note { code := 0x061, cls := .contained, source := 7, hall := h,
                                 detail := BitVec.ofNat 64 (o.queue + 65536 * o.dtag) }).xeComplete o 8 0 x.cplFail
        else if rejected then (s.logAer h 1).xeComplete o 1 o.len x.cplFail
        else s.xeComplete o 0 o.len x.cplFail

/-- The Granary words whose bit of f is set are written, the host's data being open (log entry 9). -/
def State.storeSome (s : State) (o : XeOp) (f : Nat) : Nat → State
  | 0 => s
  | i + 1 =>
    let s := if !natBit f i then s
      else
        let (g, s) := s.freeNat
        if o.mode = 1 then
          let lo := max o.start (8 * (o.start / 8 + i))
          let hi := min (o.start + o.len) (8 * (o.start / 8 + i + 1))
          (s.bytesInAll o [] (o.obj + 16) lo (hi - lo) 0 (payloadBytes (BitVec.ofNat 64 g)) 2).2
        else
          let l := payloadBytes (BitVec.ofNat 64 g) ++ payloadBytes (BitVec.ofNat 64 (g / 2 ^ 64))
          (s.wireInAll o [] (o.first + 8 * i) i l 1).2
    s.storeSome o f i

/-- What a squashed or dropped descriptor has moved by then: any subset of its bytes or words (R426; log entry 9). -/
def State.squashMove (s : State) (o : XeOp) : State :=
  if o.status ≠ 0 || o.waits || !o.counted || !s.requests o.hall then s
  else
    let (f, s) := s.freeNat
    if o.inbound then s.storeSome o f (if o.mode = 1 then (o.start % 8 + o.len + 7) / 8 else o.len / 16)
    else if o.mode = 1 then
      let (l, s) := s.bytesOutAll (o.obj + 16 + o.start / 8 * 8) ((o.start % 8 + o.len + 7) / 8)
      s.sendSome o f 0 ((l.drop (o.start % 8)).take o.len)
    else
      let (l, s) := s.wireOutAll o.hall o.first (o.len / 16)
      s.sendSome o f 0 l

/-- What remains of a hall is squashed (R420 step 5): with status SQUASHED, or after an FLR with no completion. -/
def State.squashXe (s : State) (h : Nat) (flr : Bool) : State :=
  let s := (s.xe.filter (fun o => o.hall = h)).foldl State.squashMove s
  if flr then { s with xe := s.xe.filter (fun o => o.hall ≠ h) }
  else (s.xe.filter (fun o => o.hall = h)).foldl (fun s o => s.xeComplete o 4 0 false) s

end Sys2Proof.Machine
end

