-- ==== Sys2Proof/Machine/Mailbox.lean ====
section
/-! DEFINITION. The manager mailbox and the OD windows (spec/14_host_pcie.md, R438, R439): control registers, the
request as the device kernel reads it, and its response. `b`: none for the manager mailbox, a hall for its OD window. -/

namespace Sys2Proof.Machine

/-- The control register: DEV_MB_CTRL or ODW_CTRL. -/
def boxCtrl : Option Nat → Nat
  | none => Reg.devMbCtrl
  | some h => Reg.odwCtrl h

/-- Word i of the request buffer. -/
def boxReq (b : Option Nat) (i : Nat) : Nat :=
  match b with
  | none => Reg.mbReq i
  | some h => Reg.odwReq h i

/-- Word i of the response buffer. -/
def boxRsp (b : Option Nat) (i : Nat) : Nat :=
  match b with
  | none => Reg.mbRsp i
  | some h => Reg.odwRsp h i

/-- BUSY: a request is outstanding. -/
def State.boxBusy (s : State) (b : Option Nat) : Bool := s.rf (boxCtrl b) 63 48 ≠ s.rf (boxCtrl b) 47 32

/-- CODE of the outstanding request. -/
def State.boxCode (s : State) (b : Option Nat) : Nat := s.rf (boxReq b 0) 63 48
/-- LENGTH of the outstanding request. -/
def State.boxLen (s : State) (b : Option Nat) : Nat := s.rf (boxReq b 0) 47 32

/-- Words of a response from word i on. -/
def State.putRsp (s : State) (b : Option Nat) (i : Nat) : List (BitVec 64) → State
  | [] => s
  | w :: ws => if i < 512 then (s.setReg (boxRsp b i) w).putRsp b (i + 1) ws else s

/-- RSP_SEQ := REQ_SEQ with no response (R438). -/
def State.boxAbandon (s : State) (b : Option Nat) : State := s.setRf (boxCtrl b) 47 32 (s.rf (boxCtrl b) 63 48)

/-- The response vector: PF vector 0 or VF vector 32 (R437). -/
def State.boxSignal (s : State) (b : Option Nat) : State :=
  match b with
  | none => s.msix 0 0
  | some h => s.msix h 32

/-- The response of R438: CODE echoed, LENGTH and RESULT, data, then RSP_SEQ and the vector. -/
def State.respond (s : State) (b : Option Nat) (result len : Nat) (data : List (BitVec 64)) : State :=
  let w : BitVec 64 := setFld (setFld (setFld 0 63 48 (s.boxCode b)) 47 32 len) 15 0 result
  (((s.setReg (boxRsp b 0) w).putRsp b 1 data).boxAbandon b).boxSignal b

/-- A response of whole words. -/
def State.respondWords (s : State) (b : Option Nat) (result : Nat) (data : List (BitVec 64)) : State :=
  s.respond b result (8 * data.length) data

/-- OD_ABORT with its SDO abort code (R439). -/
def State.respondAbort (s : State) (b : Option Nat) (code : Nat) : State := s.respondWords b 8 [BitVec.ofNat 64 code]

/-- The device kernel takes up the outstanding request, if it carries this code (R438, R439). -/
def State.serve (s : State) (b : Option Nat) (code : Nat) (f : State → State) : State :=
  if !s.boxBusy b || s.boxCode b ≠ code then s else f s

/-- The codes a mailbox or window serves (R439). -/
def knownCode (b : Option Nat) (code : Nat) : Bool :=
  code = 2 || code = 3 || (b = none && (code = 1 || (0x10 ≤ code && code ≤ 0x15) || code = 0x20 || code = 0x30 ||
    code = 0x40))

/-- The request doorbell (R438, R439): the event of the device kernel, and the answer to a request it does not know. -/
def State.boxRing (s : State) (b : Option Nat) : State :=
  if !knownCode b (s.boxCode b) then s.respondWords b 6 []
  else if 4088 < s.boxLen b then s.respondWords b 7 []
  else match b with
    | none => s.event 0 "MAILBOX" (s.rf Reg.devMbCtrl 63 48)
    | some h => s.event 0 "OD_WINDOW" h

/-- Network and cascade transactions in flight (R45, R478): hand-off cells without an answer, and OD-window requests in
progress. -/
def State.netFlight (s : State) : Nat :=
  s.casc.handOut.length +
    ((List.range 64).filter (fun h => h ≠ 0 && s.boxBusy (some h) && !s.casc.odWait.contains h)).length

/-- OD windows whose requests wait for one of 1,024 places (R46). -/
def State.setOdWait (s : State) (l : List Nat) : State := { s with casc := { s.casc with odWait := l } }

/-- A new request: an OD window's waits while no place is free (R46). -/
def State.boxStart (s : State) (b : Option Nat) : State :=
  match b with
  | none => s.boxRing none
  | some h => if 1024 < s.netFlight then s.setOdWait (s.casc.odWait ++ [h]) else s.boxRing (some h)

/-- The waiting OD-window requests that find a place. -/
def State.odPump (s : State) : List Nat → State
  | [] => s.setOdWait []
  | h :: l =>
    if !s.boxBusy (some h) then s.odPump l
    else if 1024 ≤ s.netFlight then s.setOdWait (h :: l)
    else ((s.setOdWait l).boxRing (some h)).odPump l

/-- A write of a control register (R435, R438): REQ_SEQ by the requester, RSP_SEQ by contexts of hall 0. -/
def State.boxCtrlWrite (s : State) (b : Option Nat) (req rsp : Bool) (mask v : BitVec 64) : State :=
  let busy := s.boxBusy b
  let seq := req && mask &&& fmask 63 48 ≠ 0
  let keep := (if seq && busy || !req then fmask 63 48 else 0) ||| (if rsp then 0 else fmask 47 32)
  let s := s.plain (boxCtrl b) (mask &&& ~~~keep) v
  let s := if seq && busy then s.setRf (boxCtrl b) 30 30 1 else s
  if rsp && mask &&& fmask 47 32 ≠ 0 then s.boxSignal b
  else if seq && !busy && s.boxBusy b then s.boxStart b else s

end Sys2Proof.Machine
end

