-- ==== Sys2Proof/Machine/Halls.lean ====
section
/-! DEFINITION. Halls (spec/13_halls.md): their states (R407 to R409), slots (R413), shares and device pages (R408, R415,
R416), and hall reset (R419 to R424). -/

namespace Sys2Proof.Machine

/-- HALL_STATE[h].STATE. -/
def State.hstate (s : State) (h : Nat) : Nat := s.rf (Reg.hallState h) 63 61
/-- HALL_STATE[h].PHASE. -/
def State.hphase (s : State) (h : Nat) : Nat := s.rf (Reg.hallState h) 60 58

/-- A change of HALL_STATE[h].STATE, signalled on VF vector 33 (R437). -/
def State.setHstate (s : State) (h n : Nat) : State := (s.setRf (Reg.hallState h) 63 61 n).msix h 33

/-- Network transactions of a hall outstanding: HALL_STATE.NET_OPS. -/
def State.netOps (s : State) (h : Nat) : Nat :=
  if h ≠ 0 && s.boxBusy (some h) && !s.casc.odWait.contains h then 1 else 0

/-! Slots. -/

/-- A slot is given to a hall: at once when Free, else as pending owner (R413). -/
def State.giveSlot (s : State) (n h : Nat) : State :=
  let sl := s.slot n
  if sl.scn.isNone then s.setSlot n { sl with owner := h, pend := none }
  else s.setSlot n { sl with pend := if sl.owner = h then none else some h }

/-- Slots given to a hall on one LCN, with the share changes of the halls that gain or lose (R411, R413). -/
def State.giveSlots (s : State) (lcn h : Nat) (slots : List Nat) : State :=
  let halls := (h :: slots.map (fun k => (s.slot (lcn * 64 + k)).owner)).eraseDups
  let t := slots.foldl (fun s k => s.giveSlot (lcn * 64 + k) h) s
  halls.foldl (fun t k => if t.slotsOwned k lcn = s.slotsOwned k lcn then t else t.slotShare k lcn) t

/-- A slot command (R413). -/
def State.slotCmd (s : State) (lcn first count h : Nat) : State :=
  if count = 0 || 64 < first + count || s.part.cores ≤ lcn || !(h = 0 || s.hallCreated h) then
    s.setRf Reg.hallSlotStat 62 60 2
  else
    let slots := runOf first count
    let s := s.giveSlots lcn h slots
    s.setRf Reg.hallSlotStat 62 60 (if slots.any (fun k => (s.slot (lcn * 64 + k)).pend.isSome) then 1 else 0)

/-- Slots whose change of owner waits: HALL_SLOT_STAT.PENDING. -/
def State.slotsPending (s : State) : Nat := (s.slots.filter (fun e => e.2.pend.isSome)).length

/-! States. -/

/-- RESULT of HALL_CTRL. -/
def State.hallResult (s : State) (h n : Nat) : State := s.setRf (Reg.hallCtrl h) 3 0 n

/-- CREATE (R409). -/
def State.hallCreate (s : State) (h : Nat) : State :=
  if s.hstate h ≠ 0 then s.hallResult h 1 else (s.setHstate h 1).hallResult h 0

/-- The collection of a hall ends (R343): its engine work, copies and logs are squashed, and no scan of its contexts waits. -/
def State.endCycle (s : State) (h : Nat) : State :=
  let g := s.glh h
  let s := g.metas.foldl (fun s n => s.freeBin n) s
  let s := s.setGl h { g with phase := .idle, marking := false, armAcks := [], flipAcks := [], marks := [],
                              queue := [], snapshot := [], cardLog := [], copies := [], held := none, metas := [],
                              badBins := [] }
  let s := (keysWhere (fun _ sl => match sl.scn with
    | none => false
    | some scn => (s.ctx scn).hall = h) s.slots).foldl (fun s n => s.setSlot n { s.slot n with scan := false }) s
  s.mapCores fun c => { c with armed := c.armed.filter (· ≠ h), flipped := c.flipped.filter (· ≠ h),
                               reloc := c.reloc.filter (fun e => e.hall ≠ h), logBuf := c.logBuf.filter (fun e => e.1 ≠ h) }

/-- The Gleaner's part in a hall that starts in compatible mode ends (R344; log entry 64): its cycle is squashed, and no bin
stays in the relocation set. -/
def State.leaveGleaner (s : State) (h : Nat) : State :=
  if (s.glh h).phase = .idle then s
  else (s.mapBins fun b => if b.hall = h && b.state = .fromSet then { b with state := .closed, stays := false } else b).endCycle h

/-- START (R409, R427). -/
def State.hallStart (s : State) (h : Nat) : State :=
  if s.hstate h ≠ 1 then s.hallResult h 1
  else if !s.vfOn h then s.hallResult h 2
  else
    let compat := s.rf (Reg.hallCfg h) 0 0
    let s := if compat = 1 then s.leaveGleaner h else s
    ((s.setRf (Reg.hallState h) 57 57 compat).setHstate h 2).hallResult h 0

/-- Removes every TLB entry of a hall from every TLB (R265, R416). -/
def State.unmapHall (s : State) (h : Nat) : State := s.removeAll (fun e => e.hall = h)

/-- Cam group g leaves a hall (R411, R416): its outputs pass to an owner, and its page is withdrawn, also from a hall that owns
none of them. -/
def State.dropCams (s : State) (h g owner : Nat) : State :=
  let mine := ((List.range 8).map (fun k => 8 * g + k)).filter (fun k => s.rf (Reg.camCfg k) 63 58 = h)
  let off := Reg.hallDevmap h 7
  if h = 0 then s
  else
    let t := mine.foldl (fun s k => s.setRf (Reg.camCfg k) 63 58 owner) s
    let t := if t.rf off (12 + g) (12 + g) = 0 then t else (t.setRf off (12 + g) (12 + g) 0).unmapHall h
    if mine.isEmpty then t else t.shareChanged h 9 g

/-- The shares of a hall that lie in registers of reset domain DEVICE, but for COMPAT, take their reset values (R409 to
R411). -/
def State.resetShares (s : State) (h : Nat) : State :=
  let s := (List.range s.part.cores).foldl (fun s lcn =>
    s.giveSlots lcn 0 ((List.range 64).filter (fun k => (s.slot (lcn * 64 + k)).owner = h))) s
  let s := (List.range 8).foldl (fun s g => s.dropCams h g 0) s
  let off := Reg.hallShare h
  let v := regReset s.part off
  let s := (s.setShare h 2 off 63 48 (fld v 63 48)).setShare h 5 off 47 34 (fld v 47 34)
  let s := (s.setShare h 6 off 33 26 (fld v 33 26)).setShare h 8 off 15 8 (fld v 15 8)
  (s.setShare h 7 (Reg.hallPdwin h) 63 0 0).setShare h 4 (Reg.galHall h) 47 32 0

/-- REMOVE (R409). -/
def State.hallRemove (s : State) (h : Nat) : State :=
  if s.hstate h ≠ 1 then s.hallResult h 1
  else
    let s := s.releaseBins h (s.binsOf h (fun b => b.kind = .root || b.kind = .plain))
    let s := s.resetShares h
    let s := ((List.range 16).foldl (fun s j => s.setReg (Reg.hallDevmap h j) 0) s).unmapHall h
    (s.setHstate h 0).hallResult h 0

/-! Hall reset. -/

/-- The speculations of a hall are discarded with reason HALL_RESET (R401). -/
def State.cutHall (s : State) (h : Nat) : State :=
  (keysWhere (fun _ g => g.st ≠ .free && g.hall = h) s.gal).foldl (fun s i => s.cutSpec i 3) s

/-- The Running contexts of a hall leave their cores, but for those of a halted core (R420 step 3). -/
def State.haltHall (s : State) (h : Nat) : State :=
  (keysWhere (fun _ c => c.hall = h && c.st = .running) s.ctxs).foldl (fun s n =>
    if s.onHalted n then s else s.preempt n) s

/-- Step 5 of R420: what remains is squashed; after an FLR nothing is answered. -/
def State.squashHall (s : State) (h : Nat) : State :=
  let flr := s.rf (Reg.hallState h) 56 56 = 1
  let s := s.squashXe h flr
  let s := if !s.boxBusy (some h) then s
    else if flr then s.boxAbandon (some h)
    else s.respondAbort (some h) 0x08000022
  let s := { s.setOdWait (s.casc.odWait.filter (· ≠ h)) with dict := put PathSt.reset s.dict (2 + h) PathSt.reset }
  s.setRf (Reg.hallState h) 60 58 5

/-- Steps 3 to 5 of R420, up to DRAIN, or through SQUASH when `squash`. -/
def State.stopHall (s : State) (h : Nat) (squash : Bool) : State :=
  let limit := 100000 * s.rf (Reg.hallReset h) 44 40
  let s := { s.setRf (Reg.hallState h) 60 58 3 with
             hallRst := put ⟨0, 0⟩ s.hallRst h ⟨s.dt.toNat + limit, s.dt.toNat⟩ }
  let s := ((s.haltHall h).cutHall h).endCycle h
  if squash then s.squashHall h else s

/-- The record of a request (R419). -/
def State.resetReq (s : State) (h mode : Nat) : State :=
  s.note { code := 0x090, cls := .event, source := 0xB, hall := h, detail := BitVec.ofNat 64 mode }

/-- Step 1 of R420, and step 2 or 3. -/
def State.beginReset (s : State) (h : Nat) (squash flr : Bool) : State :=
  let s := (s.setRf (Reg.hallState h) 55 55 (if squash then 1 else 0)).setRf (Reg.hallState h) 56 56
    (if flr then 1 else 0)
  let s := s.setHstate h 3
  if squash then s.stopHall h true
  else
    let s := { s.setRf (Reg.hallState h) 60 58 1 with
               hallRst := put ⟨0, 0⟩ s.hallRst h ⟨s.dt.toNat + 1000000 * s.rf (Reg.hallReset h) 55 48, 0⟩ }
    s.alertHall h 0x22 (fixN 0)

/-- GO (R419, R424). -/
def State.resetGo (s : State) (h : Nat) (squash : Bool) : State :=
  let st := s.hstate h
  if st = 0 then s.setRf (Reg.hallReset h) 61 61 1
  else
    let s := s.resetReq h (if squash then 1 else 0)
    if st ≠ 3 then s.beginReset h squash false
    else if !squash || s.rf (Reg.hallState h) 55 55 = 1 || s.hphase h = 5 then s
    else
      let s := s.setRf (Reg.hallState h) 55 55 1
      if s.hphase h = 1 then s.stopHall h true else s.squashHall h

/-- An FLR of VF h, or a VF disable (R419, R424). -/
def State.resetFlr (s : State) (h : Nat) : State :=
  let st := s.hstate h
  if st = 0 then s
  else
    let s := s.resetReq h 1
    if st ≠ 3 then s.beginReset h true true
    else
      let s := s.setRf (Reg.hallState h) 56 56 1
      if s.hphase h = 1 then s.stopHall h true else if s.hphase h = 5 then s else s.squashHall h

/-- ACK (R420 step 2). -/
def State.drainAck (s : State) (h : Nat) : State :=
  if s.hstate h = 3 && s.hphase h = 1 then s.stopHall h false else s

/-- The end of the grace period, once GRACE ms have passed (R420). -/
def State.graceEnd (s : State) (h : Nat) : State :=
  if (look ⟨0, 0⟩ s.hallRst h).deadline ≤ s.dt.toNat then s.drainAck h else s

/-- The end of the drain limit (R420). -/
def State.drainLimitEnd (s : State) (h : Nat) : State :=
  if s.hstate h = 3 && s.hphase h = 3 && (look ⟨0, 0⟩ s.hallRst h).deadline ≤ s.dt.toNat then s.squashHall h else s

/-- The hall of a register of reset domain HALL (R421). -/
def regHall (off : Nat) : Option Nat :=
  match regDesc off with
  | none => none
  | some d => if d.dom = .hall then some ((off - d.base) / d.s1 + d.first) else none

/-- A slot of a hall at cleanup: Free, but for the one a halted core was running (R421, R222). -/
def State.clearSlot (s : State) (n scn : Nat) : State :=
  if s.onHalted scn then s.setSlot n { s.slot n with scn := some 0x10000 } else s.freeSlot n

/-- The contexts of a hall leave (R421). -/
def State.clearCtxs (s : State) (h : Nat) : State :=
  let mine := keysWhere (fun _ c => c.hall = h && c.st ≠ .none) s.ctxs
  let s := mine.foldl (fun s scn =>
    if (s.ctx scn).st = .spilled then s else s.clearSlot (s.ctx scn).hcn scn) s
  mine.foldl (fun s scn => s.setCtx scn SwCtx.reset) s

/-- Cleanup (R421; R373, R462, R492): the bin quota and the heap window change with GL_HALL[h] (R411, R423). -/
def State.cleanup (s : State) (h : Nat) : State :=
  let s := (s.clearCtxs h).unmapHall h
  let s := (s.setShare h 3 (Reg.glHall h) 55 42 0).setShare h 0xA (Reg.glHall h) 63 56 0
  let s := (s.binsOf h Bin.collected).foldl (fun s n => s.reclaim h n) s
  let s := (List.range s.part.axes).foldl (fun s x =>
    if s.rf (Reg.axIring x) 63 58 = h then s.setRf (Reg.axIring x) 57 53 0 else s) s
  let mine := s.rf (Reg.cascHoring 0) 63 58 = h
  let s := [0, 1].foldl (fun s d =>
    if s.rf (Reg.cascHoring d) 63 58 = h then s.setRf (Reg.cascHoring d) 57 54 0 else s) s
  let s := if mine then { s with casc := { s.casc with handOut := [], hoWait := [] } } else s
  { s.setGl h GlHall.reset with
    rings := s.rings.filter (fun k => k / 32 ≠ h), evenPass := s.evenPass.filter (fun k => k / 32 ≠ h),
    dict := put PathSt.reset s.dict (2 + h) PathSt.reset,
    xe := s.xe.filter (fun o => o.hall ≠ h), wdogFrom := put 0 s.wdogFrom h 0,
    ctl := s.ctl.filter (fun e => regHall e.1 ≠ some h), sysregs := s.sysregs.filter (fun e => e.1 / 256 ≠ h) }

/-- Step 7 of R420. -/
def State.resetDone (s : State) (h : Nat) : State :=
  let us := (s.dt.toNat - (look ⟨0, 0⟩ s.hallRst h).stopAt) / 1000
  let s := { s.setReg (Reg.hallState h) (setFld (setFld (s.reg (Reg.hallState h)) 60 58 0) 57 57 0) with
             hallRst := put ⟨0, 0⟩ s.hallRst h ⟨0, 0⟩ }
  let (i, s) := (s.setHstate h 1).report { code := 0x091, cls := .event, source := 0xB, hall := h,
                                           detail := BitVec.ofNat 64 us }
  (s.event 0 "HALL_RESET_DONE" h).mgrMsix (64 + h) h 0x091 i

/-- HALL_RESET_DONE (R420, R421): when nothing of the hall is left in an engine. -/
def State.hallResetDone (s : State) (h : Nat) : State :=
  if s.hstate h = 3 && (s.hphase h = 5 || (s.hphase h = 3 && !s.xe.any (fun o => o.hall = h) && s.netOps h = 0)) then
    (s.cleanup h).resetDone h
  else s

/-! Functions of the host. -/

/-- FLR of VF h (R419): the function's configuration space is reset (R425), and the hall. -/
def State.flr (s : State) (h : Nat) : State :=
  if s.linkUp && s.vfOn h then ((s.squashXe h true).resetFn h).resetFlr h else s

/-- A write of VF Enable and NumVFs (R419, R432). -/
def State.vfWrite (s : State) (enable : Bool) (num : Nat) : State :=
  let n := if s.part.hallMax < num then s.numVfs else num
  let lost := (List.range s.part.hallMax).map (· + 1) |>.filter (fun h =>
    (s.vfEnable && !enable) || (h ≤ s.numVfs && n < h))
  let s := lost.foldl (fun s h => (s.squashXe h true).resetFn h) s
  let s := { s with vfEnable := enable, numVfs := n }
  lost.foldl (fun s h => s.resetFlr h) s

/-- An FLR of the PF (R430): its configuration state is reset, and every VF goes. -/
def State.pfFlr (s : State) : State :=
  let s := (s.boxAbandon none).vfWrite false 0
  { s with d3hot := [], fns := [] }

/-- PERST_N rises (R527): as an FLR of the PF, and the link trains; what it negotiates, MONITOR_SAMPLE brings (log entry 66). -/
def State.perstRise (s : State) : State :=
  let s := s.pfFlr
  { s with life := { s.life with link := some (s.life.link.getD ⟨4, 4⟩) } }

/-! Register writes. -/

/-- Two windows [a, a + n) and [b, b + m) share a byte. -/
def windowsMeet (a n b m : Nat) : Bool := n ≠ 0 && m ≠ 0 && a < b + m && b < a + n

/-- Bytes of the line process image (R472). -/
def pdImage : Nat := 4096

/-- A value that HALL_PDWIN[h] takes (R415). -/
def State.pdwinOk (s : State) (h : Nat) (v : BitVec 64) : Bool :=
  fld v 63 48 + fld v 47 32 ≤ pdImage && fld v 31 16 + fld v 15 0 ≤ pdImage &&
    (List.range 64).all (fun k => k = h ||
      !windowsMeet (fld v 63 48) (fld v 47 32) (s.rf (Reg.hallPdwin k) 63 48) (s.rf (Reg.hallPdwin k) 47 32))

/-- A write of HALL_PDWIN[h] (R415). -/
def State.pdwinWrite (s : State) (h : Nat) (mask v : BitVec 64) : State :=
  let off := Reg.hallPdwin h
  let n := (s.reg off &&& ~~~mask) ||| (v &&& mask)
  if !s.pdwinOk h n then s.countReg off
  else if n = s.reg off then s
  else (s.setReg off n).shareChanged h 7 n.toNat

/-- A weight that leaves 0 (R173): on each core and level the hall does not bank time. -/
def State.weightRaised (s : State) (h : Nat) : State :=
  s.part.pcns.foldl (fun s p => (List.range 8).foldl (fun s l =>
    if (s.readyHalls p l).contains h then s.raiseVt p l h else s) s) s

/-- A write of HALL_SHARE[h] (R408, R411). -/
def State.shareWrite (s : State) (h : Nat) (mask v : BitVec 64) : State :=
  let off := Reg.hallShare h
  let mask := if h = 0 then mask &&& ~~~fmask 15 8 else mask
  let v := v &&& ~~~fmask 15 (8 + s.part.axes)
  let t := s.plain off mask v
  let f := fun (t : State) (id hi lo : Nat) =>
    if t.rf off hi lo = s.rf off hi lo then t else t.shareChanged h id (t.rf off hi lo)
  let t := f (f (f (f t 2 63 48) 5 47 34) 6 33 26) 8 15 8
  if s.rf off 63 48 = 0 && t.rf off 63 48 ≠ 0 then t.weightRaised h else t

/-- A write of HALL_DEVMAP[h][j] (R416). -/
def State.devmapWrite (s : State) (h j : Nat) (mask v : BitVec 64) : State :=
  let off := Reg.hallDevmap h j
  if j = 0 || j = 12 || j = 13 then if v &&& mask = 0 then s else s.countReg off
  else
    let old := s.reg off
    let s := s.plain off mask v
    if old &&& ~~~s.reg off = 0 then s else s.unmapHall h

/-- A write of HALL_CTRL[h] (R409). -/
def State.hallCtrlWrite (s : State) (h : Nat) (mask v : BitVec 64) : State :=
  let (act, s) := s.store64 (Reg.hallCtrl h) mask v
  match fld act 63 60 with
  | 1 => s.hallCreate h
  | 2 => s.hallStart h
  | 3 => s.hallRemove h
  | _ => s

/-- A write of HALL_RESET[h] (R419). -/
def State.hallResetWrite (s : State) (h : Nat) (mask v : BitVec 64) : State :=
  let (act, s) := s.store64 (Reg.hallReset h) mask v
  if bit act 63 then s.resetGo h (s.rf (Reg.hallReset h) 62 62 = 1) else s

/-- A write of HALL_SLOT_CMD (R413). -/
def State.slotCmdWrite (s : State) (mask v : BitVec 64) : State :=
  let (act, s) := s.store64 Reg.hallSlotCmd mask v
  s.slotCmd (fld act 63 56) (fld act 55 50) (fld act 49 43) (fld act 42 37)

/-- A write of HALL_CFG[h] (R408). -/
def State.hallCfgWrite (s : State) (h : Nat) (mask v : BitVec 64) : State :=
  let off := Reg.hallCfg h
  let t := s.plain off (if h = 0 then mask &&& ~~~1 else mask) v
  if t.rf off 0 0 = s.rf off 0 0 then t else t.shareChanged h 0xB (t.rf off 0 0)

/-- A write of HALL_DRAIN_ACK[h] (R408, R420). -/
def State.drainAckWrite (s : State) (who : Initiator) (h : Nat) (mask v : BitVec 64) : State :=
  let off := Reg.hallDrainAck h
  s.gate (s.isCtxOf who 0 || s.isCtxOf who h || who = .vf h || who = .pf) who off <|
    let (act, s) := s.store64 off mask v
    if bit act 0 then s.drainAck h else s

/-- A write of a HALL_* register (R408). DEDUCED (log entry 52): the block holds no register for another hall's VMODE, VBASE,
KSTK, SCALL_PC or TLB_ROOT. -/
def State.hallWrite (s : State) (who : Initiator) (off : Nat) (mask v : BitVec 64) : State :=
  let o := off - 0xD00000
  if 0x800 ≤ o && o < 0xA00 then s.drainAckWrite who ((o - 0x800) / 8) mask v
  else s.gate (s.isCtxOf who 0) who off <|
    if o < 0x200 then s.hallCfgWrite (o / 8) mask v
    else if 0x400 ≤ o && o < 0x600 then s.hallCtrlWrite ((o - 0x400) / 8) mask v
    else if 0x600 ≤ o && o < 0x800 then s.hallResetWrite ((o - 0x600) / 8) mask v
    else if 0xA00 ≤ o && o < 0xC00 then s.shareWrite ((o - 0xA00) / 8) mask v
    else if 0xC00 ≤ o && o < 0xE00 then s.pdwinWrite ((o - 0xC00) / 8) mask v
    else if o = 0x1000 then s.slotCmdWrite mask v
    else if 0x2000 ≤ o && o < 0x4000 then s.devmapWrite ((o - 0x2000) / 0x80) ((o - 0x2000) % 0x80 / 8) mask v
    else s.plain off mask v

end Sys2Proof.Machine
end

