-- ==== Sys2Proof/Machine/Pages.lean ====
section
/-! DEFINITION. Writes of the host-attachment registers (spec/14_host_pcie.md, R434 to R440): the hall pages, the host
windows and the manager mailbox. -/

namespace Sys2Proof.Machine

/-- VF writes to the page of hall h are refused (R436). -/
def State.vfRefused (s : State) (h : Nat) : Bool :=
  s.hstate h = 0 || s.hstate h = 1 || (s.hstate h = 3 && 2 ≤ s.hphase h)

/-- A context. -/
def isCtx : Initiator → Bool
  | .ctx _ _ => true
  | _ => false

/-- A write of HQ_NOTIFY (R435, R437): SET bits send VF vectors. -/
def State.notifyWrite (s : State) (who : Initiator) (h : Nat) (mask v : BitVec 64) : State :=
  let off := Reg.hqNotify h
  let set := s.isCtxOf who h || s.isCtxOf who 0
  let pend := who = .vf h || who = .pf
  s.gate (set || pend) who off <|
    let mask := mask &&& ((if set then fmask 61 32 else 0) ||| (if pend then fmask 29 0 else 0) |||
      fmask 63 62 ||| fmask 31 30)
    let (act, s) := s.store64 off mask v
    let bits := (List.range 30).filter (fun k => bit act (32 + k))
    bits.foldl (fun s k =>
      let s := s.setRf off k k 1
      if h = 0 then s else s.msix h (34 + k)) s

/-- A write of a queue register while EN is 1 (R440): the fields `keep` stay, and one that would change is counted. -/
def State.queuePlain (s : State) (on : Bool) (off : Nat) (mask v keep : BitVec 64) : State :=
  if on then s.plainAlso off (mask &&& ~~~keep) v ((s.reg off ^^^ v) &&& mask &&& keep ≠ 0) else s.plain off mask v

/-- A write of Q_CFG (R440). -/
def State.qCfgSet (s : State) (who : Initiator) (h q : Nat) (mask v : BitVec 64) : State :=
  let off := Reg.qCfg h q
  let mask := if isCtx who then mask else mask &&& ~~~fmask 61 61
  let was := s.rf off 63 63 = 1
  let s := s.queuePlain was off mask v (fmask 62 61 ||| fmask 59 53)
  if !was && s.rf off 63 63 = 1 then
    { s.setReg (Reg.qPtr h q) 0 with evenPass := s.evenPass.filter (· ≠ h * 32 + q) }
  else s

/-- A write of Q_DBASE or Q_CBASE (R440). -/
def State.qBaseSet (s : State) (h q off : Nat) (mask v : BitVec 64) : State :=
  s.queuePlain (s.rf (Reg.qCfg h q) 63 63 = 1) off mask v (fmask 63 12)

/-- A TAIL write, the doorbell (R440). -/
def State.doorbell (s : State) (h q : Nat) (mask v : BitVec 64) : State :=
  let off := Reg.qPtr h q
  let cfg := s.reg (Reg.qCfg h q)
  let n := (s.reg off &&& ~~~mask) ||| (v &&& mask)
  if mask &&& fmask 63 48 = 0 then s.plain off mask v
  else if 2 ^ fld cfg 59 56 ≤ fld n 63 48 then s.plainAlso off (mask &&& ~~~fmask 63 48) v true
  else
    let s := (s.plain off mask v).ring h q
    if bit cfg 63 && bit cfg 62 then s.setRf off 47 32 (fld n 63 48) else s

/-- A write of a queue register (R435). -/
def State.queueWrite (s : State) (who : Initiator) (h q r off : Nat) (mask v : BitVec 64) : State :=
  s.gate (who = .vf h || who = .pf || s.isCtxOf who h || s.isCtxOf who 0) who off <|
    if r = 0 then s.qCfgSet who h q mask v
    else if r = 0x18 then s.doorbell h q mask v
    else s.qBaseSet h q off mask v

/-- A write of a mailbox control register or buffer: `req` the requester, `rsp` the responder (R438). -/
def State.boxWrite (s : State) (who : Initiator) (b : Option Nat) (off : Nat) (mask v : BitVec 64) : State :=
  let req := match b with
    | none => who = .pf
    | some h => who = .vf h
  let rsp := s.isCtxOf who 0
  if off = boxCtrl b then s.gate (req || rsp) who off (s.boxCtrlWrite b req rsp mask v)
  else if boxReq b 0 ≤ off && off ≤ boxReq b 511 then s.gate req who off (s.plain off mask v)
  else s.gate rsp who off (s.plain off mask v)

/-- A write of a page register that its hall's state does not hold back. -/
def State.pageReg (s : State) (who : Initiator) (h o off : Nat) (mask v : BitVec 64) : State :=
  if o = 8 then s.notifyWrite who h mask v
  else if 0x100 ≤ o && o < 0x500 then s.queueWrite who h ((o - 0x100) / 0x20) ((o - 0x100) % 0x20) off mask v
  else if h ≠ 0 && 0x1800 ≤ o then s.boxWrite who (some h) off mask v
  else s.refuseWrite who off

/-- A write of the hall page of hall h, or of the host windows in page 0 (R423, R434 to R436). -/
def State.pageWrite (s : State) (who : Initiator) (off : Nat) (mask v : BitVec 64) : State :=
  let h := (off - 0x900000) / 0x4000
  let o := (off - 0x900000) % 0x4000
  if h = 0 && 0x2000 ≤ o then s.gate (s.kernelOrPf who) who off (s.plain off mask v)
  else if who = .vf h && s.vfRefused h then
    (if s.hstate h = 3 then s.countReg off else s).bumpRf (Reg.hqStat h) 31 16 1
  else if s.hstate h = 3 && 2 ≤ s.hphase h then s.countReg off
  else s.pageReg who h o off mask v

end Sys2Proof.Machine
end

