-- ==== Sys2Proof/Machine/Net.lean ====
section
/-! DEFINITION. The field networks (spec/15_object_dictionary.md): the line MainDevice's cycles and registers (R467 to R474)
and the plant port (R475 to R477). -/

namespace Sys2Proof.Machine

/-! The line. -/

/-- Cycle period in ns (R468): a new one is in force from its first multiple on. -/
def State.linePeriod (s : State) : Nat :=
  match s.line.was with
  | none => 31250 * s.rf Reg.eclCyc 63 55
  | some (n, t) => if s.dt.toNat < t then 31250 * n else 31250 * s.rf Reg.eclCyc 63 55

/-- A write of ECL_CYC (R468): the old period goes on up to the first multiple of the new one. -/
def State.eclCycWrite (s : State) (mask v : BitVec 64) : State :=
  let old := s.linePeriod
  let s := s.plain Reg.eclCyc mask v
  let n := 31250 * s.rf Reg.eclCyc 63 55
  let from' := (s.dt.toNat + n - 1) / n * n
  { s with line := { s.line with was := if n = old then none else some (old / 31250, from') } }

/-- A line cycle is open: its frames have not all returned. -/
def State.lineOpen (s : State) : Bool := s.line.sent.isSome

/-- No line cycle is open. -/
def State.closeCycle (s : State) : State := { s with line := { s.line with sent := none } }

/-- ECL_CFG.MODE is not OFF. -/
def State.lineOn (s : State) : Bool := s.rf Reg.eclCfg 63 62 ≠ 0

/-- The datagrams in use with a frame number, in index order (R469). -/
def State.gramsOf (s : State) (f : Nat) : List Nat :=
  (List.range 64).filter (fun i => s.rf (Reg.eclFt i) 63 63 = 1 && s.rf (Reg.eclFt i) 59 56 = f)

/-- Data bytes of datagram i. -/
def State.gramLen (s : State) (i : Nat) : Nat := s.rf (Reg.eclFt i) 44 34
/-- Image offset of datagram i. -/
def State.gramOff (s : State) (i : Nat) : Nat := s.rf (Reg.eclFt i) 31 20

/-- Bytes of a frame: Ethernet and EtherCAT headers, and each datagram with its header and working counter (log entry
26). -/
def State.frameBytes (s : State) (f : Nat) : Nat :=
  (s.gramsOf f).foldl (fun n i => n + 12 + s.gramLen i) 16

/-- The frame table does not allow the line to run (R469). -/
def State.lineBad (s : State) : Bool :=
  let used := (List.range 16).filter (fun f => !(s.gramsOf f).isEmpty)
  used.any (fun f => 1514 < s.frameBytes f) ||
  used.any (fun f => (s.gramsOf f).any (fun i => 4096 < s.gramOff i + s.gramLen i)) ||
  s.linePeriod < 2 * used.foldl (fun n f => n + (s.frameBytes f + 20) * 80) 0

/-- A write of ECL_CFG (R469); a refused one still counts its reserved bits (R21). -/
def State.eclCfgWrite (s : State) (mask v : BitVec 64) : State :=
  let n := (s.reg Reg.eclCfg &&& ~~~mask) ||| (v &&& mask)
  let mode := fld n 63 62
  if mask &&& fmask 63 62 ≠ 0 && (mode = 1 || mode = 2) && s.lineBad then
    (if v &&& mask &&& fmask 59 32 = 0 then s else s.countReg Reg.eclCfg).setRf Reg.eclStat 59 59 1
  else
    let s := s.plain Reg.eclCfg mask v
    if s.lineOn then s else s.closeCycle

/-- A byte of a window [off, off + len). -/
def inWindow (off len b : Nat) : Bool := off ≤ b && b < off + len

/-- The byte lanes of word i of the image that a hall reaches, as a mask: outputs or inputs (R470). -/
def State.pdLanes (s : State) (h i : Nat) (out : Bool) : BitVec 64 :=
  let w := look 0 s.pdActive h
  let o := if out then fld w 63 48 else fld w 31 16
  let n := if out then fld w 47 32 else fld w 15 0
  (List.range 8).foldl (fun m k => if inWindow o n (8 * i + k) then m ||| fmask (8 * k + 7) (8 * k) else m) 0

/-- An access outside a hall's windows is counted (R470). -/
def State.pdViolation (s : State) (h : Nat) : State :=
  (s.bumpRf Reg.eclPdviol 47 16 1).setRf Reg.eclPdviol 63 58 h

/-- The hall an access to the process image is confined to: none for hall 0, the PF and the JTAG port. -/
def State.pdHall (s : State) (who : Initiator) : Option Nat :=
  match who with
  | .ctx scn _ => if (s.ctx scn).hall = 0 then none else some (s.ctx scn).hall
  | .vf h => some h
  | _ => none

/-- A write of a word of the process image (R470): lanes outside a hall's windows count, and the inputs take none. -/
def State.pdWrite (s : State) (who : Initiator) (off : Nat) (mask v : BitVec 64) : State :=
  let out := 0xA12000 ≤ off
  let i := (off - (if out then 0xA12000 else 0xA10000)) / 8
  match s.pdHall who with
  | none => s.plain off mask v
  | some h =>
    let lanes := s.pdLanes h i out
    let s := s.plain off (mask &&& lanes) v
    if mask &&& ~~~lanes = 0 then s else s.pdViolation h

/-- A write of an ECL_* or ECP_* register (R469, R470, R472, R476, R545). -/
def State.eclWrite (s : State) (who : Initiator) (off : Nat) (mask v : BitVec 64) : State :=
  if 0xA10000 ≤ off then s.pdWrite who off mask v
  else if Reg.ecpTxd 0 ≤ off && off ≤ Reg.ecpTxd 63 then s.gate (s.kernelOrPf who) who off (s.plain off mask v)
  else s.gate (s.privileged who) who off <|
    if off = Reg.eclCfg then s.eclCfgWrite mask v
    else if off = Reg.eclCyc then s.eclCycWrite mask v
    else if (off = Reg.eclDcOfs || (Reg.eclFt 0 ≤ off && off ≤ Reg.eclFt 63)) && s.lineOn then s.countReg off
    else
      let (act, s) := s.store64 off mask v
      if off = Reg.eclPdviol && bit act 0 then s.setRf off 47 16 0 else s

/-- A byte of a table of words. -/
def wordByte (t : Nat → BitVec 64) (b : Nat) : Byte := (t (b / 8)).extractLsb' (8 * (b % 8)) 8

/-- A word with one of its bytes replaced. -/
def putByte (w : BitVec 64) (k : Nat) (b : Byte) : BitVec 64 := setFld w (8 * k + 7) (8 * k) b.toNat

/-- A snapshot with bytes overlaid from an offset; those beyond the image are dropped. -/
def overlay (t : Table (BitVec 64)) (off : Nat) : List Byte → Table (BitVec 64)
  | [] => t
  | b :: l =>
    let t := if off < 4096 then put 0 t (off / 8) (putByte (look 0 t (off / 8)) (off % 8) b) else t
    overlay t (off + 1) l

/-- The n low bytes of a number. -/
def natBytes (n v : Nat) : List Byte := (List.range n).map (fun i => BitVec.ofNat 8 (v / 256 ^ i))

/-- The number of a list of bytes, little-endian. -/
def bytesNat (l : List Byte) : Nat := l.foldr (fun b n => b.toNat + 256 * n) 0

/-- Line system time of a DT (R472). -/
def State.lineTime (s : State) (t : Nat) : Nat := (BitVec.ofNat 64 t + s.reg Reg.eclDcOfs).toNat

/-- The network action of output k in the snapshot of the cycle that starts at DT c (R473): at most one new one for a cycle. -/
def State.placeCam (s : State) (c k : Nat) : State :=
  let cfg := s.reg (Reg.eclCamnet k)
  if !bit cfg 63 then s
  else
    let n := look CamNet.reset s.camNets k
    let hit := fun (a : NetCam) => a.output = k && a.lock + 5000 ≤ c && n.cycle ≠ c + 1
    let (n, s) := match s.netCams.find? hit with
      | none => (n, s)
      | some a =>
        let n : CamNet := { seq := n.seq + 1, last := some (a.level, a.fire), cycle := c + 1 }
        let s := { s with netCams := s.netCams.erase a, camNets := put CamNet.reset s.camNets k n }
        (n, if !a.late && a.fire < c + s.linePeriod then s.netLate k else s)
    match n.last with
    | none => s
    | some (level, t) =>
      let bytes := natBytes 8 (s.lineTime t) ++ [if level then 1 else 0, n.seq, 0, 0]
      { s with lineSnap := overlay s.lineSnap (fld cfg 59 48) bytes }

/-- tSNAP in ns (spec/15_object_dictionary.md, Timing). -/
def snapLead : Nat := 2000

/-- The part reaches a multiple of the period with DT + `lead`: in the CLK_TB cycle whose DT is the first at or past it, of 6 ns
at most (R468, R486). -/
def State.lineAt (s : State) (lead : Nat) : Bool := (s.dt.toNat + lead) % s.linePeriod < 6

/-- Number of the cycle that starts at DT + `lead`. -/
def State.lineCycleNo (s : State) (lead : Nat) : Nat := (s.dt.toNat + lead) / s.linePeriod

/-- OUTPUT_SNAPSHOT (R468, R473): the output image for the next cycle, tSNAP before it. -/
def State.outputSnapshot (s : State) : State :=
  let c := s.lineCycleNo snapLead
  if !s.lineOn || !s.lineAt snapLead || s.line.snap = c + 1 then s
  else
    let snap := (List.range 512).foldl (fun t i => put 0 t i (s.reg (Reg.pdOut i))) ([] : Table (BitVec 64))
    (List.range s.part.cams).foldl (fun s k => s.placeCam (c * s.linePeriod) k)
      { s with lineSnap := snap, line := { s.line with snap := c + 1 } }

/-- The output data of datagram i, as the frames of the cycle carry it. -/
def State.gramData (s : State) (i : Nat) : List Byte :=
  (List.range (s.gramLen i)).map (fun k => wordByte (fun n => look 0 s.line.image n) (s.gramOff i + k))

/-- A byte of the input image written. -/
def State.setInByte (s : State) (b : Nat) (v : Byte) : State :=
  if b < 4096 then s.setReg (Reg.pdIn (b / 8)) (putByte (s.reg (Reg.pdIn (b / 8))) (b % 8) v) else s

/-- Bytes of the input image written from an offset. -/
def State.setInBytes (s : State) (b : Nat) : List Byte → State
  | [] => s
  | v :: l => (s.setInByte b v).setInBytes (b + 1) l

/-- A datagram that came back: index, working counter, data. -/
structure Gram where
  i : Nat
  wkc : Nat
  data : List Byte
  deriving DecidableEq, Repr

/-- What each of two copies of a datagram has changed in the data that left is changed (R471; log entry 26). -/
def mergeData (sent a b : List Byte) : List Byte := (sent.zip (a.zip b)).map (fun (x, y, z) => y ^^^ z ^^^ x)

/-- A datagram as it came back: from the one port, or merged from the copies that returned on both while the ring is open
(R471). -/
def State.gramBack (s : State) (back : List Gram) (i : Nat) : Option Gram :=
  match back.filter (fun g => g.i = i) with
  | [] => none
  | [g] => some g
  | g :: h :: _ =>
    if s.rf Reg.eclStat 61 61 = 0 then some g
    else some ⟨i, (g.wkc + h.wkc) % 65536, mergeData (s.gramData i) g.data h.data⟩

/-- The result of one datagram of the cycle (R471): whether it mismatched. -/
def State.gramResult (s : State) (back : List Gram) (i : Nat) : Bool × State :=
  let n := s.gramLen i
  match (s.gramBack back i).filter (fun g => g.wkc = s.rf (Reg.eclFt i) 15 0) with
  | some g => (false, s.setInBytes (s.gramOff i) (g.data.take n))
  | none =>
    (true, if s.rf Reg.eclCfg 60 60 = 1 then s.setInBytes (s.gramOff i) (List.replicate n 0) else s)

/-- The end of a cycle (R471): the input image, the working-counter map and the loss. -/
def State.lineResult (s : State) (back : List Gram) : State :=
  let used := (List.range 16).flatMap s.gramsOf
  let (map, s) := used.foldl (fun ((map, s) : BitVec 64 × State) i =>
    let (bad, s) := s.gramResult back i
    (if bad then setBit map i true else map, s)) (0, s)
  let was := s.rf Reg.eclStat 60 60
  let s := (s.setReg Reg.eclWkcmap map).closeCycle
  if map = 0 then
    let s := s.setRf Reg.eclStat 60 60 0
    if was = 1 then s.event 0 "LINE_GOOD" else s
  else
    let s := (s.setRf Reg.eclStat 60 60 1).bumpRf Reg.eclStat 47 32 1
    if was = 1 then s
    else s.note { code := 0x070, cls := .contained, source := 8, detail := map }

/-- Datagram i as it leaves, at logical address LBASE + OFF (R469). -/
def State.lineGram (s : State) (i : Nat) : LineGram :=
  { cmd := s.rf (Reg.eclFt i) 55 48, addr := (s.rf Reg.eclCfg 31 0 + s.gramOff i) % 2 ^ 32, data := s.gramData i }

/-- The ports on which a frame leaves: A, and B too while the ring is open (R468, R471). -/
def State.linePorts (s : State) : List Nat := if s.rf Reg.eclStat 61 61 = 1 then [0, 1] else [0]

/-- The frames of a cycle leave in ascending FRAME order, and with them the access to the reference clock: with DRIVE a write of
the line system time corrected for the measured delay, with FOLLOW a read (R468, R469, R472). -/
def State.sendFrames (s : State) : State :=
  let c := s.dt.toNat / s.linePeriod
  let s := (List.range 16).foldl (fun s f =>
    if (s.gramsOf f).isEmpty then s else s.send (.lineFrame s.linePorts c f ((s.gramsOf f).map s.lineGram))) s
  s.send (.lineClock s.linePorts (s.rf Reg.eclDc 63 48)
    (if s.rf Reg.eclCfg 61 61 = 1 then some (BitVec.ofNat 64 (s.lineTime s.dt.toNat + s.line.delay)) else none))

/-- LINE_CYCLE_START (R468, R415, R471), at a multiple of the period: frames that have not returned are mismatches; the windows
change here. -/
def State.lineCycle (s : State) : State :=
  let c := s.lineCycleNo 0
  if !s.lineOn || !s.lineAt 0 || s.line.cycle = c + 1 then s
  else
    let s := if s.lineOpen then s.lineResult [] else s
    let pd := (List.range 64).foldl (fun t h => put 0 t h (s.reg (Reg.hallPdwin h))) ([] : Table (BitVec 64))
    ({ s with pdActive := pd,
              line := { s.line with sent := some s.dt.toNat, image := s.lineSnap, cycle := c + 1 } }).sendFrames

/-- The ring is open at a port, or closed (R471). -/
def State.ringState (s : State) (brk : Option Nat) : State :=
  let was := s.rf Reg.eclStat 61 61 = 1
  match brk with
  | some port =>
    if was then s
    else ((s.setRf Reg.eclStat 61 61 1).bumpRf Reg.eclStat 15 0 1).note
      { code := 0x071, cls := .corrected, source := 8, detail := BitVec.ofNat 64 port }
  | none => if was then (s.setRf Reg.eclStat 61 61 0).event 0 "RING_RESTORED" else s

/-- What the frames of a cycle bring beside the cyclic datagrams (R467, R472, R474): with FOLLOW the deviation of the reference
clock, as it stood when the frames that left at DT `t` passed it. -/
def State.lineNews (s : State) (t : Nat) (n : LineNews) : State :=
  let s := { s with line := { s.line with delay := n.delay.getD s.line.delay, low := n.low.getD s.line.low } }
  match n.time with
  | none => s
  | some r =>
    if s.rf Reg.eclCfg 61 61 = 1 then s
    else
      let d : Int := (r : Int) - s.lineTime (t + s.line.delay)
      s.setRf Reg.eclDc 31 0 (sat 32 d.natAbs)

/-- FRAME_RETURN (R468, R471, R472): the last frame of the cycle is back. `brk`: the port whose frames came back to it. -/
def State.frameReturn (s : State) (back : List Gram) (brk : Option Nat) (n : LineNews) : State :=
  match s.line.sent with
  | none => s
  | some t =>
    let s := s.lineResult back
    let s := s.setRf Reg.eclCyc 31 0 ((s.rf Reg.eclCyc 31 0 + 1) % 2 ^ 32)
    let s := if s.rf Reg.eclCfg 63 62 = 2 then s.ringState brk else s
    s.lineNews t n

/-! The plant port. -/

/-- AL state of the plant port. -/
def State.plantAl (s : State) : Nat := s.rf Reg.ecpStat 63 60

/-- An AL state change that ETG.1000 allows (R475; log entry 26). -/
def alAllowed (a b : Nat) : Bool :=
  a = b || b = 1 || (a = 1 && (b = 2 || b = 3)) || (a = 2 && b = 4) || (a = 4 && (b = 8 || b = 2)) ||
    (a = 8 && (b = 4 || b = 2))

/-- The Emergencies queued outside PREOP, SAFEOP and OP are sent, and a burst of drops is recorded (R477). -/
def State.flushEmcy (s : State) : State :=
  if !s.plantSends then s
  else
    let s := { s with out := s.emcy.queue.reverse ++ s.out, emcy := { s.emcy with queue := [] } }
    match s.emcy.burst with
    | none => s
    | some k =>
      ({ s with emcy := { s.emcy with burst := none } }).note
        { code := 0x072, cls := .notice, source := 9, detail := BitVec.ofNat 64 k }

/-- AL_STATE_REQUEST (R475). -/
def State.alRequest (s : State) (st : Nat) : State :=
  if !(st = 1 || st = 2 || st = 3 || st = 4 || st = 8) then s.setRf Reg.ecpStat 47 32 0x12
  else if !alAllowed s.plantAl st then s.setRf Reg.ecpStat 47 32 0x11
  else ((s.setRf Reg.ecpStat 63 60 st).setRf Reg.ecpStat 47 32 0).flushEmcy

/-- A request of the plant controller (R475): an AL state, or the setting of a sync manager or FMMU; SM0 and SM1 are mailboxes of
1,024 bytes. -/
def State.plantRequest (s : State) (q : PlantReq) : State :=
  match q with
  | .al st => s.alRequest st
  | .sm k c =>
    if 4 ≤ k || (k < 2 && c.on && c.bytes ≠ 1024) then s
    else { s with plant := { s.plant with sms := put SmCfg.reset s.plant.sms k c } }
  | .fmmu k c => if 3 ≤ k then s else { s with plant := { s.plant with fmmus := put FmmuCfg.reset s.plant.fmmus k c } }

/-- SYNC0 (R475): plant time and DT latched together. -/
def State.sync0 (s : State) (t : BitVec 64) : State := (s.setReg Reg.ecpDcPlant t).setReg Reg.ecpDcDt s.dt

/-- SM2_WATCHDOG (R475). -/
def State.sm2Watchdog (s : State) : State :=
  if s.plantAl = 8 then (s.setRf Reg.ecpStat 63 60 4).setRf Reg.ecpStat 47 32 0x1B else s

/-- The mapping entries of one direction, in order (R476): 0x1C12 or 0x1C13 and the PDOs it assigns. -/
def State.pdoMap (s : State) (assign : Nat) : List Nat :=
  ((List.range (s.obj assign 0)).map (fun k => s.obj assign (k + 1))).flatMap (fun p =>
    (List.range (s.obj p 0)).map (fun k => s.obj p (k + 1)))

/-- A mapping entry is of a mappable object (R476): index in bits 31:16, subindex in 15:8, bits in 7:0. -/
def mappable (rx : Bool) (e : Nat) : Bool :=
  let i := e / 0x10000
  let k := e / 0x100 % 0x100
  let n := e % 0x100
  if rx then i = 0x6000 && 1 ≤ k && k ≤ 64 && n = 32
  else (i = 0x6100 && 1 ≤ k && k ≤ 64 && n = 32) ||
    (i = 0x6200 && ((1 ≤ k && k ≤ 2 && n = 8) || (3 ≤ k && k ≤ 4 && n = 32)))

/-- A write of a PDO mapping or assignment object (R476): an abort code, or 0. -/
def State.pdoWrite (s : State) (index sub v : Nat) : Nat × State :=
  let ok := if sub = 0 then v ≤ (if index = 0x1C12 || index = 0x1C13 then 4 else 32)
    else if index = 0x1C12 then v = 0 || (0x1600 ≤ v && v ≤ 0x1603)
    else if index = 0x1C13 then v = 0 || (0x1A00 ≤ v && v ≤ 0x1A03)
    else v = 0 || mappable (index < 0x1A00) v
  if s.plantAl ≠ 2 then (0x08000022, s)
  else if !ok then (0x06090030, s)
  else (0, s.setObj index sub v)

/-- Value of a 0x6xxx object (R476). -/
def State.pdoObj (s : State) (index sub : Nat) : Nat :=
  if index = 0x6000 then (s.reg (Reg.ecpRxd (sub - 1))).toNat
  else if index = 0x6100 then (s.reg (Reg.ecpTxd (sub - 1))).toNat
  else if sub = 1 then s.rf Reg.axStop 63 62
  else if sub = 2 then s.rf Reg.seedStat 63 63
  else if sub = 3 then s.dt.toNat % 2 ^ 32
  else s.rf Reg.eclCyc 31 0

/-- The received values of a frame, entry by entry. -/
def State.takeRx (s : State) (l : List Byte) : List Nat → State
  | [] => s
  | e :: es =>
    let k := e / 0x100 % 0x100
    let s := if mappable true e then s.setReg (Reg.ecpRxd (k - 1)) (BitVec.ofNat 64 (bytesNat (l.take 4))) else s
    s.takeRx (l.drop (e % 0x100 / 8)) es

/-- PLANT_PROCESS_DATA (R475, R476): in OP the outputs are taken; in SAFEOP and OP the inputs are sent. -/
def State.plantFrame (s : State) (rx : List Byte) : State :=
  let al := s.plantAl
  let s := if al = 8 then s.takeRx rx (s.pdoMap 0x1C12) else s
  if al = 4 || al = 8 then
    s.send (.plantFrame ((s.pdoMap 0x1C13).flatMap (fun e =>
      natBytes (e % 0x100 / 8) (s.pdoObj (e / 0x10000) (e / 0x100 % 0x100)))))
  else s

end Sys2Proof.Machine
end

