-- ==== Sys2Proof/Machine/Patch.lean ====
section
/-! DEFINITION. Microcode patches (spec/07_microcode.md, R240 to R246): the staging buffer, the image format with its
CHECK, and APPLY core slot by core slot. -/

namespace Sys2Proof.Machine

/-- One bit of the reflected CRC-32 (R243). -/
def crcBit (c : Nat) : Nat := if c % 2 = 1 then Nat.xor (c / 2) 0xEDB88320 else c / 2

/-- One byte of the CRC-32. -/
def crcByte (c : Nat) (b : Byte) : Nat :=
  crcBit (crcBit (crcBit (crcBit (crcBit (crcBit (crcBit (crcBit (Nat.xor c b.toNat))))))))

/-- CRC-32 of the IEEE 802.3 polynomial (R243). -/
def crc32 (l : List Byte) : Nat := Nat.xor (l.foldl crcByte 0xFFFFFFFF) 0xFFFFFFFF

/-- n bytes of an image from an offset; a byte that was never staged reads as zero. -/
def imgBytes (l : List Byte) (off n : Nat) : List Byte := (l.drop off).take n ++ List.replicate (off + n - max off l.length) 0

/-- A little-endian field of an image. -/
def imgNat (l : List Byte) (off n : Nat) : Nat := (imgBytes l off n).foldr (fun b k => b.toNat + 256 * k) 0

/-- BLOCKS of a header (R243). -/
def imgBlocks (l : List Byte) : Nat := imgNat l 6 2
/-- MATCHES of a header. -/
def imgMatches (l : List Byte) : Nat := imgNat l 0xA 2
/-- Offset of block i. -/
def blockOff (l : List Byte) (i : Nat) : Nat := 32 + 8 * imgMatches l + 328 * i
/-- BLOCK_ADDR of block i. -/
def blockAddr (l : List Byte) (i : Nat) : Nat := imgNat l (blockOff l i) 2
/-- ROM_ADDR of match entry i. -/
def matchRom (l : List Byte) (i : Nat) : Nat := imgNat l (32 + 8 * i) 2
/-- TARGET of match entry i. -/
def matchTarget (l : List Byte) (i : Nat) : Nat := imgNat l (34 + 8 * i) 2
/-- Microword j of block i. -/
def imgWord (l : List Byte) (i j : Nat) : Nat := imgNat l (blockOff l i + 8 + 5 * j) 5

/-- A patch RAM address lies within a block of the image. -/
def inBlock (l : List Byte) (a : Nat) : Bool :=
  (List.range (imgBlocks l)).any (fun i => blockAddr l i ≤ a && a < blockAddr l i + 64)

/-- µOP codes that R232 assigns. -/
def uopOk (u : Nat) : Bool :=
  u ≤ 0x15 || (0x18 ≤ u && u ≤ 0x1D) || (0x20 ≤ u && u ≤ 0x27) || (0x30 ≤ u && u ≤ 0x32) || u = 0x3E || u = 0x3F

/-- A microword passes R245. -/
def microOk (l : List Byte) (m : Nat) : Bool :=
  let u := m / 2 ^ 34 % 64
  let next := m % 0x2000
  !natBit m 13 && uopOk u && (!(0x20 ≤ u && u ≤ 0x27) || next % 2 = 0) && (next < 0x1800 || inBlock l next)

/-- The first check that fails, of a list of (holds, ERR, offset). -/
def firstBad : List (Bool × Nat × Nat) → Option (Nat × Nat)
  | [] => none
  | (b, e, o) :: t => if b then firstBad t else some (e, o)

/-- The checks of the header in image order (R243, R245). Where the spec names no code for a check, or its place in the
order, the model chooses (log entry 54): TABLE_CRC is judged at offset 0x10, before HEADER_CRC. -/
def headerChecks (stepping : Nat) (l : List Byte) : List (Bool × Nat × Nat) :=
  [(imgNat l 0 4 = 0x5441504E, 3, 0), (imgNat l 4 2 = 1, 3, 4),
   (1 ≤ imgBlocks l && imgBlocks l ≤ 32, 3, 6),
   (imgNat l 8 1 = 0xFF || imgNat l 8 1 = stepping, 0xA, 8), (imgNat l 9 1 = 0, 3, 9),
   (imgMatches l ≤ 64, 3, 0xA), (imgNat l 0xC 4 ≠ 0, 3, 0xC),
   (imgNat l 0x10 4 = crc32 (imgBytes l 32 (8 * imgMatches l)), 5, 0x10), (imgNat l 0x14 8 = 0, 3, 0x14),
   (imgNat l 0x1C 4 = crc32 (imgBytes l 0 0x1C), 4, 0x1C)]

/-- The checks of match entry i; zero bytes that are not zero are BAD_MATCH (log entry 54). -/
def matchChecks (l : List Byte) (i : Nat) : List (Bool × Nat × Nat) :=
  let o := 32 + 8 * i
  [(matchRom l i < 0x1800 && !(List.range i).any (fun k => matchRom l k = matchRom l i), 8, o),
   (inBlock l (matchTarget l i), 8, o + 2), (imgNat l (o + 4) 4 = 0, 8, o + 4)]

/-- The checks of block i; zero bytes that are not zero are BAD_BLOCK_ADDR (log entry 54). -/
def blockChecks (l : List Byte) (i : Nat) : List (Bool × Nat × Nat) :=
  let o := blockOff l i
  let a := blockAddr l i
  [(a % 64 = 0 && 0x1800 ≤ a && a ≤ 0x1FC0 && !(List.range i).any (fun k => blockAddr l k = a), 7, o),
   (imgNat l (o + 2) 2 = 0, 7, o + 2),
   (imgNat l (o + 4) 4 = crc32 (imgBytes l o 4 ++ imgBytes l (o + 8) 320), 6, o + 4)] ++
  (List.range 64).map (fun j => (microOk l (imgWord l i j), 9, o + 8 + 5 * j))

/-- CHECK (R245): ERR and ERR_OFFSET of the first failure in image order. -/
def imgFault (stepping : Nat) (l : List Byte) : Option (Nat × Nat) :=
  match firstBad (headerChecks stepping l) with
  | some x => some x
  | none => firstBad ((List.range (imgMatches l)).flatMap (matchChecks l) ++
      (List.range (imgBlocks l)).flatMap (blockChecks l))

/-- Loading is open (R240): DEV_PATCH_STAT.GATE. -/
def State.patchGate (s : State) : Bool := s.part.patchWe || s.patch.unlocked

/-- CHECK or APPLY is in progress: DEV_PATCH_STAT.BUSY. -/
def State.patchBusy (s : State) : Bool := s.rf Reg.devPatchStat 31 31 = 1

/-- The DEV_PATCH_* registers are stair-2 only (R240). -/
def patchWriter : Initiator → Bool
  | .ctx _ stair => stair = 2
  | _ => false

/-- ERR of DEV_PATCH_STAT. -/
def State.patchErr (s : State) (e : Nat) : State := s.setRf Reg.devPatchStat 28 24 e

/-- The patch RAM of an image: the words of its blocks, every other word zero (R246). -/
def imgRam (l : List Byte) : Table (BitVec 40) :=
  (List.range (imgBlocks l)).foldl (fun t i => (List.range 64).foldl (fun t j =>
    put 0 t (blockAddr l i + j) (BitVec.ofNat 40 (imgWord l i j))) t) []

/-- DEV_PATCH_MATCH[k] of an image (R241, R243). -/
def imgMatch (l : List Byte) (k : Nat) : BitVec 64 :=
  if k < imgMatches l then BitVec.ofNat 64 (2 ^ 63 + 2 ^ 16 * (matchTarget l k % 2 ^ 13) + matchRom l k % 2 ^ 13) else 0

/-- The match table of an image. -/
def imgTable (l : List Byte) : Table (BitVec 64) :=
  (List.range 64).foldl (fun t k => put 0 t k (imgMatch l k)) []

/-- The end of an APPLY (R246). -/
def State.patchDone (s : State) : State :=
  let l := s.patch.image
  let level := imgNat l 0xC 4
  let s := (List.range 64).foldl (fun s k => s.setReg (Reg.devPatchMatch k) (imgMatch l k)) s
  let s := (s.setRf Reg.devPatchStat 63 32 level).setRf Reg.devPatchStat 31 31 0
  let s := { s with patch := { s.patch with image := [] } }
  (s.note { code := 0x0A3, cls := .event, source := 0, detail := BitVec.ofNat 64 level }).event 0 "PATCH_APPLIED" level

/-- One core slot takes the new set (R246). -/
def State.patchSwitch (s : State) (p : Nat) : State :=
  let l := s.patch.image
  let s := s.setCore p { s.core p with pram := imgRam l, pmatch := imgTable l, pramErr := [] }
  let s := { s.bumpRf Reg.devPatchStat 6 0 1 with patch := { s.patch with left := s.patch.left.filter (· ≠ p) } }
  if s.patch.left.isEmpty then s.patchDone else s

/-- A slot that runs no segment: halted, or held in CORE reset (R246). -/
def State.patchAtOnce (s : State) (p : Nat) : Bool := (s.core p).halt.isSome || s.held p

/-- The slots at the front of the order that are switched at once when APPLY reaches them. -/
def State.patchRun (s : State) : List Nat → State
  | [] => s
  | p :: ps => if s.patchAtOnce p then (s.patchSwitch p).patchRun ps else s

/-- BEGIN (R242): ERR and CHECKED are cleared, and ERR_OFFSET with ERR (log entry 54). -/
def State.patchBegin (s : State) : State :=
  { ((s.patchErr 0).setRf Reg.devPatchStat 30 30 0).setRf Reg.devPatchStat 23 7 0 with
    patch := { s.patch with staging := [] } }

/-- A DATA write (R242). -/
def State.patchData (s : State) (v : BitVec 64) : State :=
  if 12288 < s.patch.staging.length + 8 then s.patchErr 2
  else
    let bytes := (List.range 8).map (fun i => v.extractLsb' (8 * i) 8)
    { s.setRf Reg.devPatchStat 30 30 0 with patch := { s.patch with staging := s.patch.staging ++ bytes } }

/-- CHECK (R245). -/
def State.patchCheck (s : State) : State :=
  match imgFault s.part.stepping.toNat s.patch.staging with
  | none => s.setRf Reg.devPatchStat 30 30 1
  | some (e, o) => ((s.patchErr e).setRf Reg.devPatchStat 23 7 o).setRf Reg.devPatchStat 30 30 0

/-- APPLY (R242, R246). -/
def State.patchApply (s : State) : State :=
  if s.rf Reg.devPatchStat 30 30 = 0 then s.patchErr 0xB
  else
    let s := { (s.setRf Reg.devPatchStat 31 31 1).setRf Reg.devPatchStat 6 0 0 with
               patch := { s.patch with image := s.patch.staging, left := s.part.pcns } }
    s.patchRun s.patch.left

/-- PATCH_CORE_SWITCH (R246): the slot APPLY has reached, at a point where an interrupt could be taken. -/
def State.patchCore (s : State) (p : Nat) : State :=
  match s.patch.left with
  | [] => s
  | q :: _ =>
    let sth := match s.running p with
      | none => false
      | some r => stSth (s.status r)
    if p ≠ q || sth then s
    else
      let s := s.patchSwitch p
      s.patchRun s.patch.left

/-- A write of DEV_PATCH_CTRL or DEV_PATCH_DATA that BUSY does not hold back (R242). -/
def State.patchWrite (s : State) (who : Initiator) (off : Nat) (mask v : BitVec 64) : State :=
  s.gate (patchWriter who) who off <|
    if off ≠ Reg.devPatchCtrl && off ≠ Reg.devPatchData then s.plain off mask v
    else if !s.patchGate then s.patchErr 1
    else if off = Reg.devPatchData then s.patchData (v &&& mask)
    else
      let (act, s) := s.store64 off mask v
      match fld act 1 0 with
      | 1 => s.patchBegin
      | 2 => s.patchCheck
      | 3 => s.patchApply
      | _ => s

/-- PATCH_WE changes level (R240). -/
def State.setPatchWe (s : State) (b : Bool) : State := { s with part := { s.part with patchWe := b } }

end Sys2Proof.Machine
end

