-- ==== Sys2Proof/Machine/Objects.lean ====
section
/-! DEFINITION. The entries of the object dictionary (spec/15_object_dictionary.md, R448 to R457; the object tables of the
other chapters): which exist, their types and ranges, who may read and write them, the registers they stand for, and
their applied values. Paths: 0 the plant, 1 the manager, 2 + h hall h. -/

namespace Sys2Proof.Machine

/-! Which entries exist. -/

/-- Index i is instance i - base of a family of n. -/
def inFam (base n i : Nat) : Bool := base ≤ i && i < base + n

/-- Highest subindex of an object; 0 for a VAR, whose value is at subindex 0 (R448, R450). -/
def objTop (i : Nat) : Option Nat :=
  if i = 0x1000 || i = 0x1001 || (0x1008 ≤ i && i ≤ 0x100A) || i = 0x2A10 || i = 0x2E00 || i = 0x2E01 then some 0
  else if i = 0x1010 || i = 0x1011 || i = 0x2741 || i = 0x2A41 || i = 0x2E10 || i = 0x2F81 || i = 0x5040 || i = 0x5E10
    then some 1
  else if i = 0x1018 || i = 0x1C12 || i = 0x1C13 then some 4
  else if inFam 0x1600 4 i || inFam 0x1A00 4 i then some 32
  else if i = 0x2001 then some 0xA
  else if i = 0x2740 then some 0x18
  else if i = 0x2A00 || i = 0x2F10 then some 6
  else if i = 0x2A11 || i = 0x2A40 || i = 0x2F80 || i = 0x4600 then some 2
  else if i = 0x2F00 then some 5
  else if i = 0x2F01 || i = 0x2F02 || i = 0x3100 || i = 0x3200 || i = 0x6200 then some 4
  else if inFam 0x3240 64 i then some 3
  else if inFam 0x4100 8 i then some 0xB
  else if inFam 0x4180 8 i then some 1
  else if inFam 0x4200 64 i then some 5
  else if inFam 0x4300 16 i then some 4
  else if inFam 0x4380 8 i then some 3
  else if inFam 0x4400 8 i then some 0x20
  else if inFam 0x4640 64 i then some 4
  else if inFam 0x5000 64 i then some 8
  else if inFam 0x5080 64 i then some 2
  else if i = 0x5C00 then some 8
  else if i = 0x5E00 then some 7
  else if i = 0x6000 || i = 0x6100 then some 64
  else none

/-- The object describes a unit the variant does not have (R10). -/
def objAbsent (pt : Part) (i : Nat) : Bool :=
  (inFam 0x3240 64 i && pt.hallMax < i - 0x3240) || (inFam 0x4640 64 i && pt.hallMax < i - 0x4640) ||
  (inFam 0x5000 64 i && pt.hallMax < i - 0x5000) || (inFam 0x5080 64 i && pt.hallMax < i - 0x5080) ||
  (inFam 0x4100 8 i && pt.axes ≤ i - 0x4100) || (inFam 0x4180 8 i && pt.axes ≤ i - 0x4180) ||
  (inFam 0x4400 8 i && pt.axes ≤ i - 0x4400) || (inFam 0x4200 64 i && pt.cams ≤ i - 0x4200) ||
  ((i = 0x4600 || inFam 0x4640 64 i) && !pt.hasGallery)

/-- Highest subindex that describes an instance that is present, which subindex 0 reports (R10, R376: 0x18 with 8 axes). -/
def subTop (pt : Part) (i : Nat) : Nat := if i = 0x2740 then 3 * pt.axes else (objTop i).getD 0

/-- The subindex of a present object describes an absent instance (R10). -/
def subAbsent (pt : Part) (i sub : Nat) : Bool := subTop pt i < sub && sub ≤ (objTop i).getD 0

/-- One entry: its bytes, 0 for a DOMAIN; read-only; smallest and largest value; the multiple it must be. -/
structure OdEntry where
  size : Nat
  ro : Bool := false
  lo : Nat := 0
  hi : Nat := 2 ^ 64
  step : Nat := 1
  deriving DecidableEq, Repr

/-- The entry of a list at a subindex from 1. -/
def atSub (l : List OdEntry) (sub : Nat) : OdEntry := l.getD (sub - 1) { size := 0, ro := true }

/-- A BOOLEAN. -/
def odBool : OdEntry := { size := 1, hi := 1 }

/-- Entries of 0x4100 + x (R377). -/
def axisEntries : List OdEntry :=
  [{ size := 1, hi := 2 }, odBool, { size := 2, hi := 1275, step := 5 }, odBool, { size := 2, lo := 1, hi := 1023 },
   { size := 1, lo := 1 }, { size := 8, hi := 2 ^ 48 - 1 }, { size := 4 }, { size := 1, lo := 8, hi := 40 },
   { size := 2, lo := 100, hi := 10000 }, { size := 4, hi := 2 ^ 24 - 1 }]

/-- Entries of 0x5000 + h (R450). -/
def shareEntries (pt : Part) (h : Nat) : List OdEntry :=
  [{ size := 2, ro := true }, { size := 2 }, { size := 2, ro := true }, { size := 2, ro := true },
   { size := 2, hi := 8192 }, { size := 1, lo := 1 }, { size := 8 }, { size := 1, ro := h = 0, hi := 2 ^ pt.axes - 1 }]

/-- An entry of an object; subindex 0 of an ARRAY or RECORD is UNSIGNED8 and constant (R448). -/
def odEntry (pt : Part) (i sub : Nat) : OdEntry :=
  let pdo := inFam 0x1600 4 i || inFam 0x1A00 4 i || i = 0x1C12 || i = 0x1C13
  if sub = 0 && objTop i ≠ some 0 then { size := 1, ro := !pdo }
  else if i = 0x1000 then { size := 4, ro := true }
  else if i = 0x1001 then { size := 1, ro := true }
  else if 0x1008 ≤ i && i ≤ 0x100A then { size := 8, ro := true }
  else if i = 0x1018 then { size := 4, ro := true }
  else if i = 0x1C12 || i = 0x1C13 then { size := 2 }
  else if i < 0x2000 then { size := 4 }
  else if i = 0x2001 then { size := 1, ro := true }
  else if i = 0x2740 then if sub % 3 = 2 then { size := 1 } else { size := 4 }
  else if i = 0x2741 then { size := 1, hi := 2 }
  else if i = 0x2A00 then
    atSub [{ size := 1, hi := 2 }, { size := 4, lo := 31250, hi := 10000000, step := 31250 }, odBool, odBool, { size := 8 },
           { size := 4 }] sub
  else if i = 0x2A11 then { size := 1, ro := sub = 2, lo := 1, hi := 8 }
  else if i = 0x2A40 then if sub = 1 then { size := 2 } else odBool
  else if i = 0x2A41 then { size := 1, lo := 1, hi := 1 }
  else if i = 0x2A10 || i = 0x2E00 then { size := 0 }
  else if i = 0x2E01 then { size := 0, ro := true }
  else if i = 0x2F00 then
    atSub [{ size := 1, hi := 7 }, { size := 1, hi := 3 }, { size := 1, ro := true }, { size := 2, ro := true },
           { size := 2, lo := 1, hi := 10000 }] sub
  else if i = 0x2F01 then { size := [2, 1, 4, 4].getD (sub - 1) 1, ro := true }
  else if i = 0x2F02 then { size := [1, 2, 2, 1].getD (sub - 1) 1, ro := true }
  else if i = 0x2F10 then { size := 8 }
  else if i = 0x2F80 then { size := 4, ro := sub = 2 }
  else if i = 0x2E10 || i = 0x2F81 then { size := 4 }
  else if i = 0x3100 then atSub [odBool, { size := 1, lo := 1 }, odBool, odBool] sub
  else if i = 0x3200 then
    atSub [{ size := 1, lo := 1, hi := 7 }, { size := 2, lo := 16, hi := 2048, step := 16 }, { size := 1, hi := 100 },
           { size := 1, hi := 31 }] sub
  else if inFam 0x3240 64 i then atSub [{ size := 1 }, { size := 1, hi := 100 }, odBool] sub
  else if inFam 0x4100 8 i then atSub axisEntries sub
  else if inFam 0x4180 8 i then { size := 0 }
  else if inFam 0x4200 64 i then
    atSub [odBool, { size := 1, lo := 1, hi := 3 }, odBool, { size := 4, hi := 40950, step := 10 }, { size := 1, hi := 63 }]
      sub
  else if inFam 0x4300 16 i then
    atSub [{ size := 1, hi := pt.axes - 1 }, { size := 1, hi := 3 }, { size := 2, hi := 1275, step := 5 },
           { size := 1, hi := if i - 0x4300 < 8 then 0 else 1 }] sub
  else if inFam 0x4380 8 i then atSub [odBool, { size := 2, hi := 4095 }, { size := 2, hi := 4095 }] sub
  else if inFam 0x4400 8 i then { size := 4 }
  else if i = 0x4600 then
    atSub [{ size := 4, lo := 100, hi := 6553500, step := 100 }, { size := 2, lo := 1, hi := 4096 }] sub
  else if inFam 0x4640 64 i then
    atSub [odBool, { size := 8, hi := 2 ^ 40 - 1, step := 2048 }, { size := 2 }, { size := 1 }] sub
  else if inFam 0x5000 64 i then atSub (shareEntries pt (i - 0x5000)) sub
  else if i = 0x5040 then { size := 1, hi := pt.hallMax }
  else if inFam 0x5080 64 i then { size := 2, hi := pt.nbins }
  else if i = 0x5C00 then { size := [2, 4, 2, 2, 2, 4, 2, 2].getD (sub - 1) 2 }
  else if i = 0x5E00 then { size := [2, 4, 1, 2, 2, 0, 0].getD (sub - 1) 0, ro := true }
  else if i = 0x5E10 then { size := 1, hi := 31 }
  else if i = 0x6200 then { size := if sub ≤ 2 then 1 else 4, ro := true }
  else { size := 4, ro := true }

/-- A value beyond its range or reserved (R454 check 5): the enumerations that are no range. -/
def odBad (i sub v : Nat) : Bool :=
  (i = 0x3200 && sub = 2 && !([16, 32, 64, 128, 256, 512, 1024, 2048].contains v)) ||
  (i = 0x2A11 && !([1, 2, 4, 8].contains v))

/-- Commands of R449, which act when the write is accepted; 0x2F00:01, 02 and 05 do so too (R459). -/
def isCommand (i : Nat) : Bool :=
  i < 0x2000 || i = 0x2741 || i = 0x2A11 || i = 0x2A41 || i = 0x2E10 || i = 0x2F00 || i = 0x2F10 || i = 0x2F80 || i = 0x2F81

/-! Paths. -/

/-- A path may read an object (R453). -/
def State.odReads (s : State) (p i : Nat) (sub : Nat) : Bool :=
  p < 2 ||
  (let h := p - 2
   i = 0x1000 || (0x1008 ≤ i && i ≤ 0x100A) || i = 0x1018 || i = 0x2001 || (i = 0x2F80 && sub ≠ 1) || i = 0x2741 ||
   (0x2F00 ≤ i && i ≤ 0x2F02) || (0x6000 ≤ i && i ≤ 0x6FFF) || i = 0x3240 + h || i = 0x4640 + h || i = 0x5000 + h ||
   i = 0x5080 + h || inFam 0x4300 16 i || inFam 0x4380 8 i ||
   (inFam 0x4100 8 i && s.seesAxis h (i - 0x4100)) || (inFam 0x4180 8 i && s.seesAxis h (i - 0x4180)) ||
   (inFam 0x4400 8 i && s.seesAxis h (i - 0x4400)) || (inFam 0x4200 64 i && s.camOwner (i - 0x4200) = h))

/-- A path may write an object it can read (R453). -/
def State.odWrites (s : State) (p i sub : Nat) : Bool :=
  if inFam 0x5000 64 i || inFam 0x5080 64 i then p = 1
  else if i < 0x2000 then p = 0 || (p = 1 && (i = 0x1010 || i = 0x1011))
  else p < 2 ||
    (let h := p - 2
     (0x2F00 ≤ i && i ≤ 0x2F02) || i = 0x3240 + h || i = 0x4640 + h ||
     (inFam 0x4200 64 i && s.camOwner (i - 0x4200) = h && sub = 3))

/-- The device kernel serves the paths: it runs, and stored values have been applied (R465). -/
def State.kernelUp (s : State) : Bool := s.rf Reg.devState 63 60 = 2 || s.rf Reg.devState 63 60 = 3

/-- The path is available (R451): that of a hall also while what was outstanding drains (R420 step 4). -/
def State.pathOpen (s : State) (p : Nat) : Bool :=
  s.kernelUp &&
  if p = 0 then s.plantSends
  else if p = 1 then true
  else s.hstate (p - 2) = 2 || (s.hstate (p - 2) = 3 && (s.hphase (p - 2) = 1 || s.hphase (p - 2) = 3))

/-! Functions and overrides. -/

/-- The override flag of an object's function (R455): DEV_OVR index and bit. -/
def fnOf (i sub : Nat) : Option (Nat × Nat) :=
  if i = 0x3100 then some (0, 0)
  else if i = 0x3200 then some (0, 1)
  else if i = 0x4600 then some (0, 2)
  else if i = 0x2A00 then some (0, 3)
  else if i = 0x2A40 then some (0, 4)
  else if inFam 0x4100 8 i then some (1, if sub = 7 then 8 + (i - 0x4100) else i - 0x4100)
  else if inFam 0x4180 8 i then some (1, 8 + (i - 0x4180))
  else if inFam 0x4400 8 i then some (1, 16 + (i - 0x4400))
  else if inFam 0x4300 16 i then some (1, 24 + (i - 0x4300))
  else if inFam 0x4380 8 i then some (1, 40 + (i - 0x4380))
  else if inFam 0x4200 64 i then some (2, i - 0x4200)
  else if inFam 0x3240 64 i then some (3, i - 0x3240)
  else if inFam 0x4640 64 i then some (4, i - 0x4640)
  else if inFam 0x5000 64 i then some (5, i - 0x5000)
  else none

/-- The function of an object is overridden. -/
def State.overridden (s : State) (i sub : Nat) : Bool :=
  match fnOf i sub with
  | none => false
  | some (j, b) => bit (s.reg (Reg.devOvr j)) b

/-- The override flag of a register's function (R455): DEV_OVR index and bit. -/
def regFn (off : Nat) : Option (Nat × Nat) :=
  if off = Reg.devMemScrub then some (0, 0)
  else if off = Reg.glCfg then some (0, 1)
  else if off = Reg.galCfg then some (0, 2)
  else if off = Reg.eclCfg || off = Reg.eclCyc || off = Reg.eclDc || off = Reg.eclDcOfs ||
      (Reg.eclFt 0 ≤ off && off ≤ Reg.eclFt 63) || (Reg.eclCamnet 0 ≤ off && off ≤ Reg.eclCamnet 63) then some (0, 3)
  else if off = Reg.ecpCfg then some (0, 4)
  else if 0x700000 ≤ off && off < 0x700800 then
    let x := (off - 0x700000) / 0x100
    if off = Reg.axCfg x || off = Reg.axSsi x then some (1, x)
    else if off = Reg.axPitchLenp x || off = Reg.axPitchAdj x || off = Reg.axPtabCtrl x then some (1, 8 + x)
    else none
  else if 0x701000 ≤ off && off < 0x701800 then some (1, 16 + (off - 0x701000) / 0x100)
  else if 0x710000 ≤ off && off < 0x730000 then
    if (off - 0x710000) % 0x4000 < 0x2000 then some (1, 8 + (off - 0x710000) / 0x4000) else none
  else if 0x730000 ≤ off && off < 0x750000 then
    let k := (off - 0x730000) / 0x4000 * 8 + (off - 0x730000) % 0x4000 / 0x80
    if off = Reg.camCfg k then some (2, k) else none
  else if 0x750000 ≤ off && off < 0x750400 then if off % 0x40 = 0 then some (1, 24 + (off - 0x750000) / 0x40) else none
  else if 0x751000 ≤ off && off < 0x751200 then if off % 0x40 = 0 then some (1, 40 + (off - 0x751000) / 0x40) else none
  else if 0x600800 ≤ off && off < 0x600A00 then some (3, instOf off 0x600800 8)
  else if 0x800C00 ≤ off && off < 0x800E00 then some (4, instOf off 0x800C00 8)
  else if 0x801000 ≤ off && off < 0x801200 then some (4, instOf off 0x801000 8)
  else if 0xD00A00 ≤ off && off < 0xD00C00 then some (5, instOf off 0xD00A00 8)
  else if 0xD00C00 ≤ off && off < 0xD00E00 then some (5, instOf off 0xD00C00 8)
  else none

/-- The bits of a register whose accepted write sets the flag: its RW fields, SWAP (R456), and of GL_HALL bits 41:26. -/
def fnBits (off : Nat) : BitVec 64 :=
  if 0x600800 ≤ off && off < 0x600A00 then fmask 41 26
  else match regDesc off with
    | none => 0
    | some d => d.fields.foldl (fun m f =>
        if f.ty = .rw || (0x700000 ≤ off && off < 0x700800 && f.hi = 63 && f.ty = .w1s) then m ||| fmask f.hi f.lo
        else m) 0

/-- The initiators whose write of a register of a function is accepted (R347, R403, R408, R545). -/
def State.fnWriter (s : State) (who : Initiator) (off : Nat) : Bool :=
  if (0x600800 ≤ off && off < 0x600A00) || 0xD00000 ≤ off then s.isCtxOf who 0
  else if 0x700000 ≤ off && off < 0x900000 then s.kernelOrPf who
  else s.privileged who

/-- The override flag set by a write (R456, R457). -/
def State.override (s : State) (who : Initiator) (off : Nat) (mask : BitVec 64) : State :=
  match regFn off with
  | none => s
  | some (j, b) =>
    let held := match regHall off with
      | none => false
      | some h => s.resetting h
    if !s.fnWriter who off || held || mask &&& fnBits off = 0 || bit (s.reg (Reg.devOvr j)) b then s
    else
      let s := s.setRf (Reg.devOvr j) b b 1
      s.note { code := 0x0A2, cls := .event, source := 0xC, detail := BitVec.ofNat 64 (j + b * 256) }

/-! Registers behind entries. -/

/-- The field a configuration entry stands for: offset and bits. -/
def odField (i sub : Nat) : Option (Nat × Nat × Nat) :=
  let pickf := fun (l : List (Nat × Nat × Nat)) => l[sub - 1]?
  if sub = 0 then none
  else if i = 0x3100 then
    pickf [(Reg.devMemScrub, 17, 17), (Reg.devMemScrub, 31, 24), (Reg.devMemScrub, 18, 18), (Reg.devMemScrub, 19, 19)]
  else if i = 0x3200 then
    pickf [(Reg.glCfg, 10, 8), (Reg.glCfg, 7, 4), (Reg.glCfg, 23, 17), (Reg.glCfg, 16, 12)]
  else if inFam 0x3240 64 i then
    let r := Reg.glHall (i - 0x3240)
    pickf [(r, 41, 34), (r, 33, 27), (r, 26, 26)]
  else if i = 0x2A00 then
    pickf [(Reg.eclCfg, 63, 62), (Reg.eclCyc, 63, 55), (Reg.eclCfg, 61, 61), (Reg.eclCfg, 60, 60), (Reg.eclDcOfs, 63, 0),
           (Reg.eclCfg, 31, 0)]
  else if i = 0x2A40 then pickf [(Reg.ecpCfg, 63, 48), (Reg.ecpCfg, 47, 47)]
  else if inFam 0x4100 8 i then
    let c := Reg.axCfg (i - 0x4100)
    let t := Reg.axSsi (i - 0x4100)
    pickf [(c, 63, 62), (c, 61, 61), (c, 47, 40), (c, 59, 58), (c, 57, 48), (c, 39, 32),
           (Reg.axPitchLenp (i - 0x4100), 47, 0), (c, 31, 0), (t, 63, 58), (t, 53, 40), (t, 23, 0)]
  else if inFam 0x4200 64 i then
    let r := Reg.camCfg (i - 0x4200)
    pickf [(r, 57, 57), (r, 56, 55), (r, 54, 54), (r, 53, 42), (r, 63, 58)]
  else if inFam 0x4300 16 i then
    let r := Reg.markCfg (i - 0x4300)
    pickf [(r, 63, 61), (r, 60, 59), (r, 57, 50), (r, 58, 58)]
  else if inFam 0x4380 8 i then
    let r := Reg.msCfg (i - 0x4380)
    pickf [(r, 63, 63), (r, 55, 44), (r, 43, 32)]
  else if i = 0x4600 then pickf [(Reg.galCfg, 15, 0), (Reg.galCfg, 28, 16)]
  else if inFam 0x4640 64 i then
    let r := Reg.galMirror (i - 0x4640)
    let t := Reg.galMsel (i - 0x4640)
    pickf [(r, 63, 63), (r, 39, 11), (t, 15, 0), (t, 23, 16)]
  else if inFam 0x5000 64 i then
    let h := i - 0x5000
    let r := Reg.hallShare h
    pickf [(Reg.hallState h, 12, 0), (r, 63, 48), (Reg.glHall h, 55, 42), (Reg.galHall h, 47, 32), (r, 47, 34),
           (r, 33, 26), (Reg.hallPdwin h, 63, 0), (r, 15, 8)]
  else if i = 0x5C00 then some (Reg.ageThr (sub - 1), 31, 0)
  else if i = 0x5E10 then some (Reg.frecCtrl, 7, 0)
  else none

/-- What a field's unit is worth in the entry's unit. -/
def odScale (i sub : Nat) : Nat :=
  if (inFam 0x4100 8 i || inFam 0x4300 16 i) && sub = 3 then 5
  else if inFam 0x4200 64 i && sub = 4 then 10
  else if i = 0x4600 && sub = 1 then 100
  else if i = 0x2A00 && sub = 2 then 31250
  else if inFam 0x4640 64 i && sub = 2 then 2048
  else 1

/-- The field's value for an entry's value. -/
def odEncode (i sub v : Nat) : Nat :=
  if i = 0x3200 && sub = 2 then Nat.log2 (v / 16)
  else if inFam 0x4100 8 i && sub = 0xA then 100000 / v
  else v / odScale i sub

/-- The entry's value of a field's value. -/
def odDecode (i sub v : Nat) : Nat :=
  if i = 0x3200 && sub = 2 then 16 * 2 ^ v
  else if inFam 0x4100 8 i && sub = 0xA then 100000 / v
  else v * odScale i sub

/-- The register write a staged entry becomes: offset, mask and value. -/
def Staged.regWrite (e : Staged) : Option (Nat × BitVec 64 × BitVec 64) :=
  if inFam 0x4400 8 e.index then
    let off := Reg.axStn (e.index - 0x4400) (e.sub - 1)
    if e.value = 2 ^ 32 - 1 then some (off, fmask 63 63, 0)
    else some (off, fmask 63 63 ||| fmask 31 0, setBit (BitVec.ofNat 64 e.value) 63 true)
  else match odField e.index e.sub with
    | none => none
    | some (off, hi, lo) => some (off, fmask hi lo, setFld 0 hi lo (odEncode e.index e.sub e.value))

/-- The register writes of a group, one for each register (R460 step 2). -/
def mergeWrites (l : List Staged) : Table (BitVec 64 × BitVec 64) :=
  l.foldl (fun t e => match e.regWrite with
    | none => t
    | some (off, m, v) =>
      let (m0, v0) := look (0, 0) t off
      insert t off (m0 ||| m, (v0 &&& ~~~m) ||| (v &&& m))) []

/-! Values. -/

/-- Bins of a kind that a hall owns. -/
def State.kindCount (s : State) (h : Nat) (k : BinKind) : Nat := (s.binsOf h (fun b => b.kind = k)).length

/-- Created halls: 0x5040:01. -/
def State.hallCount (s : State) : Nat := ((List.range s.part.hallMax).filter (fun h => s.hallCreated (h + 1))).length

/-- Context-store slots of the part that a hall owns: HALL_STATE.SLOTS. -/
def State.hallSlots (s : State) (h : Nat) : Nat :=
  ((List.range s.part.cores).map (fun l => s.slotsOwned h l)).foldl (· + ·) 0

/-- What the dictionary keeps of a path. -/
def State.path (s : State) (p : Nat) : PathSt := look PathSt.reset s.dict p
/-- The state with a path's record replaced. -/
def State.setPath (s : State) (p : Nat) (x : PathSt) : State := { s with dict := put PathSt.reset s.dict p x }

/-- Identity of the part (R2, R5). -/
def State.identity (s : State) (sub : Nat) : Nat :=
  let pt := s.part
  [pt.variant.code, pt.cores, pt.barns, pt.hallMax, pt.memGib, pt.galMib, if pt.hasCascade then 1 else 0, pt.axes, pt.cams,
   pt.stepping.toNat].getD (sub - 1) 0

/-- Values of the recorder's object (0x5E00). -/
def State.recorderObj (s : State) (sub : Nat) : Nat :=
  let r := s.recorder
  [r.next, r.seq.toNat, if r.frozen.isSome then 1 else 0, r.frozen.getD 0, r.lost].getD (sub - 1) 0

/-- The value of an entry that is no DOMAIN, and the state, which counts a free value used (R449; log entry 8). -/
def State.odValue (s : State) (p i sub : Nat) : Nat × State :=
  let x := s.path p
  if sub = 0 && objTop i ≠ some 0 then
    (if inFam 0x1600 4 i || inFam 0x1A00 4 i || i = 0x1C12 || i = 0x1C13 then s.obj i 0 else subTop s.part i, s)
  else if i = 0x1001 then (s.emcy.obj1001.toNat, s)
  else if i = 0x1018 && sub = 2 then
    (match s.part.variant with | .nrm8640 => 0x8640 | .nrm8632 => 0x8632 | .nrm8616 => 0x8616, s)
  else if i = 0x1000 || (0x1008 ≤ i && i ≤ 0x100A) || i = 0x1010 || i = 0x1011 || i = 0x1018 || i = 0x2E10 then
    s.freeAt (i * 256 + sub)
  else if i = 0x2001 then (s.identity sub, s)
  else if i = 0x2741 then (s.rf Reg.axStop 60 60, s)
  else if i = 0x2F00 then ([x.axis, 0, x.status, x.count, x.timeout].getD (sub - 1) 0, s)
  else if i = 0x2F01 then ([x.badIndex, x.badSub, x.badAbort, x.badDetail].getD (sub - 1) 0, s)
  else if i = 0x2F02 then ([x.trState, x.trDone, x.trTotal, x.trKind].getD (sub - 1) 0, s)
  else if i = 0x2A11 && sub = 2 then (s.line.low, s)
  else if i = 0x2F10 then ((s.reg (Reg.devOvr (sub - 1))).toNat, s)
  else if i = 0x2F80 then
    (if sub = 1 then if s.patch.unlocked then 1 else 0 else s.rf Reg.devPatchStat 63 32, s)
  else if i = 0x2F81 then (if s.jtagUnlocked then 1 else 0, s)
  else if inFam 0x4400 8 i then
    let v := s.reg (Reg.axStn (i - 0x4400) (sub - 1))
    (if bit v 63 then fld v 31 0 else 2 ^ 32 - 1, s)
  else if inFam 0x5000 64 i && sub = 1 then (s.hallSlots (i - 0x5000), s)
  else if i = 0x5040 then (s.hallCount, s)
  else if inFam 0x5080 64 i then (s.kindCount (i - 0x5080) (if sub = 1 then .root else .plain), s)
  else if i = 0x5E00 then (s.recorderObj sub, s)
  else if 0x6000 ≤ i then (s.pdoObj i sub, s)
  else match odField i sub with
    | some (off, hi, lo) => (odDecode i sub (s.rf off hi lo), s)
    | none => (s.obj i sub, s)

/-- Bytes of the MRAM. -/
def State.mramBytes (s : State) (a n : Nat) : List Byte := (List.range n).map (fun k => look 0 s.mram (a + k))

/-- The bytes of a DOMAIN (R449). -/
def State.odDomain (s : State) (i sub : Nat) : List Byte :=
  if i = 0x2A10 then s.eni
  else if i = 0x2E00 then s.mramBytes 0x301000 2048
  else if i = 0x2E01 then s.mramBytes 0x300000 2048
  else if inFam 0x4180 8 i then
    let x := i - 0x4180
    (List.range (s.rf (Reg.axPtabCtrl x) 36 26)).flatMap (fun k => natBytes 8 (s.reg (Reg.ptabActive x k)).toNat)
  else if i = 0x5E00 && sub = 6 then s.mramBytes 0 2097152
  else if i = 0x5E00 then
    match s.recorder.frozen with
    | none => List.replicate 131072 0
    | some b => (List.range 4096).flatMap (fun k => s.mramBytes ((b + k) % 65536 * 32) 32)
  else []

end Sys2Proof.Machine
end

