-- ==== Sys2Proof/Machine/Dict.lean ====
section
/-! DEFINITION. Staged commits of the object dictionary (spec/15_object_dictionary.md, R458 to R466, R378, R517): the pending
sets, what a commit checks and applies, its transitions, and the parameter store. -/

namespace Sys2Proof.Machine

/-- The mailbox or window of a path: none for the plant. -/
def pathBox (p : Nat) : Option (Option Nat) := if p = 0 then none else if p = 1 then some none else some (some (p - 2))

/-- The hall a path belongs to, 0xFF for the plant and the manager. -/
def pathHall (p : Nat) : Nat := if p < 2 then 0xFF else p - 2

/-! Pending sets (R458). -/

/-- A later write of a subindex replaces the earlier one. -/
def stagePut (l : List Staged) (e : Staged) : List Staged :=
  l.filter (fun x => !(x.index = e.index && x.sub = e.sub)) ++ [e]

/-- The set holds at most 256 writes and 64 KiB of DOMAIN data beside 0x2A10. -/
def stageFits (l : List Staged) : Bool :=
  l.length ≤ 256 && l.foldl (fun n e => if e.index = 0x2A10 then n else n + e.bytes.length) 0 ≤ 65536

/-- The set as a refused commit would leave it: the group of the commit in progress, with what was staged since (R458). -/
def PathSt.whole (x : PathSt) (l : List Staged) : List Staged :=
  match x.commit with
  | some c => l.foldl stagePut c.group
  | none => l

/-- A write enters the path's pending set: an abort code or 0 (R454 check 7). While a commit is in progress its group counts with
the set, into which its refusal puts it back (log entry 38). -/
def State.stage (s : State) (p : Nat) (e : Staged) : Nat × State :=
  let x := s.path p
  let l := stagePut x.pend e
  if stageFits (x.whole l) then (0, s.setPath p { x with pend := l }) else (0x05040005, s)

/-! What a group asks for. -/

/-- The axis of a pitch table. -/
def Staged.ptabAxis (e : Staged) : Option Nat := if inFam 0x4180 8 e.index then some (e.index - 0x4180) else none

/-- A response is owed before the transition, not after it (R464). -/
def earlyAnswer (g : List Staged) : Bool := g.any (fun e => e.index = 0x5040 || inFam 0x5080 64 e.index)

/-- Entry i of a staged pitch table. -/
def Staged.point (e : Staged) (i : Nat) : BitVec 64 := BitVec.ofNat 64 (bytesNat ((e.bytes.drop (8 * i)).take 8))

/-- Points of a staged pitch table. -/
def Staged.points (e : Staged) : Nat := e.bytes.length / 8

/-- LENP as the group leaves it. -/
def State.lenpAfter (s : State) (g : List Staged) (x : Nat) : Nat :=
  match g.find? (fun e => e.index = 0x4100 + x && e.sub = 7) with
  | some e => e.value
  | none => s.rf (Reg.axPitchLenp x) 47 0

/-- The first point of a table that breaks R360. -/
def Staged.badPoint (e : Staged) (len : Nat) : Option Nat :=
  (List.range e.points).find? (fun i =>
    len ≤ fld (e.point i) 47 0 || (i ≠ 0 && fld (e.point i) 47 0 ≤ fld (e.point (i - 1)) 47 0))

/-- The steps a group's transitions run (R464). -/
def State.groupSteps (s : State) (g : List Staged) : List TrStep :=
  g.flatMap (fun e =>
    match e.ptabAxis with
    | some x => if 2048 < e.bytes.length then (List.range ((e.points + 255) / 256)).map (TrStep.bank x) else []
    | none =>
      if inFam 0x5080 64 e.index then
        let h := e.index - 0x5080
        let n := s.kindCount h (if e.sub = 1 then .root else .plain)
        List.replicate (e.value - n) (.bin h (e.sub = 1) true) ++ List.replicate (n - e.value) (.bin h (e.sub = 1) false)
      else if e.index = 0x5040 then
        List.replicate (e.value - s.hallCount) (.hall true) ++ List.replicate (s.hallCount - e.value) (.hall false)
      else [])

/-- KIND of a step. -/
def TrStep.kind : TrStep → Nat
  | .bank _ _ => 1
  | .bin _ _ _ => 2
  | .hall _ => 3

/-- An entry that a transition carries out (R464). -/
def Staged.moving (t : Staged) : Bool :=
  (t.ptabAxis.isSome && 2048 < t.bytes.length) || inFam 0x5080 64 t.index || t.index = 0x5040

/-- An entry is of the same object or of the same function. -/
def Staged.meets (t e : Staged) : Bool :=
  t.index = e.index || ((fnOf t.index t.sub).isSome && fnOf t.index t.sub = fnOf e.index e.sub)

/-- Another path's transition, which runs until its commit is applied or refused, touches an entry (R460 step 1, R464). -/
def State.touched (s : State) (p : Nat) (e : Staged) : Bool :=
  s.dict.any (fun (q, x) => q ≠ p && x.trState = 1 && (match x.commit with
    | some c => c.group.any (fun t => t.moving && t.meets e)
    | none => false))

/-! Applying. -/

/-- A write by the commit engine of a register in its home domain. -/
def State.commitWrite (s : State) (off : Nat) (mask v : BitVec 64) : State :=
  if off = Reg.eclCfg then s.eclCfgWrite mask v
  else if off = Reg.eclCyc then s.eclCycWrite mask v
  else if 0x700000 ≤ off && off < 0x800000 then s.webWrite .pf off mask v
  else if 0x800C00 ≤ off && off < 0x800E00 then s.mirrorWrite (instOf off 0x800C00 8) mask v
  else if 0xD00A00 ≤ off && off < 0xD00C00 then s.shareWrite (instOf off 0xD00A00 8) mask v
  else if 0xD00C00 ≤ off && off < 0xD00E00 then
    if v = s.reg off then s else (s.setReg off v).shareChanged (instOf off 0xD00C00 8) 7 v.toNat
  else s.plain off mask v

/-- Registers whose write acts on others of the same group: applied after them in the one cycle of R460. -/
def lastWrites (off : Nat) : Bool := off = Reg.eclCfg || (0x800C00 ≤ off && off < 0x800E00)

/-- The register writes of a group. -/
def State.applyRegs (s : State) (g : List Staged) : State :=
  let t := mergeWrites g
  let t := t.filter (fun e => !lastWrites e.1) ++ t.filter (fun e => lastWrites e.1)
  t.foldl (fun s e => s.commitWrite e.1 e.2.1 e.2.2) s

/-- Bank i of a staged table into the shadow (R378). -/
def State.loadBank (s : State) (x i : Nat) (e : Staged) : State :=
  ((List.range 256).map (· + 256 * i)).foldl (fun s k =>
    if k < e.points then s.setReg (Reg.ptabShadow x k) (e.point k) else s) s

/-- A pitch table at its boundary (R360, R378, R460): shadow, N_PEND and the swap at the boundary that waits for it; the second
table of one boundary keeps the NUMBER that the first has counted. -/
def State.commitTable (s : State) (x : Nat) (e : Staged) : State :=
  let s := if 2048 < e.bytes.length then s else s.loadBank x 0 e
  let s := s.setRf (Reg.axPtabCtrl x) 58 48 e.points
  if s.pitchLen x = 0 then s.requestSwap x
  else if (s.axr x).tabWait.isSome then
    let (done, s) := s.swapPitch x (s.pitchTarget x)
    s.leaveBoundary x done
  else
    let n := s.rf (Reg.axPitch x) 63 32
    let (done, s) := s.swapPitch x (s.axr x).pitchStart
    if done then
      let t := s.dt.toNat
      (s.setRf (Reg.axPitch x) 63 32 n).pitchRun x (s.reg (Reg.axPos x)) (fun _ => t) 2048
    else s

/-- A calibration set is applied to CAL_WORD (R516). -/
def State.applyCal (s : State) (l : List Byte) : State :=
  let word := fun i => BitVec.ofNat 64 (bytesNat ((l.drop (8 * i)).take 8))
  let s := (List.range 256).foldl (fun s i => s.setReg (Reg.calWord i) (word i)) s
  s.setRf Reg.calStat 31 0 (fld (word 255) 31 0)

/-- Bytes written into the MRAM. -/
def State.setMrams (s : State) (a : Nat) : List Byte → State
  | [] => s
  | b :: l => (s.setMram a b).setMrams (a + 1) l

/-- The user set is stored and applied as one step (R517). -/
def State.storeCal (s : State) (l : List Byte) : State := (s.setMrams 0x301000 l).applyCal l

/-- What an entry of a group does beside register writes. -/
def State.applyEntry (s : State) (e : Staged) : State :=
  if e.index = 0x2740 then s.setObj e.index e.sub e.value
  else if e.index = 0x2A10 then { s with eni := e.bytes }
  else if e.index = 0x2E00 then s.storeCal e.bytes
  else match e.ptabAxis with
    | some x => s.commitTable x e
    | none => s

/-- The whole of a group in one cycle (R460 step 4). -/
def State.applyGroup (s : State) (g : List Staged) : State := g.foldl (fun s e => s.applyEntry e) (s.applyRegs g)

/-! Checks. -/

/-- A set does not carry its CRC, or a reserved word of it is not zero (R516, R517). -/
def calBad (l : List Byte) : Bool :=
  bytesNat ((l.drop 2040).take 4) ≠ crc32 (l.take 2040) || bytesNat ((l.drop 1448).take 592) ≠ 0

/-- The cross-object rules of R460, on the state `t` as the group's registers would leave it. -/
def State.crossBad (s t : State) (g : List Staged) (e : Staged) : Bool :=
  (inFam 0x4380 8 e.index && t.rf (Reg.msCfg (e.index - 0x4380)) 55 44 < t.rf (Reg.msCfg (e.index - 0x4380)) 43 32) ||
  (inFam 0x4640 64 e.index && e.sub ≤ 2 &&
    (let h := e.index - 0x4640
     let v := g.foldl (fun v (x : Staged) => match x.regWrite with
       | some (o, m, w) => if o = Reg.galMirror h then (v &&& ~~~m) ||| w else v
       | none => v) (s.reg (Reg.galMirror h))
     bit v 63 && !s.mirrorOk h v)) ||
  (inFam 0x5000 64 e.index && e.sub = 7 && !t.pdwinOk (e.index - 0x5000) (BitVec.ofNat 64 e.value)) ||
  (e.index = 0x2A00 && ((e.sub = 1 && e.value ≠ 0 && t.lineBad) || (e.sub = 5 && s.lineOn))) ||
  (e.index = 0x2E00 && calBad e.bytes)

/-- A refusal: abort, index, subindex and detail (R463). -/
structure Refused where
  abort : Nat
  index : Nat
  sub : Nat
  detail : Nat
  deriving DecidableEq, Repr

/-- The refusal of an entry. -/
def Staged.refused (e : Staged) (abort detail : Nat) : Refused := ⟨abort, e.index, e.sub, detail⟩

/-- The points of a table break R360. -/
def State.tableBad (s : State) (g : List Staged) : Option Refused :=
  g.findSome? (fun e => match e.ptabAxis with
    | some x => (e.badPoint (s.lenpAfter g x)).map (fun i => e.refused 0x06090030 i)
    | none => none)

/-- Step 1 of R460: the first refusal of a group at a boundary. -/
def State.commitBad (s : State) (p : Nat) (g : List Staged) (boundary axis : Nat) : Option Refused :=
  let noTime := fun (e : Staged) => match e.ptabAxis with
    | some x => !(s.pitchLen x = 0 || (boundary = 2 && axis = x))
    | none => false
  let lower := fun (e : Staged) => inFam 0x5080 64 e.index && s.hstate (e.index - 0x5080) ≠ 1 &&
    e.value < s.kindCount (e.index - 0x5080) (if e.sub = 1 then .root else .plain)
  let seen := p < 2 || s.seesAxis (p - 2) axis
  match g.find? (fun e => s.overridden e.index e.sub || s.touched p e || noTime e || lower e) with
  | some e => some (e.refused 0x08000022 0)
  | none =>
    match s.tableBad g with
    | some r => some r
    | none =>
      let t := s.applyRegs g
      match g.find? (s.crossBad t g) with
      | some e => some (e.refused 0x06090030 0)
      | none =>
        if (boundary = 1 && !s.lineOn) || (boundary = 2 && (s.part.axes ≤ axis || !seen)) then
          some ⟨0x06090030, 0x2F00, 2, 0⟩
        else none

/-- Step 3 of R460: a flag that is now set, or a hall RESETTING whose registers the group writes; and R378. -/
def State.boundaryBad (s : State) (g : List Staged) : Option Refused :=
  let held := fun (e : Staged) => match e.regWrite with
    | some (off, _, _) => (match regHall off with
      | some h => s.resetting h
      | none => false)
    | none => false
  match g.find? (fun e => s.overridden e.index e.sub || held e) with
  | some e => some (e.refused 0x08000022 0)
  | none => s.tableBad g

/-! The life of a commit. -/

/-- The response to a path's COMMIT, if one is owed (R459): by SDO on the plant, by the box with an OD_WRITE of
0x2F00:02 outstanding otherwise. -/
def State.answerCommit (s : State) (p abort : Nat) : State :=
  match pathBox p with
  | none => s.send (.sdo abort [])
  | some b =>
    if s.boxBusy b && s.boxCode b = 3 && s.rf (boxReq b 1) 31 8 = 0x2F0002 then
      if abort = 0 then s.respondWords b 0 [] else s.respondAbort b abort
    else s

/-- A commit is refused (R460, R463): its set is kept, what was staged since replacing what it held, a transition of it has
FAILED, and the response follows where it was not sent at the start (R464). -/
def State.refuseCommit (s : State) (p : Nat) (r : Refused) : State :=
  let x := s.path p
  let answered := x.commit.any (fun c => earlyAnswer c.group)
  let s := s.setPath p { x with status := 4, pend := x.whole x.pend, commit := none, badIndex := r.index, badSub := r.sub,
                                badAbort := r.abort, badDetail := r.detail,
                                trState := if x.trState = 1 then 3 else x.trState }
  let s := s.note { code := 0x0A1, cls := .event, source := 0xC, hall := pathHall p, detail := BitVec.ofNat 64 r.abort }
  if answered then s else s.answerCommit p r.abort

/-- The swap of a table that breaks R360 at its boundary is refused (R378): the shadow holds it, and ERR is set. -/
def State.refuseSwap (s : State) (r : Refused) (g : List Staged) : State :=
  match g.find? (fun e => e.index = r.index), r.abort = 0x06090030 && inFam 0x4180 8 r.index with
  | some e, true =>
    let x := r.index - 0x4180
    let s := if 2048 < e.bytes.length then s else s.loadBank x 0 e
    (s.setRf (Reg.axPtabCtrl x) 58 48 e.points).setRf (Reg.axPtabCtrl x) 62 62 1
  | _, _ => s

/-- A refused table leaves its boundary to the old one. -/
def State.leaveTable (s : State) (c : Commit) : State := if s.tableArmed c.axis then s else s.leaveBoundary c.axis false

/-- Steps 4 and 5 of R460. -/
def State.applyCommit (s : State) (p : Nat) (c : Commit) : State :=
  match s.boundaryBad c.group with
  | some r => ((s.refuseSwap r c.group).refuseCommit p r).leaveTable c
  | none =>
    let s := (s.setPath p { s.path p with commit := none }).applyGroup c.group
    let x := s.path p
    let s := s.setPath p { x with status := 3, count := (x.count + 1) % 65536, commit := none,
                                  trState := if x.trState = 1 then 2 else x.trState }
    let s := s.note { code := 0x0A0, cls := .event, source := 0xC, hall := pathHall p,
                      detail := BitVec.ofNat 64 (p + c.boundary * 256) }
    if earlyAnswer c.group then s else s.answerCommit p 0

/-- The place of the commit armed last among those in progress (R462). -/
def State.lastArmed (s : State) : Nat :=
  s.dict.foldl (fun n e => match e.2.commit with
    | some c => max n c.order
    | none => n) 0

/-- Step 2 of R460 ends: ARMED, or applied when the boundary is IMMEDIATE (R461, R464). -/
def State.armCommit (s : State) (p : Nat) (c : Commit) : State :=
  let flat := c.boundary = 2 && s.pitchLen c.axis = 0
  if c.boundary = 0 || earlyAnswer c.group || flat then s.applyCommit p c
  else
    let due := if c.due < s.dt.toNat then (s.dt.toNat / s.linePeriod + 1) * s.linePeriod else c.due
    let c := { c with due := due, bounds := (s.axr c.axis).bounds, order := s.lastArmed + 1, steps := [] }
    s.setPath p { s.path p with status := 1, commit := some c }

/-- COMMIT: IMMEDIATE, NEXT_CYCLE or NEXT_PITCH (R459 to R462). -/
def State.startCommit (s : State) (p boundary : Nat) : State :=
  let x := s.path p
  match s.commitBad p x.pend boundary x.axis with
  | some r => s.refuseCommit p r
  | none =>
    let g := x.pend
    let (f, s) := s.freeNat
    let t := s.dt.toNat + 5000 + f % 45001
    let steps := s.groupSteps g
    let c : Commit := { boundary := boundary, axis := x.axis, due := (t + s.linePeriod - 1) / s.linePeriod * s.linePeriod,
                        bounds := 0, since := s.dt.toNat, order := 0, group := g, steps := steps }
    let s := s.setPath p { x with pend := [], commit := some c }
    let s := if earlyAnswer g then s.answerCommit p 0 else s
    match steps with
    | [] => s.armCommit p c
    | t :: _ => s.setPath p { s.path p with status := 2, trState := 1, trDone := 0, trTotal := steps.length,
                                            trKind := t.kind }

/-- A write of 0x2F00:02 (R459, R462): an abort at once, or the response follows. -/
def State.commitCmd (s : State) (p v : Nat) : Option Nat × State :=
  let x := s.path p
  if x.commit.isSome then (some 0x08000022, s)
  else if v = 3 then (some 0, s.setPath p { x with pend := [] })
  else (none, s.startCommit p v)

/-- The boundary of an armed commit has come (R461). -/
def State.boundaryReached (s : State) (c : Commit) : Bool :=
  c.steps.isEmpty && ((c.boundary = 1 && s.lineOn && c.due ≤ s.dt.toNat) ||
    (c.boundary = 2 && ((s.axr c.axis).bounds ≠ c.bounds || s.pitchLen c.axis = 0)))

/-- Armed commits that meet a test, in order of arming (R462). -/
def State.armedBy (s : State) (f : Commit → Bool) : List (Nat × Commit) :=
  sortBy (fun (a b : Nat × Commit) => a.2.order ≤ b.2.order) (s.dict.filterMap (fun (p, x) =>
    match x.commit with
    | some c => if f c then some (p, c) else none
    | none => none))

/-- COMMIT_BOUNDARY (R460): the first armed of the commits whose boundary has come. -/
def State.commitBoundary (s : State) : State :=
  match s.armedBy s.boundaryReached with
  | [] => s
  | (p, c) :: _ => s.applyCommit p c

/-- The axis is in loss under HOLD, stopped or reversing (R462). -/
def State.pitchWaits (s : State) (x : Nat) : Bool := (s.axLoss x && !s.axExtrap x) || s.axVel x ≤ 0

/-- COMMIT_TIMEOUT (R462). -/
def State.commitTimeout (s : State) (p : Nat) : State :=
  match (s.path p).commit with
  | none => s
  | some c =>
    if c.steps.isEmpty && c.boundary = 2 && s.pitchWaits c.axis && !s.boundaryReached c &&
        c.since + 1000000 * (s.path p).timeout ≤ s.dt.toNat then
      s.refuseCommit p ⟨0x08000022, (c.group.head?.map (·.index)).getD 0x2F00, (c.group.head?.map (·.sub)).getD 2, 0⟩
    else s

/-! Transitions (R464). -/

/-- A step that removes a hall: reset in SQUASH, then removed (R464). -/
def State.removeHall (s : State) (h : Nat) : State := (((s.resetGo h true).hallResetDone h).hallRemove h)

/-- One step: whether it succeeded. -/
def State.runStep (s : State) (g : List Staged) : TrStep → Bool × State
  | .bank x i => (true, match g.find? (fun e => e.index = 0x4180 + x) with
      | some e => s.loadBank x i e
      | none => s)
  | .bin h root true =>
    let s := s.assign h (if root then .root else .plain) true 0 1
    (s.rf Reg.glCmdStat 59 56 = 0, s)
  | .bin h root false =>
    let (f, s) := s.freeNat
    match pick (s.binsOf h (fun b => b.kind = if root then .root else .plain)) f with
    | none => (false, s)
    | some n =>
      let s := s.release h n 1
      (s.rf Reg.glCmdStat 59 56 = 0, s)
  | .hall true =>
    let h := s.hallCount + 1
    if !s.vfOn h || s.hstate h ≠ 0 then (false, s) else (true, s.hallCreate h)
  | .hall false =>
    let h := ((List.range (s.part.hallMax + 1)).filter s.hallCreated).foldl max 0
    let s := s.removeHall h
    (s.hstate h = 0, s)

/-- A failed step stops the transition (R464). -/
def State.failTransition (s : State) (p : Nat) : State :=
  let x := s.path p
  let s := s.setPath p { x with status := 4, trState := 3, pend := x.whole x.pend, commit := none }
  let s := s.note { code := 0x0A4, cls := .notice, source := 0xC, hall := pathHall p,
                    detail := BitVec.ofNat 64 (x.trKind + x.trDone * 256) }
  s.event 0 "TRANSITION_FAILED" p

/-- TRANSITION_STEP (R464): the next step of a path's transition, and the end of step 2 after the last. -/
def State.transitionStep (s : State) (p : Nat) : State :=
  match (s.path p).commit with
  | none => s
  | some c =>
    match c.steps with
    | [] => s
    | t :: rest =>
      let (ok, s) := s.runStep c.group t
      if !ok then s.failTransition p
      else
        let x := s.path p
        let kind := (rest.head?.map TrStep.kind).getD x.trKind
        let s := s.setPath p { x with trDone := x.trDone + 1, trKind := kind, commit := some { c with steps := rest } }
        if rest.isEmpty then s.armCommit p { c with steps := [] } else s

/-! Store and restore. -/

/-- The configuration objects (R449, R450). -/
def configObjects (pt : Part) : List Nat :=
  ([0x2740, 0x2A00, 0x2A10, 0x2A40, 0x2E00, 0x3100, 0x3200] ++ (List.range 64).map (· + 0x3240) ++
    (List.range 8).map (· + 0x4100) ++ (List.range 8).map (· + 0x4180) ++ (List.range 64).map (· + 0x4200) ++
    (List.range 16).map (· + 0x4300) ++ (List.range 8).map (· + 0x4380) ++ (List.range 8).map (· + 0x4400) ++ [0x4600] ++
    (List.range 64).map (· + 0x4640) ++ (List.range 64).map (· + 0x5000) ++ [0x5040] ++ (List.range 64).map (· + 0x5080) ++
    [0x5C00, 0x5E10]).filter (fun i => !objAbsent pt i)

/-- The applied value of an entry as a write of it. -/
def State.appliedEntry (s : State) (i sub : Nat) : Staged :=
  if (odEntry s.part i sub).size = 0 then { index := i, sub := sub, value := 0, bytes := s.odDomain i sub }
  else { index := i, sub := sub, value := (s.odValue 1 i sub).1, bytes := [] }

/-- Every applied configuration value (R465). -/
def State.applied (s : State) : List Staged :=
  (configObjects s.part).flatMap (fun i =>
    let top := subTop s.part i
    let subs := if top = 0 then [0] else (List.range top).map (· + 1)
    (subs.filter (fun k => !(odEntry s.part i k).ro)).map (s.appliedEntry i))

/-- 0x1010:01 (R465): an abort code or 0. -/
def State.storeParams (s : State) (sig : Nat) : Nat × State :=
  if sig = 0x65766173 then (0, { s with params := some s.applied }) else (0x08000020, s)

/-- 0x1011:01 (R465). -/
def State.dropParams (s : State) (sig : Nat) : Nat × State :=
  if sig = 0x64616F6C then (0, { s with params := none }) else (0x08000020, s)

/-- The stored values are applied as one IMMEDIATE commit, its steps before the rest (R464, R465); a transition step that fails is passed over (log entry
27). -/
def State.applyParams (s : State) : State :=
  match s.params with
  | none => s
  | some g =>
    let g := g.filter (fun e => match e.ptabAxis with
      | some _ => e.points ≠ 0
      | none => true)
    ((s.groupSteps g).foldl (fun s t => (s.runStep g t).2) s).applyGroup g

/-- A flag of a calibrated function is set (R466, R517). -/
def State.calOverridden (s : State) : Bool :=
  s.reg (Reg.devOvr 1) &&& (fmask 7 0 ||| fmask 47 24) ≠ 0 || s.reg (Reg.devOvr 2) ≠ 0

/-- 0x2E10:01 (R466). -/
def State.restoreCal (s : State) (p sig : Nat) : Nat × State :=
  if sig ≠ 0x64616F6C then (0x08000020, s)
  else if s.calOverridden then (0x08000022, s)
  else
    let s := s.storeCal (s.mramBytes 0x300000 2048)
    let x := s.path p
    let s := s.setPath p { x with status := 3, count := (x.count + 1) % 65536 }
    (0, s.note { code := 0x0A0, cls := .event, source := 0xC, hall := pathHall p, detail := BitVec.ofNat 64 p })

end Sys2Proof.Machine
end

