-- ==== Sys2Proof/Machine/Requests.lean ====
section
/-! DEFINITION. Requests to the object dictionary (spec/15_object_dictionary.md, R449 to R454): reads, writes, complete
access, the command objects, and how OD_READ, OD_WRITE and SDOs carry them. -/

namespace Sys2Proof.Machine

/-! Checks. -/

/-- The object exists for a path (R453). -/
def State.odSeen (s : State) (p i sub : Nat) : Bool :=
  (objTop i).isSome && !objAbsent s.part i && !subAbsent s.part i sub && s.odReads p i sub

/-- What stops a read: an abort code, or 0. -/
def State.odReadBad (s : State) (p i sub : Nat) : Nat :=
  if !s.odSeen p i sub then 0x06020000
  else if (objTop i).getD 0 < sub then 0x06090011
  else if i = 0x2F00 && sub = 2 then 0x06010001
  else 0

/-- Largest length of a DOMAIN. -/
def domainMax (i : Nat) : Nat := if i = 0x2A10 then 1048576 else if inFam 0x4180 8 i then 8192 else 2048

/-- A DOMAIN is too short: a calibration set has one length, and a pitch table whole points. -/
def domainShort (i n : Nat) : Bool :=
  (i = 0x2E00 && n < 2048) || (inFam 0x4180 8 i && (n < 8 || n % 8 ≠ 0))

/-- Reserved bits of a point of a pitch table are set. -/
def tableReserved (i : Nat) (l : List Byte) : Bool :=
  inFam 0x4180 8 i && (List.range (l.length / 8)).any (fun k => bytesNat ((l.drop (8 * k)).take 8) / 2 ^ 48 % 2 ^ 12 ≠ 0)

/-- Checks 1 to 6 of R454: an abort code, or 0. -/
def State.odWriteBad (s : State) (p i sub : Nat) (l : List Byte) : Nat :=
  let e := odEntry s.part i sub
  let v := bytesNat l
  let most := if e.size = 0 then domainMax i else e.size
  if !s.odSeen p i sub then 0x06020000
  else if (objTop i).getD 0 < sub then 0x06090011
  else if e.ro then 0x06010002
  else if !s.odWrites p i sub then 0x08000020
  else if most < l.length then 0x06070012
  else if l.length < e.size || (e.size = 0 && domainShort i l.length) then 0x06070013
  else if (e.size = 0 && tableReserved i l) ||
      (e.size ≠ 0 && !isCommand i && (v < e.lo || e.hi < v || v % e.step ≠ 0 || odBad i sub v)) ||
      (isCommand i && 0x2700 ≤ i && i ≠ 0x2E10 && (v < e.lo || e.hi < v || odBad i sub v)) then 0x06090030
  else if s.overridden i sub then 0x08000022
  else 0

/-! One entry. -/

/-- Value bytes of one entry. -/
def State.odReadOne (s : State) (p i sub : Nat) : List Byte × State :=
  let e := odEntry s.part i sub
  if e.size = 0 then (s.odDomain i sub, s)
  else
    let (v, s) := s.odValue p i sub
    (natBytes e.size v, s)

/-- 0x2741 (R377): 1 sets REQ, 0 clears it, 2 is RELEASE. -/
def State.stopObject (s : State) (v : Nat) : State :=
  if v = 2 then s.stopRelease else s.axStopWrite (fmask 60 60) (setFld 0 60 60 v)

/-- 0x2A11:01 (R474): the request is held, and the device kernel drives the SubDevices. -/
def State.esmObject (s : State) (v : Nat) : State := (s.setObj 0x2A11 1 v).event 0 "ESM_REQUEST" v

/-- 0x2A41:01 (R477). -/
def State.clearEmergency (s : State) : State :=
  ({ s with emcy := { s.emcy with obj1001 := 0 } }).emergencyRaw 0 0 0 0xFF 0xFF

/-- 0x2F10 (R457). -/
def State.clearOverride (s : State) (j v : Nat) : State :=
  s.setReg (Reg.devOvr j) (s.reg (Reg.devOvr j) &&& ~~~BitVec.ofNat 64 v)

/-- 0x2F80:01 (R240): an abort code or 0. -/
def State.patchUnlock (s : State) (v : Nat) : Nat × State :=
  if v = 0x68637470 then (0, { s with patch := { s.patch with unlocked := true } })
  else if v = 0 then (0, { s with patch := { s.patch with unlocked := false } })
  else (0x06090030, s)

/-- 0x2F81:01 (R536): an abort code or 0. -/
def State.jtagUnlock (s : State) (v : Nat) : Nat × State :=
  if v = 0x6A746167 then (0, { s with jtagUnlocked := true })
  else if v = 0 then (0, { s with jtagUnlocked := false })
  else (0x06090030, s)

/-- A command object acts (R449): an abort code or 0, or none where the response follows. -/
def State.odCommand (s : State) (p i sub v : Nat) : Option Nat × State :=
  let some' := fun (a : Nat × State) => (some a.1, a.2)
  if i = 0x1010 then some' (s.storeParams v)
  else if i = 0x1011 then some' (s.dropParams v)
  else if i < 0x2000 then some' (s.pdoWrite i sub v)
  else if i = 0x2741 then (some 0, s.stopObject v)
  else if i = 0x2A11 then (some 0, s.esmObject v)
  else if i = 0x2A41 then (some 0, s.clearEmergency)
  else if i = 0x2E10 then some' (s.restoreCal p v)
  else if i = 0x2F10 then (some 0, s.clearOverride (sub - 1) v)
  else if i = 0x2F80 then some' (s.patchUnlock v)
  else if i = 0x2F81 then some' (s.jtagUnlock v)
  else if sub = 1 then (some 0, s.setPath p { s.path p with axis := v })
  else if sub = 5 then (some 0, s.setPath p { s.path p with timeout := v })
  else s.commitCmd p v

/-- A write of one entry: an abort code or 0, or none where the response follows. -/
def State.odWriteOne (s : State) (p i sub : Nat) (l : List Byte) : Option Nat × State :=
  let bad := s.odWriteBad p i sub l
  if bad ≠ 0 then (some bad, s)
  else if isCommand i then s.odCommand p i sub (bytesNat l)
  else
    let dom := (odEntry s.part i sub).size = 0
    let (a, s) := s.stage p { index := i, sub := sub, value := if dom then 0 else bytesNat l, bytes := if dom then l else [] }
    (some a, s)

/-! Complete access. -/

/-- The subindexes that a complete access moves, and the bytes each takes; subindex 0 takes two (log entry 28). -/
def completeSubs (pt : Part) (i sub : Nat) : List (Nat × Nat) :=
  let l := (List.range (subTop pt i)).map (fun k => (k + 1, (odEntry pt i (k + 1)).size))
  if sub = 0 then (0, 2) :: l else l

/-- Complete access fits an object: no VAR, and from subindex 0 or 1. -/
def completeOk (i sub : Nat) : Bool := sub ≤ 1 && objTop i ≠ some 0

/-- Value bytes of several entries, a DOMAIN with its whole length; those a path may not read are zero. -/
def State.odReadMany (s : State) (p i : Nat) : List (Nat × Nat) → List Byte × State
  | [] => ([], s)
  | (sub, n) :: l =>
    let (b, s) := if s.odReadBad p i sub = 0 then s.odReadOne p i sub else ([], s)
    let (rest, s) := s.odReadMany p i l
    ((if n = 0 then b else b.take n ++ List.replicate (n - b.length) 0) ++ rest, s)

/-- Writes of several entries, up to the first that is refused; a DOMAIN takes all bytes that are left. -/
def State.odWriteMany (s : State) (p i : Nat) : List (Nat × Nat) → List Byte → Nat × State
  | [], _ => (0, s)
  | (sub, n) :: l, b =>
    let e := odEntry s.part i sub
    if sub = 0 && e.ro then
      if bytesNat (b.take n) = subTop s.part i then s.odWriteMany p i l (b.drop n) else (0x06010002, s)
    else
      let n := if n = 0 then b.length else n
      match s.odWriteOne p i sub (if e.size = 0 then b.take n else (b.take n).take e.size) with
      | (some 0, s) => s.odWriteMany p i l (b.drop n)
      | (some a, s) => (a, s)
      | (none, s) => (0, s)

/-! Requests. -/

/-- A read request (R451): an abort code or 0, and the value bytes. -/
def State.odRead (s : State) (p i sub : Nat) (complete : Bool) : Nat × List Byte × State :=
  if complete then
    let bad := s.odReadBad p i 0
    if bad ≠ 0 then (bad, [], s)
    else if !completeOk i sub then (0x06010000, [], s)
    else
      let (b, s) := s.odReadMany p i (completeSubs s.part i sub)
      (0, b, s)
  else
    let bad := s.odReadBad p i sub
    if bad ≠ 0 then (bad, [], s)
    else
      let (b, s) := s.odReadOne p i sub
      (0, b, s)

/-- A write request (R451): each is atomic, so a refused complete access changes nothing; one that takes in a read-only entry
is refused (R454 check 2). -/
def State.odWrite (s : State) (p i sub : Nat) (complete : Bool) (l : List Byte) : Option Nat × State :=
  if complete then
    let subs := completeSubs s.part i sub
    let n := subs.foldl (fun k e => k + e.2) 0
    if !s.odSeen p i 0 then (some 0x06020000, s)
    else if !completeOk i sub then (some 0x06010000, s)
    else if subs.any (fun e => e.1 ≠ 0 && (odEntry s.part i e.1).ro) then (some 0x06010002, s)
    else if n < l.length && subs.all (fun e => e.2 ≠ 0) then (some 0x06070012, s)
    else if l.length < n then (some 0x06070013, s)
    else
      let (a, t) := s.odWriteMany p i subs l
      if a = 0 then (some 0, t) else (some a, s)
  else s.odWriteOne p i sub l

/-- Value bytes as words of a box. -/
def byteWords (l : List Byte) : List (BitVec 64) :=
  (List.range ((l.length + 7) / 8)).map (fun k => BitVec.ofNat 64 (bytesNat ((l.drop (8 * k)).take 8)))

/-- Bytes of the request's value: from word 2, LENGTH less the word of the address. -/
def State.boxValue (s : State) (b : Option Nat) : List Byte :=
  let n := s.boxLen b - 8
  ((List.range ((n + 7) / 8)).flatMap (fun k => natBytes 8 (s.reg (boxReq b (2 + k))).toNat)).take n

/-- The path of a box. -/
def boxPath : Option Nat → Nat
  | none => 1
  | some h => 2 + h

/-- A request shorter than its address (R439, R452); the bits of request word 1 that no field holds are not judged (log entry
39). -/
def State.odShort (s : State) (b : Option Nat) : Bool := s.boxLen b < 8

/-- The next request of a DOMAIN series (R452): none when it is out of series. -/
def seriesNext (o : Option Staged) (i sub offset : Nat) (l : List Byte) : Option Staged :=
  match o with
  | none => if offset = 0 then some { index := i, sub := sub, value := 0, bytes := l } else none
  | some e =>
    if offset = 0 then some { index := i, sub := sub, value := 0, bytes := l }
    else if e.index = i && e.sub = sub && e.bytes.length = offset then some { e with bytes := e.bytes ++ l } else none

/-- The series of a path. -/
def State.setSeries (s : State) (p : Nat) (o : Option Staged) : State := s.setPath p { s.path p with series := o }

/-- A write of a DOMAIN by a series of requests (R452); checks 1 to 3 of R454 hold for each, the length as it grows. -/
def State.odWriteSeries (s : State) (p i sub offset : Nat) (last : Bool) (l : List Byte) : Option Nat × State :=
  match seriesNext (s.path p).series i sub offset l with
  | none => (some 0x08000022, s.setSeries p none)
  | some e =>
    let bad := s.odWriteBad p i sub e.bytes
    if last then
      let (a, s) := s.odWriteOne p i sub e.bytes
      (a, s.setSeries p none)
    else if bad ≠ 0 && bad ≠ 0x06070013 && bad ≠ 0x08000022 then (some bad, s.setSeries p none)
    else (some 0, s.setSeries p (some e))

/-- OD_WRITE by a box (R452, R454). -/
def State.boxOdWrite (s : State) (b : Option Nat) : State :=
  let w := s.reg (boxReq b 1)
  let i := fld w 31 16
  let sub := fld w 15 8
  let p := boxPath b
  if s.odShort b then s.respondWords b 7 []
  else
    let dom := !bit w 0 && (objTop i).isSome && (odEntry s.part i sub).size = 0
    let (a, s) := if dom then s.odWriteSeries p i sub (fld w 63 40) (bit w 1) (s.boxValue b)
      else (s.setSeries p none).odWrite p i sub (bit w 0) (s.boxValue b)
    match a with
    | some 0 => s.respondWords b 0 []
    | some a => s.respondAbort b a
    | none => s

/-- Data bytes of one response. -/
def boxData : Nat := 4088

/-- OD_READ by a box (R452): a DOMAIN is read from OFFSET on, as a series. -/
def State.boxOdRead (s : State) (b : Option Nat) : State :=
  let w := s.reg (boxReq b 1)
  let i := fld w 31 16
  let sub := fld w 15 8
  let p := boxPath b
  if s.odShort b then s.respondWords b 7 []
  else
    let dom := !bit w 0 && (objTop i).isSome && (odEntry s.part i sub).size = 0
    let (a, l, s) := s.odRead p i sub (bit w 0)
    if a ≠ 0 then s.respondAbort b a
    else if !dom then
      if boxData < l.length then s.respondAbort b 0x05040005 else s.respond b 0 l.length (byteWords l)
    else
      let off := fld w 63 40
      let want := match (s.path p).series with
        | some e => if e.index = i && e.sub = sub then e.value else 0
        | none => 0
      if off ≠ 0 && off ≠ want then (s.setSeries p none).respondAbort b 0x08000022
      else
        let part := (l.drop off).take boxData
        let next : Staged := { index := i, sub := sub, value := off + part.length, bytes := [] }
        (s.setSeries p (if bit w 1 then none else some next)).respond b 0 part.length (byteWords part)

/-- OD_READ (R452): the request outstanding in a box whose path is available. -/
def State.odReadRow (s : State) (b : Option Nat) : State :=
  s.serve b 2 (fun s => if s.pathOpen (boxPath b) then s.boxOdRead b else s)

/-- OD_WRITE (R452, R454). -/
def State.odWriteRow (s : State) (b : Option Nat) : State :=
  s.serve b 3 (fun s => if s.pathOpen (boxPath b) then s.boxOdWrite b else s)

/-- The indexes that the dictionary may hold (R448 to R450, R475). -/
def objIndexes : List Nat :=
  [0x1000, 0x1001, 0x1008, 0x1009, 0x100A, 0x1010, 0x1011, 0x1018, 0x1600, 0x1601, 0x1602, 0x1603, 0x1A00, 0x1A01, 0x1A02,
   0x1A03, 0x1C12, 0x1C13, 0x2001, 0x2740, 0x2741, 0x2A00, 0x2A10, 0x2A11, 0x2A40, 0x2A41, 0x2E00, 0x2E01, 0x2E10, 0x2F00,
   0x2F01, 0x2F02, 0x2F10, 0x2F80, 0x2F81, 0x3100, 0x3200] ++ (List.range 64).map (· + 0x3240) ++
  (List.range 8).map (· + 0x4100) ++ (List.range 8).map (· + 0x4180) ++ (List.range 64).map (· + 0x4200) ++
  (List.range 16).map (· + 0x4300) ++ (List.range 8).map (· + 0x4380) ++ (List.range 8).map (· + 0x4400) ++ [0x4600] ++
  (List.range 64).map (· + 0x4640) ++ (List.range 64).map (· + 0x5000) ++ [0x5040] ++ (List.range 64).map (· + 0x5080) ++
  [0x5C00, 0x5E00, 0x5E10, 0x6000, 0x6100, 0x6200]

/-- An answer of the SDO Information service (R475; log entry 28): the indexes of the objects; of an object its index and highest
subindex; of an entry its index, subindex, bytes (0: a DOMAIN) and whether it is read-only. -/
def State.odInfo (s : State) (op : SdoOp) (i sub : Nat) : Out :=
  if op = .list then .odInfo 0 (objIndexes.filter (fun k => !objAbsent s.part k))
  else if !s.odSeen 0 i 0 then .odInfo 0x06020000 []
  else if op = .object then .odInfo 0 [i, subTop s.part i]
  else if subTop s.part i < sub then .odInfo 0x06090011 []
  else .odInfo 0 [i, sub, (odEntry s.part i sub).size, if (odEntry s.part i sub).ro then 1 else 0]

/-- SDO_REQUEST (R451, R475): an upload or download on the plant port, with its whole value, or an SDO Information request. -/
def State.sdoRequest (s : State) (op : SdoOp) (i sub : Nat) (complete : Bool) (l : List Byte) : State :=
  if !s.pathOpen 0 then s
  else match op with
    | .download =>
      match s.odWrite 0 i sub complete l with
      | (some a, s) => s.send (.sdo a [])
      | (none, s) => s
    | .upload =>
      let (a, l, s) := s.odRead 0 i sub complete
      s.send (.sdo a l)
    | _ => s.send (s.odInfo op i sub)

/-- A write of a command object by a path itself, as the rows of the command table name it; the path's response. -/
def State.odDirect (s : State) (p i sub v : Nat) : State :=
  if !s.pathOpen p then s
  else match s.odWriteOne p i sub (natBytes (odEntry s.part i sub).size v) with
    | (some a, s) => if p = 0 then s.send (.sdo a []) else s
    | (none, s) => s

end Sys2Proof.Machine
end

