-- ==== Sys2Proof/Machine/Casc.lean ====
section
/-! DEFINITION. The Cascade Link (spec/16_cascade.md): the part's state and the join check (R482 to R485), device time (R486
to R488), remote axes (R489, R490), hand-off of items (R491, R492), promotion (R493) and the CASC_* registers (R494). -/

namespace Sys2Proof.Machine

/-- CASC_STATE.STATE. -/
def State.cascSt (s : State) : Nat := s.rf Reg.cascState 63 60
/-- CASC_STATE.ID. -/
def State.cascId (s : State) : Nat := s.part.cascId.toNat
/-- The state with what the cascade unit keeps replaced. -/
def State.setCasc (s : State) (c : Casc) : State := { s with casc := c }

/-- A part was heard within 100 µs: CASC_STATE.PRESENT. -/
def State.cascPresent (s : State) (p : Nat) : Bool :=
  let t := look 0 s.casc.heard p
  t ≠ 0 && s.dt.toNat < t - 1 + 100000

/-- A part is heard now. -/
def State.hear (s : State) (p : Nat) : State :=
  s.setCasc { s.casc with heard := put 0 s.casc.heard p (s.dt.toNat + 1) }

/-- A change of state (R483): record, event and PF vector 2. -/
def State.cascMove (s : State) (st reason : Nat) : State :=
  let s := (s.setRf Reg.cascState 63 60 st).setRf Reg.cascState 59 56 reason
  let quiet := s.rf Reg.devErrcfg 3 3 = 0
  let (i, s) := s.report { code := 0x080, cls := .event, source := 0xA, detail := BitVec.ofNat 64 (st + 16 * reason) }
  let s := if quiet then s.mgrMsix 2 0xFF 0x080 i else s
  s.event 0 "CASC_STATE" st

/-- Time becomes suspect (R488): a crossed remote speculation is held from now on (R400). Where it is suspect already, a RETIME
under way ends and the trim is held again. -/
def State.cascSuspect (s : State) : State :=
  if s.rf Reg.cascTime 63 63 = 1 then (s.setRf Reg.cascTime 62 62 1).setCasc { s.casc with retime := false }
  else
    let hold := fun (g : GalRec) => if g.st = .crossed && g.remote then { g with held := true } else g
    let s := { s with gal := s.gal.map (fun (i, g) => (i, hold g)) }
    let off := s.rf Reg.cascTime 31 0
    ((s.setRf Reg.cascTime 63 63 1).setRf Reg.cascTime 62 62 1).note
      { code := 0x081, cls := .contained, source := 0xA, detail := BitVec.ofNat 64 off }

/-- Suspect clears (R488). -/
def State.cascTrust (s : State) : State :=
  ((s.setRf Reg.cascTime 63 63 0).setRf Reg.cascTime 62 62 0).setCasc { s.casc with retime := false }

/-- The part starts to join (R483): trimming goes on even while time is suspect. -/
def State.cascJoining (s : State) : State :=
  ((s.setRf Reg.cascTime 62 62 0).setCasc { s.casc with stepped := false, tolFrom := none }).cascMove 2 0

/-! Links. -/

/-- LINK_TRAINED (R482, R483); `closed`: the ring is closed now. -/
def State.linkTrained (s : State) (closed : Bool) : State :=
  if !s.part.hasCascade then s
  else
    let c := s.casc
    let s := s.setCasc { c with trained := true, links := if closed then 0 else c.links - 1 }
    let s := s.setRf Reg.cascState 41 41 (if closed then 1 else 0)
    if c.links ≠ 0 then s.event 0 "CASC_RESTORED" (if closed then 1 else 0) else s

/-- RING_BREAK (R482): a link of port 0 E or 1 W breaks. -/
def State.cascBreak (s : State) (port : Nat) : State :=
  if !s.part.hasCascade then s
  else
    let s := s.setCasc { s.casc with links := s.casc.links + 1 }
    ((s.setRf Reg.cascState 41 41 0).bumpRf Reg.cascState 15 0 1).note
      { code := 0x071, cls := .corrected, source := 0xA, detail := BitVec.ofNat 64 (0x10 + port % 2) }

/-- A cell that failed its CRC n times arrives: the link layer sends it again up to three times (R481). -/
def arrives (n : Nat) : Bool := n ≤ 3

/-- The ports that a cell for a part leaves on (R482): the direction of the wiring, or both for every part. -/
def State.cascPorts (s : State) (dest : Nat) : List Nat :=
  if dest = 0xFF then [0, 1] else if Config.cascEast dest s.casc.links then [0] else [1]

/-- A cell of this part leaves. -/
def State.sendCell (s : State) (kind : String) (dest : Nat) (data : List (BitVec 64)) : State :=
  s.send (.cell kind s.cascId dest (s.cascPorts dest) data)

/-- A cell that came in on a port goes on by the other (R482, R485). -/
def State.relay (s : State) (kind : String) (src dest port : Nat) (data : List (BitVec 64)) : State :=
  s.send (.cell kind src dest [1 - port % 2] data)

/-- Cells sent again by the link layer (R481), counted for the hour. -/
def State.resent (s : State) (port n : Nat) : State :=
  (List.range (min n 3)).foldl (fun s _ => s.countHour (500 + port % 2)) s

/-- LINK_DELAY_MEASURE (R486). -/
def State.linkDelay (s : State) (port ns : Nat) : State :=
  if s.part.hasCascade then s.setCasc { s.casc with delays := put 0 s.casc.delays (port % 2) ns } else s

/-! The join check. -/

/-- This part's values of R484, in order. -/
def State.joinVals (s : State) : List Nat :=
  [s.part.stepping.toNat, s.rf Reg.devPatchStat 63 32, s.rf Reg.cascJoin 63 48, s.rf Reg.cascJoin 31 0]

/-- REASON of the first value that differs from the master's, 0 when all agree or none was heard (R484). -/
def State.joinReason (s : State) : Nat :=
  match (List.range 4).find? (fun i => match s.casc.masterJoin[i]? with
    | some v => s.joinVals.getD i 0 ≠ v
    | none => false) with
  | some i => i + 1
  | none => 0

/-- A member runs the join check (R484). -/
def State.joinCheck (s : State) : State :=
  if s.cascSt = 4 && s.joinReason ≠ 0 then s.cascMove 3 s.joinReason else s

/-- The master's values as a cell carries them. -/
def State.masterVals (s : State) (l : List Nat) : State := s.setCasc { s.casc with masterJoin := l.take 4 }

/-- A cell that bears this part's own ID from another part (R484). A part that follows no master yet waits for sync cells from
now on (R483). -/
def State.dupId (s : State) : State :=
  if s.cascSt = 3 then s.setRf Reg.cascState 59 56 5
  else if s.cascSt = 1 || s.cascSt = 5 then (s.setCasc { s.casc with lastSync := some s.dt.toNat }).cascMove 3 5
  else s.cascMove 3 5

/-- JOIN_ANNOUNCEMENT (R484): the values of the part that announces; those of the master are kept, and the cell goes on. -/
def State.joinAnnouncement (s : State) (a : Arrival) (l : List Nat) : State :=
  if !s.part.hasCascade then s
  else
    let s := s.resent a.port a.fails
    if !arrives a.fails then s
    else if a.src = s.cascId then s.dupId
    else
      let s := (s.relay "join" a.src 0xFF a.port (l.map (BitVec.ofNat 64))).hear a.src
      let s := if a.src = s.rf Reg.cascState 52 50 then s.masterVals l else s
      s.joinCheck

/-- This part announces its values (R484, R246). -/
def State.announce (s : State) : State :=
  if s.part.hasCascade && 2 ≤ s.cascSt && s.cascSt ≤ 5 then
    (s.sendCell "join" 0xFF ((s.joinVals ++ [s.rf Reg.cascTime 63 63]).map (BitVec.ofNat 64))).joinCheck
  else s

/-- The announcement after an APPLY that changed LEVEL (R484); `s0`: the state before. -/
def State.announceLevel (s s0 : State) : State :=
  if s.rf Reg.devPatchStat 63 32 = s0.rf Reg.devPatchStat 63 32 then s else s.announce

/-! Device time. -/

/-- A signed number saturated to 32 bits. -/
def sat32 (d : Int) : Int := max (-(2 ^ 31 : Int)) (min (2 ^ 31 - 1) d)

/-- The trim of R486: one cycle in N, N at least 1,000 and otherwise open (log entry 8). -/
def State.retrim (s : State) (d : Int) : State :=
  if s.rf Reg.cascTime 62 62 = 1 then s
  else
    let (f, s) := s.freeNat
    s.setCasc { s.casc with trim := if d = 0 then none else some (d < 0, 1000 + f) }

/-- DT steps forward by n ns (R487). What the part times by its own clock does not: the heartbeat window, the watchdogs, when
parts, sync cells and samples were last heard, and the filter of STOP_REQ_N (log entry 68). -/
def State.stepDt (s : State) (n : Nat) : State :=
  let c := s.casc
  { s with
    dt := s.dt + BitVec.ofNat 64 n,
    casc := { c with stepped := true, lastSync := c.lastSync.map (· + n), tolFrom := c.tolFrom.map (· + n),
                     heard := c.heard.map (fun e => (e.1, e.2 + n)),
                     handOut := c.handOut.map (fun o => { o with sent := o.sent + n }) },
    life := { s.life with kick := s.life.kick.map (· + n), stopHigh := s.life.stopHigh.map (· + n) },
    wdogFrom := s.wdogFrom.map (fun e => (e.1, e.2 + n)),
    axes := s.axes.map (fun e => (e.1, { e.2 with cellDt := e.2.cellDt + n })) }

/-- Alignment under R487: a step forward once, or WITHHELD when DT is ahead by 1 ms. -/
def State.alignTime (s : State) (d : Int) : State :=
  if 1000000 ≤ d then (if s.cascSt = 3 then s else s.cascMove 3 6)
  else if d ≤ -1000000 && !s.casc.stepped then s.stepDt d.natAbs
  else s

/-- Since when |OFFSET| has been at most 20 ns (R487). -/
def State.tolerance (s : State) (d : Int) : State :=
  let from' := if 20 < d.natAbs then none else if s.casc.tolFrom.isSome then s.casc.tolFrom else some s.dt.toNat
  s.setCasc { s.casc with tolFrom := from' }

/-- A sync cell of the present master reaches a part that follows it (R486 to R488). -/
def State.follow (s : State) (t path : Nat) : State :=
  let d : Int := (s.dt.toNat : Int) - (t : Int) - (path : Int)
  let s := (s.setRf Reg.cascTime 31 0 (BitVec.ofInt 32 (sat32 d)).toNat).setRf Reg.cascTime 61 48 (sat 14 path)
  let s := s.setCasc { s.casc with lastSync := some s.dt.toNat, lastOff := d }
  let s := if s.cascSt = 4 && 100 < d.natAbs && !s.casc.retime then s.cascSuspect else s
  let s := s.retrim d
  let s := s.tolerance d
  let s := if s.cascSt = 2 || (s.cascSt = 3 && s.rf Reg.cascState 59 56 ≠ 6) then s.alignTime d else s
  let s := if s.casc.retime && d.natAbs ≤ 20 then s.cascTrust else s
  if s.cascSt = 2 && s.joinReason ≠ 0 then s.cascMove 3 s.joinReason else s

/-- A master is adopted. -/
def State.takeMaster (s : State) (src epoch : Nat) (l : List Nat) : State :=
  ((s.setRf Reg.cascState 52 50 src).setRf Reg.cascState 31 16 epoch).masterVals l

/-- What a sync cell carries: DT at transmission, EPOCH, the path delay so far and the master's values of R484. -/
def syncData (t : BitVec 64) (epoch path : Nat) (l : List Nat) : List (BitVec 64) :=
  t :: ((epoch :: path :: l).map (BitVec.ofNat 64))

/-- SYNC_CELL (R483, R486): a sync cell of master `src`, with its EPOCH, its DT at transmission, the path delay up to the link
it came by, and the master's values of R484. One that fails its CRC is dropped (R481); another goes on with the delay of that
link added. -/
def State.syncCell (s : State) (a : Arrival) (epoch t path : Nat) (l : List Nat) : State :=
  let src := a.src
  if !s.part.hasCascade || a.fails ≠ 0 then s
  else if src = s.cascId then s.dupId
  else
    let path := path + look 0 s.casc.delays (a.port % 2)
    let s := (s.relay "sync" src 0xFF a.port (syncData (BitVec.ofNat 64 t) epoch path l)).hear src
    let s := s.setCasc { s.casc with epochMax := max s.casc.epochMax epoch }
    let mine := s.rf Reg.cascState 31 16
    let st := s.cascSt
    let newer := mine < epoch
    let join := (st = 1 && s.casc.trained) || (st = 5 && (newer || (mine = epoch && src < s.cascId))) ||
      ((st = 2 || st = 3 || st = 4 || st = 6) && newer)
    if join then ((s.takeMaster src epoch l).cascJoining).follow t path
    else if st = 1 || st = 5 || src ≠ s.rf Reg.cascState 52 50 || epoch < mine then s
    else (s.takeMaster src epoch l).follow t path

/-- SYNC_SEND (R486): in both directions. -/
def State.syncSend (s : State) : State :=
  if s.part.hasCascade && s.cascSt = 5 then s.sendCell "sync" 0xFF (syncData s.dt (s.rf Reg.cascState 31 16) 0 s.joinVals)
  else s

/-- SYNC_LOSS (R483, R488): no sync cell of the master for 100 µs. -/
def State.syncLoss (s : State) : State :=
  let late := match s.casc.lastSync with
    | some t => t + 100000 ≤ s.dt.toNat
    | none => false
  if !s.part.hasCascade || !late || s.cascSt < 2 || s.cascSt = 5 || s.cascSt = 6 then s
  else
    let s := s.cascSuspect
    if s.cascSt = 2 then s else s.cascMove 6 0

/-- JOIN_COMPLETE (R487): |OFFSET| has been at most 20 ns for 1 ms. -/
def State.joinComplete (s : State) : State :=
  match s.casc.tolFrom with
  | none => s
  | some t => if s.cascSt = 2 && t + 1000000 ≤ s.dt.toNat then s.cascTrust.cascMove 4 0 else s

/-- ns that one CLK_TB cycle adds to DT (R39, R486). -/
def State.dtStep (s : State) : Nat × State :=
  match s.casc.trim with
  | none => (5, s)
  | some (up, n) =>
    if s.casc.ticks + 1 < n then (5, s.setCasc { s.casc with ticks := s.casc.ticks + 1 })
    else (if up then 6 else 4, s.setCasc { s.casc with ticks := 0 })

/-! Commands. -/

/-- RESULT of CASC_CMD. -/
def State.cascResult (s : State) (n : Nat) : State := s.setRf Reg.cascCmd 3 0 n

/-- PROMOTE (R493). -/
def State.promote (s : State) : State :=
  if !(s.cascSt = 4 || s.cascSt = 6) || s.cascPresent (s.rf Reg.cascState 52 50) then s.cascResult 1
  else
    let epoch := (max s.casc.epochMax (s.rf Reg.cascState 31 16) + 1) % 65536
    let s := (s.setRf Reg.cascState 31 16 epoch).setRf Reg.cascState 52 50 s.cascId
    let s := s.cascTrust.setCasc { s.cascTrust.casc with trim := none, epochMax := epoch }
    (s.cascMove 5 0).cascResult 0

/-- RETIME (R488). -/
def State.retime (s : State) : State :=
  let s := s.cascResult 0
  if s.rf Reg.cascTime 63 63 = 0 then s
  else
    let s := (s.setRf Reg.cascTime 62 62 0).setCasc { s.casc with retime := true, stepped := false }
    s.alignTime s.casc.lastOff

/-- REJOIN (R483). -/
def State.rejoin (s : State) : State :=
  if s.cascSt = 3 || s.cascSt = 6 then s.cascJoining.cascResult 0 else s.cascResult 1

/-! Remote axes. -/

/-- An axis's samples are broadcast (R489). -/
def State.broadcasts (s : State) (x : Nat) : Bool :=
  s.part.hasCascade && (s.cascSt = 4 || s.cascSt = 5) && !s.remoteAxis x && s.axMode x ≠ 0

/-- The samples of this part's own axes leave on the link (R489). -/
def State.broadcastSamples (s : State) : State :=
  ((List.range s.part.axes).filter s.broadcasts).foldl (fun s x =>
    s.sendCell "sample" 0xFF
      [s.reg (Reg.axSmpPos x), s.reg (Reg.axVel x), s.reg (Reg.axAcc x), s.reg (Reg.axSmpDt x),
       BitVec.ofNat 64 (x + 8 * s.rf (Reg.axStat x) 63 63 + 16 * s.rf Reg.cascTime 63 63)]) s

/-- One axis sample as a cell carries it (R489). -/
structure Sample where
  pos : BitVec 64
  vel : BitVec 64
  acc : BitVec 64
  dt : BitVec 64
  flags : SampleFlags
  deriving DecidableEq, Repr

/-- The words of a sample of axis `a` on the link. -/
def Sample.data (e : Sample) (a : Nat) : List (BitVec 64) :=
  [e.pos, e.vel, e.acc, e.dt, BitVec.ofNat 64 (a + (if e.flags.loss then 8 else 0) + (if e.flags.suspect then 16 else 0))]

/-- The DT at which a remote axis crosses a position between its last sample and this one, or behind this one at its velocity
(R356, R489); a position that the last sample does not lie ahead of is crossed by its projection. -/
def State.sampleDt (s : State) (x : Nat) (e : Sample) (p : BitVec 64) : Nat :=
  let r := s.axr x
  let d := posDiff p.toNat r.base.toNat
  let span := posDiff e.pos.toNat r.base.toNat
  let v := signed 64 e.vel.toNat
  let gap := e.dt.toNat - r.chgDt
  if d ≤ 0 then s.crossDt x p
  else if d ≤ span then min s.dt.toNat (r.chgDt + (d.toNat * gap + span.toNat - 1) / span.toNat)
  else if 0 < v then min s.dt.toNat (e.dt.toNat + ((d - span).toNat * 10 ^ 9 + v.toNat - 1) / v.toNat)
  else s.dt.toNat

/-- A sample reaches a remote axis (R489, R490). -/
def State.remoteSample (s : State) (x : Nat) (e : Sample) : State :=
  let m := Reg.cascAxmap x
  let s := (s.setRf m 56 56 (if e.flags.loss then 1 else 0)).setRf m 55 55 0
  let s := s.setAxr x { s.axr x with cellDt := s.dt.toNat }
  if s.axLoss x && !(s.axr x).recov then s
  else
    let lost := s.axLoss x
    let s := if lost then s.endLoss x else s.pushTrack x
    let old := (s.axr x).base
    let now := if s.dt.toNat ≤ e.dt.toNat then e.pos else towards e.pos (signed 64 e.vel.toNat) (s.dt.toNat - e.dt.toNat)
    let s := s.moveAxisBy x now (if lost then s.crossDt x else s.sampleDt x e)
    let back := posDiff e.pos.toNat old.toNat < 0
    let s := if e.pos.toNat / 65536 = old.toNat / 65536 then s else s.setRf (Reg.axStat x) 60 60 (if back then 1 else 0)
    let s := (s.setReg (Reg.axVel x) e.vel).setReg (Reg.axAcc x) e.acc
    s.setAxr x { s.axr x with base := e.pos, chgDt := e.dt.toNat }

/-- AXIS_SAMPLE_CELL (R489): a sample of axis `a` of part `src`, received on a port after n resends; the cell
goes on. -/
def State.axisSample (s : State) (port n src a : Nat) (e : Sample) : State :=
  if !s.part.hasCascade then s
  else
    let s := s.resent port n
    if !arrives n then s
    else if src = s.cascId then s.dupId
    else
      let s := (s.relay "sample" src 0xFF port (e.data a)).hear src
      ((List.range s.part.axes).filter (fun x => s.remoteAxis x && s.rf (Reg.cascAxmap x) 62 60 = src &&
        s.rf (Reg.cascAxmap x) 59 57 = a)).foldl (fun s x => s.remoteSample x e) s

/-- REMOTE_AXIS_STALE (R490): no sample for 10 µs. -/
def State.axisStale (s : State) (x : Nat) : State :=
  if x < s.part.axes && s.remoteAxis x && s.rf (Reg.cascAxmap x) 55 55 = 0 &&
      (s.axr x).cellDt + 10000 ≤ s.dt.toNat then
    let s := s.setRf (Reg.cascAxmap x) 55 55 1
    if s.axLoss x then s else s.declareLoss x none
  else s

/-- A write of CASC_AXMAP[x] (R490). -/
def State.axmapWrite (s : State) (x : Nat) (mask v : BitVec 64) : State :=
  let off := Reg.cascAxmap x
  let was := s.rf off 63 63 = 1
  let on := bit ((s.reg off &&& ~~~mask) ||| (v &&& mask)) 63
  if on && !was && s.axMode x ≠ 0 then s.countReg off
  else
    let s := (s.pushTrack x).plain off mask v
    let s := if on = was then s else (s.setRf off 56 56 0).setRf off 55 55 0
    if on && !was then
      let t := s.dt.toNat
      (s.setRf (Reg.axCtrl x) 0 0 0).setAxr x { s.axr x with base := s.reg (Reg.axPos x), chgDt := t, updDt := t, cellDt := t, recov := false }
    else s

/-! Hand-off. -/

/-- Cells of ring d: 0 transmit, 1 receive; 0 when it is off. -/
def State.hoSize (s : State) (d : Nat) : Nat :=
  let n := s.rf (Reg.cascHoring d) 57 54
  if n = 0 then 0 else 2 ^ n

/-- Physical address of a cell. -/
def State.hoCell (s : State) (d i : Nat) : Nat := 4096 * s.rf (Reg.cascHoring d) 31 4 + 64 * i

/-- A value of CASC_HORING places the ring within one ROOT bin of HALL (R492, R369). -/
def State.hoPlaced (s : State) (v : BitVec 64) : Bool :=
  let a := 4096 * fld v 31 4
  let b := a + 64 * 2 ^ fld v 57 54
  b ≤ s.part.memSize && a / binSize = (b - 1) / binSize &&
    (s.binOf a).kind = .root && (s.binOf a).hall = fld v 63 58

/-- A pointer or ring write is refused. -/
def State.hoRefused (s : State) (d : Nat) : State := s.setRf (Reg.cascHoptr d) 0 0 1

/-- A write of CASC_HORING[d] (R492). -/
def State.horingWrite (s : State) (d : Nat) (mask v : BitVec 64) : State :=
  let off := Reg.cascHoring d
  let old := s.reg off
  let n := (old &&& ~~~mask) ||| (v &&& mask)
  let size := fld n 57 54
  let fixed := fmask 63 58 ||| fmask 31 4 ||| (if size = 0 || (4 ≤ size && size ≤ 12) then fmask 57 54 else 0)
  let rsv := v &&& mask &&& (fmask 32 32 ||| fmask 3 0) ≠ 0
  let count := fun (s : State) => if rsv then s.countReg off else s
  if fld old 57 54 ≠ 0 then if (n ^^^ old) &&& fixed = 0 then s.plain off mask v else (count s).hoRefused d
  else if 4 ≤ size && size ≤ 12 && !s.hoPlaced n then (count s).hoRefused d
  else
    let s := s.plain off mask v
    if s.hoSize d = 0 then s
    else
      let s := s.setReg (Reg.cascHoptr d) (setFld (s.reg (Reg.cascHoptr d)) 63 32 0)
      if d = 0 then s.setCasc { s.casc with handOut := [], hoWait := [] } else s

/-- HEAD of the transmit ring stands at the oldest cell without an answer. -/
def State.hoHead (s : State) : State :=
  match s.casc.handOut with
  | [] => s.setRf (Reg.cascHoptr 0) 47 32 (s.casc.hoWait.headD (s.rf (Reg.cascHoptr 0) 63 48))
  | o :: _ => s.setRf (Reg.cascHoptr 0) 47 32 o.entry

/-- The bit of ring d is posted to its SCN. -/
def State.hoPost (s : State) (d : Nat) : State :=
  let v := s.reg (Reg.cascHoring d)
  s.ctxApply .pf .post (fld v 53 38) (2 ^ fld v 37 33)

/-- STATUS of a transmit cell (R492): an atomic write, then the POST. -/
def State.hoStatus (s : State) (i status : Nat) : State :=
  let pa := s.hoCell 0 i
  let s := s.agentOwn pa
  let w := s.memWord pa
  let s := if w.type = 0x32 then s else (s.conflict pa none).setMemWord pa ⟨w.tag, setFld w.payload 7 0 status⟩
  s.hoPost 0

/-- A word that no cell carries (R492): malformed, a pointer, or structural. -/
def hoBadWord (w : Word) : Bool := w.malformed || w.isPtr || (0x30 ≤ w.type && w.type ≤ 0x32)

/-- KIND of a cell. -/
def hoKind (w : Word) : Nat := fld w.payload 63 60

/-- A cell as it is sent: origin, SUSPECT and the DT are the part's (R491). -/
def State.hoStamp (s : State) (l : List Word) : List Word :=
  match l with
  | w0 :: w1 :: w2 :: _ :: rest =>
    ⟨w0.tag, setFld (setFld w0.payload 56 54 s.cascId) 8 8 (s.rf Reg.cascTime 63 63)⟩ :: w1 :: w2 ::
      timeW s.dt.toNat :: rest
  | l => l

/-- The words of a cell read from a ring. -/
def State.hoLoad (s : State) (pa : Nat) : Nat → List Word × State
  | 0 => ([], s)
  | n + 1 =>
    let (w, s) := s.agentLoad pa
    let (l, s) := s.hoLoad (pa + 8) n
    (w :: l, s)

/-- Tags and payloads of a cell on the link. -/
def hoWire (l : List Word) : List (BitVec 64) := l.flatMap (fun w => [w.tag.setWidth 64, w.payload])

/-- One transmit cell (R492, R485). -/
def State.hoSend (s : State) (i : Nat) : State :=
  let (l, s) := s.hoLoad (s.hoCell 0 i) 8
  let w0 := l.headD Word.fix0
  let kind := hoKind w0
  let dest := fld w0.payload 59 57
  if l.any hoBadWord || kind = 0 || 3 < kind then s.hoStatus i 7
  else if s.cascSt = 3 then s.hoStatus i 5
  else if !s.cascPresent dest then s.hoStatus i 4
  else
    let s := s.sendCell "handoff" dest (hoWire (s.hoStamp l))
    s.setCasc { s.casc with handOut := s.casc.handOut ++ [⟨i, dest, s.dt.toNat⟩] }

/-- Sends the waiting cells in ring order, as far as fewer than 1,024 network and cascade transactions are in flight (R45, R46,
R478). -/
def State.hoPump (s : State) : List Nat → State
  | [] => s.setCasc { s.casc with hoWait := [] }
  | i :: l =>
    if 1024 ≤ s.netFlight then s.setCasc { s.casc with hoWait := i :: l }
    else (s.hoSend i).hoPump l

/-- A TAIL write of the transmit ring (R492): the cells it passes are sent in ring order. -/
def State.hoTail (s : State) (tail : Nat) : State :=
  let m := s.hoSize 0
  let p := s.reg (Reg.cascHoptr 0)
  let now := fld p 63 48
  if m = 0 || m ≤ tail || (fld p 47 32 + 2 * m - now - 1) % m < ringGap now tail m then s.hoRefused 0
  else
    let s := s.setRf (Reg.cascHoptr 0) 63 48 tail
    (s.hoPump (s.casc.hoWait ++ (List.range (ringGap now tail m)).map (fun k => (now + k) % m))).hoHead

/-- A HEAD write of the receive ring: up to TAIL. -/
def State.hoTake (s : State) (head : Nat) : State :=
  let m := s.hoSize 1
  let p := s.reg (Reg.cascHoptr 1)
  if m = 0 || m ≤ head || ringGap (fld p 47 32) (fld p 63 48) m < ringGap (fld p 47 32) head m then s.hoRefused 1
  else s.setRf (Reg.cascHoptr 1) 47 32 head

/-- What waits for a place among the 1,024 transactions goes on (R46): OD-window requests, then hand-off cells. -/
def State.netPump (s : State) : State :=
  let s := if s.casc.odWait.isEmpty then s else s.odPump s.casc.odWait
  if s.casc.hoWait.isEmpty then s else (s.hoPump s.casc.hoWait).hoHead

/-- One CLK_TB cycle (R39, log entry 7). -/
def State.tick (s : State) : State :=
  if !s.dtRun then s
  else
    let (n, s) := s.dtStep
    ({ s with dt := s.dt + BitVec.ofNat 64 n }).stopFilter.netPump

/-- A write of CASC_HOPTR[d] (R494): TAIL of ring 0 and HEAD of ring 1 are software's. -/
def State.hoptrWrite (s : State) (d : Nat) (mask v : BitVec 64) : State :=
  let s := s.plain (Reg.cascHoptr d) (mask &&& ~~~fmask 63 32) v
  if d = 0 then if mask &&& fmask 63 48 = 0 then s else s.hoTail (fld v 63 48)
  else if mask &&& fmask 47 32 = 0 then s else s.hoTake (fld v 47 32)

/-- The identity of a cell (R491). -/
def hoIdentity (l : List Word) : Nat × Nat × Nat :=
  (fld (l.headD Word.fix0).payload 56 54, (l.getD 1 Word.fix0).payload.toNat, (l.getD 2 Word.fix0).payload.toNat)

/-- The receive ring has no room; a ring that is off has none. -/
def State.hoFull (s : State) : Bool :=
  let m := s.hoSize 1
  let p := s.reg (Reg.cascHoptr 1)
  m = 0 || (fld p 63 48 + 1) % m = fld p 47 32

/-- A cell is delivered (R492): written at TAIL with STATUS DELIVERED, then the POST. -/
def State.hoDeliver (s : State) (l : List Word) : State :=
  let tail := s.rf (Reg.cascHoptr 1) 63 48
  let pa := s.hoCell 1 tail
  let w0 := l.headD Word.fix0
  let l := ⟨w0.tag, setFld w0.payload 7 0 1⟩ :: l.drop 1
  let s := ((List.range 8).zip l).foldl (fun s e => s.agentStore (pa + 8 * e.1) e.2) s
  (s.setRf (Reg.cascHoptr 1) 63 48 ((tail + 1) % s.hoSize 1)).hoPost 1

/-- The expect table with an identity entered or removed. -/
def State.expects (s : State) (l : List (Nat × Nat × Nat)) : State := s.setCasc { s.casc with expect := l }

/-- What the receiver makes of a cell (R492): the sender's STATUS. -/
def State.hoReceive (s : State) (l : List Word) : Nat × State :=
  let id := hoIdentity l
  let known := s.casc.expect.contains id
  let kind := hoKind (l.headD Word.fix0)
  if s.cascSt = 3 then (5, s)
  else if kind = 1 then
    if known then (6, s)
    else if 4096 ≤ s.casc.expect.length || s.hoFull then (3, s)
    else (1, (s.expects (s.casc.expect ++ [id])).hoDeliver l)
  else if !known then
    if kind = 2 then
      (2, (s.bumpRf (Reg.cascHoptr 1) 31 16 1).note
        { code := 0x082, cls := .contained, source := 0xA, detail := (l.headD Word.fix0).payload })
    else (2, s)
  else if kind = 3 then (1, s.expects (s.casc.expect.erase id))
  else if s.hoFull then (3, s)
  else (1, (s.expects (s.casc.expect.erase id)).hoDeliver l)

/-- HANDOFF_RECEIVE (R492): a cell received on a port after n resends; one for another part goes on (R482, R485), and the
answer to one for this part goes back to its origin. -/
def State.handoffReceive (s : State) (port n : Nat) (l : List Word) : State :=
  let w0 := l.headD Word.fix0
  let origin := fld w0.payload 56 54
  let dest := fld w0.payload 59 57
  if !s.part.hasCascade || l.length ≠ 8 then s
  else
    let s := s.resent port n
    if !arrives n then s
    else if origin = s.cascId then s.dupId
    else if dest ≠ s.cascId then (s.relay "handoff" origin dest port (hoWire l)).hear origin
    else
      let (status, s) := (s.hear origin).hoReceive l
      s.sendCell "status" origin [w0.payload, BitVec.ofNat 64 status]

/-- The answer to a cell, if it arrives (R481): the part that gives it is heard. -/
def State.hoAnswer (s : State) (o : HandOut) (a : HandAnswer) : Option Nat × State :=
  let s := s.resent a.port a.fails
  if !arrives a.fails || !(a.status ∈ [1, 2, 3, 5, 6]) then (none, s) else (some a.status, s.hear o.dest)

/-- HANDOFF_STATUS (R492): the answer to the cell at an index of the transmit ring, or none after 1 ms. -/
def State.handoffStatus (s : State) (i : Nat) (answer : Option HandAnswer) : State :=
  match s.casc.handOut.find? (fun o => o.entry = i) with
  | none => s
  | some o =>
    let (status, s) := match answer with
      | some a => s.hoAnswer o a
      | none => (if o.sent + 1000000 ≤ s.dt.toNat then some 4 else none, s)
    match status with
    | none => s
    | some k =>
      let s := (s.hoStatus i k).setCasc { s.casc with handOut := s.casc.handOut.erase o }
      (s.hoPump s.casc.hoWait).hoHead

/-! Registers. -/

/-- A write of CASC_CMD (R493). -/
def State.cascCmdWrite (s : State) (mask v : BitVec 64) : State :=
  let (act, s) := s.store64 Reg.cascCmd mask v
  match fld act 63 60 with
  | 1 => s.promote
  | 2 => s.retime
  | 3 => s.rejoin
  | _ => s

/-- A write of CASC_JOIN (R484). -/
def State.joinWrite (s : State) (mask v : BitVec 64) : State := (s.plain Reg.cascJoin mask v).announce

/-- A ring's HALL writes the register of its pointers (R494): TAIL of ring 0 or HEAD of ring 1, and nothing else of it; a write of
REFUSED is refused. -/
def State.hoHallWrite (s : State) (who : Initiator) (d : Nat) (mask v : BitVec 64) : State :=
  let off := Reg.cascHoptr d
  let s := s.hoptrWrite d (mask &&& ~~~fmask 0 0) v
  if bit (v &&& mask) 0 then s.refuseWrite who off else s

/-- The ring whose HALL a writer of CASC_HOPTR belongs to. -/
def State.hoRingOf (s : State) (who : Initiator) (off : Nat) : Option Nat :=
  (List.range 2).find? (fun d => off = Reg.cascHoptr d && s.isCtxOf who (s.rf (Reg.cascHoring d) 63 58))

/-- A write of a CASC_* register. -/
def State.cascWrite (s : State) (who : Initiator) (off : Nat) (mask v : BitVec 64) : State :=
  match if s.kernelOrPf who then none else s.hoRingOf who off with
  | some d => s.hoHallWrite who d mask v
  | none => s.gate (s.kernelOrPf who) who off <|
    if off = Reg.cascCmd then s.cascCmdWrite mask v
    else if off = Reg.cascJoin then s.joinWrite mask v
    else if Reg.cascAxmap 0 ≤ off && off ≤ Reg.cascAxmap 7 then s.axmapWrite ((off - Reg.cascAxmap 0) / 8) mask v
    else if off = Reg.cascHoring 0 then s.horingWrite 0 mask v
    else if off = Reg.cascHoring 1 then s.horingWrite 1 mask v
    else if off = Reg.cascHoptr 0 then s.hoptrWrite 0 mask v
    else if off = Reg.cascHoptr 1 then s.hoptrWrite 1 mask v
    else s.plain off mask v

end Sys2Proof.Machine
end

