-- ==== Sys2Proof/Machine/Maint.lean ====
section
/-! DEFINITION. The memory system's own services (spec/09_crib_and_memory.md): disabling and enabling a Crib (R284 to
R286), range maintenance (R281 to R283), patrol scrub (R301) and planted errors (R302). -/

namespace Sys2Proof.Machine

/-- Entry numbers and entries of a Crib. -/
def Core.entries (c : Core) : List (Nat × CribEntry) := (List.range 48).map (fun e => (e, c.entry e))

/-- Address of sector k of an entry. -/
def CribEntry.addr (e : CribEntry) (k : Nat) : Nat := e.line * 256 + k * 64

/-- The M sectors of a core's Crib: entry, sector and address. -/
def Core.dirtySectors (c : Core) : List (Nat × Nat × Nat) :=
  c.entries.flatMap (fun (e, x) =>
    ((List.range 4).filter (fun k => (x.sector k).st = .m)).map (fun k => (e, k, x.addr k)))

/-- A sector of a core's Crib replaced. -/
def State.setSector (s : State) (p e k : Nat) (x : Sector) : State :=
  let c := s.core p
  s.setCore p (c.setEntry e ((c.entry e).setSector k x))

/-- DIRTY_HELD (CRIB_STAT). -/
def State.showHeld (s : State) (p : Nat) : State :=
  let c := s.core p
  s.setRf (Reg.cribStat p) 63 63 (if !c.cribOn && !c.dirtySectors.isEmpty then 1 else 0)

/-- The sectors of entry e at a disable (R284): the Crib keeps what it holds, and of an M sector the coherent view goes
back to the copy last written back. -/
def State.detach (s : State) (p e : Nat) : State :=
  (List.range 4).foldl (fun s k =>
    let x := ((s.core p).entry e).sector k
    let a := ((s.core p).entry e).addr k
    let now := s.sectorWords a
    match x.st with
    | .i => s
    | .m => (s.setWords a x.alt).setSector p e k ⟨.m, now⟩
    | st => s.setSector p e k ⟨st, if x.alt.isEmpty then now else x.alt⟩) s

/-- A barn cache line with a core slot taken out of its sharers. -/
def BarnLine.without (x : BarnLine) (p : Nat) : BarnLine :=
  let f := fun (y : BarnSector) => { y with sharers := y.sharers &&& ~~~(shareBit p) }
  { x with secs := ⟨f x.secs.s0, f x.secs.s1, f x.secs.s2, f x.secs.s3⟩ }

/-- A disabled Crib leaves the sharer set of every sector (R284). -/
def State.unshare (s : State) (p : Nat) : State :=
  let c := s.barn (barnOf p)
  s.setBarn (barnOf p) { c with lines := c.lines.map (fun e => (e.1, e.2.without p)) }

/-- A context with an open speculation is in the context store of a core (R285). -/
def State.specOnCore (s : State) (p : Nat) : Bool :=
  s.gal.any (fun (_, g) => g.st ≠ .free &&
    (let c := s.ctx g.scn
     c.st ≠ .spilled && c.st ≠ .none && s.pcnOf c.hcn = p))

/-- CRIB_DISABLE (R284, R285): a written EN = 0 is applied, or refused. -/
def State.cribDisable (s : State) (p : Nat) : State :=
  if !s.part.hasPcn p || !(s.core p).cribOn || s.rf (Reg.cribCtrl p) 0 0 = 1 then s
  else if s.specOnCore p then (s.setRf (Reg.cribCtrl p) 0 0 1).setRf (Reg.cribStat p) 62 62 1
  else
    let n := (s.core p).dirtySectors.length
    let s := (List.range 48).foldl (fun s e => s.detach p e) s
    let s := s.unshare p
    let s := s.setCore p { s.core p with cribOn := false }
    let s := (s.setRf (Reg.cribStat p) 55 48 n).showHeld p
    if n = 0 then s
    else (s.note { code := 0x0B0, cls := .notice, source := 1, inst := p, detail := BitVec.ofNat 64 n }).event 0
      "CRIB_DIRTY_HELD" p

/-- A sector held through a disable, at address `a`, stands in entry e again (R286): it is registered with the directory in
its state, and its data stay as they were. -/
def State.register (s : State) (p e line k : Nat) (x : Sector) : State :=
  let b := barnOf p
  let a := line * 256 + 64 * k
  let stand := fun (s : State) (x : Sector) =>
    let c := s.core p
    s.setCore p (c.setEntry e (({ c.entry e with line := line } : CribEntry).setSector k x))
  let kept := fun (s : State) => if x.alt = s.sectorWords a then [] else x.alt
  match x.st with
  | .i => s
  | .s =>
    let s := (s.barnTake b a).setBarnSec b a (fun y => { y with sharers := y.sharers ||| shareBit p })
    stand s ⟨.s, kept s⟩
  | .e =>
    let s := s.barnOwn b a (· = p) (shareBit p)
    stand s ⟨.e, kept s⟩
  | .m =>
    let s := s.barnOwn b a (· = p) (shareBit p)
    stand (s.setWords a x.alt) ⟨.m, s.sectorWords a⟩

/-- The valid sectors of entry e registered again at an enable (R286). Where every way of the barn cache's set is excluded,
the line cannot stand in the barn cache or the Crib (R288): its M sectors then take their place beyond, superseding what
stands there, and the line leaves the Crib (log entry 57). -/
def State.attach (s : State) (p e : Nat) (x : CribEntry) : State :=
  if !x.valid then s
  else match s.barnBring (barnOf p) x.line with
    | (true, s) => (List.range 4).foldl (fun s k => s.register p e x.line k (x.sector k)) s
    | (false, s) =>
      (List.range 4).foldl (fun s k =>
        if (x.sector k).st = .m then (s.agentOwn (x.addr k)).setWords (x.addr k) (x.sector k).alt else s) (s.noAlloc p)

/-- CRIB_ENABLE (R286): a written EN = 1 is applied. The Crib is snooped from here on, a sector as soon as it is
registered. -/
def State.cribEnable (s : State) (p : Nat) : State :=
  let c := s.core p
  if !s.part.hasPcn p || c.cribOn || s.rf (Reg.cribCtrl p) 0 0 = 0 then s
  else (c.entries.foldl (fun s (e, x) => s.attach p e x) (s.setCore p { c with cribOn := true, crib := [] })).showHeld p

/-! Range maintenance. -/

/-- What a visit of an entry did. -/
structure Visit where
  written : Nat
  discarded : Nat
  skipped : Nat
  deriving DecidableEq, Repr

/-- An M sector is written back (R281) to the barn cache: what the Crib holds becomes the coherent view. -/
def State.writeBack (s : State) (p e k : Nat) (next : Mesi) : State :=
  let on := (s.core p).cribOn
  let x := ((s.core p).entry e).sector k
  let a := ((s.core p).entry e).addr k
  if on then
    (s.setBarnSec (barnOf p) a (fun y =>
      ⟨.m, if next = .i then y.sharers &&& ~~~(shareBit p) else y.sharers, []⟩)).setSector
      p e k ⟨next, []⟩
  else
    let s := s.ownBeyond p a true
    (s.setWords a x.alt).setSector p e k (if next = .i then Sector.invalid else ⟨next, x.alt⟩)

/-- A sector invalidated without write-back: the coherent view of an enabled Crib's M sector goes back to what was last
written back. -/
def State.dropSector (s : State) (p e k : Nat) : State :=
  let x := ((s.core p).entry e).sector k
  let a := ((s.core p).entry e).addr k
  let s := if x.st = .m && (s.core p).cribOn then s.setWords a x.alt else s
  s.setSector p e k Sector.invalid

/-- One sector under an operation (R281): 1 CLEAN, 2 INVAL, 3 FLUSH. -/
def State.maintSector (s : State) (p e k op : Nat) (locked : Bool) : Visit × State :=
  let x := ((s.core p).entry e).sector k
  if op = 2 then (⟨0, if x.st = .m then 1 else 0, 0⟩, s.dropSector p e k)
  else if op = 3 && !locked then
    if x.st = .m then (⟨1, 0, 0⟩, s.writeBack p e k .i) else (⟨0, 0, 0⟩, s.setSector p e k Sector.invalid)
  else if x.st = .m then (⟨1, 0, 0⟩, s.writeBack p e k .e)
  else (⟨0, 0, 0⟩, s)

/-- The visit of one entry (R281, R282). -/
def State.maintEntry (s : State) (p : Nat) (m : Maint) (v : Visit) (e : Nat) : Visit × State :=
  let x := (s.core p).entry e
  let ks := (List.range 4).filter (fun k => m.start ≤ x.addr k && x.addr k < m.stop)
  let locked := bit (s.reg (Reg.cribLock p)) e
  if !x.valid || ks.isEmpty then (v, s)
  else if m.op = 2 && locked then ({ v with skipped := v.skipped + 1 }, s)
  else ks.foldl (fun (v, s) k =>
    let (w, s) := s.maintSector p e k m.op locked
    (⟨v.written + w.written, v.discarded + w.discarded, v.skipped⟩, s)) (v, s)

/-- MAINT_DONE (R282, R283): the engine's visit of the 48 entries, and its completion. -/
def State.maintDone (s : State) (p : Nat) : State :=
  match (s.core p).maint with
  | none => s
  | some m =>
    let (v, s) := (List.range 48).foldl (fun (v, s) e => s.maintEntry p m v e) (⟨0, 0, 0⟩, s)
    let s := s.setCore p { s.core p with maint := none }
    let st := s.reg (Reg.cribMaintStat p)
    let st := setFld (setFld (setFld st 55 48 v.discarded) 47 40 v.skipped) 39 32 v.written
    let s := s.setReg (Reg.cribMaintStat p) (setFld (setFld st 63 63 0) 62 62 1)
    let s := (s.setRf (Reg.cribMaintCtrl p) 2 2 0).showHeld p
    let s := if v.skipped = 0 then s else s.event 0 "MAINT_SKIPPED" p
    if s.rf (Reg.cribMaintCtrl p) 3 3 = 1 then s.event 0 "MAINT_DONE" p else s

/-- REJECTED of CRIB_MAINT_STAT. -/
def State.maintRejected (s : State) (p : Nat) : State := s.setRf (Reg.cribMaintStat p) 61 61 1

/-- GO (R283). -/
def State.maintGo (s : State) (p : Nat) : State :=
  let op := s.rf (Reg.cribMaintCtrl p) 1 0
  let a := s.rf (Reg.cribMaintStart p) 39 6 * 64
  let b := s.rf (Reg.cribMaintEnd p) 39 6 * 64
  if op = 0 || b ≤ a then s.maintRejected p
  else
    let s := s.setCore p { s.core p with maint := some ⟨op, a, b⟩ }
    (s.setReg (Reg.cribMaintStat p) (setBit (setFld (setFld (s.reg (Reg.cribMaintStat p)) 62 62 0) 55 32 0) 63
      true)).setRf (Reg.cribMaintCtrl p) 2 2 1

/-- A write of CRIB_CTRL (R284, R285): EN = 0 is refused while an open speculation is in the core's context store. -/
def State.cribCtrlWrite (s : State) (p : Nat) (mask v : BitVec 64) : State :=
  let off := Reg.cribCtrl p
  if s.rf off 0 0 = 1 && bit mask 0 && !bit v 0 && s.specOnCore p then
    (s.plain off mask (setBit v 0 true)).setRf (Reg.cribStat p) 62 62 1
  else s.plain off mask v

/-- A write of a register of a core slot's Crib (R280, R283). -/
def State.cribWrite (s : State) (p off : Nat) (mask v : BitVec 64) : State :=
  if off = Reg.cribCtrl p then s.cribCtrlWrite p mask v
  else if off = Reg.cribStat p then
    let (act, s) := s.store64 off mask v
    if bit act 0 then s.setRf off 47 32 0 else s
  else if off = Reg.cribMaintStart p || off = Reg.cribMaintEnd p then
    if (s.core p).maint.isSome then s.maintRejected p else s.plain off mask v
  else if off = Reg.cribMaintCtrl p then
    if (s.core p).maint.isSome then s.maintRejected p
    else
      let (act, s) := s.store64 off mask v
      if bit act 2 then s.maintGo p else s
  else s.plain off mask v

/-! Errors in the arrays of the caches (R300). -/

/-- The unit of an array is present (R25, R290). -/
def State.arrayOn (s : State) : CacheArray → Bool
  | .crib p => s.part.hasPcn p
  | .barn b => s.part.hasPcn (9 * b)
  | .llc n => n < 16

/-- The unit whose corrected errors of the hour count an array's (R498). -/
def arrayUnit : CacheArray → Nat
  | .crib p => 100 + p
  | .barn b => 200 + b
  | .llc n => 300 + n

/-- INSTANCE of an array's records. -/
def arrayInst : CacheArray → Nat
  | .crib p => p
  | .barn b => b
  | .llc n => n

/-- The record of an error that is CONTAINED, with its row of R300's table (R512): its index. -/
def State.arrayReport (s : State) (a : CacheArray) (pa row : Nat) : Nat × State :=
  s.report { code := 0x022, cls := .contained, source := 3, inst := arrayInst a, addr := pa, detail := BitVec.ofNat 64 row }

/-- State of a sector in an array. -/
def State.arrayState (s : State) (pa : Nat) : CacheArray → Mesi
  | .crib p => ((s.core p).sectorAt pa).st
  | .barn b => ((s.barn b).sec pa).st
  | .llc n => if llcSlice (pa / 256) = n then (s.llcSec pa).st else .i

/-- A cache nearer to a core holds a newer copy of the sector than an array. -/
def State.arrayStale (s : State) (pa : Nat) : CacheArray → Bool
  | .crib _ => false
  | .barn b => s.cribAny (fun q => barnOf q = b) pa (· = .m)
  | .llc _ => (List.range 8).any (fun b => s.barnNewer b pa)

/-- A word of a sector that a Crib keeps beside the coherent view. -/
def Sector.setAlt (x : Sector) (pa : Nat) (w : Word) : Sector := { x with alt := x.alt.set (pa / 8 % 8) w }

/-- A word of the sector that a core's Crib keeps beside the coherent view. -/
def State.setKept (s : State) (p pa : Nat) (w : Word) : State :=
  let c := s.core p
  match c.findLine (pa / 256) with
  | none => s
  | some e => s.setCore p (c.setEntry e ((c.entry e).setSector (sectorOf pa) (((c.entry e).sector (sectorOf pa)).setAlt pa w)))

/-- The copies of a sector nearer to the cores than an array keep the words they hold, whatever becomes of the array's: those
in the chosen Cribs, and in the barn caches where `barns`. -/
def State.keepCopies (s : State) (sel : Nat → Bool) (barns : Bool) (pa : Nat) : State :=
  let now := s.sectorWords pa
  let s := s.snoop sel pa (fun x => if x.st = .i || !x.alt.isEmpty then x else { x with alt := now })
  if !barns then s
  else (s.otherBarns none pa).foldl (fun s b =>
    s.setBarnSec b pa (fun x => if x.alt.isEmpty then { x with alt := now } else x)) s

/-- A word of an array that has the newest copy of its sector changes, and no copy nearer to the cores with it (R300). -/
def State.arrayPut (s : State) (a : CacheArray) (pa : Nat) (w : Word) : State :=
  match a with
  | .crib _ => s.setMemWord pa w
  | .barn b => (s.keepCopies (fun q => barnOf q = b) false pa).setMemWord pa w
  | .llc _ => (s.keepCopies (fun _ => true) true pa).setMemWord pa w

/-- The word of an M sector in an array becomes POISON: in the coherent view where the array has the newest copy, and else
in the copy that a Crib keeps as last written back or, disabled, as held. -/
def State.arrayPoison (s : State) (a : CacheArray) (pa i : Nat) : State :=
  let w := poisonWord i
  match a with
  | .crib p => if (s.core p).cribOn then s.setMemWord pa w else s.setKept p pa w
  | .barn b =>
    if s.arrayStale pa a then s.snoop (fun q => barnOf q = b) pa (fun x => if x.st = .m then x.setAlt pa w else x)
    else s.arrayPut a pa w
  | .llc _ => if s.arrayStale pa a then s else s.arrayPut a pa w

/-- A word of a sector not in M fetched again from the next level (R300): the barn cache for a Crib, the last-level cache for a
barn cache, and memory for the last-level cache, whose own uncorrectable error then gives POISON (R299). -/
def State.refetch (s : State) (a : CacheArray) (pa : Nat) : State :=
  match a with
  | .crib p =>
    let (w, s) := s.loadBeyond p pa true
    s.setKept p pa w
  | .barn b => s.setBarnSec b pa (fun x => { x with alt := x.alt.set (pa / 8 % 8) (s.memWord pa) })
  | .llc _ =>
    match s.eccRead pa with
    | (some i, s) => if s.arrayStale pa a then s else s.arrayPut a pa (poisonWord i)
    | (none, s) => s

/-- An uncorrectable error in a way of a last-level cache slice gives notice of the way (R501). -/
def State.wayNotice (s : State) (a : CacheArray) (line : Nat) : State :=
  match a, s.llcLine line with
  | .llc slice, some x => s.judgeTracker (.way slice x.way) 6 true
  | _, _ => s

/-- An error in a data word of an array (R300): corrected on the path or by refetching, and counted; uncorrectable in an M
sector, the word becomes POISON. -/
def State.arrayWord (s : State) (a : CacheArray) (pa : Nat) (ue : Bool) : State :=
  let st := s.arrayState pa a
  if st = .i then s
  else if !ue then s.countHour (arrayUnit a)
  else if st ≠ .m then (s.refetch a pa).countHour (arrayUnit a)
  else
    let (i, s) := s.arrayReport a pa 3
    (s.arrayPoison a pa i).wayNotice a (pa / 256)

/-- An error in an entry of an array (R300): with one good copy corrected; with none, a Crib entry that holds M fails the core
and another is dropped, and an entry of the other caches is written back and invalidated, sectors whose metadata is lost
too (`lost`, a bit each) as POISON. -/
def State.arrayEntry (s : State) (a : CacheArray) (line : Nat) (both : Bool) (lost : Nat) : State :=
  let held := (lineSectors line).filter (fun pa => s.arrayState pa a ≠ .i)
  if held.isEmpty then s
  else if !both then s.countHour (arrayUnit a)
  else
    let s := s.wayNotice a line
    match a with
      | .crib p =>
        if held.any (fun pa => s.arrayState pa a = .m) then s.coreFails p
        else match (s.core p).findLine line with
          | some e => (s.cribEvict p e).countHour (arrayUnit a)
          | none => s
      | _ =>
        let (i, s) := s.arrayReport a (line * 256) 5
        let s := held.foldl (fun s pa =>
          if natBit lost (sectorOf pa) && s.arrayState pa a = .m && !s.arrayStale pa a then s.poisonSector pa i else s) s
        match a with
        | .barn b => s.barnEvict b line
        | _ => s.llcEvict line

/-! Patrol scrub and planted errors. -/

/-- A sector that a cache holds in M is written to memory, its line staying: the barn with the newer copy gives it up
to the last-level cache, which keeps it in E. -/
def State.writeSector (s : State) (pa : Nat) : State :=
  let s := (s.shareBarns none pa).memWrite pa
  s.setLlcSec pa (fun x => { x with st := .e })

/-- MEM_INJ (R302): the armed sector, held in M by a cache, is written to memory, and its codeword is stored with COUNT
symbols inverted from SYMBOL on; any other write of the sector meets the injection too (State.memWrite). -/
def State.memInject (s : State) : State :=
  let v := s.reg Reg.devMemInj
  let a := fld v 39 6 * 64
  if bit v 0 && a < s.part.memSize && s.heldModified a then s.writeSector a else s

/-- A write of DEV_MEM_ERR or DEV_MEM_INJ. -/
def State.memRegWrite (s : State) (off : Nat) (mask v : BitVec 64) : State :=
  let (act, s) := s.store64 off mask v
  if off = Reg.devMemInj then if bit act 0 then s.setRf off 0 0 1 else s
  else if Reg.devMemErr 0 ≤ off && off ≤ Reg.devMemErr 7 then
    if bit act 0 then s.clearFields off [(63, 48), (47, 32)] else s
  else s

end Sys2Proof.Machine
end

