-- ==== Sys2Proof/Machine/Service.lean ====
section
/-! DEFINITION. Service life (spec/17_service_life.md): the Failure Recorder's ring (R511 to R515, R549), the hourly summary
(R498), the ageing monitors (R500, R501), the seed commands (R502 to R510) and the registers of the service block. -/

namespace Sys2Proof.Machine

/-! The Failure Recorder. -/

/-- Word 1 of a record (R549). -/
def Record.word1 (r : Record) (seq : BitVec 32) : Nat :=
  2 ^ 32 * seq.toNat + 2 ^ 20 * (r.code % 2 ^ 12) + 2 ^ 17 * r.cls.code + (if r.suspect then 2 ^ 16 else 0) +
    r.source % 256 * 256 + r.hall % 256

/-- Word 2 of a record. -/
def Record.word2 (r : Record) : Nat := 2 ^ 56 * (r.inst % 256) + 2 ^ 40 * (r.scn % 65536) + r.addr % 2 ^ 40

/-- The trigger kind of a record (R514): a bit of TRIG. -/
def Record.kind (r : Record) : Option Nat :=
  if r.cls = .uncontained then some 0
  else if r.code = 0x030 then some 1
  else if r.code = 0x052 && r.detail = 1 then some 2
  else if r.code = 0x090 then some 3
  else if r.code = 0x050 then some 4
  else none

/-- The block that a trigger record freezes (R514). -/
def State.freezeAt (s : State) (i : Nat) : State :=
  { s with recorder := { s.recorder with frozen := some ((i + 65536 - 4095) % 65536) } }

/-- The buffer has room: the OVERFLOW record is queued (R513). -/
def State.flushOverflow (s : State) : State :=
  let r := s.recorder
  match r.ovf with
  | none => s
  | some (i, n) =>
    if 64 ≤ r.queue.length then s
    else
      let c : Record := { index := i, dt := s.dt, code := 0x002, cls := .notice, suspect := s.rf Reg.cascTime 63 63 = 1,
                          source := 0, hall := 0xFF, inst := 0xFF, scn := 0xFFFF, addr := 0, detail := BitVec.ofNat 64 n }
      let s := { s with recorder := { r with queue := r.queue ++ [c], ovf := none } }
      ((s.errsum .notice i).recordEvent 2 i).reportMsix { code := 0x002, cls := .notice, source := 0 } i

/-- What a record just written freezes (R514). -/
def State.trigger (s : State) (r : Record) : State :=
  if s.recorder.frozen.isSome then s
  else if r.code = 0x003 && r.detail = 0xFF then s.freezeAt r.index
  else match r.kind with
    | none => s
    | some k =>
      if bit (s.reg Reg.frecCtrl) k then
        (s.freezeAt r.index).note { code := 0x003, cls := .event, source := 0, detail := BitVec.ofNat 64 k }
      else s

/-- RECORD_WRITE (R513): the oldest queued record is written whole. -/
def State.recordWrite (s : State) : State :=
  match s.recorder.queue with
  | [] => s
  | r :: rest =>
    let a := 32 * r.index
    let s := ((s.setMramN a 8 r.dt.toNat).setMramN (a + 16) 8 r.word2).setMramN (a + 24) 8 r.detail.toNat
    let s := s.setMramN (a + 8) 8 (r.word1 s.recorder.seq)
    let s := { s with recorder := { s.recorder with queue := rest, seq := s.recorder.seq + 1 } }
    let s := (s.trigger r).flushOverflow
    let s := if s.recorder.queue.isEmpty then s.setDrained true else s
    s.storeRing

/-- Every queued record is written. -/
def State.drainRecords (s : State) : Nat → State
  | 0 => s
  | n + 1 => if s.recorder.queue.isEmpty then s else s.recordWrite.drainRecords n

/-- FREEZE (R514). -/
def State.freezeRing (s : State) : State := s.note { code := 0x003, cls := .event, source := 0, detail := 0xFF }

/-- UNFREEZE (R514). -/
def State.unfreezeRing (s : State) : State :=
  let s := s.note { code := 0x004, cls := .event, source := 0 }
  ({ s with recorder := { s.recorder with frozen := none } }).storeRing

/-! The hourly summary (R498). -/

/-- The record of one unit's corrected errors of the hour. -/
def hourNote (unit n : Nat) : Note :=
  let f := fun (code source inst detail : Nat) =>
    ({ code := code, cls := .corrected, source := source, inst := inst, detail := BitVec.ofNat 64 detail } : Note)
  if unit < 100 then f 0x020 2 unit n
  else if unit < 200 then f 0x024 3 (unit - 100) n
  else if unit < 300 then f 0x024 3 (unit - 200) (n + 2 ^ 32)
  else if unit < 400 then f 0x024 3 (unit - 300) (n + 2 * 2 ^ 32)
  else if unit < 500 then f 0x025 1 (unit - 400) n
  else f 0x083 0xA (unit - 500) n

/-- HOURLY_SUMMARY (R498). -/
def State.hourlySummary (s : State) : State :=
  let l := s.hourCe
  l.foldl (fun s e => s.note (hourNote e.1 e.2)) { s with hourCe := [] }

/-- POWER_FAIL (R498, R515, R522). -/
def State.powerFail (s : State) : State :=
  let s := s.hourlySummary.note { code := 0x005, cls := .notice, source := 0xE }
  ({ s with life := { s.life with failed := true } }).drainRecords 256

/-! Ageing monitors. -/

/-- HCN of a slot of a core slot, when the core slot carries a logical core. -/
def State.hcnAt (s : State) (p k : Nat) : Option Nat := (s.lcnOf p).map (fun c => c * 64 + k)

/-- A SerDes lane is trained (R501): a PCI Express lane of the link, or a cascade lane once a link has trained. -/
def State.laneTrained (s : State) (l : Nat) : Bool :=
  if l < 4 then s.life.link.any (fun k => l < k.width) else l < 12 && s.part.hasCascade && s.casc.trained

/-- The monitor's unit is present. -/
def State.monitorOn (s : State) : Monitor → Bool
  | .core p => s.part.hasPcn p
  | .lane l => s.laneTrained l
  | .channel c => c < 8
  | .row pa => pa < s.part.memSize
  | .way a b => a < 16 && b < 16
  | .ctxRow p k => s.part.hasPcn p && k < 64
  | .word a _ | .entry a _ => s.arrayOn a
  | .ctxWord p k => s.part.hasPcn p && k < 64
  | .coreState p | .patchWord p _ => s.part.hasPcn p
  | .link k => k < 5

/-- The crossing of a core or lane, at its present register, the value that crosses, and the estimate: a lane's is its width
where the height is clear and the width is not. -/
def State.judge (s : State) (m : Monitor) : Bool × Nat × Option Nat :=
  let soon := fun (e : Option Nat) => e.any (fun h => h < s.ageThr 1)
  match m with
  | .core p =>
    let v := s.rf (Reg.ageCore p) 63 48
    let e := s.seriesEstimate p v (s.ageThr 0)
    (v < s.ageThr 0 || soon e, v, e)
  | .lane l =>
    let v := s.rf (Reg.ageLane l) 63 48
    let w := s.rf (Reg.ageLane l) 47 32
    let e := s.seriesEstimate (100 + l) v (s.ageThr 2)
    let f := s.seriesEstimate (widthKey l) w (s.ageThr 3)
    let high := v < s.ageThr 2 || soon e
    let wide := w < s.ageThr 3 || soon f
    (high || wide, if high || !wide then v else w, nearer e f)
  | _ => (false, 0, none)

/-- The notice of a core or lane at its present register. -/
def State.judged (s : State) (m : Monitor) : State :=
  let (bad, v, e) := s.judge m
  s.wear m bad v e

/-- A register that a context store has lost (R506): POISON in a w or landing-word register, and in another the payload of
POISON, as the register holds it (log entry 60). -/
def Regs.lose (x : Regs) (sel : Nat) (w : Word) : Regs :=
  let v : BitVec 64 := if sel = 0x20 || sel = 0x30 || sel = 0x33 then w.payload &&& ~~~1
    else if sel = 0x23 || sel = 0x24 || sel = 0x25 || (0x40 ≤ sel && sel ≠ 0x7F && sel % 16 = 8) then w.payload &&& ~~~7
    else w.payload
  if sel = 0x26 then { x with speck := w.payload.setWidth 32 }
  else if sel = 0x28 then { x with wait := w.payload }
  else (x.selPut sel ⟨w.tag, v⟩ true).1

/-- The word of a slot with which the store keeps an open speculation's checkpoint: 128 and the descriptor slot (log entry
60). -/
def ckptWord : Nat := 128

/-- A word of a row of a context store (R506; log entry 60): a descriptor slot from 1 to 86, or a checkpoint word. -/
def rowWord (word : Nat) : Bool := (1 ≤ word && word ≤ 86) || (ckptWord + 1 ≤ word && word ≤ ckptWord + 86)

/-- An uncorrectable word of a context store's row (R499, R506): the register, or the word of the context's checkpoint, becomes
POISON, and its context takes MCHK_CONTAINED. -/
def State.contextLost (s : State) (p k word : Nat) : State :=
  match s.hcnAt p k with
  | none => s
  | some n =>
    let sl := s.slot n
    if !rowWord word then s
    else
      let (i, s) := s.report { code := 0x023, cls := .contained, source := 1, inst := p, scn := sl.scn.getD 0xFFFF,
                               addr := p * 64 + k, detail := BitVec.ofNat 64 word }
      match sl.scn with
      | none => s
      | some scn =>
        if word < ckptWord then
          let s := s.setSlot n { sl with regs := sl.regs.lose (slotSel word) (poisonWord i),
                                         dirty := sl.dirty ||| selGroup (slotSel word) }
          s.alertCtx scn 0x20 (fixN i)
        else match s.specOf scn with
          | none => s
          | some g =>
            let r := s.galr g
            let s := s.setGal g { r with ckpt := r.ckpt.lose (slotSel (word - ckptWord)) (poisonWord i) }
            s.alertCtx scn 0x20 (fixN i)

/-- The link of a field network port is up or not: LINK_A and LINK_B of ECL_STAT, LINK_IN and LINK_OUT of ECP_STAT. -/
def State.linkPin (s : State) (port : Nat) (up : Bool) : State :=
  let b := if up then 1 else 0
  match port with
  | 0 => s.setRf Reg.eclStat 63 63 b
  | 1 => s.setRf Reg.eclStat 62 62 b
  | 2 => s.setRf Reg.ecpStat 59 59 b
  | _ => s.setRf Reg.ecpStat 58 58 b

/-- The slack that a path-delay monitor shows: its reading and the reference offset of calibration word 109 + p (R516; log
entry 67). -/
def State.slackOf (s : State) (p v : Nat) : Nat :=
  sat 16 ((v : Int) + signed 16 (s.rf (Reg.calWord (109 + p)) 15 0)).toNat

/-- The PCI Express link trains, or goes down, as while PERST_N is low (R429, R527). -/
def State.pciePin (s : State) (gen width : Nat) : State :=
  let up := 1 ≤ gen && gen ≤ 4 && (width = 1 || width = 2 || width = 4)
  { s with life := { s.life with link := if up then some ⟨gen, width⟩ else none } }

/-- MONITOR_SAMPLE (R500, R501): the value, the second value of a lane, the number of a context row's word or the width of the
PCI Express link, and whether an error was uncorrectable. -/
def State.monitorSample (s : State) (m : Monitor) (v w : Nat) (ue : Bool) : State :=
  if !s.monitorOn m then s
  else match m with
    | .core p =>
      let v := s.slackOf p v
      let s := (s.setRf (Reg.ageCore p) 63 48 v).addSample p v
      s.judged m
    | .lane l =>
      let s := (s.setRf (Reg.ageLane l) 63 48 (sat 16 v)).setRf (Reg.ageLane l) 47 32 (sat 16 w)
      let s := (s.addSample (100 + l) (sat 16 v)).addSample (widthKey l) (sat 16 w)
      s.judged m
    | .row _ => s.trackSample m 4 v ue
    | .channel _ => s.trackSample m 5 v false
    | .way _ _ => s.trackSample m 6 v ue
    | .ctxRow _ _ => s.trackSample m 7 v ue
    | .ctxWord p k => if ue then (s.contextLost p k w).judgeTracker (.ctxRow p k) 7 true else s.countHour (400 + p)
    | .word a pa => s.arrayWord a (wordOf pa) ue
    | .entry a line => s.arrayEntry a line ue v
    | .coreState p => if ue then s.coreFails p else s
    | .link k => if k = 4 then s.pciePin v w else s.linkPin k (v ≠ 0)
    | .patchWord p n => s.setCore p { s.core p with pramErr := put 0 (s.core p).pramErr n (if ue then 2 else 1) }

/-- An hour's samples become a mean; the last 1,000 are kept (R500). -/
def State.foldHour (s : State) (k : Nat) : State :=
  let a := s.age k
  if a.n = 0 then s
  else s.setAge k { a with sum := 0, n := 0, means := ((a.sum / (a.n : Int)) :: a.means).take 1000 }

/-- MONITOR_HOUR (R500). -/
def State.monitorHour (s : State) (m : Monitor) : State :=
  if !s.monitorOn m then s
  else match m with
    | .core p =>
      let s := s.foldHour p
      let (num, den) := slopeOf (s.age p).means.reverse
      let trend : Int := if den = 0 then 0 else 1000 * num / den
      let off := Reg.ageCore p
      let s := s.setRf off 47 32 (BitVec.ofInt 16 trend).toNat
      let s := s.setRf off 31 16 (estimateField (s.judge m).2.2)
      s.judged m
    | .lane l =>
      let s := (s.foldHour (100 + l)).foldHour (widthKey l)
      let off := Reg.ageLane l
      let s := s.setRf off 31 16 (estimateField (s.judge m).2.2)
      s.judged m
    | .row _ | .channel _ | .way _ _ | .ctxRow _ _ => s.foldHour (monKey m)
    | .word _ _ | .entry _ _ | .coreState _ | .patchWord _ _ | .link _ | .ctxWord _ _ => s

/-! Patrol scrub. -/

/-- One scrub read of a sector (R298, R299, R301). -/
def State.scrubSector (s : State) (pa : Nat) : State :=
  if s.heldModified pa then s
  else match s.eccRead pa with
    | (none, s) => s
    | (some i, s) =>
      if s.rf Reg.devMemScrub 19 19 = 0 then s
      else
        ((s.clearBarns none pa).setLlcSec pa (fun _ => ⟨.i, 0⟩)).poisonSector pa i |>.memWrite pa

/-- SCRUB_READ (R301): the next sector in address order. -/
def State.scrubRead (s : State) : State :=
  if s.rf Reg.devMemScrub 17 17 = 0 then s
  else
    let n := s.scrubPos
    let s := s.scrubSector (n * 64)
    if (n + 1) * 64 < s.part.memSize then { s with scrubPos := n + 1 }
    else { s.bumpRf Reg.devMemScrub 15 0 1 with scrubPos := 0 }

/-! Seed commands. -/

/-- RESULT of SEED_CMD_STAT. -/
def State.seedResult (s : State) (n : Nat) : State := s.setRf Reg.seedCmdStat 59 56 n

/-- The patch level of a core slot is DEV_PATCH_STAT.LEVEL: it has not been switched by an APPLY in progress (R246). -/
def State.levelOk (s : State) (p : Nat) : Bool := s.patch.left.isEmpty || s.patch.left.contains p

/-- A seed slot is prepared (R503). -/
def State.prepared (s : State) (p : Nat) : Bool :=
  s.rf (Reg.coreSthBase p) 63 63 = 1 && s.reg (Reg.coreSthSpInit p) ≠ 0 && s.levelOk p

/-- The core slot that carries a logical core. -/
def State.pcnOfLcn (s : State) (c : Nat) : Nat := s.rf (Reg.seedMap c) 6 0

/-- The seed slot of a core slot's barn. -/
def seedOf (p : Nat) : Nat := p / 9 * 9 + 8

/-- Row spare e of channel ch is in use. -/
def State.spareUsed (s : State) (ch e : Nat) : Bool := bit (s.reg (Reg.seedMem ch)) (48 + e)

/-- The bank of the row that a spare holds (R508), which spec/ does not place (log entry 8). -/
def State.spareBank (s : State) (ch e : Nat) : Nat := Config.bankOf (look 0 s.service.rows (ch * 16 + e) - 1)

/-- The checks of a command (R503, R506 to R509): RESULT, 0 when it is accepted. -/
def State.seedCheck (s : State) (op arg : Nat) : Nat :=
  if op = 1 then
    if s.part.cores ≤ arg then 2
    else
      let p := seedOf (s.pcnOfLcn arg)
      if s.rf (Reg.seedSlot p) 63 61 ≠ 2 then 3 else if !s.prepared p then 4 else 0
  else if op = 2 then
    let ch := channelOf (arg * 64)
    if s.part.memSize ≤ arg * 64 then 2
    else if (List.range 16).all (s.spareUsed ch) then 3 else 0
  else if op = 3 then
    if 128 ≤ arg || !s.spareUsed (arg / 16) (arg % 16) then 2
    else if s.service.banks.contains (s.spareBank (arg / 16) (arg % 16)) then 3 else 0
  else if op = 4 then
    if 256 ≤ arg then 2
    else if bit (s.reg Reg.seedStat) (16 + 2 * (arg / 16)) && bit (s.reg Reg.seedStat) (17 + 2 * (arg / 16)) then 3 else 0
  else
    let p := arg / 64
    if !s.part.hasPcn p then 2
    else if (s.hcnAt p (arg % 64)).any (fun n => (s.slot n).scn.isSome) then 5
    else if s.rf (Reg.seedSlot p) 51 50 = 0 then 3 else 0

/-- RESPARE starts (R503 step 1). -/
def State.startRespare (s : State) (c : Nat) : State :=
  let w := s.pcnOfLcn c
  let t := seedOf w
  let s := (s.setRf (Reg.seedSlot w) 63 61 3).setRf (Reg.seedSlot t) 63 61 4
  let s := (s.setRf (Reg.seedSlot t) 57 52 c).setRf Reg.seedCmdStat 51 48 0
  s.setCore t { s.core t with run := none, halt := none }

/-- A seed command (R502). -/
def State.seedCmd (s : State) (v : BitVec 64) : State :=
  let op := fld v 63 60
  let arg := fld v 33 0
  if s.rf Reg.seedCmdStat 63 63 = 1 then { s with service := { s.service with hit := true } }
  else if op = 0 || 5 < op then s
  else
    let r := s.seedCheck op arg
    let s := (s.setRf Reg.seedCmdStat 55 52 op).seedResult r
    if r ≠ 0 then s
    else
      let s := s.setRf Reg.seedCmdStat 63 63 1
      let s := { s with service := { s.service with cmd := some v, hit := false } }
      if op = 1 then s.startRespare arg else s

/-- The group's Running context leaves the core, or comes away Parked from a halted one (R503 step 3, R504); a slot that a hall
reset left to the halted core becomes Free (R413). -/
def State.leaveGroup (s : State) (w c g : Nat) : State :=
  match (s.core w).run with
  | none => s
  | some n =>
    if n / 64 ≠ c || n % 64 / 8 ≠ g then s
    else match (s.slot n).scn with
      | none => s
      | some scn =>
        if (s.core w).halt.isNone then s.preempt scn
        else if scn = 0x10000 then (s.setCore w { s.core w with run := none }).freeSlot n
        else
          let s := match s.specOf scn with
            | some i => s.cutSpec i 6
            | none => s
          let s := s.setCtx scn { s.ctx scn with st := .parked, resume := .ready, wait := none }
          s.setCore w { s.core w with run := none }

/-- A context that leaves a core that has not flipped for one that has is scanned before it runs there (R332, R342, R504). -/
def State.scanMoved (s : State) (w t n : Nat) : State :=
  match (s.slot n).scn with
  | none => s
  | some scn =>
    let h := (s.ctx scn).hall
    if scn < 0x10000 && (s.core t).flipped.contains h && !(s.core w).flipped.contains h then
      s.setSlot n { s.slot n with scan := true }
    else s

/-- RESPARE_GROUP (R503 step 3): the next group arrives on the seed core. -/
def State.respareGroup (s : State) : State :=
  match s.service.cmd with
  | none => s
  | some v =>
    let c := fld v 33 0
    let g := s.rf Reg.seedCmdStat 51 48
    let w := s.pcnOfLcn c
    let sth := match (s.core w).run with
      | some n => (s.core w).halt.isNone && n % 64 / 8 = g && stSth (s.slot n).regs.status
      | none => false
    if fld v 63 60 ≠ 1 || 8 ≤ g || sth then s
    else
      let s := (s.leaveGroup w c g).setRf Reg.seedCmdStat 51 48 (g + 1)
      (List.range 8).foldl (fun s k => s.scanMoved w (seedOf w) (c * 64 + g * 8 + k)) s

/-- A Crib flushed whole, locked lines included (R503 step 5). -/
def State.flushCrib (s : State) (p : Nat) : State :=
  (s.core p).dirtySectors.foldl (fun s e => s.writeBack p e.1 e.2.1 .i) s

/-- What a CORE reset does to a Crib (R280): its M sectors are written back, but those of a disabled Crib are discarded,
recorded and raised. -/
def State.resetCrib (s : State) (p : Nat) : State :=
  let n := (s.core p).dirtySectors.length
  if (s.core p).cribOn then (s.flushCrib p).unshare p
  else if n = 0 then s
  else (s.note { code := 0x0B1, cls := .notice, source := 1, inst := p, detail := BitVec.ofNat 64 n }).event 0 "CRIB_DISCARDED" p

/-- NOSEED and Degraded (R510). -/
def State.degrade (s : State) (b : Nat) : State :=
  let s := s.setRf Reg.seedStat (55 + b) (55 + b) 1
  if s.rf Reg.seedStat 63 63 = 1 then s
  else
    let s := s.setRf Reg.seedStat 63 63 1
    let quiet := s.rf Reg.devErrcfg 3 3 = 0
    let (i, s) := s.report { code := 0x012, cls := .event, source := 0, detail := BitVec.ofNat 64 (s.rf Reg.seedStat 62 55) }
    let s := if quiet then s.mgrMsix 2 0xFF 0x012 i else s
    s.event 0 "DEGRADED" b

/-- The reset domain of the register at an offset. -/
def domOf (off : Nat) : Option Dom := (regDesc off).map (·.dom)

/-- The core slot's registers of reset domain CORE. -/
def State.resetCoreRegs (s : State) (p : Nat) : State :=
  { s with ctl := s.ctl.filter (fun e => !(0x100000 + 0x10000 * p ≤ e.1 && e.1 < 0x110000 + 0x10000 * p &&
      domOf e.1 = some .core)) }

/-- What a CORE reset clears of a slot (R269, R280, R529): patch RAM, the log buffer and what the Gleaner knows of it stay. -/
def State.resetSlot (s : State) (p : Nat) : State :=
  let s := s.emptyLog p
  let c := s.core p
  let s := s.setCore p { Core.reset with pram := c.pram, pmatch := c.pmatch, pramErr := c.pramErr, logBuf := c.logBuf,
                                                armed := c.armed, flipped := c.flipped }
  s.resetCoreRegs p

/-- Steps 4 to 6 of R503. -/
def State.endRespare (s : State) (c : Nat) : State :=
  let w := s.pcnOfLcn c
  let t := seedOf w
  let s := (((s.setRf (Reg.seedMap c) 6 0 t).flushCrib w).unshare w).resetSlot w
  let s := (s.setRf (Reg.seedSlot w) 63 61 5).setRf (Reg.seedSlot t) 63 61 1
  s.degrade (w / 9)

/-- A sector of a row that is spared: read through correction, and stored as POISON where it is uncorrectable (R507). -/
def State.spareSector (s : State) (pa : Nat) : State :=
  match s.eccRead pa with
  | (none, s) => s.memWrite pa
  | (some i, s) =>
    let s := if (s.llcSec pa).st = .i then s.poisonSector pa i else s
    s.memWrite pa

/-- The sectors of the DRAM row that holds an address whose stored copies are not clean, and the address's own sector. -/
def State.rowSectors (s : State) (pa : Nat) : List Nat :=
  (pa / 64 :: (s.planted.filter (fun e => Config.rowOf (e.1 / 4) = Config.rowOf (pa / 256))).map (·.1)).eraseDups

/-- ROWSPARE completes (R507): the row is read through correction, sector by sector. -/
def State.endRowspare (s : State) (pa : Nat) : State :=
  let ch := channelOf pa
  let (f, s) := s.freeNat
  let free := (List.range 16).filter (fun e => !s.spareUsed ch e)
  let e := (pick free f).getD 0
  let s := (s.rowSectors pa).foldl (fun s n => s.spareSector (64 * n)) s
  let s := { s with service := { s.service with
    rows := put 0 s.service.rows (ch * 16 + e) (Config.rowOf (pa / 256) + 1) } }
  s.setRf (Reg.seedMem ch) (48 + e) (48 + e) 1

/-- PPR completes (R508). -/
def State.endPpr (s : State) (ch e : Nat) : State :=
  let b := s.spareBank ch e
  let s := { s with service := { s.service with banks := b :: s.service.banks,
                                                rows := put 0 s.service.rows (ch * 16 + e) 0 } }
  (s.setRf (Reg.seedMem ch) (48 + e) (48 + e) 0).bumpRf (Reg.seedMem ch) 47 32 1

/-- WAYSPARE completes (R509). -/
def State.endWayspare (s : State) (slice way : Nat) : State :=
  let s := { s with service := { s.service with ways := (slice * 16 + way) :: s.service.ways } }
  let k := if bit (s.reg Reg.seedStat) (16 + 2 * slice) then 17 else 16
  let s := { s with llc := s.llc.map (fun (e : Nat × LlcLine) =>
    if llcSlice e.1 = slice && e.2.way = way then (e.1, { e.2 with way := k }) else e) }
  s.setRf Reg.seedStat (k + 2 * slice) (k + 2 * slice) 1

/-- CTXROW completes (R506). -/
def State.endCtxrow (s : State) (p k : Nat) : State :=
  let s := { s with service := { s.service with ctxRows := (p * 64 + k) :: s.service.ctxRows } }
  s.setRf (Reg.seedSlot p) 51 50 (s.rf (Reg.seedSlot p) 51 50 - 1)

/-- SERVICE_DONE (R502): the command in progress completes, is logged and reported. -/
def State.serviceDone (s : State) : State :=
  match s.service.cmd with
  | none => s
  | some v =>
    let op := fld v 63 60
    let arg := fld v 33 0
    if op = 1 && s.rf Reg.seedCmdStat 51 48 < 8 then s
    else
      let s := if op = 1 then s.endRespare arg
        else if op = 2 then s.endRowspare (arg * 64)
        else if op = 3 then s.endPpr (arg / 16) (arg % 16)
        else if op = 4 then s.endWayspare (arg / 16) (arg % 16)
        else s.endCtxrow (arg / 64) (arg % 64)
      let s := (s.setRf Reg.seedCmdStat 63 63 0).seedResult (if s.service.hit then 1 else 0)
      let s := { s with service := { s.service with cmd := none, hit := false, log := s.service.log ++ [v] } }
      (s.note { code := 0x011, cls := .event, source := 0, detail := v }).event 0 "SERVICE_DONE" op

/-! Registers. -/

/-- A write of a register of the service block (R546). -/
def State.svcWrite (s : State) (who : Initiator) (off : Nat) (mask v : BitVec 64) : State :=
  s.gate (s.kernelOrPf who) who off <|
    if off = Reg.seedCmd then
      let (act, s) := s.store64 off mask v
      s.seedCmd act
    else if Reg.ageThr 0 ≤ off && off ≤ Reg.ageThr 7 then s.countReg off
    else if Reg.calWord 0 ≤ off && off ≤ Reg.calWord 255 then s.countReg off
    else if off = Reg.frecCtrl then
      let counted := mask &&& fmask 7 0 ≠ 0 || v &&& mask &&& fmask 61 8 ≠ 0
      let (act, s) := s.store64 off (mask &&& fmask 63 62) v
      let s := if counted then s.countReg off else s
      let s := if bit act 63 then s.freezeRing else s
      if bit act 62 then s.unfreezeRing else s
    else s.plain off mask v

end Sys2Proof.Machine
end

