-- ==== Sys2Proof/Machine/Startup.lean ====
section
/-! DEFINITION. Power-up, reset and pins (spec/18_startup_pins_electrical.md): POR and DEVICE reset (R527, R528, R530), CORE
reset (R529), boot (R531, R532), heartbeat and temperature (R534, R535), time base (R525) and JTAG (R536). -/

namespace Sys2Proof.Machine

/-! Resets. -/

/-- A calibration set fails its CRC (R516). -/
def calCrcBad (l : List Byte) : Bool := bytesNat ((l.drop 2040).take 4) ≠ crc32 (l.take 2040)

/-- Zero trims and unity gains (R516): words 16 to 23 hold gain 1. -/
def calDefault : List Byte :=
  (List.range 256).flatMap (fun i => natBytes 8 (if 16 ≤ i && i < 24 then 32768 else 0))

/-- CAL_WORD and CAL_STAT at a DEVICE reset (R516). -/
def State.loadCal (s : State) : State :=
  let user := s.mramBytes 0x301000 2048
  let factory := s.mramBytes 0x300000 2048
  if !calCrcBad user then s.applyCal user
  else
    let bad := calCrcBad factory
    let s := (s.applyCal (if bad then calDefault else factory)).setRf Reg.calStat 62 62 1
    let s := if bad then s.setRf Reg.calStat 61 61 1 else s
    s.note { code := 0x0C1, cls := .contained, source := 0, detail := if bad then 3 else 1 }

/-- PPR_DONE as the service log gives it (SEED_MEM). -/
def State.loadPpr (s : State) : State :=
  (s.service.log.filter (fun v => fld v 63 60 = 3)).foldl (fun s v => s.bumpRf (Reg.seedMem (fld v 6 4)) 47 32 1) s

/-- DEV_XSTAT and the report of an abandoned access (R36, R37), with its initiator's code, hall and SCN: the record's index, and
the state. -/
def State.abandonedAs (s : State) (code hall scn off : Nat) (write : Bool) : Nat × State :=
  let v := s.reg Reg.devXstat
  let v := if bit v 63 then bumpFld v 15 0 1
    else setFld (setFld (setFld (setFld (setFld v 63 63 1) 62 62 (if write then 1 else 0)) 55 32 off) 31 16 code) 15 0 1
  let s := s.setReg Reg.devXstat v
  s.report { code := 0x032, cls := .contained, source := sourceOf off, hall := hall, scn := scn, addr := deviceBase + off,
             detail := v }

/-- An access abandoned as it is made. -/
def State.abandoned (s : State) (who : Initiator) (off : Nat) (write : Bool) : Nat × State :=
  s.abandonedAs (s.initCode who) (s.initHall who) (initScn who) off write

/-- The writes that wait in the crossing queues when a DEVICE reset comes: their home domains are in reset, and they are
abandoned (R31, R36; log entry 46). -/
def State.abandonAll (s : State) : List Posted → State
  | [] => s
  | w :: ws => (s.abandonedAs w.code w.hall (initScn w.who) w.off true).2.abandonAll ws

/-- The straps as sampled at a DEVICE reset (R526). -/
structure Straps where
  bootSrc : BitVec 2
  cascId : BitVec 3
  legacyN : Bool
  deriving DecidableEq, Repr

/-- Step 3 of R530 on (R527, R528): what POR state, the MRAM and the hold-rail logic keep. -/
def State.deviceReset (s : State) (cause : Nat) (x : Straps) : State :=
  let kept := s.ctl.filter (fun e => domOf e.1 = some .por)
  let n := sat 16 (s.rf Reg.devReset 15 0 + 1)
  let ages := s.service.ages.map (fun e => (e.1, { e.2 with clearFrom := none }))
  let t : State :=
    { State.reset with
      part := { s.part with bootSrc := x.bootSrc, cascId := x.cascId, legacyN := x.legacyN }, mram := s.mram, ctl := kept,
      hourCe := s.hourCe, recorder := s.recorder, params := s.params,
      service := { Service.reset with log := s.service.log, ages := ages, banks := s.service.banks },
      life := { Life.reset with warm := true, drained := s.life.drained, beat := s.life.beat, failed := s.life.failed,
                                link := s.life.link, ir := s.life.ir },
      out := s.out, pending := s.pending, free := s.free }
  (((t.setRf Reg.devReset 31 28 cause).setRf Reg.devReset 15 0 n).loadPpr.loadCal).abandonAll s.posted

/-- POR (R527, R530 step 3): everything, and FREC_STAT loaded from the MRAM. -/
def State.por (s : State) (x : Straps) : State :=
  let w := s.mramWord 0x200010
  let t : State :=
    { State.reset with
      part := { s.part with bootSrc := x.bootSrc, cascId := x.cascId, legacyN := x.legacyN }, mram := s.mram,
      ctl := [], params := s.params,
      recorder := { queue := [], ovf := none, next := fld (s.mramWord 0x200000) 15 0,
                    seq := (s.mramWord 0x200008).setWidth 32, frozen := if bit w 63 then some (fld w 15 0) else none,
                    lost := 0 },
      service := { Service.reset with log := s.service.log, banks := s.service.banks,
                                      ages := s.service.ages.map (fun e => (e.1, { AgeRec.reset with means := e.2.means })) },
      life := { Life.reset with drained := fld (s.mramWord 0x200018) 0 0 = 1, link := s.life.link, ir := s.life.ir },
      out := s.out, pending := s.pending, free := s.free }
  t.loadPpr.loadCal

/-- KEY of DEV_RESET. -/
def resetKey : Nat := 0x44455652

/-- Stair-2 contexts of hall 0. -/
def State.kernel2 (s : State) (who : Initiator) : Bool :=
  match who with
  | .ctx _ stair => stair = 2 && s.isCtxOf who 0
  | _ => false

/-- A write of DEV_RESET (R527): `x`: the straps as the reset samples them. -/
def State.resetWrite (s : State) (who : Initiator) (mask v : BitVec 64) (x : Straps) : State :=
  s.gate (who = .pf || s.kernel2 who) who Reg.devReset <|
    let counted := v &&& mask &&& fmask 27 16 ≠ 0
    if mask &&& fmask 63 32 ≠ 0 && fld v 63 32 = resetKey then
      (if counted then s.countReg Reg.devReset else s).deviceReset (if who = .pf then 2 else 3) x
    else if counted || mask &&& fmask 63 32 ≠ 0 then s.countReg Reg.devReset
    else s

/-! Core reset (R529). -/

/-- RESULT of DEV_CORE_RST. -/
def State.coreRstResult (s : State) (n : Nat) : State := s.setRf Reg.devCoreRst 55 52 n

/-- The slots of a core slot that hold a context, but for the one Running at a halt. -/
def State.otherSlots (s : State) (p : Nat) : Bool :=
  match s.lcnOf p with
  | none => false
  | some c => (List.range 64).any (fun k =>
      match (s.slot (c * 64 + k)).scn with
      | none => false
      | some scn => !(scn = 0x10000 || ((s.core p).halt.isSome && (s.core p).run = some (c * 64 + k))))

/-- The context that was Running at a halt is lost. -/
def State.loseHalted (s : State) (p : Nat) : State :=
  match (s.core p).halt, (s.core p).run with
  | some _, some n =>
    match (s.slot n).scn with
    | none => s
    | some scn =>
      let s := s.freeSlot n
      if scn = 0x10000 then s
      else
        let s := match s.specOf scn with
          | some i => s.cutSpec i 6
          | none => s
        (s.setCtx scn SwCtx.reset).note { code := 0x033, cls := .event, source := 1, inst := p, scn := scn, detail := 0xFF }
  | _, _ => s

/-- The slots that a hall reset left to a halted core (R222, R421) become Free. -/
def State.freeStranded (s : State) (p : Nat) : State :=
  match s.lcnOf p with
  | none => s
  | some c => ((List.range 64).filter (fun k => (s.slot (c * 64 + k)).scn = some 0x10000)).foldl
      (fun s k => s.freeSlot (c * 64 + k)) s

/-- A CORE reset is carried out (R529, R269, R280). -/
def State.doCoreReset (s : State) (p : Nat) : State :=
  let s := (((s.resetCrib p).loseHalted p).freeStranded p).resetSlot p
  (s.setRf Reg.devCoreRst 56 56 0).coreRstResult 0

/-- A request for a slot (R529). -/
def State.coreReset (s : State) (p : Nat) : State :=
  let st := s.rf (Reg.seedSlot p) 63 61
  let s := (s.setRf Reg.devCoreRst 63 57 p).setRf Reg.devCoreRst 56 56 0
  if !s.part.hasPcn p then s.coreRstResult 2
  else if st = 3 || st = 4 then (s.setRf Reg.devCoreRst 56 56 1).coreRstResult 3
  else if st = 5 || s.otherSlots p then s.coreRstResult 1
  else s.doCoreReset p

/-- A write of DEV_CORE_RST (R529). -/
def State.coreRstWrite (s : State) (who : Initiator) (mask v : BitVec 64) : State :=
  s.gate (who = .pf || s.kernel2 who) who Reg.devCoreRst <|
    let s := if v &&& mask &&& fmask 51 0 = 0 then s else s.countReg Reg.devCoreRst
    if bit (v &&& mask) 56 && s.rf Reg.devCoreRst 56 56 = 0 then s.coreReset (fld (v &&& mask) 63 57) else s

/-- A request that was HELD goes on after step 6 of R503. -/
def State.heldCoreReset (s : State) : State :=
  if s.rf Reg.devCoreRst 56 56 = 1 then s.coreReset (s.rf Reg.devCoreRst 63 57) else s

/-! Boot. -/

/-- DEV_STATE.STATE. -/
def State.devState (s : State) : Nat := s.rf Reg.devState 63 60

/-- Boot fails (R532). -/
def State.bootErr (s : State) (e : Nat) : State := s.setRf Reg.devState 58 56 e

/-- PLL_LOCK (R530 step 4, R525): `tb`: valid edges were found on TBCLK. -/
def State.pllLock (s : State) (tb : Bool) : State :=
  if s.dtRun then s
  else ({ s with dtRun := true, dt := 0 }).setRf Reg.devStraps 56 56 (if tb then 1 else 0)

/-- MEMORY_INIT_DONE (R530 steps 5 and 7): MEMORY holds FIX 0, and the boot ROM starts, with the xSPI port in 1S-1S-1S mode
(R533). -/
def State.memoryInit (s : State) : State :=
  if !s.dtRun || s.life.memOk then s
  else
    let s := { s with mem := [], tags := [], planted := [], barns := [], llc := [], life := { s.life with memOk := true } }
    if s.part.bootSrc = 3 then (s.setRf Reg.devState 63 60 4).bootErr 1
    else { s with life := { s.life with hostLoad := s.part.bootSrc = 1, xspi := .sfdp } }

/-- LOAD of an image (R531). -/
def imgLoad (l : List Byte) : Nat := imgNat l 0x10 8
/-- LENGTH of an image. -/
def imgLength (l : List Byte) : Nat := imgNat l 8 4
/-- ENTRY of an image. -/
def imgEntry (l : List Byte) : Nat := imgNat l 0x18 4

/-- The header of an image is valid (R531). -/
def headerOk (pt : Part) (l : List Byte) : Bool :=
  let n := imgLength l
  imgNat l 0 4 = 0x544F4F42 && imgNat l 4 2 = 1 && imgNat l 6 2 = 0 && n % 8 = 0 && 8 ≤ n && n ≤ 0x04000000 &&
    imgLoad l % 4096 = 0 && imgEntry l % 2 = 0 && imgEntry l < n && imgLoad l + n ≤ pt.memSize &&
    imgNat l 0x20 4 = crc32 (imgBytes l 0 0x20) && imgNat l 0x24 4 = 0

/-- BOOT_ERR of an image: 0 when it is good. -/
def imageErr (pt : Part) (l : List Byte) : Nat :=
  if !headerOk pt l then 3
  else if imgNat l 0x1C 4 ≠ crc32 (imgBytes l 40 (imgLength l)) then 4
  else 0

/-- The body is written from LOAD as RAW words (R531). -/
def State.copyBody (s : State) (l : List Byte) : State :=
  (List.range (imgLength l / 8)).foldl (fun s k =>
    s.setMemWord (imgLoad l + 8 * k) (raw (BitVec.ofNat 64 (imgNat l (40 + 8 * k) 8)))) s

/-- The boot context enters the image at stair 2 with TOFF 1 (R530 steps 7 and 9; log entry 4): SCN 0 in slot 0 of LCN 0. -/
def State.enterImage (s : State) (l : List Byte) : State :=
  let x : Regs := { Regs.zero with
    pc := BitVec.ofNat 44 (imgLoad l + imgEntry l), status := setFld (setFld (setFld 0 21 16 0x3F) 7 7 1) 1 0 2 }
  let x := (x.putW 0 (fixN (imgLoad l))).putW 1 (fixN s.part.bootSrc.toNat)
  let s := s.setSlot 0 { s.slot 0 with scn := some 0, dirty := BitVec.allOnes 7, regs := x }
  let s := s.setCtx 0 { SwCtx.reset with st := .running, hcn := 0, homeLcn := 0, hall := 0 }
  s.setCore 0 { s.core 0 with run := some 0 }

/-- Steps 8 and 9 of R530 with a good image, and the stored parameters of R465. -/
def State.bootImage (s : State) (l : List Byte) : State :=
  let s := s.copyBody l
  let d := (if s.life.drained || s.life.warm then 1 else 0) + (if s.life.warm then 2 else 0)
  let s := s.note { code := 0x001, cls := .event, source := 0, detail := BitVec.ofNat 64 d }
  let s := { s with life := { s.life with subsys := BitVec.ofNat 32 (imgNat l 0xC 4), hostLoad := false, xspi := .unused } }
  ((s.setRf Reg.devState 63 60 2).setRf Reg.devBootCtrl 62 62 0).enterImage l |>.applyParams

/-- BOOT_ERR of a flash copy: NO_FLASH when no device answers. -/
def copyErr (pt : Part) (l : Option (List Byte)) : Nat :=
  match l with
  | none => 2
  | some l => imageErr pt l

/-- The mode of the xSPI port once the boot ROM has read the SFDP tables (R533): whether they advertise 8D-8D-8D and VDDIO_F
is at 1.8 V is open (log entry 4). -/
def State.xspiMode (s : State) : State :=
  let (f, s) := s.freeNat
  { s with life := { s.life with xspi := if f % 2 = 1 then .octal else .single } }

/-- Both flash copies, or the failure (R532). -/
def State.bootFlash (s : State) (a b : Option (List Byte)) : State :=
  let s := s.xspiMode
  if copyErr s.part a = 0 then s.bootImage (a.getD [])
  else if copyErr s.part b = 0 then s.bootImage (b.getD [])
  else
    let s := s.bootErr (copyErr s.part b)
    if s.part.bootSrc = 2 then { s with life := { s.life with hostLoad := true } }
    else s.setRf Reg.devState 63 60 4

/-- The PF reads the image at DEV_BOOT_HOST (R532): its header, and its body where the header arrived and is valid. -/
def State.hostImage (s : State) (host : Option (List Byte)) : State :=
  let a := (s.reg Reg.devBootHost &&& fmask 63 3).toNat
  let s := s.request 0 (.hostRead 0 a 40)
  match host with
  | none => s
  | some l => if headerOk s.part l then s.request 0 (.hostRead 0 (a + 40) (imgLength l)) else s

/-- BOOT_LOAD_DONE (R532): the two flash copies, and the image read from the host, as far as they were read; a host load needs
Bus Master Enable on the PF. -/
def State.bootLoadDone (s : State) (a b host : Option (List Byte)) : State :=
  if s.devState ≠ 1 || !s.life.memOk then s
  else if !s.life.hostLoad then s.bootFlash a b
  else if s.rf Reg.devBootCtrl 62 62 = 0 then s
  else
    let abort := (s.hostImage host).bootErr 5 |>.setRf Reg.devBootCtrl 62 62 0
    match if s.requests 0 then host else none with
    | some l => if imageErr s.part l = 0 then (s.hostImage host).bootImage l else abort
    | none => abort

/-- A write of DEV_BOOT_CTRL (R532): GO counts while STATE is BOOT_ROM, also before the boot ROM waits for it. -/
def State.bootCtrlWrite (s : State) (who : Initiator) (mask v : BitVec 64) : State :=
  s.gate (who = .pf) who Reg.devBootCtrl <|
    let (act, s) := s.store64 Reg.devBootCtrl mask v
    if bit act 63 && s.devState = 1 then s.setRf Reg.devBootCtrl 62 62 1 else s

/-- A write of DEV_STATE (R530 step 11). -/
def State.stateWrite (s : State) (who : Initiator) (mask v : BitVec 64) : State :=
  s.gate (s.kernel2 who) who Reg.devState <|
    let (act, s) := s.store64 Reg.devState mask v
    if bit act 59 && s.devState = 2 then s.setRf Reg.devState 63 60 3 else s

/-! Pins. -/

/-- TB_LOST (R525). -/
def State.tbLost (s : State) : State :=
  if s.dtRun && s.rf Reg.devStraps 56 55 = 2 then
    (s.setRf Reg.devStraps 55 55 1).note { code := 0x055, cls := .contained, source := 0xE }
  else s

/-- WINDOW in ns. -/
def State.beatWindow (s : State) : Nat := 1000000 * s.rf Reg.devAlert 55 48

/-- A write of DEV_ALERT (R534). -/
def State.alertWrite (s : State) (who : Initiator) (mask v : BitVec 64) : State :=
  s.gate (s.kernel2 who) who Reg.devAlert <|
    let (act, s) := s.store64 Reg.devAlert (mask &&& ~~~fmask 37 37) v
    if bit act 63 then { s with life := { s.life with kick := some s.dt.toNat } } else s

/-- HEARTBEAT_TOGGLE (R534). -/
def State.heartbeat (s : State) : State :=
  match s.life.kick with
  | none => s
  | some t => if s.dt.toNat < t + s.beatWindow then { s with life := { s.life with beat := !s.life.beat } } else s

/-- HEARTBEAT_LOST (R534). -/
def State.heartbeatLost (s : State) : State :=
  match s.life.kick with
  | none => s
  | some t =>
    if s.dt.toNat < t + s.beatWindow then s
    else
      (({ s with life := { s.life with kick := none } }).setRf Reg.devAlert 0 0 1).note
        { code := 0x056, cls := .notice, source := 0xE, detail := BitVec.ofNat 64 (s.rf Reg.devAlert 55 48) }

/-- A write of DEV_THERM (R535). -/
def State.thermWrite (s : State) (who : Initiator) (mask v : BitVec 64) : State :=
  let n := (s.reg Reg.devTherm &&& ~~~mask) ||| (v &&& mask)
  s.gate (s.privileged who) who Reg.devTherm <|
    if signed 12 (fld n 35 24) < signed 12 (fld n 47 36) then s.countReg Reg.devTherm else s.plain Reg.devTherm mask v

/-- ZONE after a temperature (R535). -/
def zoneOf (zone : Nat) (t warn crit hyst : Int) : Nat :=
  if crit ≤ t then 2
  else if zone = 2 && t < crit - hyst then 1
  else if zone = 2 then 2
  else if warn ≤ t then 1
  else if zone = 1 && t < warn - hyst then 0
  else zone

/-- TEMP_SAMPLE (R535): the sensor's reading, corrected by calibration word 108. -/
def State.tempSample (s : State) (raw : Nat) : State :=
  let t := signed 16 raw + signed 16 (s.rf (Reg.calWord 108) 15 0)
  let r := Reg.devTherm
  let s := s.setRf r 63 48 (BitVec.ofInt 16 t).toNat
  let old := s.rf r 19 18
  let new := zoneOf old (signed 16 (s.rf r 63 48)) (signed 12 (s.rf r 47 36)) (signed 12 (s.rf r 35 24)) (4 * s.rf r 23 20)
  if new = old then s
  else
    let w : BitVec 64 := BitVec.ofInt 64 (signed 16 (s.rf r 63 48))
    (((s.setRf r 19 18 new).alertHall0 0x25 (fix w))).note { code := 0x0C0, cls := .notice, source := 0xE, detail := w }

/-- ALERT_N is driven low (R534). -/
def State.alertLow (s : State) : Bool :=
  let v := s.reg Reg.devAlert
  let live := setBit (setBit (setBit v 5 (s.devState ≠ 3)) 3 (s.rf Reg.devTherm 19 18 = 2)) 1 (s.rf Reg.seedStat 63 63 = 1)
  (List.range 6).any (fun i => bit live i && (i = 5 || bit v (32 + i)))

/-- JTAG_HALT (R536, R210). -/
def State.jtagHalt (s : State) (scn : Nat) : State :=
  if s.jtagUnlocked then s.alertCtx (scn % 65536) 0x24 (fixN 1) else s

/-- The instruction in effect (R536): the last ones behave as BYPASS while the port is locked. -/
def State.jtagIr (s : State) : JtagIr :=
  if s.jtagUnlocked then s.life.ir
  else match s.life.ir with
    | .idcode => .idcode
    | .sample => .sample
    | _ => .bypass

/-- IDCODE (R536). -/
def State.idcode (s : State) : Nat :=
  (2 ^ 28 * (s.part.stepping.toNat % 16) + 2 ^ 12 * 0x8640 + 2 * Config.jep106 + 1) % 2 ^ 32

/-- A scan with an instruction of IEEE 1149.1 (R536): IDCODE shifts out its value, BYPASS, CLAMP and HIGHZ the one bit of the
bypass register, and SAMPLE/PRELOAD and EXTEST the boundary-scan cells, whose number and levels the BSDL file and the board
give (log entry 8). EXTEST, CLAMP and HIGHZ hold the balls while they are in effect. -/
def State.jtagScan (s : State) (k : JtagIr) : State :=
  let s := { s with life := { s.life with ir := k } }
  match s.jtagIr with
  | .idcode => s.send (.jtag 32 s.idcode)
  | .sample | .extest =>
    let (f, s) := s.freeNat
    s.send (.jtag 0 f)
  | _ => s.send (.jtag 1 0)

/-- JTAG_DEVICE_RESET (R536). -/
def State.jtagReset (s : State) (x : Straps) : State := if s.jtagUnlocked then s.deviceReset 4 x else s

end Sys2Proof.Machine
end

