-- ==== Sys2Proof/Machine/Views.lean ====
section
/-! DEFINITION. Reads of control registers (R18, R19, R32): which addresses belong to absent units (R6, R25, R44, R505), the
fields that show state held elsewhere, and what an initiator sees (R169, R435, R470). -/

namespace Sys2Proof.Machine

/-- The core slot an offset of the core-slot block lies in (R26). -/
def offPcn (off : Nat) : Nat := (off - 0x100000) / 0x10000

/-- The hall that a per-hall register of the Gleaner, the Gallery, the transfer engines, the halls or the event router
belongs to. -/
def offHall (off : Nat) : Option Nat :=
  if 0x600400 ≤ off && off < 0x601000 then some ((off - 0x600400) / 8 % 64)
  else if 0x800400 ≤ off && off < 0x801200 then some ((off - 0x800400) / 8 % 64)
  else if 0x902000 ≤ off && off < 0x903000 then some ((off - 0x902000) / 16 % 64)
  else if 0x900000 ≤ off && off < 0xA00000 then some ((off - 0x900000) / 0x4000)
  else if 0xD00000 ≤ off && off < 0xD01000 then some ((off - 0xD00000) / 8 % 64)
  else if 0xD02000 ≤ off && off < 0xD04000 then some ((off - 0xD02000) / 0x80)
  else if 0xE01000 ≤ off && off < 0xE01200 then some ((off - 0xE01000) / 8)
  else none

/-- The register at an offset belongs to an absent unit (R6). -/
def State.absentUnit (s : State) (off : Nat) : Bool :=
  let pt := s.part
  (offHall off).any (fun h => pt.hallMax < h) ||
  (if off < 0x100000 then false
   else if off < 0x600000 then !pt.hasPcn (offPcn off) || s.rf (Reg.seedSlot (offPcn off)) 63 61 = 5
   else if off < 0x700000 then 0x610000 ≤ off && pt.nbins ≤ (off - 0x610000) / 8
   else if off < 0x701800 then pt.axes ≤ (off - 0x700000) / 0x100 % 16
   else if off < 0x710000 then false
   else if off < 0x730000 then pt.axes ≤ (off - 0x710000) / 0x4000
   else if off < 0x750000 then pt.cams ≤ (off - 0x730000) / 0x4000 * 8
   else if off < 0x800000 then false
   else if off < 0x900000 then
     !pt.hasGallery || (0x800100 ≤ off && off < 0x800140 && pt.barns ≤ (off - 0x800100) / 8)
   else if 0xA00800 ≤ off && off < 0xA00A00 then pt.cams ≤ (off - 0xA00800) / 8
   else if 0xB00000 ≤ off && off < 0xC00000 then !pt.hasCascade
   else if 0xC00000 ≤ off && off < 0xC00240 then !pt.hasPcn ((off - 0xC00000) / 8)
   else if 0xC00420 ≤ off && off < 0xC00460 then !pt.hasCascade
   else if 0xC01100 ≤ off && off < 0xC01300 then pt.cores ≤ (off - 0xC01100) / 8
   else if 0xC01400 ≤ off && off < 0xC01640 then !pt.hasPcn ((off - 0xC01400) / 8)
   else false)

/-- The bits of a register that a read returns: those of fields other than WO (R19). -/
def RegDesc.readable (d : RegDesc) : BitVec 64 :=
  d.fields.foldl (fun m f => if f.ty = .wo then m else m ||| fmask f.hi f.lo) 0

/-- The number of a Bool. -/
def b01 (b : Bool) : Nat := if b then 1 else 0

/-- STATE of EVR_CTX[n] (R166). -/
def CtxState.code : CtxState → Nat
  | .none => 0
  | .parked => 1
  | .ready => 2
  | .running => 3
  | .waiting => 4
  | .spilled => 5

/-- WAITKIND of CTX_SLOT[s]. -/
def Wait.kind : Wait → Nat
  | .timer _ => 1
  | .doorbell _ => 2
  | .message _ => 3
  | .transfer _ _ => 4
  | .position _ _ => 5
  | .crossing _ => 5
  | .outcome _ => 6
  | .alloc _ => 7

/-- EVR_CTX[n] (R168). -/
def State.viewCtx (s : State) (n : Nat) : BitVec 64 :=
  let c := s.ctx n
  setFld (setFld (setFld (setFld (setFld (setFld (setFld 0 63 61 c.st.code) 60 58
    (if c.st = .spilled then c.resume.resumeCode else 0)) 57 52 c.hall) 51 49 c.prio) 48 48 (b01 c.fillPending)) 47 44 c.result)
    43 32 (if c.st = .none || c.st = .spilled then 0 else c.hcn)

/-- CTX_SLOT[s] of the slot with an HCN. -/
def State.viewSlot (s : State) (n : Nat) : BitVec 64 :=
  let x := s.slot n
  match x.scn with
  | none => setFld 0 47 42 x.owner
  | some scn =>
    let c := s.ctx scn
    setFld (setFld (setFld (setFld (setFld (setFld 0 63 48 scn) 47 42 x.owner) 41 39 c.prio) 38 35 c.st.code) 34 31
      (match c.wait with
        | none => 0
        | some w => w.kind)) 30 30 (b01 (s.specOf scn).isSome)

/-- CORE_STATE of a core slot. -/
def State.viewCore (s : State) (p : Nat) : BitVec 64 :=
  match (s.core p).halt with
  | some k => setFld (setFld 0 7 4 k) 1 0 2
  | none => setFld 0 1 0 (if s.rf (Reg.seedSlot p) 63 61 = 2 then 3 else 1)

/-- A register of a core slot's block. -/
def State.viewCoreReg (s : State) (off : Nat) : BitVec 64 :=
  let p := offPcn off
  let o := (off - 0x100000) % 0x10000
  if o = 0x7E00 then s.viewCore p
  else if 0x8000 ≤ o && o < 0x8200 then
    match s.hcnAt p ((o - 0x8000) / 8) with
    | some n => s.viewSlot n
    | none => 0
  else if 0x8400 ≤ o && o < 0x8600 then
    match s.hcnAt p ((o - 0x8400) / 8) with
    | some n => setFld 0 6 0 (s.slot n).dirty.toNat
    | none => 0
  else s.reg off

/-- STATE of a bin. -/
def BinState.code : BinState → Nat
  | .closed => 0
  | .opened => 1
  | .fromSet => 2

/-- BIN_ENTRY[n]. -/
def State.viewBin (s : State) (n : Nat) : BitVec 64 :=
  let b := s.bin n
  setFld (setFld (setFld (setFld (setFld (setFld (setFld (setFld 0 63 58 b.hall) 57 54 b.kind.code) 53 52 b.state.code) 51 49
    b.age) 48 48 (b01 b.stays)) 47 40 b.epoch) 39 24 b.live) 15 0 ((b.top + 63) / 64)

/-- PHASE of GL_EPOCH[h]. -/
def Phase.code : Phase → Nat
  | .idle => 0
  | .arm => 1
  | .flip => 2
  | .trace => 3
  | .finish => 4

/-- GL_EPOCH[h]. -/
def State.viewEpoch (s : State) (h : Nat) : BitVec 64 :=
  let g := s.glh h
  setFld (setFld (setFld (setFld (setFld (setFld (setFld 0 63 32 g.cycles.toNat) 31 28 g.phase.code) 27 27 (b01 g.full)) 26 26
    (b01 g.goodO)) 25 25 (b01 g.goodY)) 24 24 (b01 g.marking)) 22 16 g.flipAcks.length

/-- GL_HSTAT[h]. -/
def State.viewGlHstat (s : State) (h : Nat) : BitVec 64 :=
  let g := s.glh h
  setFld (setFld (setFld (setFld (setFld 0 63 50 (s.binsUsed h)) 47 44 g.raReason) 39 24 (sat 16 g.raCount)) 23 8
    (sat 16 g.exhCount)) 7 1 (sat 7 g.logStall)

/-- A register of the Gleaner's block. -/
def State.viewGl (s : State) (off : Nat) : BitVec 64 :=
  if 0x610000 ≤ off then s.viewBin ((off - 0x610000) / 8)
  else if 0x600400 ≤ off && off < 0x600600 then s.viewEpoch ((off - 0x600400) / 8)
  else if 0x600C00 ≤ off && off < 0x600E00 then s.viewGlHstat ((off - 0x600C00) / 8)
  else s.reg off

/-- STATE of GAL_SPEC[i]. -/
def SpecState.code : SpecState → Nat
  | .free => 0
  | .opened => 1
  | .crossed => 2
  | .publishing => 3

/-- GAL_SPEC[i]. -/
def State.viewSpec (s : State) (i : Nat) : BitVec 64 :=
  let g := s.galr i
  if g.st = .free then 0
  else setFld (setFld (setFld (setFld (setFld (setFld (setFld (setFld 0 63 61 g.st.code) 60 55 g.hall) 54 39 g.scn) 38 38
    (b01 g.item.isSome)) 37 37 (b01 g.remote)) 36 36 (b01 g.conflict)) 35 22 g.seq) 12 0 g.lines.length

/-- Speculations held under R400. -/
def State.galHeld (s : State) : Nat :=
  (s.gal.filter (fun (_, g) => g.st = .crossed && g.remote && s.suspect)).length

/-- A register of the Gallery's block. -/
def State.viewGal (s : State) (off : Nat) : BitVec 64 :=
  if off = Reg.galStat then
    setFld (setFld (setFld 0 42 32 (s.gal.filter (fun (_, g) => g.st ≠ .free)).length) 31 16
      (s.gal.foldl (fun n (_, g) => n + g.lines.length) 0)) 10 0 s.galHeld
  else if 0x800100 ≤ off && off < 0x800140 then setFld (s.reg off) 12 0 (s.sliceUsed ((off - 0x800100) / 8))
  else if 0x800400 ≤ off && off < 0x800600 then setFld (s.reg off) 15 0 (s.galUsed ((off - 0x800400) / 8))
  else if 0x810000 ≤ off && off < 0x814000 then
    let i := (off - 0x810000) / 16
    if off % 16 = 0 then s.viewSpec i else if (s.galr i).st = .free then 0 else (s.galr i).key
  else s.reg off

/-- Context-store slots that a hall owns: slots that are not listed belong to hall 0. -/
def State.ownedSlots (s : State) (h : Nat) : Nat :=
  if h = 0 then s.part.cores * 64 - (s.slots.filter (fun (_, x) => x.owner ≠ 0)).length
  else (s.slots.filter (fun (_, x) => x.owner = h)).length

/-- HALL_STATE[h]. -/
def State.viewHall (s : State) (h : Nat) : BitVec 64 :=
  let ops := (s.xe.filter (fun o => o.hall = h && o.counted)).length
  let spec := (s.gal.filter (fun (_, g) => g.st ≠ .free && g.hall = h)).length
  setFld (setFld (setFld (setFld (s.reg (Reg.hallState h)) 48 35 ops) 34 24 (s.netOps h)) 23 13 spec) 12 0 (s.ownedSlots h)

/-- A register of the halls' block. -/
def State.viewHalls (s : State) (off : Nat) : BitVec 64 :=
  if 0xD00200 ≤ off && off < 0xD00400 then s.viewHall ((off - 0xD00200) / 8)
  else if 0xD00600 ≤ off && off < 0xD00800 then
    setFld (s.reg off) 63 63 (b01 (s.hstate ((off - 0xD00600) / 8) = 3))
  else if off = Reg.hallSlotStat then setFld (s.reg off) 52 40 s.slotsPending
  else s.reg off

/-- A register of a hall page or of the host windows. -/
def State.viewXe (s : State) (off : Nat) : BitVec 64 :=
  let h := (off - 0x900000) / 0x4000
  let o := (off - 0x900000) % 0x4000
  if o = 0 then setFld (s.reg off) 63 61 (s.hstate h)
  else if h ≠ 0 && o = 0x1800 then setFld (s.reg off) 31 31 (b01 (s.boxBusy (some h)))
  else s.reg off

/-- DEV_STRAPS (R526). -/
def State.viewStraps (s : State) : BitVec 64 :=
  setFld (setFld (setFld (setFld (s.reg Reg.devStraps) 63 62 s.part.bootSrc.toNat) 61 59 s.part.cascId.toNat) 58 58
    (b01 s.part.legacyN)) 57 57 (b01 s.part.patchWe)

/-- DEV_ALERT with its live bits (R534). -/
def State.viewAlert (s : State) : BitVec 64 :=
  setFld (setFld (setFld (s.reg Reg.devAlert) 5 5 (b01 (s.devState ≠ 3))) 3 3 (b01 (s.rf Reg.devTherm 19 18 = 2))) 1 1
    (s.rf Reg.seedStat 63 63)

/-- A register of the DEV_* block. -/
def State.viewDev (s : State) (off : Nat) : BitVec 64 :=
  if off = Reg.devFeatures then s.part.features
  else if off = Reg.devDt then s.dt
  else if off = Reg.devStraps then s.viewStraps
  else if off = Reg.devAlert then s.viewAlert
  else if off = Reg.devPatchStat then setFld (s.reg off) 29 29 (b01 s.patchGate)
  else if off = Reg.devMbCtrl then setFld (s.reg off) 31 31 (b01 (s.boxBusy none))
  else s.reg off

/-- CASC_STATE. -/
def State.viewCasc (s : State) (off : Nat) : BitVec 64 :=
  if off = Reg.cascState then
    (List.range 8).foldl (fun v p => setFld v (42 + p) (42 + p) (b01 (s.cascPresent p))) (s.reg off)
  else s.reg off

/-- FREC_STAT and FREC_RDATA (R511 to R514), AGE_LANE of a lane that is not trained (R501), and the other registers of the
service block. -/
def State.viewSvc (s : State) (off : Nat) : BitVec 64 :=
  let r := s.recorder
  if off = Reg.frecStat then
    setFld (setFld (setFld (setFld 0 63 48 r.next) 47 32 (r.frozen.getD 0)) 31 31 (b01 r.frozen.isSome)) 15 0 (sat 16 r.lost)
  else if Reg.ageLane 0 ≤ off && off ≤ Reg.ageLane 11 && !s.laneTrained ((off - Reg.ageLane 0) / 8) then setFld 0 31 16 0xFFFF
  else if Reg.frecRdata 0 ≤ off && off ≤ Reg.frecRdata 3 then
    s.mramWord (32 * s.rf Reg.frecRidx 15 0 + (off - Reg.frecRdata 0))
  else s.reg off

/-- What a register shows before access types apply. -/
def State.view (s : State) (off : Nat) : BitVec 64 :=
  if off < 0x100000 then s.viewDev off
  else if off < 0x600000 then s.viewCoreReg off
  else if off < 0x700000 then s.viewGl off
  else if off < 0x800000 then s.reg off
  else if off < 0x900000 then s.viewGal off
  else if off < 0xA00000 then s.viewXe off
  else if off < 0xB00000 then s.reg off
  else if off < 0xC00000 then s.viewCasc off
  else if off < 0xD00000 then s.viewSvc off
  else if off < 0xE00000 then s.viewHalls off
  else if 0xE80000 ≤ off then s.viewCtx ((off - 0xE80000) / 8)
  else s.reg off

/-- The value a register reads as (R6, R19). -/
def State.regValue (s : State) (off : Nat) : BitVec 64 :=
  match regDesc off with
  | none => 0
  | some d => if s.absentUnit off then 0 else s.view off &&& d.readable

/-- A function answers accesses: the link is up, it is in D0, and a VF is enabled (R419, R430, R527). -/
def State.fnAnswers (s : State) (who : Initiator) : Bool :=
  match who with
  | .pf => s.linkUp && !s.d3hot.contains 0
  | .vf h => s.linkUp && s.vfOn h && !s.d3hot.contains h
  | .jtag => s.jtagUnlocked
  | _ => true

/-- The initiator reaches the address: the PF below 0xF0_0000, a VF its own page (spec/14_host_pcie.md, BARs). -/
def initReaches (who : Initiator) (off : Nat) : Bool :=
  match who with
  | .pf => off < 0xF00000
  | .vf h => 0x900000 + 0x4000 * h ≤ off && off < 0x904000 + 0x4000 * h
  | _ => true

/-- A read of the process image by a hall: lanes outside its windows read zero, and the access counts (R470). -/
def State.readImage (s : State) (h off : Nat) : BitVec 64 × State :=
  let out := 0xA12000 ≤ off
  let lanes := s.pdLanes h ((off - (if out then 0xA12000 else 0xA10000)) / 8) out
  (s.regValue off &&& lanes, if ~~~lanes = 0 then s else s.pdViolation h)

/-- The DEV_PATCH_* registers are stair-2 only (R240): a context at another stair reads zero (log entry 61). -/
def patchHidden (who : Initiator) (off : Nat) : Bool :=
  let reg := off = Reg.devPatchCtrl || off = Reg.devPatchStat || off = Reg.devPatchData ||
    (Reg.devPatchMatch 0 ≤ off && off ≤ Reg.devPatchMatch 63)
  match who with
  | .ctx _ stair => reg && stair ≠ 2
  | _ => false

/-- A read of a control register by an initiator. -/
def State.readReg (s : State) (who : Initiator) (off : Nat) : BitVec 64 × State :=
  if !s.fnAnswers who || !initReaches who off || patchHidden who off then (0, s)
  else if 0xE80000 ≤ off && off < 0xF00000 then
    let h := (s.ctx ((off - 0xE80000) / 8)).hall
    match who with
    | .ctx scn _ => (if (s.ctx scn).hall = 0 || (s.ctx scn).hall = h then s.regValue off else 0, s)
    | _ => (s.regValue off, s)
  else if 0xA10000 ≤ off && off < 0xA13000 then
    match s.pdHall who with
    | some h => s.readImage h off
    | none => (s.regValue off, s)
  else (s.regValue off, s)

end Sys2Proof.Machine
end

