-- ==== Sys2Proof/Machine/Ctl.lean ====
section
/-! DEFINITION. Writes of control registers by an initiator (R6, R21, R31 to R36, R545): the dispatch of a write to its block,
posted writes, and abandoned accesses. -/

namespace Sys2Proof.Machine

/-- A write of DEV_ERRSUM. -/
def State.errsumWrite (s : State) (mask v : BitVec 64) : State :=
  let (act, s) := s.store64 Reg.devErrsum mask v
  if bit act 16 then s.clearFields Reg.devErrsum [(63, 48), (47, 32), (31, 24)] else s

/-- A write of DEV_XSTAT: clearing VALID also clears COUNT (R37). -/
def State.xstatWrite (s : State) (mask v : BitVec 64) : State :=
  let was := s.rf Reg.devXstat 63 63
  let s := s.plain Reg.devXstat mask v
  if was = 1 && s.rf Reg.devXstat 63 63 = 0 then s.setRf Reg.devXstat 15 0 0 else s

/-- A write of a DEV_* register. -/
def State.devWrite (s : State) (who : Initiator) (off : Nat) (mask v : BitVec 64) : State :=
  if 0x80000 ≤ off then s.boxWrite who none off mask v
  else if off = Reg.devReset then
    s.resetWrite who mask v ⟨s.part.bootSrc, s.part.cascId, s.part.legacyN⟩
  else if off = Reg.devCoreRst then s.coreRstWrite who mask v
  else if off = Reg.devState then s.stateWrite who mask v
  else if off = Reg.devBootHost then s.gate (who = .pf) who off (s.plain off mask v)
  else if off = Reg.devBootCtrl then s.bootCtrlWrite who mask v
  else if off = Reg.devAlert then s.alertWrite who mask v
  else if off = Reg.devTherm then s.thermWrite who mask v
  else if 0x100 ≤ off && off < 0x400 then (s.patchWrite who off mask v).announceLevel s
  else if 0x400 ≤ off && off < 0x430 then s.gate (s.kernelOrPf who) who off (s.plain off mask v)
  else s.gate (s.privileged who) who off <|
    if 0x1000 ≤ off then s.memRegWrite off mask v
    else if off = Reg.devErrsum then s.errsumWrite mask v
    else if off = Reg.devXstat then s.xstatWrite mask v
    else s.plain off mask v

/-- A write of CORE_STH_BASE (R220). -/
def State.sthBaseWrite (s : State) (off : Nat) (mask v : BitVec 64) : State :=
  let n := (s.reg off &&& ~~~mask) ||| (v &&& mask)
  if mask &&& fmask 39 0 = 0 then s.plain off mask v
  else if s.rf off 63 63 = 1 || bit n 0 || s.part.memSize ≤ fld n 39 0 then s.countReg off
  else (s.plain off mask v).setRf off 63 63 1

/-- A write of a register of a core slot's block (R26, R545). -/
def State.coreWrite (s : State) (who : Initiator) (off : Nat) (mask v : BitVec 64) : State :=
  let p := offPcn off
  let o := (off - 0x100000) % 0x10000
  s.gate (s.privileged who) who off <|
    if o = 0x7E08 then s.sthBaseWrite off mask v
    else if 0x7000 ≤ o && o < 0x7060 then s.cribWrite p off mask v
    else if o = 0x7D00 then
      let (act, s) := s.store64 off mask v
      if bit act 0 then s.clearFields off [(63, 48), (47, 32), (31, 16)] else s
    else s.plain off mask v

/-- The context command with an OP of EVR_CTX_CMD (R168). -/
def ctxOpOf : Nat → Option CtxOp
  | 1 => some .fill
  | 2 => some .spill
  | 3 => some .park
  | 4 => some .resume
  | 5 => some .setprio
  | 6 => some .post
  | 7 => some .cancel
  | 8 => some .create
  | 9 => some .retire
  | _ => none

/-- A write of EVR_CTX_CMD (R168, R169): a refused initiator's is ignored and reported whole (R545); a reserved OP, and reserved
bits, are counted. A 32-bit write of the low half names no command and does nothing, and one of the upper half runs its OP with
ARG 0 (log entry 50). -/
def State.ctxCmdWrite (s : State) (who : Initiator) (mask v : BitVec 64) : State :=
  let x := v &&& mask
  let scn := fld x 59 44
  let may := fun op => if mask &&& fmask 63 60 = 0 then s.kernelOrPf who || s.isCtxOf who (s.initHall who)
    else s.mayCommand who op scn
  match ctxOpOf (fld x 63 60) with
  | none => s.gate (may .fill) who Reg.evrCtxCmd <|
      if mask &&& fmask 63 60 = 0 && fld x 43 32 = 0 then s else s.countReg Reg.evrCtxCmd
  | some op => s.gate (may op) who Reg.evrCtxCmd <|
      (if fld x 43 32 = 0 then s else s.countReg Reg.evrCtxCmd).ctxApply who op scn (fld x 31 0)

/-- The watchdog of hall h counts from now (R213). -/
def State.restartWdog (s : State) (h : Nat) : State := { s with wdogFrom := put 0 s.wdogFrom h s.dt.toNat }

/-- A write of EVR_ALERT_ROUTE[h] (R213, R423). -/
def State.alertRouteWrite (s : State) (who : Initiator) (h : Nat) (mask v : BitVec 64) : State :=
  let off := Reg.evrAlertRoute h
  s.gate (s.kernelOrPf who || s.isCtxOf who h) who off <|
    if h ≠ 0 && s.resetting h then s.countReg off
    else
      let was := s.rf off 15 0
      let (act, s) := s.store64 off mask v
      if bit act 16 || s.rf off 15 0 ≠ was then s.restartWdog h else s

/-- A write of an EVR_* register. -/
def State.evrWrite (s : State) (who : Initiator) (off : Nat) (mask v : BitVec 64) : State :=
  if off = Reg.evrCtxCmd then s.ctxCmdWrite who mask v
  else if 0xE01000 ≤ off && off < 0xE01200 then s.alertRouteWrite who ((off - 0xE01000) / 8) mask v
  else s.gate (s.privileged who) who off (s.plain off mask v)

/-- A write of a register that its address names. -/
def State.blockWrite (s : State) (who : Initiator) (off : Nat) (mask v : BitVec 64) : State :=
  if off < 0x100000 then s.devWrite who off mask v
  else if off < 0x600000 then s.coreWrite who off mask v
  else if off < 0x700000 then s.glWrite who off mask v
  else if off < 0x800000 then s.webWrite who off mask v
  else if off < 0x900000 then s.galWrite who off mask v
  else if off < 0xA00000 then s.pageWrite who off mask v
  else if off < 0xB00000 then s.eclWrite who off mask v
  else if off < 0xC00000 then s.cascWrite who off mask v
  else if off < 0xD00000 then s.svcWrite who off mask v
  else if off < 0xE00000 then s.hallWrite who off mask v
  else s.evrWrite who off mask v

/-- A register of a function refuses the write as a whole (R362, R389, R415, R469, R472). -/
def State.refusesWhole (s : State) (off : Nat) (mask v : BitVec 64) : Bool :=
  let n := (s.reg off &&& ~~~mask) ||| (v &&& mask)
  if 0x800C00 ≤ off && off < 0x800E00 then bit n 63 && !s.mirrorOk (instOf off 0x800C00 8) n
  else if 0xD00C00 ≤ off && off < 0xD00E00 then !s.pdwinOk (instOf off 0xD00C00 8) n
  else if 0x751000 ≤ off && off < 0x751200 && off % 0x40 = 0 then fld n 55 44 < fld n 43 32
  else if off = Reg.eclCfg then mask &&& fmask 63 62 ≠ 0 && (fld n 63 62 = 1 || fld n 63 62 = 2) && s.lineBad
  else if off = Reg.eclDcOfs || (Reg.eclFt 0 ≤ off && off ≤ Reg.eclFt 63) then s.lineOn
  else false

/-- State `t` after a write made in state s, with the override flag that follows an accepted write (R456). -/
def State.flagged (s t : State) (who : Initiator) (off : Nat) (mask v : BitVec 64) : State :=
  if s.refusesWhole off mask v then t else t.override who off mask

/-- A write applied in its home domain: an absent unit or an address of no register is counted (R6, R44). -/
def State.applyReg (s : State) (who : Initiator) (off : Nat) (mask v : BitVec 64) : State :=
  if !s.fnAnswers who || !initReaches who off then s
  else if (regDesc off).isNone || s.absentUnit off then s.countReg off
  else s.flagged (s.blockWrite who off mask v) who off mask v

/-! Posted writes (R31, R33). -/

/-- The home domain of an offset: the barn of a core slot's block, or the domain of the register's map (R27). -/
def homeKey (off : Nat) : Nat :=
  match regDesc off with
  | none => 0
  | some d => match d.home with
    | .core => 10 + offPcn off / 9
    | .fab => 0
    | .mem => 1
    | .pcie => 2
    | .net => 3
    | .tb => 4
    | .casc => 5
    | .aon => 6

/-- A write that waits in its queue (R242). -/
def State.stalled (s : State) (off : Nat) : Bool := s.patchBusy && (off = Reg.devPatchCtrl || off = Reg.devPatchData)

/-- A posted write of an initiator to a home domain. -/
def Posted.of (w : Posted) (who : Initiator) (home : Nat) : Bool := w.who.same who && homeKey w.off = home

/-- Applies posted writes of an initiator to a home domain, oldest first, up to the one that is `last`: whether that one was
applied, and the state. -/
def State.drainPosted (s : State) (who : Initiator) (home : Nat) (last : Posted → Bool) : Nat → Bool × State
  | 0 => (false, s)
  | n + 1 =>
    match s.posted.find? (fun w => w.of who home) with
    | none => (false, s)
    | some w =>
      if s.stalled w.off then (false, s)
      else
        let s := ({ s with posted := s.posted.erase w }).applyReg w.who w.off w.mask w.value
        if last w then (true, s) else s.drainPosted who home last n

/-- A write of an initiator (R31, R33): its earlier posted writes of the same home domain come first; the write itself is
taken from the queue if it was posted. -/
def State.writeReg (s : State) (who : Initiator) (off : Nat) (mask v : BitVec 64) : State :=
  let home := homeKey off
  let (done, s) := s.drainPosted who home (fun w => w.off = off && w.mask = mask && w.value = v) s.posted.length
  if done then s
  else if s.stalled off || s.posted.any (fun w => w.of who home) then
    { s with posted := s.posted ++ [⟨who, off, mask, v, s.initCode who, s.initHall who⟩] }
  else s.applyReg who off mask v

/-- A write of all 64 bits. -/
def State.write64 (s : State) (who : Initiator) (off : Nat) (v : BitVec 64) : State := s.writeReg who off full64 v

/-- An initiator's posted writes to a home domain, applied as far as none of them waits in its queue. -/
def State.drainAll (s : State) (who : Initiator) (home : Nat) : State :=
  (s.drainPosted who home (fun _ => false) s.posted.length).2

/-- A read of an initiator: its earlier writes to the domain are applied first (R33); none while one of them waits in its
queue (R242). -/
def State.readAfter (s : State) (who : Initiator) (off : Nat) : Option (BitVec 64) × State :=
  let s := s.drainAll who (homeKey off)
  if s.posted.any (fun w => w.of who (homeKey off)) then (none, s)
  else
    let (v, s) := s.readReg who off
    (some v, s)

/-- The initiators whose writes to DEV_PATCH_CTRL or DEV_PATCH_DATA wait (R242), oldest first. -/
def State.stalledWriters (s : State) : List Initiator :=
  (s.posted.filter (fun w => w.off = Reg.devPatchCtrl || w.off = Reg.devPatchData)).map Posted.who

/-- BUSY of DEV_PATCH_STAT has cleared: the writes that waited are applied in order (R242). -/
def State.releaseWrites (s : State) : State :=
  if s.patchBusy then s else s.stalledWriters.foldl (fun s who => s.drainAll who (homeKey Reg.devPatchCtrl)) s

/-- A posted write is abandoned (R36, R499): the one that waits in a queue, or the one that the command itself brings. -/
def State.abandonWrite (s : State) (who : Initiator) (off : Nat) : State :=
  let (i, s) := match s.posted.find? (fun w => w.who.same who && w.off = off) with
    | none => s.abandoned who off true
    | some w => { s with posted := s.posted.erase w }.abandonedAs w.code w.hall (initScn who) off true
  match who with
  | .ctx scn _ => s.alertCtx scn 0x20 (fixN i)
  | _ => s

end Sys2Proof.Machine
end

