-- ==== Sys2Proof/Machine/Device.lean ====
section
/-! DEFINITION. Accesses of a context outside MEMORY: control registers (R18, R31, R32), the Failure Recorder MRAM (R511) and
the host window (R434). -/

namespace Sys2Proof.Machine

/-- Base of the MRAM (R42). -/
def mramBase : Nat := 0x4010000000

/-- The running context as an initiator. -/
def State.initiator (s : State) (r : Run) : Initiator := .ctx r.scn (stStair (s.status r))

/-- The host address of a HOSTWIN address, through the slice it lies in (R434): none when no request is issued. -/
def State.hostAddr (s : State) (pa : Nat) : Option (Nat × Nat) :=
  let h := pa / 2 ^ 32 - 0x80
  let o := pa % 2 ^ 32
  if s.part.hallMax < h || !s.requests h || 4096 * s.rf (Reg.xeHwLen h) 32 12 ≤ o then none
  else some (h, (4096 * s.rf (Reg.xeHwBase h) 63 12 + o) % 2 ^ 64)

/-- The report of a host-window error (R434). -/
def State.hostWindowError (s : State) (r : Run) (pa : Nat) (store : Bool) : Nat × State :=
  s.report { code := 0x063, cls := .contained, source := 7, hall := r.hall, scn := r.scn, addr := pa,
             detail := if store then 1 else 0 }

/-- A load from the host window: none raises BUS_ERROR. The host's completion is a free value: an error, a poisoned completion
or data (log entry 9). -/
def State.hostLoad (s : State) (r : Run) (pa : Nat) : Option Word × State :=
  match s.hostAddr pa with
  | none => (none, s)
  | some (h, a) =>
    let (f, s) := (s.request h (.hostRead h a 8)).freeAt a
    match f % 3 with
    | 0 => (none, (s.hostWindowError r pa false).2)
    | 1 =>
      let (i, s) := s.hostWindowError r pa false
      (some (poisonWord i), s)
    | _ => (some (raw (BitVec.ofNat 64 (f / 3))), s)

/-- A store to the host window is dropped (R434, R499). -/
def State.hostDrop (s : State) (r : Run) (pa : Nat) : State :=
  let (i, s) := s.hostWindowError r pa true
  s.alertCtx r.scn 0x20 (fixN i)

/-- A store to the host window: one posted write of the payload. -/
def State.hostStore (s : State) (r : Run) (pa : Nat) (v : BitVec 64) : State :=
  match s.hostAddr pa with
  | none => s.hostDrop r pa
  | some (h, a) =>
    s.request h (.hostWrite h a ((List.range 8).map (fun k => v.extractLsb' (8 * k) 8)))

/-- An access to the MRAM that is not a load by stair-2 code is counted (R511). -/
def State.countMram (s : State) (pa : Nat) : State := s.countRsv 3 (pa - mramBase)

/-- What a load outside MEMORY brings: a word, BUS_ERROR, or nothing yet (R33, R242). -/
inductive Reply where
  | word (w : Word)
  | error
  | wait
  deriving DecidableEq, Repr

/-- A word, or BUS_ERROR for none. -/
def Reply.of : Option Word → Reply
  | some w => .word w
  | none => .error

/-- Contents of the MRAM whose layout spec/ does not give (R511; log entry 39): the service log and monitor history, and the
user parameter store. -/
def mramOpen (o : Nat) : Bool := (0x210000 ≤ o && o < 0x220000) || (0x400000 ≤ o && o < 0x800000)

/-- A load of a word of the MRAM (R511). -/
def State.mramLoad (s : State) (o : Nat) : BitVec 64 × State :=
  if mramOpen o then
    let (f, s) := s.freeAt o
    (BitVec.ofNat 64 f, s)
  else (s.mramWord o, s)

/-- A load outside MEMORY. -/
def State.devLoad (s : State) (r : Run) (pa : Nat) : Reply × State :=
  match regionOf s.part pa with
  | .mram =>
    if stStair (s.status r) = 2 then
      let (w, s) := s.mramLoad (pa - mramBase)
      (.word (raw w), s)
    else (.word (raw 0), s.countMram pa)
  | .hostwin =>
    let (w, s) := s.hostLoad r pa
    (.of w, s)
  | _ =>
    match s.readAfter (s.initiator r) (pa - deviceBase) with
    | (some v, s) => (.word (raw v), s)
    | (none, s) => (.wait, s)

/-- A store outside MEMORY; a store to a control register is posted (R31). -/
def State.devStore (s : State) (r : Run) (pa : Nat) (v : BitVec 64) : State :=
  match regionOf s.part pa with
  | .mram => s.countMram pa
  | .hostwin => s.hostStore r pa v
  | _ =>
    let who := s.initiator r
    { s with posted := s.posted ++ [⟨who, pa - deviceBase, full64, v, s.initCode who, s.initHall who⟩] }

end Sys2Proof.Machine
end

