-- ==== Sys2Proof/Machine/Access.lean ====
section
/-! DEFINITION. Data accesses of a context (R109, R112, R113, R194): loads and stores with barriers and speculation. -/

namespace Sys2Proof.Machine

/-- Barriers act for a context (R112, R194, R225). -/
def State.barriers (s : State) (r : Run) : Bool := !s.compat r.hall && !stToff (s.status r)

/-- The repair of a stale pointer that an instruction takes in, as the ROM's routine performs it (R324), and the heal. Yield
points follow each 64 bytes copied and the heal (R227): `n`: the one at which an interrupt comes, 0 for none, with the copy and
the heal so far kept and PC on the instruction (R238). -/
def State.repairRom (s : State) (r : Run) (h : Nat) (va : BitVec 64) (w : Word) (n : Nat) (heal : Word → State → State) :
    Res Word :=
  let ahead := s.copyAhead (.core r.p) h w
  let blocks := match ahead with
    | some (_, _, hdr, _) => objSize w.type hdr / 64
    | none => 0
  match ahead, decide (0 < n ∧ n ≤ blocks) with
  | some (pa, d, _, t), true => .stop (t.partCopy (.core r.p) h pa d n)
  | _, _ =>
    match s.checkPtr (.core r.p) h w true with
    | (none, s) => .ok w s
    | (some (.good v), s) => if n = blocks + 1 then .stop (heal v s) else .ok v (heal v s)
    | (some (.assist k), s) => .trap { mkTrap 0x12 va w with ra := some (h, k) } s

/-- The loaded-value barrier of an instruction of hall h on a word (R323): a stale pointer goes through the routine of its core.
Whether an interrupt comes at a yield point, and at which, is a free value (log entry 59). `again`: what the instruction takes
after a routine that a patch redirects. -/
def State.coreBarrier (s : State) (r : Run) (h : Nat) (va : BitVec 64) (w : Word) (heal : Word → State → State)
    (again : State → Res Word) : Res Word :=
  if !s.staleRef (.core r.p) h w then .ok w s
  else
    let (n, s) := s.freeNat
    match s.routine r .barrier va (if n = 0 then none else some n) with
    | some e => e.part.bind fun _ s => again s
    | none => s.repairRom r h va w n heal

/-- The barrier of a pointer that no slot holds: nothing is healed, and what a redirected routine leaves stale is repaired as
R324 says (log entry 58). -/
def State.slotlessBarrier (s : State) (r : Run) (h : Nat) (va : BitVec 64) (w : Word) : Res Word :=
  s.coreBarrier r h va w (fun _ s => s) (fun s => s.repairRom r h va w 0 (fun _ s => s))

/-- A stale pointer read from a MEMORY word, repaired and healed where it was read (R324); `tent`: in the Gallery line
of speculation i. -/
def State.barrierRead (s : State) (r : Run) (va : BitVec 64) (pa : Nat) (w : Word) (tent : Option Nat) : Res Word :=
  s.coreBarrier r r.hall va w
    (fun v s => match tent with
      | some i => if s.tentative i pa = some w then s.setTentative i pa v else s
      | none => if s.memWord pa = w then s.coreHeal r.p pa v else s)
    (fun s => .ok ((tent.bind (fun i => s.tentative i pa)).getD (s.memWord pa)) s)

/-- A word of MEMORY read by a context, inside or outside a speculation (R385). -/
def State.readMem (s : State) (r : Run) (va : BitVec 64) (pa : Nat) (bar : Bool) : Res Word :=
  match s.specOf r.scn with
  | none =>
    let (w, s) := s.coreLoad r.p .mut pa
    if bar then s.barrierRead r va pa w none else .ok w s
  | some i =>
    match s.takeLine i pa with
    | none => .hold (s.countStall r.hall)
    | some s =>
      match s.tentative i pa with
      | some w => if bar then s.barrierRead r va pa w (some i) else .ok w s
      | none =>
        let (w, s) := s.coreLoad r.p .mut pa
        let s := s.setR i pa
        if bar then s.barrierRead r va pa w none else .ok w s

/-- A load with D(addr) and the loaded-value barrier (R109, R112, R129). `plain`: without the barrier. -/
def State.loadAt (s : State) (r : Run) (stair : Nat) (addr : Int) (stack plain : Bool) : Res Word :=
  let va := BitVec.ofInt 64 addr
  match s.dataPa r stair addr false stack with
  | .trap t => .trap t s
  | .pa pa =>
    if regionOf s.part pa = .memory then
      (s.readMem r va pa (s.barriers r && !plain)).bind fun w s => .ok (strip (s.compat r.hall) w) s
    else if (s.specOf r.scn).isSome then .hold s
    else match s.devLoad r pa with
      | (.word v, s) => .ok v s
      | (.error, s) => .trap (mkTrap 0x18 va (accessWord false false)) s
      | (.wait, s) => .stop s

/-- D(addr) of a store, with what the conversion of the write barrier raises: the physical address and the word. Nothing is
written. -/
def State.prepStore (s : State) (r : Run) (stair : Nat) (addr : Int) (stack : Bool) (w : Word) : Res (Nat × Word) :=
  let va := BitVec.ofInt 64 addr
  match s.dataPa r stair addr true stack with
  | .trap t => .trap t s
  | .pa pa =>
    if regionOf s.part pa = .memory then
      match s.specOf r.scn with
      | some i =>
        match s.takeLine i pa with
        | none => .hold (s.countStall r.hall)
        | some s => .ok (pa, w) s
      | none =>
        if s.barriers r then
          match s.convert (.core r.p) r.hall w with
          | (.good _, s) => .ok (pa, w) s
          | (.assist k, s) => .trap { mkTrap 0x12 va w with ra := some (r.hall, k) } s
        else .ok (pa, w) s
    else if (s.specOf r.scn).isSome then .hold s
    else .ok (pa, w) s

/-- A store of w with its logging, and then its conversion, which was prepared (R320). -/
def State.convertStore (s : State) (a : Agent) (req : CribReq) (h pa : Nat) (w : Word) (bar : Bool) : State :=
  match if bar then s.convert a h w else (.good w, s) with
  | (.good v, s) => s.storeLogged a req h pa w v bar
  | (.assist _, s) => s.storeLogged a req h pa w w bar

/-- The log entries that prepared stores write. -/
def State.logNeed (s : State) (r : Run) (l : List (Nat × Word)) : Nat :=
  if s.barriers r && (s.specOf r.scn).isNone then
    l.foldl (fun n (pa, w) => if regionOf s.part pa = .memory && w.isPtr then
        n + (s.logEntries (.core r.p) r.hall pa w (s.memWord pa)).length else n) 0
  else 0

/-- A prepared store writes log entries (R320). -/
def State.storeLogs (s : State) (r : Run) (pa : Nat) (w : Word) : Bool :=
  s.barriers r && (s.specOf r.scn).isNone && regionOf s.part pa = .memory && w.isPtr &&
    !(s.logEntries (.core r.p) r.hall pa w (s.memWord pa)).isEmpty

/-- The write barrier's slow path under a patch that redirects it (R227): for each prepared store, whether a routine has made its
log entries. A cause or a discard of the routine leaves the instruction with nothing stored (R236). -/
def State.logRoutines (s : State) (r : Run) : List (Nat × Word) → Res (List Bool)
  | [] => .ok [] s
  | (pa, w) :: l =>
    let here : Res Bool := match if s.storeLogs r pa w then s.routine r .log 0 none else none with
      | none => .ok false s
      | some e => e.part.bind fun _ s => .ok true s
    here.bind fun b s => (s.logRoutines r l).bind fun bs s => .ok (b :: bs) s

/-- Prepared stores find space in the core's log buffer of 64 entries, or stall on their instruction and count in LOGSTALL
(R321): for each store, whether a redirected routine has made its log entries. -/
def State.logReady (s : State) (r : Run) (l : List (Nat × Word)) : Res (List Bool) :=
  let need := s.logNeed r l
  if need = 0 then .ok (l.map (fun _ => false)) s
  else
    let s := s.emptyLog r.p
    let c := s.core r.p
    if c.logBuf.length + need ≤ 64 then
      (if c.logFull then s.setCore r.p { c with logFull := false } else s).logRoutines r l
    else if c.logFull then .stop s
    else
      let g := s.glh r.hall
      .stop ((s.setGl r.hall { g with logStall := g.logStall + 1 }).setCore r.p { c with logFull := true })

/-- The store of a prepared word (R129, R320, R385); `logged`: a redirected routine has made its log entries. -/
def State.commitStore (s : State) (r : Run) (pa : Nat) (w : Word) (logged : Bool := false) : State :=
  if regionOf s.part pa = .memory then
    let w := strip (s.compat r.hall) w
    match s.specOf r.scn with
    | some i => s.setTentative i pa w
    | none =>
      if logged then s.storeAs (.core r.p) .mut r.hall pa w false
      else s.convertStore (.core r.p) .mut r.hall pa w (s.barriers r)
  else s.devStore r pa w.payload

/-- A store with D(addr) and the write barrier. -/
def State.storeAt (s : State) (r : Run) (stair : Nat) (addr : Int) (stack : Bool) (w : Word) : Res Unit :=
  (s.prepStore r stair addr stack w).bind fun (pa, v) s =>
    (s.logReady r [(pa, v)]).bind fun bs s => .ok () (s.commitStore r pa v (bs.headD false))

/-- The load of a running context at its stair. -/
def State.load (s : State) (r : Run) (addr : Int) (stack : Bool := false) : Res Word :=
  s.loadAt r (stStair (s.status r)) addr stack false

/-- The store of a running context at its stair. -/
def State.store (s : State) (r : Run) (addr : Int) (w : Word) (stack : Bool := false) : Res Unit :=
  s.storeAt r (stStair (s.status r)) addr stack w

/-- Checks the stores of consecutive words (R125), in the order of the list. -/
def State.prepEach (s : State) (r : Run) (stack : Bool) : List (Int × Word) → Res (List (Nat × Word))
  | [] => .ok [] s
  | (a, w) :: rest =>
    (s.prepStore r (stStair (s.status r)) a stack w).bind fun x s =>
      (s.prepEach r stack rest).bind fun xs s => .ok (x :: xs) s

/-- Prepares the stores of consecutive words: their checks, and the space for what they log. -/
def State.prepStores (s : State) (r : Run) (stack : Bool) (l : List (Int × Word)) : Res (List ((Nat × Word) × Bool)) :=
  (s.prepEach r stack l).bind fun xs s => (s.logReady r xs).bind fun bs s => .ok (xs.zip bs) s

/-- Makes prepared stores. -/
def State.commitStores (s : State) (r : Run) : List ((Nat × Word) × Bool) → State
  | [] => s
  | ((pa, w), b) :: rest => (s.commitStore r pa w b).commitStores r rest

/-- Loads consecutive words in ascending address order. -/
def State.loadWords (s : State) (r : Run) (addr : Int) (stack : Bool) : Nat → Res (List Word)
  | 0 => .ok [] s
  | n + 1 => (s.load r addr stack).bind fun w s =>
    (s.loadWords r (addr + 8) stack n).bind fun ws s => .ok (w :: ws) s

end Sys2Proof.Machine
end

