-- ==== Sys2Proof/Machine/Encoding.lean ====
section
/-! DEFINITION. Encodings of the core instructions (spec/03_encodings.md): the parcels of an instruction, the checks of
decode (R86 to R98), and the decoder of parcels. -/

namespace Sys2Proof.Machine

/-- One instruction in its width. -/
inductive Raw where
  | half (v : BitVec 16)
  | full (v : BitVec 32)
  deriving DecidableEq, Repr

/-- The parcels of an instruction, first parcel first (R83). -/
def Raw.parcels : Raw → List (BitVec 16)
  | .half v => [v]
  | .full v => [v.extractLsb' 16 16, v.extractLsb' 0 16]

/-- Bytes of an instruction. -/
def Raw.bytes : Raw → Nat
  | .half _ => 2
  | .full _ => 4

/-- A 16-bit RR form (R84, R88). -/
def encRR (fn : BitVec 3) (rd rs : R4) : Raw := .half (0b00001#5 ++ fn ++ rd ++ rs)

/-- A 32-bit R form (R90, R93). -/
def encR (op : BitVec 6) (rd ra rb : R5) (fn : BitVec 10) : Raw := .full (1#1 ++ op ++ rd ++ ra ++ rb ++ fn)

/-- A 32-bit I form. -/
def encI (op : BitVec 6) (rd ra : R5) (imm : BitVec 15) : Raw := .full (1#1 ++ op ++ rd ++ ra ++ imm)

/-- GADD and GSUB. -/
def encArith (fn3 : BitVec 3) (fn10 : BitVec 10) : ArithForm → Raw
  | .rr rd rs => encRR fn3 rd rs
  | .r rd ra rb => encR 0x01 rd ra rb fn10

/-- GCMP and WCMP. -/
def encCmp (fn3 : BitVec 3) (fn10 : BitVec 10) : CmpForm → Raw
  | .rr rd rs => encRR fn3 rd rs
  | .r ra rb => encR 0x01 0 ra rb fn10

/-- MOV, CAR and CDR. -/
def encUnary (fn3 : BitVec 3) (op : BitVec 6) (fn10 : BitVec 10) : UnaryForm → Raw
  | .rr rd rs => encRR fn3 rd rs
  | .r rd ra => encR op rd ra 0 fn10

/-- GADDI. -/
def encAddImm : AddImmForm → Raw
  | .ri7 rd imm => .half (0b00101#5 ++ imm ++ rd)
  | .i rd ra imm => encI 0x02 rd ra imm

/-- LD and ST. -/
def encMem (op4 : BitVec 4) (op6 : BitVec 6) : MemForm → Raw
  | .ls rt rb off => .half (0#1 ++ op4 ++ off ++ rt ++ rb)
  | .i rd ra imm => encI op6 rd ra imm

/-- BNIL and BNNIL. -/
def encBnil (op4 : BitVec 4) (sense : BitVec 1) : BnilForm → Raw
  | .br7 rs disp => .half (0#1 ++ op4 ++ disp ++ rs)
  | .bn ra disp => .full (1#1 ++ 0x0A#6 ++ ra ++ sense ++ disp)

/-- The instruction REP repeats. -/
def repRaw : RepOp → Raw
  | .nop => .half 0x0001
  | .mov f => encUnary 0 0x01 0x006 f
  | .car f => encUnary 1 0x18 0x001 f
  | .cdr f => encUnary 2 0x18 0x002 f
  | .gadd f => encArith 3 0x001 f
  | .gsub f => encArith 4 0x002 f
  | .gmul rd ra rb => encR 0x01 rd ra rb 0x003
  | .gaddi f => encAddImm f

/-- A truth value as one bit. -/
def bit1 (b : Bool) : BitVec 1 := if b then 1 else 0

/-- The encoding of a core instruction (R86 to R93); of REP the parcel of the prefix. None for the other commands. -/
def rawOf : Instr → Option Raw
  | .gadd _ f => some (encArith 3 0x001 f)
  | .gsub _ f => some (encArith 4 0x002 f)
  | .gmul _ rd ra rb => some (encR 0x01 rd ra rb 0x003)
  | .gaddi _ f => some (encAddImm f)
  | .gcmp _ f => some (encCmp 5 0x004 f)
  | .wcmp _ f => some (encCmp 6 0x005 f)
  | .mov _ f => some (encUnary 0 0x01 0x006 f)
  | .ldi _ (.ri7 rd imm) => some (.half (0b00100#5 ++ imm ++ rd))
  | .ldi _ (.u rd imm) => some (.full (1#1 ++ 0x03#6 ++ rd ++ imm))
  | .ldk _ rd k => some (.half (0b00110#5 ++ k ++ rd ++ 0#4))
  | .ldik _ rd k imm => some (.full (1#1 ++ 0x04#6 ++ rd ++ k ++ 0#2 ++ imm))
  | .tagi _ rd ra ty => some (.full (1#1 ++ 0x05#6 ++ rd ++ ra ++ ty ++ 0#9))
  | .typeq _ rd ra ty => some (.full (1#1 ++ 0x06#6 ++ rd ++ ra ++ ty ++ 0#9))
  | .tagw _ rd ra tag => some (.full (1#1 ++ 0x22#6 ++ rd ++ ra ++ tag ++ 0#7))
  | .br _ (.b11 d) => some (.half (0b00111#5 ++ d))
  | .br _ (.j d) => some (.full (1#1 ++ 0x09#6 ++ d))
  | .bcond _ (.bc16 c d) => some (.half (0b01000#5 ++ c ++ d))
  | .bcond _ (.bc32 c d) => some (.full (1#1 ++ 0x08#6 ++ c ++ d))
  | .bnil _ f => some (encBnil 0x9 0 f)
  | .bnnil _ f => some (encBnil 0xA 1 f)
  | .tbr _ ra ty sense d => some (.full (1#1 ++ 0x07#6 ++ ra ++ ty ++ bit1 sense ++ d))
  | .jmp _ ra => some (encR 0x0B 0 ra 0 0)
  | .callm _ ra mask => some (.full (1#1 ++ 0x0C#6 ++ ra ++ 0#4 ++ mask))
  | .retm _ => some (.half 0x0003)
  | .brk _ => some (.half 0x0004)
  | .nop _ => some (.half 0x0001)
  | .rep _ _ _ => some (.half 0x0002)
  | .ld _ f => some (encMem 0x2 0x10 f)
  | .st _ f => some (encMem 0x3 0x11 f)
  | .ldx _ rd ra rb => some (encR 0x12 rd ra rb 0)
  | .stx _ rd ra rb => some (encR 0x13 rd ra rb 0)
  | .ldsp _ rt off => some (.half (0b01011#5 ++ off ++ rt))
  | .stsp _ rt off => some (.half (0b01100#5 ++ off ++ rt))
  | .fence _ => some (encR 0x21 0 0 0 0x003)
  | .car _ f => some (encUnary 1 0x18 0x001 f)
  | .cdr _ f => some (encUnary 2 0x18 0x002 f)
  | .cons _ rd ra rb => some (encR 0x18 rd ra rb 0x003)
  | .rplaca _ ra rb => some (encR 0x18 0 ra rb 0x004)
  | .rplacd _ ra rb => some (encR 0x18 0 ra rb 0x005)
  | .memq _ rd ra rb _ => some (encR 0x18 rd ra rb 0x006)
  | .assq _ rd ra rb _ => some (encR 0x18 rd ra rb 0x007)
  | .llen _ rd ra _ => some (encR 0x18 rd ra 0 0x008)
  | .vref _ rd ra rb => some (encR 0x19 rd ra rb 0x001)
  | .vset _ rd ra rb => some (encR 0x19 rd ra rb 0x002)
  | .vfill _ rd ra rb _ => some (encR 0x19 rd ra rb 0x003)
  | .vcopy _ rd ra rb _ => some (encR 0x19 rd ra rb 0x004)
  | .alloc _ rd ra ty pin sub => some (.full (1#1 ++ 0x1A#6 ++ rd ++ ra ++ ty ++ bit1 pin ++ sub))
  | .gets _ rd sel => some (.full (1#1 ++ 0x26#6 ++ rd ++ sel ++ 0#12))
  | .sets _ sel rd => some (.full (1#1 ++ 0x27#6 ++ rd ++ sel ++ 0#12))
  | .scall _ st => some (.full (1#1 ++ 0x20#6 ++ 0#4 ++ bit1 st ++ 0#20))
  | .sret _ => some (encR 0x21 0 0 0 0x001)
  | .xret _ => some (encR 0x21 0 0 0 0x002)
  | .wget _ rd sel => some (.full (1#1 ++ 0x23#6 ++ rd ++ sel ++ 0#12))
  | .wput _ sel rd => some (.full (1#1 ++ 0x24#6 ++ rd ++ sel ++ 0#12))
  | .tlbwi _ ra rb => some (encR 0x25 0 ra rb 0x001)
  | .tlbwr _ ra => some (encR 0x25 0 ra 0 0x002)
  | .tlbi _ ra => some (encR 0x25 0 ra 0 0x003)
  | .twalk _ rd ra => some (encR 0x25 rd ra 0 0x004)
  | .waitp _ rd ra => some (encR 0x1B rd ra 0 0)
  | .specOpen _ ra rb => some (encR 0x1C 0 ra rb 0x001)
  | .specClose _ => some (encR 0x1C 0 0 0 0x002)
  | _ => none

/-- The parcels of a core instruction; a REP unit is its prefix and the instruction it repeats. -/
def parcelsOf (i : Instr) : List (BitVec 16) :=
  match i with
  | .rep _ op _ => 0x0002 :: (repRaw op).parcels
  | _ => match rawOf i with
    | some r => r.parcels
    | none => []

/-- Bytes of a core instruction, of a REP unit with the instruction it repeats. -/
def widthOf (i : Instr) : Nat := 2 * (parcelsOf i).length

/-- The instruction as the RAW faulting word of R200. -/
def rawWord (i : Instr) : Word :=
  match i with
  | .rep _ op _ =>
    raw (BitVec.ofNat 64 (2 * 2 ^ 48 + (match repRaw op with
      | .half v => v.toNat
      | .full v => v.toNat)))
  | _ => match rawOf i with
    | some (.half v) => raw (BitVec.ofNat 64 v.toNat)
    | some (.full v) => raw (BitVec.ofNat 64 v.toNat)
    | none => raw 0

/-! What decode checks beyond the formats. -/

/-- A subtype that R65 gives a type (R143). -/
def subtypeOk (ty sub : Nat) : Bool :=
  if ty = 0x11 || ty = 0x16 then true else if ty = 0x12 then sub ≤ 1 else sub = 0

/-- Selectors of GETS (R95, R196, R255). -/
def getsOk (sel : Nat) : Bool :=
  sel ≤ 0x06 || (0x40 ≤ sel && sel ≤ 0x45) || (0x48 ≤ sel && sel ≤ 0x52) || (0x58 ≤ sel && sel ≤ 0x5D) ||
    (0x60 ≤ sel && sel ≤ 0x68) || (0x80 ≤ sel && sel ≤ 0x84)

/-- Selectors of SETS. -/
def setsOk (sel : Nat) : Bool :=
  getsOk sel && sel ≠ 0x05 && sel ≠ 0x06 && sel ≠ 0x4A && sel ≠ 0x4B && sel ≠ 0x4E && sel ≠ 0x4F && sel ≠ 0x52 &&
    sel ≠ 0x5C && sel ≠ 0x5D && sel ≠ 0x83

/-- The encoding of a core instruction is assigned (R86, R89, R94 to R97, R143, R187). -/
def legal (i : Instr) : Bool :=
  match i with
  | .ldk _ _ k => k.toNat < 4
  | .bcond _ (.bc16 c _) => c ≠ 7
  | .bcond _ (.bc32 c _) => c ≠ 7
  | .tagi _ _ _ ty => ty.toNat ≤ 5
  | .alloc _ _ _ ty _ sub => 0x11 ≤ ty.toNat && ty.toNat ≤ 0x18 && subtypeOk ty.toNat sub.toNat
  | .gets _ _ sel => getsOk sel.toNat
  | .sets _ sel _ => setsOk sel.toNat
  | .wget _ _ sel => selOk sel.toNat
  | .wput _ sel _ => selOk sel.toNat && sel.toNat ≠ 0x26
  | _ => true

/-! The decoder. -/

/-- The register group (R88). -/
def decRR (p : Nat) (fn : BitVec 3) (rd rs : R4) : Option Instr :=
  if fn = 0 then some (.mov p (.rr rd rs))
  else if fn = 1 then some (.car p (.rr rd rs))
  else if fn = 2 then some (.cdr p (.rr rd rs))
  else if fn = 3 then some (.gadd p (.rr rd rs))
  else if fn = 4 then some (.gsub p (.rr rd rs))
  else if fn = 5 then some (.gcmp p (.rr rd rs))
  else if fn = 6 then some (.wcmp p (.rr rd rs))
  else none

/-- A 16-bit instruction other than REP (R86, R87). -/
def dec16 (p : Nat) (v : BitVec 16) : Option Instr :=
  let op := v.extractLsb' 11 4
  let f8 := v.extractLsb' 8 3
  let f4 := v.extractLsb' 4 4
  let f0 := v.extractLsb' 0 4
  let i7 := v.extractLsb' 4 7
  if op = 0 then
    if v = 0x0001 then some (.nop p) else if v = 0x0003 then some (.retm p)
    else if v = 0x0004 then some (.brk p) else none
  else if op = 1 then decRR p f8 f4 f0
  else if op = 2 then some (.ld p (.ls f4 f0 f8))
  else if op = 3 then some (.st p (.ls f4 f0 f8))
  else if op = 4 then some (.ldi p (.ri7 f0 i7))
  else if op = 5 then some (.gaddi p (.ri7 f0 i7))
  else if op = 6 then if f0 = 0 then some (.ldk p f4 f8) else none
  else if op = 7 then some (.br p (.b11 (v.extractLsb' 0 11)))
  else if op = 8 then some (.bcond p (.bc16 f8 (v.extractLsb' 0 8)))
  else if op = 9 then some (.bnil p (.br7 f0 i7))
  else if op = 10 then some (.bnnil p (.br7 f0 i7))
  else if op = 11 then some (.ldsp p f0 i7)
  else if op = 12 then some (.stsp p f0 i7)
  else none

/-- The arithmetic group (R93). -/
def decArith (p : Nat) (rd ra rb : R5) (fn : BitVec 10) : Option Instr :=
  if fn = 1 then some (.gadd p (.r rd ra rb))
  else if fn = 2 then some (.gsub p (.r rd ra rb))
  else if fn = 3 then some (.gmul p rd ra rb)
  else if fn = 4 ∧ rd = 0 then some (.gcmp p (.r ra rb))
  else if fn = 5 ∧ rd = 0 then some (.wcmp p (.r ra rb))
  else if fn = 6 ∧ rb = 0 then some (.mov p (.r rd ra))
  else none

/-- The list group (R93). -/
def decList (p : Nat) (rd ra rb : R5) (fn : BitVec 10) : Option Instr :=
  if fn = 1 ∧ rb = 0 then some (.car p (.r rd ra))
  else if fn = 2 ∧ rb = 0 then some (.cdr p (.r rd ra))
  else if fn = 3 then some (.cons p rd ra rb)
  else if fn = 4 ∧ rd = 0 then some (.rplaca p ra rb)
  else if fn = 5 ∧ rd = 0 then some (.rplacd p ra rb)
  else if fn = 6 then some (.memq p rd ra rb none)
  else if fn = 7 then some (.assq p rd ra rb none)
  else if fn = 8 ∧ rb = 0 then some (.llen p rd ra none)
  else none

/-- The vector group (R93). -/
def decVec (p : Nat) (rd ra rb : R5) (fn : BitVec 10) : Option Instr :=
  if fn = 1 then some (.vref p rd ra rb)
  else if fn = 2 then some (.vset p rd ra rb)
  else if fn = 3 then some (.vfill p rd ra rb none)
  else if fn = 4 then some (.vcopy p rd ra rb none)
  else none

/-- The system and TLB groups (R93). -/
def decSys (p : Nat) (rd ra rb : R5) (fn : BitVec 10) : Option Instr :=
  if rd = 0 ∧ ra = 0 ∧ rb = 0 then
    if fn = 1 then some (.sret p) else if fn = 2 then some (.xret p) else if fn = 3 then some (.fence p) else none
  else none

/-- The TLB group (R93). -/
def decTlb (p : Nat) (rd ra rb : R5) (fn : BitVec 10) : Option Instr :=
  if fn = 1 ∧ rd = 0 then some (.tlbwi p ra rb)
  else if fn = 2 ∧ rd = 0 ∧ rb = 0 then some (.tlbwr p ra)
  else if fn = 3 ∧ rd = 0 ∧ rb = 0 then some (.tlbi p ra)
  else if fn = 4 ∧ rb = 0 then some (.twalk p rd ra)
  else none

/-- The speculation group (R93). -/
def decSpec (p : Nat) (rd ra rb : R5) (fn : BitVec 10) : Option Instr :=
  if fn = 1 ∧ rd = 0 then some (.specOpen p ra rb)
  else if fn = 2 ∧ rd = 0 ∧ ra = 0 ∧ rb = 0 then some (.specClose p)
  else none

/-- A 32-bit instruction (R92). -/
def dec32 (p : Nat) (v : BitVec 32) : Option Instr :=
  let op := v.extractLsb' 25 6
  let rd := v.extractLsb' 20 5
  let ra := v.extractLsb' 15 5
  let rb := v.extractLsb' 10 5
  let fn := v.extractLsb' 0 10
  let imm := v.extractLsb' 0 15
  let ty := v.extractLsb' 9 6
  let sel := v.extractLsb' 12 8
  if op = 0x01 then decArith p rd ra rb fn
  else if op = 0x02 then some (.gaddi p (.i rd ra imm))
  else if op = 0x03 then some (.ldi p (.u rd (v.extractLsb' 0 20)))
  else if op = 0x04 then
    if v.extractLsb' 16 2 = 0 then some (.ldik p rd (v.extractLsb' 18 2) (v.extractLsb' 0 16)) else none
  else if op = 0x05 then if v.extractLsb' 0 9 = 0 then some (.tagi p rd ra ty) else none
  else if op = 0x06 then if v.extractLsb' 0 9 = 0 then some (.typeq p rd ra ty) else none
  else if op = 0x07 then some (.tbr p rd (v.extractLsb' 14 6) (v.extractLsb' 13 1 = 1) (v.extractLsb' 0 13))
  else if op = 0x08 then some (.bcond p (.bc32 (v.extractLsb' 22 3) (v.extractLsb' 0 22)))
  else if op = 0x09 then some (.br p (.j (v.extractLsb' 0 25)))
  else if op = 0x0A then
    if v.extractLsb' 19 1 = 0 then some (.bnil p (.bn rd (v.extractLsb' 0 19)))
    else some (.bnnil p (.bn rd (v.extractLsb' 0 19)))
  else if op = 0x0B then if rd = 0 ∧ rb = 0 ∧ fn = 0 then some (.jmp p ra) else none
  else if op = 0x0C then if v.extractLsb' 16 4 = 0 then some (.callm p rd (v.extractLsb' 0 16)) else none
  else if op = 0x10 then some (.ld p (.i rd ra imm))
  else if op = 0x11 then some (.st p (.i rd ra imm))
  else if op = 0x12 then if fn = 0 then some (.ldx p rd ra rb) else none
  else if op = 0x13 then if fn = 0 then some (.stx p rd ra rb) else none
  else if op = 0x18 then decList p rd ra rb fn
  else if op = 0x19 then decVec p rd ra rb fn
  else if op = 0x1A then some (.alloc p rd ra ty (v.extractLsb' 8 1 = 1) (v.extractLsb' 0 8))
  else if op = 0x1B then if rb = 0 ∧ fn = 0 then some (.waitp p rd ra) else none
  else if op = 0x1C then decSpec p rd ra rb fn
  else if op = 0x20 then
    if v.extractLsb' 21 4 = 0 ∧ v.extractLsb' 0 20 = 0 then some (.scall p (v.extractLsb' 20 1 = 1)) else none
  else if op = 0x21 then decSys p rd ra rb fn
  else if op = 0x22 then if v.extractLsb' 0 7 = 0 then some (.tagw p rd ra (v.extractLsb' 7 8)) else none
  else if op = 0x23 then if v.extractLsb' 0 12 = 0 then some (.wget p rd sel) else none
  else if op = 0x24 then if v.extractLsb' 0 12 = 0 then some (.wput p sel rd) else none
  else if op = 0x25 then decTlb p rd ra rb fn
  else if op = 0x26 then if v.extractLsb' 0 12 = 0 then some (.gets p rd sel) else none
  else if op = 0x27 then if v.extractLsb' 0 12 = 0 then some (.sets p sel rd) else none
  else none

/-- The instructions REP may precede (R102). -/
def repOpOf : Instr → Option RepOp
  | .nop _ => some .nop
  | .mov _ f => some (.mov f)
  | .car _ f => some (.car f)
  | .cdr _ f => some (.cdr f)
  | .gadd _ f => some (.gadd f)
  | .gsub _ f => some (.gsub f)
  | .gmul _ rd ra rb => some (.gmul rd ra rb)
  | .gaddi _ f => some (.gaddi f)
  | _ => none

/-- One instruction that is not a REP unit, from its parcels; an assigned encoding only. -/
def decOne (p : Nat) (a b : BitVec 16) : Option Instr :=
  let i := if a.getLsbD 15 then dec32 p (a ++ b) else dec16 p a
  match i with
  | some x => if legal x then some x else none
  | none => none

/-- The instruction at a run of three parcels (R82 to R99, R102), without an interruption. -/
def decodeParcels (p : Nat) (a b c : BitVec 16) : Option Instr :=
  if a = 0x0002 then
    match decOne p b c with
    | some x => match repOpOf x with
      | some op => some (.rep p op none)
      | none => none
    | none => none
  else decOne p a b

/-- A core instruction without its interruption operand, which no parcel holds (log entry 11). -/
def uninterrupted : Instr → Instr
  | .rep p op _ => .rep p op none
  | .memq p rd ra rb _ => .memq p rd ra rb none
  | .assq p rd ra rb _ => .assq p rd ra rb none
  | .llen p rd ra _ => .llen p rd ra none
  | .vfill p rd ra rb _ => .vfill p rd ra rb none
  | .vcopy p rd ra rb _ => .vcopy p rd ra rb none
  | i => i

end Sys2Proof.Machine
end

