-- ==== Sys2Proof/Machine/Ops.lean ====
section
/-! DEFINITION. What every core instruction shares (spec/06_stairs_and_traps.md): fetch causes (R202), taking an
exception (R183, R203 to R206, R213 to R219), the stairhead and Halted-Fault, the return from an exception (R207,
R218), and the step of one instruction of a Running context. -/

namespace Sys2Proof.Machine

/-- n free words. -/
def State.freeWords (s : State) : Nat → List Word × State
  | 0 => ([], s)
  | n + 1 =>
    let (w, s) := s.freeWord
    let (ws, s) := s.freeWords n
    (w :: ws, s)

/-! Kernel stacks (R199). -/

/-- KSTKn for the executing context. -/
def State.kstk (s : State) (r : Run) (n : Nat) : BitVec 64 := if n = 1 then s.sys r.hall 0x49 else s.sys 0 0x4D

/-- SCALLn_SP. -/
def State.scallSp (s : State) (r : Run) (n : Nat) : Int :=
  (4096 * fld (s.kstk r n) 43 12 : Nat) - (r.scn * 2 ^ fld (s.kstk r n) 58 54 : Nat)

/-- SSPn. -/
def State.ssp (s : State) (r : Run) (n : Nat) : Int := s.scallSp r n - (2 ^ (fld (s.kstk r n) 58 54 - 1) : Nat)

/-- The bottom of the exception stack of stair n. -/
def State.sspBottom (s : State) (r : Run) (n : Nat) : Int := s.scallSp r n - (2 ^ fld (s.kstk r n) 58 54 : Nat)

/-! Halted-Fault. -/

/-- The core enters Halted-Fault (R221). -/
def State.haltCore (s : State) (r : Run) (reason : Nat) : State :=
  s.haltSlot r.p r.hall r.scn reason

/-! TLB_STAGE (R257). -/

/-- TLB_STAGE as a load writes it, LIVE set. -/
def stageWord (asid level sel slot hall hit vpn : Nat) : BitVec 64 :=
  setFld (setFld (setFld (setFld (setFld (setFld (setFld (setFld 0 63 52 asid) 51 50 level) 49 49 sel) 48 48 1) 47 42
    slot) 41 36 hall) 35 30 hit) 29 0 vpn

/-- The load of TLB_STAGE at a handler entry. -/
def State.stageTrap (s : State) (r : Run) (t : Trap) : State :=
  match t.stage with
  | none => s
  | some (level, sel, hit) =>
    s.setCore r.p { s.core r.p with
      stage := stageWord (s.asid r.hall) level sel (r.hcn % 64) r.hall hit (fld t.va 43 14) }

/-! The stairhead. -/

/-- Why an entry failed (R214): the STH_CAUSE code, the cause of the access that failed and its staging, lw2, the target
stair when it was known, and descriptor word 0 when it was read. -/
structure EntryFail where
  code : Nat
  exc : Nat
  lw2 : BitVec 64
  target : Option Nat
  word0 : BitVec 64
  stage : Option (Nat × Nat × Nat)
  deriving DecidableEq, Repr

/-- The frame of R78, from the state before the cause. -/
def frameOf (x : Regs) (t : Trap) : List Word :=
  [fixN x.pc.toNat, fix x.status, fixN t.cause, fix t.va, raw t.word.payload, fixN t.word.tag.toNat,
    fix (x.getW 31).payload, fixN x.cnt.toNat]

/-- STATUS at stairhead entry: the Reset column of its map, CC and WF kept. -/
def stairheadStatus (v : BitVec 64) : BitVec 64 :=
  setFld (setFld (setFld (setFld (setFld 0 21 16 0x3F) 8 7 3) 5 5 (fld v 5 5)) 3 2 (fld v 3 2)) 1 0 2

/-- Stairhead entry as the ROM's routine performs it (R215, R216, R219). -/
def State.stairheadRom (s : State) (r : Run) (t : Trap) (f : EntryFail) : State :=
  let base := s.reg (Reg.coreSthBase r.p)
  let top := fld (s.reg (Reg.coreSthSpInit r.p)) 39 3 * 8
  if !bit base 63 || top = 0 || regionOf s.part top ≠ .memory then s.haltCore r 2
  else if top < 64 then s.haltCore r 3
  else
    let x := s.regs r
    let s := ((List.range 8).zip (frameOf x t)).foldl (fun s (k, w) => s.coreStore r.p .mut (top - 64 + 8 * k) w) s
    let s := s.setRegs r ({ x with status := stairheadStatus x.status,
                                   pc := BitVec.ofNat 44 (fld base 39 0) }.putW 31 (fixN (top - 64))) (0x8 ||| g4)
    let lw : List Word := [fixN f.code, fixN f.exc, fix f.lw2,
      match f.target with
      | some n => fixN n
      | none => fix (BitVec.allOnes 64), fixN r.scn, fix x.landctl, t.word, fix f.word0]
    let c := s.core r.p
    let s := s.setCore r.p { c with
      lsLf := BitVec.ofNat 44 (top - 64),
      lsLw := (((List.range 8).zip lw).foldl (fun l (k, w) => put Word.fix0 l k w) c.lsLw) }
    let s := match f.stage with
      | none => s
      | some st => s.stageTrap r { t with va := f.lw2, stage := some st }
    let a := Reg.coreSthCause r.p
    let v := setFld (setFld (setFld (setFld (s.reg a) 63 60 f.code) 59 54 t.cause) 53 48 f.exc) 47 32 r.scn
    let s := s.setReg a (bumpFld v 15 0 1)
    s.note { code := 0x030, cls := .event, source := 1, hall := r.hall, inst := r.p, scn := r.scn,
             detail := BitVec.ofNat 64 f.code }

/-- Stairhead entry (R215), a microcode routine (R227); a failed access that hit two TLB entries is counted (R268). A redirected
routine that is discarded leaves the context on its instruction, whose cause arises again; a cause it raises halts the core, as
one in the stairhead does (R217; log entry 58). -/
def State.stairhead (s : State) (r : Run) (t : Trap) (f : EntryFail) : State :=
  let s := if f.exc = 0x0F then s.bumpRf (Reg.tlbStat r.p) 47 32 1 else s
  match s.microcode r .stairhead 4 t.va t.cause none with
  | none => s.stairheadRom r t f
  | some (.done s) => s
  | some (.trap _ s) => s.haltCore r 1
  | some (.stop _ s) => s
  | some (.hold s) => s
  | some (.failed s) => s

/-! Vectoring. -/

/-- Where an entry goes (R203, R204). -/
structure Vector where
  target : Nat
  handler : BitVec 44
  own : Bool
  am : Nat
  word0 : BitVec 64
  deriving DecidableEq, Repr

/-- VMODEs and VBASEs of the executing context (R196). -/
def State.vmode (s : State) (r : Run) (n : Nat) : BitVec 64 := s.sys (sysHall r.hall (0x40 + 2 * n)) (0x40 + 2 * n)
/-- VBASEs. -/
def State.vbase (s : State) (r : Run) (n : Nat) : Nat :=
  4096 * fld (s.sys (sysHall r.hall (0x41 + 2 * n)) (0x41 + 2 * n)) 43 12

/-- A failed entry access: ENTRY_FAULT with its cause (R214, R216). -/
def accessFail (t : Trap) (target : Option Nat) (word0 : BitVec 64) : EntryFail :=
  ⟨1, t.cause, t.va, target, word0, t.stage⟩

/-- The physical address of a descriptor or frame word; it must lie in MEMORY (R204). -/
def State.entryPa (s : State) (r : Run) (stair : Nat) (addr : Int) (store stack : Bool) : Xl :=
  match s.dataPa r stair addr store stack with
  | .trap t => .trap t
  | .pa pa =>
    if regionOf s.part pa = .memory then .pa pa
    else .trap (mkTrap 0x0A (BitVec.ofInt 64 addr) (accessWord store false))

/-- A descriptor word (R204): a POISON word makes the read fail. -/
def State.vectorWord (s : State) (r : Run) (stair addr : Nat) : (Word ⊕ Trap) × State :=
  match s.entryPa r stair addr false false with
  | .trap t => (.inr t, s)
  | .pa pa =>
    let (w, s) := s.coreLoad r.p .mut pa
    if w.type = 0x32 then (.inr (mkTrap 0x06 (BitVec.ofNat 64 addr) w), s) else (.inl w, s)

/-- The descriptor of R204 is invalid for a cause at stair n. -/
def descriptorBad (n : Nat) (w0 w1 : BitVec 64) : Bool :=
  let tgt := fld w0 45 44
  !bit w0 47 || tgt = 3 || tgt < n || bit w0 0 || fld w0 63 54 ≠ 0 || w1 ≠ 0 || (bit w0 46 && tgt = 0)

/-- The target stair that word 0 of a descriptor names, once it was read (R216; log entry 32). -/
def targetOf (v : BitVec 64) : Option Nat := if fld v 45 44 = 3 then none else some (fld v 45 44)

/-- Vectors a cause (R203, R204, R225). -/
def State.vector (s : State) (r : Run) (cause : Nat) : (Vector ⊕ EntryFail) × State :=
  let n := stStair (s.status r)
  let m := s.vmode r n
  let base := s.vbase r n
  if s.compat r.hall && n < 2 then
    (.inl ⟨fld m 2 1, BitVec.ofNat 44 (base + 32 * cause), false, 0x3F, 0⟩, s)
  else if !bit m 0 then (.inl ⟨fld m 2 1, BitVec.ofNat 44 (base + 64 * cause), false, 0x3F, 0⟩, s)
  else
    let a := base + 16 * cause
    match s.vectorWord r (max n 1) a with
    | (.inr t, s) => (.inr (accessFail t none 0), s)
    | (.inl w0, s) =>
      let v := w0.payload
      match s.vectorWord r (max n 1) (a + 8) with
      | (.inr t, s) => (.inr (accessFail t (targetOf v) v), s)
      | (.inl w1, s) =>
        if descriptorBad n v w1.payload then (.inr ⟨1, 0, BitVec.ofNat 64 a, targetOf v, v, none⟩, s)
        else
          (.inl ⟨fld v 45 44, BitVec.ofNat 44 (fld v 43 0), bit v 46, Nat.lor (stAm (s.status r)) (fld v 53 48), v⟩, s)

/-! Entry. -/

/-- The candidate SP of an entry passes R206. -/
def spOk (w : Word) (limit : Int) : Bool :=
  w.tag = 0 && alignedOk w.payload && limit ≤ (w.payload.toNat : Int) - 64

/-- D of the eight frame words, from the highest address down (R205 step 5). -/
def State.framePas (s : State) (r : Run) (t : Nat) (base : Int) : Nat → (List Nat ⊕ Trap)
  | 0 => .inl []
  | k + 1 =>
    match s.entryPa r t (base + 8 * k) true (t = 0) with
    | .trap e => .inr e
    | .pa a => match s.framePas r t base k with
      | .inr e => .inr e
      | .inl as => .inl (as ++ [a])

/-- STATUS at the commit of an entry (R205 step 6). -/
def entryStatus (v : BitVec 64) (t am : Nat) : BitVec 64 :=
  setFld (setBit (setBit (setBit (setFld v 21 16 am) 7 false) 6 false) 4 false) 1 0 t

/-- An entry as a microcode routine (R227): under a patch that redirects it, what the sequencer makes of it; a cause it raises
ends in the stairhead. -/
def State.asEntry (s : State) (r : Run) (frame orig : Trap) (k : Nat) (rom : Bool × State) : Bool × State :=
  match s.microcode r (if frame.cause = 0x04 then .assist else .entry) k frame.va frame.cause none with
  | none => rom
  | some (.done s) => (true, s)
  | some (.trap t s) => (false, s.stairhead r orig (accessFail t none 0))
  | some (.stop _ s) => (false, s)
  | some (.hold s) => (false, s)
  | some (.failed s) => (false, s)

/-- Steps 3 to 6 of an entry with landing k and its registers (R205): whether a handler was entered, and the state.
`frame`: the cause whose frame is pushed; `orig`: the cause the stairhead is given. -/
def State.enterWith (s : State) (r : Run) (frame orig : Trap) (k : Nat) (lws : List Word) : Bool × State :=
  s.asEntry r frame orig k <|
  let n := stStair (s.status r)
  match s.vector r frame.cause with
  | (.inr f, s) => (false, s.stairhead r orig f)
  | (.inl v, s) =>
    let x := s.regs r
    let here := !v.own || v.target = n
    let sp := if here then x.getW 31 else fix (BitVec.ofInt 64 (s.ssp r v.target))
    let valid := here || (0 ≤ s.ssp r v.target && s.ssp r v.target < 2 ^ 64)
    let limit : Int := if here then x.slim.toNat else s.sspBottom r v.target
    if !valid || !spOk sp limit then
      (false, s.stairhead r orig ⟨2, 0, sp.payload, some v.target, v.word0, none⟩)
    else
      let base := (sp.payload.toNat : Int) - 64
      match s.framePas r v.target base 8 with
      | .inr t => (false, s.stairhead r orig (accessFail t (some v.target) v.word0))
      | .inl pas =>
        let s := (pas.zip (frameOf x frame)).foldl (fun s (a, w) => s.coreStore r.p .mut a w) s
        let lc := if k = 3 then setBit x.landctl 2 true else setFld x.landctl 1 0 (k + 1)
        let y := ((List.range 8).zip lws).foldl (fun y (j, w) => y.putLw k j w) x
        let y := (y.putLf k (BitVec.ofInt 44 base)).putW 31 (fix (BitVec.ofInt 64 base))
        let s := s.setRegs r { y with landctl := lc, status := entryStatus x.status v.target v.am, pc := v.handler }
          (0x8 ||| g4 ||| g6)
        (true, s.stageTrap r frame)

/-- The landing words of a cause (R201). -/
def Trap.landingWords (t : Trap) : List Word := if t.lws.isEmpty then t.word :: List.replicate 7 nil else t.lws

/-- Entry to a handler of a Running context (R183, R205): whether the cause itself was delivered, and the state. -/
def State.enter (s : State) (r : Run) (t : Trap) : Bool × State :=
  let lc := (s.regs r).landctl
  if lcL3 lc then (false, s.stairhead r t ⟨3, 0, 0, none, 0, none⟩)
  else if t.cause = 0x17 then
    let (ws, s) := s.freeWords 7
    s.enterWith r t t 3 (t.word :: ws)
  else if lcUse lc < 3 then s.enterWith r t t (lcUse lc) t.landingWords
  else if lcDepth lc = 255 then (false, s.stairhead r t ⟨4, 0, 0, none, 0, none⟩)
  else
    let (ws, s) := s.freeWords 6
    (false, (s.enterWith r (mkTrap 0x16 0 (fixN t.cause)) t 3 (fixN t.cause :: fixN (lcDepth lc) :: ws)).2)

/-- What raising a cause counts (R268, R327, R316). -/
def State.countTrap (s : State) (r : Run) (t : Trap) : State :=
  let s := if t.cause = 0x0F then s.bumpRf (Reg.tlbStat r.p) 47 32 1 else s
  let s := match t.ra with
    | none => s
    | some (h, k) =>
      let g := s.glh h
      s.setGl h { g with raReason := k, raCount := sat 16 (g.raCount + 1) }
  if t.cause = 0x11 then
    let g := s.glh r.hall
    s.setGl r.hall { g with exhCount := sat 16 (g.exhCount + 1) }
  else s

/-- A LANDING_FILL whose entry ended in the stairhead is kept, so that it arises again after the stairhead (R218). -/
def State.keepFill (s : State) (r : Run) (t : Trap) (done : Bool) : State :=
  if t.cause = 0x17 && !done then s.setCtx r.scn { s.ctx r.scn with fillAgain := true } else s

/-- Takes a cause: inside a speculation the context waits for the outcome (R113); in the stairhead the core halts
(R217); otherwise an entry. -/
def State.take (s : State) (r : Run) (t : Trap) : State :=
  if (s.specOf r.scn).isSome then s.await r (.outcome false)
  else
    let s := s.countTrap r t
    if stSth (s.status r) then s.haltCore r 1
    else
      let (done, s) := s.enter r t
      s.keepFill r t done

/-! Alerts at an instruction boundary (R114, R202, R211). -/

/-- The alert a Running context takes next: the lowest pending code that is not masked, with L3 free and outside the
stairhead (R202, R211). -/
def State.nextAlert (s : State) (r : Run) : Option Nat :=
  let c := s.ctx r.scn
  let m := stAm (s.status r)
  if stSth (s.status r) || lcL3 (s.regs r).landctl then none
  else (List.range 6).find? (fun k => c.pend.getLsbD k && !natBit m k)

/-- Delivers alert 0x20 + k: an open speculation is discarded first, with reason ALERT, and a TLBI in progress is given up;
the pending bit clears when the handler is entered. -/
def State.deliver (s : State) (r : Run) (k : Nat) : State :=
  let s := { s with tlbis := s.tlbis.filter (fun j => j.core ≠ r.p) }
  let s := match s.specOf r.scn with
    | some i => (s.restoreSpec i 2).applyDeferred r.scn
    | none => s
  if (s.ctx r.scn).st ≠ .running then s
  else
    let w := look Word.fix0 (s.ctx r.scn).alertWord k
    let (done, s) := s.enter r (mkTrap (0x20 + k) 0 w)
    let c := s.ctx r.scn
    if done then
      s.setCtx r.scn { c with pend := c.pend &&& ~~~(BitVec.ofNat 6 (2 ^ k)), alertWord := put Word.fix0 c.alertWord k Word.fix0 }
    else s

/-! Fetch (R82, R83, R111, R202). -/

/-- The first cause that the fetch of a parcel raises, if any; a fetch allocates in the Crib as the mutator's accesses do (R276;
log entry 57). -/
def State.fetchParcel (s : State) (r : Run) (pc : BitVec 44) : Option Trap × State :=
  let st := s.status r
  let x := if stToff st then s.physical pc.toNat ⟨false, true, false⟩
    else s.translate r.p r.hall (stStair st) pc.toNat ⟨false, true, false⟩
  match x with
  | .trap t => (some t, s)
  | .pa pa =>
    let (w, s) := s.coreLoad r.p .mut (wordOf pa)
    if w.type = 0x32 then (some (mkTrap 0x06 (BitVec.ofNat 64 pc.toNat) (strip (s.compat r.hall) w)), s) else (none, s)

/-- The first fetch cause of n parcels from an address. -/
def State.fetchParcels (s : State) (r : Run) (pc : BitVec 44) : Nat → Option Trap × State
  | 0 => (none, s)
  | n + 1 =>
    match s.fetchParcel r pc with
    | (some t, s) => (some t, s)
    | (none, s) => s.fetchParcels r (pc + 2) n

/-! The step of an instruction. -/

/-- STAIR_VIOLATION at an instruction (R200). -/
def stairViolation (i : Instr) (pc : BitVec 44) : Trap := mkTrap 0x02 (BitVec.ofNat 64 pc.toNat) (rawWord i)

/-- PC and single step at the retirement of an instruction that began with SS (R195). -/
def State.retire (s : State) (r : Run) (pc : BitVec 44) (ss : Bool) : State :=
  let s := s.setPc r pc
  if ss then s.alertCtx r.scn 0x24 (fixN 0) else s

/-- What becomes of an instruction's result. -/
def Res.settle (x : Res (BitVec 44)) (r : Run) (ss : Bool) : State :=
  match x with
  | .ok pc s => s.retire r pc ss
  | .trap t s => s.take r t
  | .hold s => s.await r (.outcome false)
  | .stop s => s

/-- One instruction of the Running context of core p, in the order of R202: a pending alert that is not masked, which is
taken in place of the instruction, fetch causes, ILLEGAL_ENCODING,
STAIR_VIOLATION below `stair`, then the instruction's own effect, which gives the next PC. Nothing happens where the core
runs no context or waits for the acknowledgements of a TLBI (log entry 6). -/
def State.coreStep (s : State) (p : Nat) (i : Instr) (stair : Nat) (body : Run → State → Res (BitVec 44)) : State :=
  match s.running p with
  | none => s
  | some r =>
    let pc := (s.regs r).pc
    match s.nextAlert r with
    | some k => s.deliver r k
    | none =>
    if s.tlbis.any (fun j => j.core = p) then s
    else match s.fetchParcels r pc (parcelsOf i).length with
    | (some t, s) => s.take r t
    | (none, s) =>
      if !legal i then s.take r (mkTrap 0x01 (BitVec.ofNat 64 pc.toNat) (rawWord i))
      else if stStair (s.status r) < stair then s.take r (stairViolation i pc)
      else (body r s).settle r (stSs (s.status r))

/-- The PC after an instruction. -/
def State.nextPc (s : State) (r : Run) (i : Instr) : BitVec 44 := (s.regs r).pc + BitVec.ofNat 44 (widthOf i)

/-- A wait that the stairhead refuses (R217). -/
def State.waitOr (s : State) (r : Run) (i : Instr) (w : Wait) : Res (BitVec 44) :=
  if stSth (s.status r) then .trap (stairViolation i (s.regs r).pc) s else .stop (s.await r w)

/-! Return from an exception. -/

/-- What a frame's words restore, or the cause that refuses them (R207 steps 3 and 4). -/
def frameFault (i : Instr) (pc : BitVec 44) (stair : Nat) (w0 w1 w6 w7 : Word) : Option Trap :=
  if w0.tag ≠ 0 then some (mkTrap 0x03 0 w0)
  else if w1.tag ≠ 0 then some (mkTrap 0x03 0 w1)
  else if w6.tag ≠ 0 then some (mkTrap 0x03 0 w6)
  else if w7.tag ≠ 0 then some (mkTrap 0x03 0 w7)
  else if !pcOk w0.payload then some (mkTrap 0x03 0 w0)
  else if fld w1.payload 63 22 ≠ 0 || fld w1.payload 15 9 ≠ 0 || stStair w1.payload = 3 then some (mkTrap 0x03 0 w1)
  else if 2 ^ 32 ≤ w7.payload.toNat then some (mkTrap 0x05 0 w7)
  else if stair < stStair w1.payload then some (stairViolation i pc)
  else none

/-- The registers a frame restores (R207 step 5). -/
def frameRegs (x : Regs) (w0 w1 w6 w7 : Word) : Regs :=
  { x with pc := BitVec.ofNat 44 w0.payload.toNat, status := arriveStatus w1.payload,
           cnt := BitVec.ofNat 32 w7.payload.toNat }.putW 31 (fix w6.payload)

/-- Frees the landing an XRET returned through (R183). -/
def freeLanding (lc : BitVec 64) : Landing → BitVec 64
  | .own 3 => setBit lc 2 false
  | .own k => setFld lc 1 0 k
  | _ => lc

/-- The context has left the stairhead (R217, R218): a LANDING_FILL that could not be delivered arises again, and the
commands that waited are applied. -/
def State.leaveStairhead (s : State) (r : Run) : State :=
  let c := s.ctx r.scn
  let lc := (s.regs r).landctl
  let s := if !c.fillAgain then s
    else
      let s := s.setCtx r.scn { c with fillAgain := false }
      if !lcL3 lc && lcUse lc = 0 && lcDepth lc ≠ 0 then s.take r (mkTrap 0x17 0 (fixN (lcDepth lc))) else s
  if stSth (s.status r) then s else s.applyBusy r.scn

/-- The return from an exception (R207, R185, R218), as the effect of XRET. -/
def State.excReturn (s : State) (r : Run) (i : Instr) : Res (BitVec 44) :=
  let st := s.status r
  let stair := stStair st
  let pc := (s.regs r).pc
  let l := s.landing r
  if (s.specOf r.scn).isSome then .hold s
  else match l with
    | .none => .trap (stairViolation i pc) s
    | _ =>
      let f : Int := match l with
        | .own k => ((s.regs r).getLf k).toNat
        | _ => (s.core r.p).lsLf.toNat
      let ld := fun (s : State) (o : Int) => s.loadAt r stair (f + o) (stair = 0) true
      (ld s 0).bind fun w0 s => (ld s 8).bind fun w1 s => (ld s 48).bind fun w6 s => (ld s 56).bind fun w7 s =>
        match frameFault i pc stair w0 w1 w6 w7 with
        | some t => .trap t s
        | none =>
          let x := frameRegs (s.regs r) w0 w1 w6 w7
          let s := s.setRegs r { x with landctl := freeLanding x.landctl l } (0x8 ||| g4 ||| g6)
          let s := if stSs st then s.alertCtx r.scn 0x24 (fixN 0) else s
          if stSth st then .stop (s.leaveStairhead r)
          else
            let lc := (s.regs r).landctl
            if l ≠ .own 3 && lcUse lc = 0 && lcDepth lc ≠ 0 then
              .stop (s.take r (mkTrap 0x17 0 (fixN (lcDepth lc))))
            else .stop s

end Sys2Proof.Machine
end

