-- ==== Sys2Proof/Machine/Operands.lean ====
section
/-! DEFINITION. Operand forms (R84, R85, R90, R91) and the checks of operands (R53 to R55, R127, R128). -/

namespace Sys2Proof

/-- Destination register. -/
def ArithForm.dst : ArithForm → Nat
  | .rr rd _ => rd.toNat
  | .r rd _ _ => rd.toNat
/-- First operand. -/
def ArithForm.a : ArithForm → Nat
  | .rr rd _ => rd.toNat
  | .r _ ra _ => ra.toNat
/-- Second operand. -/
def ArithForm.b : ArithForm → Nat
  | .rr _ rs => rs.toNat
  | .r _ _ rb => rb.toNat

/-- Destination of GADDI. -/
def AddImmForm.dst : AddImmForm → Nat
  | .ri7 rd _ => rd.toNat
  | .i rd _ _ => rd.toNat
/-- First operand of GADDI. -/
def AddImmForm.a : AddImmForm → Nat
  | .ri7 rd _ => rd.toNat
  | .i _ ra _ => ra.toNat
/-- The immediate of GADDI, sign-extended. -/
def AddImmForm.imm : AddImmForm → BitVec 64
  | .ri7 _ v => v.signExtend 64
  | .i _ _ v => v.signExtend 64

/-- First operand of a comparison. -/
def CmpForm.a : CmpForm → Nat
  | .rr rd _ => rd.toNat
  | .r ra _ => ra.toNat
/-- Second operand. -/
def CmpForm.b : CmpForm → Nat
  | .rr _ rs => rs.toNat
  | .r _ rb => rb.toNat

/-- Destination. -/
def UnaryForm.dst : UnaryForm → Nat
  | .rr rd _ => rd.toNat
  | .r rd _ => rd.toNat
/-- Source. -/
def UnaryForm.src : UnaryForm → Nat
  | .rr _ rs => rs.toNat
  | .r _ ra => ra.toNat

/-- Destination of LDI. -/
def LdiForm.dst : LdiForm → Nat
  | .ri7 rd _ => rd.toNat
  | .u rd _ => rd.toNat
/-- The immediate of LDI, sign-extended. -/
def LdiForm.imm : LdiForm → BitVec 64
  | .ri7 _ v => v.signExtend 64
  | .u _ v => v.signExtend 64

/-- Displacement of a branch in parcels. -/
def BrForm.disp : BrForm → Int
  | .b11 d => d.toInt
  | .j d => d.toInt

/-- Condition of a conditional branch. -/
def BcondForm.cond : BcondForm → BitVec 3
  | .bc16 c _ => c
  | .bc32 c _ => c
/-- Displacement of a conditional branch in parcels. -/
def BcondForm.disp : BcondForm → Int
  | .bc16 _ d => d.toInt
  | .bc32 _ d => d.toInt

/-- Register tested by BNIL and BNNIL. -/
def BnilForm.reg : BnilForm → Nat
  | .br7 rs _ => rs.toNat
  | .bn ra _ => ra.toNat
/-- Displacement of BNIL and BNNIL in parcels. -/
def BnilForm.disp : BnilForm → Int
  | .br7 _ d => d.toInt
  | .bn _ d => d.toInt

/-- Data register of LD and ST. -/
def MemForm.data : MemForm → Nat
  | .ls rt _ _ => rt.toNat
  | .i rd _ _ => rd.toNat
/-- Base register of LD and ST. -/
def MemForm.base : MemForm → Nat
  | .ls _ rb _ => rb.toNat
  | .i _ ra _ => ra.toNat
/-- Word index of LD and ST. -/
def MemForm.index : MemForm → Int
  | .ls _ _ off => off.toNat
  | .i _ _ imm => imm.toInt

/-- The word is NIL: its tag byte is 0x03 and its payload 0. -/
def Word.isNil (w : Word) : Bool := w.tag = 3 && w.payload = 0

end Sys2Proof

namespace Sys2Proof.Machine

/-- Causes 1 and 2 of R55 for an operand of a Generic instruction. -/
def genericFault (w : Word) : Option Trap :=
  if w.type = 0x32 then some (mkTrap 0x06 0 w)
  else if w.malformed || w.type = 0x30 || w.type = 0x31 then some (mkTrap 0x03 0 w)
  else none

/-- What R55 raises for an operand of a Typed instruction that accepts the words `ok`. -/
def typedFault (ok : Word → Bool) (w : Word) : Option Trap :=
  if w.type = 0x32 then some (mkTrap 0x06 0 w)
  else if w.malformed || !ok w then some (mkTrap 0x03 0 w)
  else none

/-- Goes on when there is no fault. -/
def orFault {α : Type} (t : Option Trap) (s : State) (f : Res α) : Res α :=
  match t with
  | some t => .trap t s
  | none => f

/-- The word is a CONS. -/
def isCons (w : Word) : Bool := w.type = 0x10

/-- The base check of a load or store at stair 0 (R128) and above (R127): the address, and whether it is a stack
access. `kw`: the word that names the index in a BOUNDS. -/
def State.baseAddr (s : State) (r : Run) (base : Word) (k : Int) (kw : Word) (store : Bool) : Res (Int × Bool) :=
  let addr : Int := base.payload.toNat + 8 * k
  if base.type = 0x32 then .trap (mkTrap 0x06 0 base) s
  else if stStair (s.status r) ≠ 0 then .ok (addr, false) s
  else if base.type = 0 then
    if addr < (s.regs r).slim.toNat then .trap (mkTrap 0x10 (BitVec.ofInt 64 addr) base) s else .ok (addr, true) s
  else if isCons base then
    if k = 0 || k = 1 then .ok (addr, false) s else .trap (mkTrap 0x05 0 kw) s
  else if 0x11 ≤ base.type && base.type ≤ 0x18 then
    (s.loadAt r 0 base.payload.toNat false true).bind fun hdr s =>
      if hdr.type ≠ 0x30 then .trap (mkTrap 0x03 0 hdr) s
      else if k < (if store then 1 else 0) || (hdrLen hdr : Int) < k then .trap (mkTrap 0x05 0 kw) s
      else .ok (addr, false) s
  else .trap (mkTrap 0x03 0 base) s

/-- The index operand of LDX and STX (R129): a FIX, signed. -/
def indexFault (w : Word) : Option Trap :=
  if w.type = 0x32 then some (mkTrap 0x06 0 w) else if w.type = 0 then none else some (mkTrap 0x03 0 w)

/-- A load through a base register (R129). -/
def State.loadBase (s : State) (r : Run) (rt : Nat) (base : Word) (k : Int) (kw : Word) : Res Unit :=
  (s.baseAddr r base k kw false).bind fun (a, stack) s =>
    (s.load r a stack).bind fun w s => .ok () (s.setW r rt w)

/-- A store through a base register (R129). -/
def State.storeBase (s : State) (r : Run) (w base : Word) (k : Int) (kw : Word) : Res Unit :=
  (s.baseAddr r base k kw true).bind fun (a, stack) s => s.store r a w stack

end Sys2Proof.Machine
end

