-- ==== Sys2Proof/Machine/Arith.lean ====
section
/-! DEFINITION. Generic arithmetic and comparison, moves, immediates and tags (R115 to R122), the repeat prefix (R102 to
R107) and NOP. -/

namespace Sys2Proof.Machine

/-- The landing words of a GENERIC_ASSIST (R118): operands, reason, operation, destination; -1 for GCMP. -/
def assistWords (a b : Word) (reason : Nat) (op : GOp) (rd : Nat) : List Word :=
  [a, b, fixN reason, fixN op.code, if op = .cmp then fix (BitVec.allOnes 64) else fixN rd, nil, nil, nil]

/-- GENERIC_ASSIST (R118). -/
def assistTrap (a b : Word) (reason : Nat) (op : GOp) (rd : Nat) (w : Word) : Trap :=
  { mkTrap 0x04 0 w with lws := assistWords a b reason op rd }

/-- FIX or FLO. -/
def fastType (w : Word) : Bool := w.tag = 0 || w.tag = 1

/-- The binary64 payload of a FIX or FLO (R115). -/
def asFloat (w : Word) : BitVec 64 := if w.tag = 1 then w.payload else fixToB64 w.payload

/-- The checks of a Generic instruction on both operands (R55, R115). -/
def genericOperands (op : GOp) (a b : Word) (rd : Nat) : Option Trap :=
  match genericFault a with
  | some t => some t
  | none => match genericFault b with
    | some t => some t
    | none =>
      if !fastType a then some (assistTrap a b 0 op rd a)
      else if !fastType b then some (assistTrap a b 0 op rd b)
      else none

/-- The result of a fast path, or the assist of a fixnum overflow (R115, R158). -/
def genericResult (op : GOp) (a b : Word) (rd : Nat) (compat : Bool) : Word ⊕ Trap :=
  if a.tag = 0 && b.tag = 0 then
    let x := fixOp op a.payload.toInt b.payload.toInt
    if compat || (-(2 ^ 63) ≤ x && x < 2 ^ 63) then .inl (fix (BitVec.ofInt 64 x)) else .inr (assistTrap a b 1 op rd a)
  else .inl ⟨1, floatOp op (asFloat a) (asFloat b)⟩

/-- GADD, GSUB, GMUL and GADDI (R115). -/
def State.generic (s : State) (r : Run) (op : GOp) (a b : Word) (rd : Nat) : Res Unit :=
  match genericOperands op a b rd with
  | some t => .trap t s
  | none => match genericResult op a b rd (s.compat r.hall) with
    | .inl w => .ok () (s.setW r rd w)
    | .inr t => .trap t s

/-- The condition of GCMP (R115). -/
def genericCc (a b : Word) : Nat :=
  if a.tag = 0 && b.tag = 0 then ccInt a.payload.toInt b.payload.toInt else ccFloat (asFloat a) (asFloat b)

/-- The effect of CAR and CDR (R131), word 0 or 1 of the cell. -/
def State.cell (s : State) (r : Run) (rd : Nat) (c : Word) (word : Nat) : Res Unit :=
  orFault (typedFault (fun w => isCons w || w.isNil) c) s <|
    if c.isNil then .ok () (s.setW r rd nil)
    else (s.load r (c.payload.toNat + 8 * word)).bind fun w s => .ok () (s.setW r rd w)

/-- The effect of one iteration of the instructions REP may precede (R102). -/
def State.repEffect (s : State) (r : Run) : RepOp → Res Unit
  | .nop => .ok () s
  | .mov f => .ok () (s.setW r f.dst (s.getW r f.src))
  | .car f => s.cell r f.dst (s.getW r f.src) 0
  | .cdr f => s.cell r f.dst (s.getW r f.src) 1
  | .gadd f => s.generic r .add (s.getW r f.a) (s.getW r f.b) f.dst
  | .gsub f => s.generic r .sub (s.getW r f.a) (s.getW r f.b) f.dst
  | .gmul rd ra rb => s.generic r .mul (s.getW r ra.toNat) (s.getW r rb.toNat) rd.toNat
  | .gaddi f => s.generic r .addi (s.getW r f.a) (fix f.imm) f.dst

/-- An instruction whose effect REP may repeat, executed once. -/
def State.simpleStep (s : State) (p : Nat) (i : Instr) (op : RepOp) : State :=
  s.coreStep p i 0 fun r s => (s.repEffect r op).bind fun _ s => .ok (s.nextPc r i) s

/-- GADD (R115). -/
def execGadd (p : Nat) (f : ArithForm) (s : State) : Host.Outcome State Fault Refusal :=
  .next (s.simpleStep p (.gadd p f) (.gadd f))

/-- GSUB (R115). -/
def execGsub (p : Nat) (f : ArithForm) (s : State) : Host.Outcome State Fault Refusal :=
  .next (s.simpleStep p (.gsub p f) (.gsub f))

/-- GMUL (R115). -/
def execGmul (p : Nat) (rd ra rb : R5) (s : State) : Host.Outcome State Fault Refusal :=
  .next (s.simpleStep p (.gmul p rd ra rb) (.gmul rd ra rb))

/-- GADDI (R115). -/
def execGaddi (p : Nat) (f : AddImmForm) (s : State) : Host.Outcome State Fault Refusal :=
  .next (s.simpleStep p (.gaddi p f) (.gaddi f))

/-- GCMP (R117). -/
def execGcmp (p : Nat) (f : CmpForm) (s : State) : Host.Outcome State Fault Refusal :=
  .next (s.coreStep p (.gcmp p f) 0 fun r s =>
    let a := s.getW r f.a
    let b := s.getW r f.b
    orFault (genericOperands .cmp a b 0) s (.ok (s.nextPc r (.gcmp p f)) (s.setCc r (genericCc a b))))

/-- WCMP (R119). -/
def execWcmp (p : Nat) (f : CmpForm) (s : State) : Host.Outcome State Fault Refusal :=
  .next (s.coreStep p (.wcmp p f) 0 fun r s =>
    .ok (s.nextPc r (.wcmp p f)) (s.setCc r (ccInt (wcmpKey (s.getW r f.a)) (wcmpKey (s.getW r f.b)))))

/-- MOV (R54, R56). -/
def execMov (p : Nat) (f : UnaryForm) (s : State) : Host.Outcome State Fault Refusal :=
  .next (s.simpleStep p (.mov p f) (.mov f))

/-- NOP (R87). -/
def execNop (p : Nat) (s : State) : Host.Outcome State Fault Refusal :=
  .next (s.simpleStep p (.nop p) .nop)

/-- CAR (R131). -/
def execCar (p : Nat) (f : UnaryForm) (s : State) : Host.Outcome State Fault Refusal :=
  .next (s.simpleStep p (.car p f) (.car f))

/-- CDR (R131). -/
def execCdr (p : Nat) (f : UnaryForm) (s : State) : Host.Outcome State Fault Refusal :=
  .next (s.simpleStep p (.cdr p f) (.cdr f))

/-- A step that writes one register from the registers. -/
def State.writeStep (s : State) (p : Nat) (i : Instr) (rd : Nat) (f : State → Run → Word) : State :=
  s.coreStep p i 0 fun r s => .ok (s.nextPc r i) (s.setW r rd (f s r))

/-- LDI (R86, R92). -/
def execLdi (p : Nat) (f : LdiForm) (s : State) : Host.Outcome State Fault Refusal :=
  .next (s.writeStep p (.ldi p f) f.dst fun _ _ => fix f.imm)

/-- LDK (R86, R89). -/
def execLdk (p : Nat) (rd : R4) (k : BitVec 3) (s : State) : Host.Outcome State Fault Refusal :=
  .next (s.writeStep p (.ldk p rd k) rd.toNat fun _ _ => ⟨3, BitVec.ofNat 64 k.toNat⟩)

/-- LDIK (R94, R120). -/
def execLdik (p : Nat) (rd : R5) (k : BitVec 2) (imm : BitVec 16) (s : State) : Host.Outcome State Fault Refusal :=
  .next (s.coreStep p (.ldik p rd k imm) 0 fun r s =>
    let w := s.getW r rd.toNat
    orFault (typedFault (·.isFix) w) s
      (.ok (s.nextPc r (.ldik p rd k imm))
        (s.setW r rd.toNat (fix (setFld w.payload (16 * k.toNat + 15) (16 * k.toNat) imm.toNat)))))

/-- TAGI (R121). -/
def execTagi (p : Nat) (rd ra : R5) (ty : BitVec 6) (s : State) : Host.Outcome State Fault Refusal :=
  .next (s.coreStep p (.tagi p rd ra ty) 0 fun r s =>
    let a := s.getW r ra.toNat
    let w : Word := ⟨ty.setWidth 8, a.payload⟩
    if a.type = 0x32 then .trap (mkTrap 0x06 0 a) s
    else if w.malformed then .trap (mkTrap 0x03 0 a) s
    else .ok (s.nextPc r (.tagi p rd ra ty)) (s.setW r rd.toNat w))

/-- TYPEQ (R54). -/
def execTypeq (p : Nat) (rd ra : R5) (ty : BitVec 6) (s : State) : Host.Outcome State Fault Refusal :=
  .next (s.writeStep p (.typeq p rd ra ty) rd.toNat fun s r =>
    if (s.getW r ra.toNat).type = ty.toNat then specialT else nil)

/-- TAGW (R122). No slot holds the word for the barrier routine to heal: a redirected one runs without (log entry 58). -/
def execTagw (p : Nat) (rd ra : R5) (tag : BitVec 8) (s : State) : Host.Outcome State Fault Refusal :=
  .next (s.coreStep p (.tagw p rd ra tag) 1 fun r s =>
    let w : Word := ⟨tag, (s.getW r ra.toNat).payload⟩
    let pc := s.nextPc r (.tagw p rd ra tag)
    if s.barriers r then (s.slotlessBarrier r r.hall 0 w).bind fun v s => .ok pc (s.setW r rd.toNat v)
    else .ok pc (s.setW r rd.toNat w))

/-- CNT of a running context written. -/
def State.setCnt (s : State) (r : Run) (n : Nat) : State :=
  s.setRegs r { s.regs r with cnt := BitVec.ofNat 32 n } g4

/-- The loop of a REP unit (R103): n iterations are left; `stop`: the interruption is taken after so many. -/
def State.repLoop (s : State) (r : Run) (op : RepOp) : Nat → Option Nat → Res Unit
  | 0, _ => .ok () s
  | n + 1, stop =>
    if stop = some 0 then .stop s
    else (s.repEffect r op).bind fun _ s => (s.setCnt r n).repLoop r op n (stop.map (· - 1))

/-- REP (R103 to R106). Single step raises DEBUG once, when the unit has retired, and not after each iteration (R195; log entry
69). -/
def execRep (p : Nat) (op : RepOp) (stop : Option Nat) (s : State) : Host.Outcome State Fault Refusal :=
  .next (s.coreStep p (.rep p op stop) 0 fun r s =>
    (s.repLoop r op (s.regs r).cnt.toNat stop).bind fun _ s => .ok (s.nextPc r (.rep p op stop)) s)

end Sys2Proof.Machine
end

