-- ==== Sys2Proof/Machine/Branch.lean ====
section
/-! DEFINITION. Branches, calls and returns (R85, R91, R97, R123 to R126) and fast calls (R149, R150). -/

namespace Sys2Proof.Machine

/-- The target of a branch: the address of the branch plus twice the displacement (R85, R91). -/
def branchTo (pc : BitVec 44) (disp : Int) : BitVec 44 := pc + BitVec.ofInt 44 (2 * disp)

/-- A conditional branch. -/
def State.branchStep (s : State) (p : Nat) (i : Instr) (disp : Int) (taken : State → Run → Bool) : State :=
  s.coreStep p i 0 fun r s =>
    .ok (if taken s r then branchTo (s.regs r).pc disp else s.nextPc r i) s

/-- BR (R85, R91). -/
def execBr (p : Nat) (f : BrForm) (s : State) : Host.Outcome State Fault Refusal :=
  .next (s.branchStep p (.br p f) f.disp fun _ _ => true)

/-- Bcond (R97). -/
def execBcond (p : Nat) (f : BcondForm) (s : State) : Host.Outcome State Fault Refusal :=
  .next (s.branchStep p (.bcond p f) f.disp fun s r => condHolds f.cond (stCc (s.status r)))

/-- BNIL (R86). -/
def execBnil (p : Nat) (f : BnilForm) (s : State) : Host.Outcome State Fault Refusal :=
  .next (s.branchStep p (.bnil p f) f.disp fun s r => (s.getW r f.reg).isNil)

/-- BNNIL (R86). -/
def execBnnil (p : Nat) (f : BnilForm) (s : State) : Host.Outcome State Fault Refusal :=
  .next (s.branchStep p (.bnnil p f) f.disp fun s r => !(s.getW r f.reg).isNil)

/-- TBR (R92). -/
def execTbr (p : Nat) (ra : R5) (ty : BitVec 6) (sense : Bool) (disp : BitVec 13) (s : State) :
    Host.Outcome State Fault Refusal :=
  .next (s.branchStep p (.tbr p ra ty sense disp) disp.toInt fun s r =>
    decide ((s.getW r ra.toNat).type = ty.toNat) = sense)

/-- A word that a computed target loads: POISON or another wrong type is refused (R123). -/
def State.loadTyped (s : State) (r : Run) (addr : Int) (ok : Word → Bool) : Res Word :=
  (s.load r addr).bind fun w s => orFault (typedFault ok w) s (.ok w s)

/-- The target a CODE pointer gives (R68, R123), exact; the entry offset is in two's complement (R51). -/
def State.codeTarget (s : State) (r : Run) (w : Word) : Res Int :=
  (s.loadTyped r (w.payload.toNat + 32) (·.isFix)).bind fun e s =>
    .ok (w.payload.toNat + 40 + e.payload.toInt : Int) s

/-- The computed target of JMP and CALLM (R123). DESIGN CHOICE (log entry 47): the access word of the ALIGNMENT or
PROTECTION is that of a fetch, bit 1 set. -/
def State.target (s : State) (r : Run) (w : Word) : Res (BitVec 44) :=
  orFault (typedFault (fun w => w.isFix || w.type = 0x18 || w.type = 0x14) w) s <|
    (if w.isFix then .ok (w.payload.toNat : Int) s
     else if w.type = 0x18 then s.codeTarget r w
     else (s.loadTyped r (w.payload.toNat + 8) (fun w => w.type = 0x18)).bind fun c s => s.codeTarget r c).bind
      fun a s =>
        if a % 2 ≠ 0 then .trap (mkTrap 0x07 (BitVec.ofInt 64 a) (accessWord false true)) s
        else if a < 0 || 2 ^ 44 ≤ a then .trap (mkTrap 0x0A (BitVec.ofInt 64 a) (accessWord false true)) s
        else .ok (BitVec.ofInt 44 a) s

/-- JMP (R123). -/
def execJmp (p : Nat) (ra : R5) (s : State) : Host.Outcome State Fault Refusal :=
  .next (s.coreStep p (.jmp p ra) 0 fun r s => s.target r (s.getW r ra.toNat))

/-- The registers a mask selects, w8 to w23, in ascending order (R76). -/
def maskRegs (mask : BitVec 16) : List Nat := ((List.range 16).filter mask.getLsbD).map (· + 8)

/-- The words of a CALLM frame with their addresses, from the highest address down (R76, R77). -/
def frameWords (s : State) (r : Run) (sp : Int) (mask : BitVec 16) (ret : BitVec 44) : List (Int × Word) :=
  let regs := maskRegs mask
  ((List.range regs.length).zip regs).reverse.map (fun (k, n) => (sp + 8 * (k + 1), s.getW r n))
    ++ [(sp, fixN (2 ^ 48 * mask.toNat + ret.toNat))]

/-- The accesses of a context at stair 0 to its stack (R253). -/
def State.stack0 (s : State) (r : Run) : Bool := stStair (s.status r) = 0

/-- CALLM (R125). -/
def execCallm (p : Nat) (ra : R5) (mask : BitVec 16) (s : State) : Host.Outcome State Fault Refusal :=
  .next (s.coreStep p (.callm p ra mask) 0 fun r s =>
    (s.target r (s.getW r ra.toNat)).bind fun pc s =>
      let sp := s.getW r 31
      if !sp.isFix then .trap (mkTrap 0x03 0 sp) s
      else
        let new : Int := sp.payload.toNat - 8 * (1 + (maskRegs mask).length)
        if new < (s.regs r).slim.toNat then .trap (mkTrap 0x10 (BitVec.ofInt 64 new) sp) s
        else
          (s.prepStores r (s.stack0 r) (frameWords s r new mask (s.nextPc r (.callm p ra mask)))).bind fun ws s =>
            .ok pc ((s.commitStores r ws).setW r 31 (fix (BitVec.ofInt 64 new))))

/-- The frame word RETM reads is good (R77). -/
def retFrameOk (w : Word) : Bool := w.isFix && fld w.payload 47 44 = 0 && !bit w.payload 0

/-- Writes registers from a list of words. -/
def State.setWs (s : State) (r : Run) : List (Nat × Word) → State
  | [] => s
  | (n, w) :: rest => (s.setW r n w).setWs r rest

/-- RETM (R126). -/
def execRetm (p : Nat) (s : State) : Host.Outcome State Fault Refusal :=
  .next (s.coreStep p (.retm p) 0 fun r s =>
    let sp := s.getW r 31
    if !sp.isFix then .trap (mkTrap 0x03 0 sp) s
    else
      let a : Int := sp.payload.toNat
      (s.load r a (s.stack0 r)).bind fun w s =>
        if !retFrameOk w then .trap (mkTrap 0x03 0 w) s
        else
          let regs := maskRegs (w.payload.extractLsb' 48 16)
          (s.loadWords r (a + 8) (s.stack0 r) regs.length).bind fun ws s =>
            .ok (w.payload.extractLsb' 0 44)
              ((s.setWs r (regs.zip ws)).setW r 31 (fix (BitVec.ofInt 64 (a + 8 * (1 + regs.length))))))

/-- BRK (R124). -/
def execBrk (p : Nat) (s : State) : Host.Outcome State Fault Refusal :=
  .next (s.coreStep p (.brk p) 0 fun r s =>
    .trap (mkTrap 0x14 (BitVec.ofNat 64 (s.regs r).pc.toNat) (raw 4)) s)

/-- SCALL (R149). -/
def execScall (p : Nat) (st : Bool) (s : State) : Host.Outcome State Fault Refusal :=
  .next (s.coreStep p (.scall p st) 0 fun r s =>
    let n := if st then 2 else 1
    let x := s.regs r
    let ret := s.nextPc r (.scall p st)
    if (s.specOf r.scn).isSome then .hold s
    else if n ≤ stStair x.status then .trap (stairViolation (.scall p st) x.pc) s
    else if x.shuse.getLsbD (n - 1) then .trap (mkTrap 0x13 (BitVec.ofNat 64 x.pc.toNat) (fixN n)) s
    else
      let y := if st then { x with sh2pc := ret, sh2sp := (x.getW 31).payload, sh2status := x.status,
                                   shuse := x.shuse ||| 2 }
        else { x with sh1pc := ret, sh1sp := (x.getW 31).payload, sh1status := x.status, shuse := x.shuse ||| 1 }
      let y := { y with status := setFld x.status 1 0 n }.putW 31 (fix (BitVec.ofInt 64 (s.scallSp r n)))
      let pc := if st then s.sys 0 0x4C else s.sys r.hall 0x48
      .ok (BitVec.ofNat 44 pc.toNat) (s.setRegs r y (0x8 ||| g4 ||| g5)))

/-- The end of an SRET made with STATUS `old` (R150): one that leaves the stairhead lets the commands that waited act
(R217). -/
def sretTo (r : Run) (old : BitVec 64) (pc : BitVec 44) (s : State) : Res (BitVec 44) :=
  if stSth old && !stSth (s.status r) then .stop ((s.retire r pc (stSs old)).leaveStairhead r) else .ok pc s

/-- SRET (R150). -/
def execSret (p : Nat) (s : State) : Host.Outcome State Fault Refusal :=
  .next (s.coreStep p (.sret p) 1 fun r s =>
    let x := s.regs r
    let n := stStair x.status
    if (s.specOf r.scn).isSome then .hold s
    else if !x.shuse.getLsbD (n - 1) then .trap (stairViolation (.sret p) x.pc) s
    else if n = 1 then
      sretTo r x.status x.sh1pc (s.setRegs r ({ x with status := x.sh1status, shuse := x.shuse &&& 2 }.putW 31 (fix x.sh1sp))
        (0x8 ||| g4 ||| g5))
    else
      sretTo r x.status x.sh2pc (s.setRegs r ({ x with status := x.sh2status, shuse := x.shuse &&& 1 }.putW 31 (fix x.sh2sp))
        (0x8 ||| g4 ||| g5)))

/-- XRET (R151, R207). -/
def execXret (p : Nat) (s : State) : Host.Outcome State Fault Refusal :=
  .next (s.coreStep p (.xret p) 0 fun r s => s.excReturn r (.xret p))

end Sys2Proof.Machine
end

