-- ==== Sys2Proof/Machine/Memory.lean ====
section
/-! DEFINITION. Loads, stores and FENCE (R127 to R130). -/

namespace Sys2Proof.Machine

/-- The word that names a word index in a BOUNDS (R128). -/
def indexWord (k : Int) : Word := fix (BitVec.ofInt 64 k)

/-- The body of a load through a base and an index. -/
def State.loadBody (s : State) (r : Run) (i : Instr) (rt base : Nat) (k : Int) (kw : Word) : Res (BitVec 44) :=
  (s.loadBase r rt (s.getW r base) k kw).bind fun _ s => .ok (s.nextPc r i) s

/-- The body of a store through a base and an index. -/
def State.storeBody (s : State) (r : Run) (i : Instr) (rt base : Nat) (k : Int) (kw : Word) : Res (BitVec 44) :=
  (s.storeBase r (s.getW r rt) (s.getW r base) k kw).bind fun _ s => .ok (s.nextPc r i) s

/-- LD (R129). -/
def execLd (p : Nat) (f : MemForm) (s : State) : Host.Outcome State Fault Refusal :=
  .next (s.coreStep p (.ld p f) 0 fun r s => s.loadBody r (.ld p f) f.data f.base f.index (indexWord f.index))

/-- ST (R129). -/
def execSt (p : Nat) (f : MemForm) (s : State) : Host.Outcome State Fault Refusal :=
  .next (s.coreStep p (.st p f) 0 fun r s => s.storeBody r (.st p f) f.data f.base f.index (indexWord f.index))

/-- LDX (R129). -/
def execLdx (p : Nat) (rd ra rb : R5) (s : State) : Host.Outcome State Fault Refusal :=
  .next (s.coreStep p (.ldx p rd ra rb) 0 fun r s =>
    let x := s.getW r rb.toNat
    orFault (indexFault x) s (s.loadBody r (.ldx p rd ra rb) rd.toNat ra.toNat x.payload.toInt x))

/-- STX (R129). -/
def execStx (p : Nat) (rd ra rb : R5) (s : State) : Host.Outcome State Fault Refusal :=
  .next (s.coreStep p (.stx p rd ra rb) 0 fun r s =>
    let x := s.getW r rb.toNat
    orFault (indexFault x) s (s.storeBody r (.stx p rd ra rb) rd.toNat ra.toNat x.payload.toInt x))

/-- LDSP (R85, R129). -/
def execLdsp (p : Nat) (rt : R4) (off : BitVec 7) (s : State) : Host.Outcome State Fault Refusal :=
  .next (s.coreStep p (.ldsp p rt off) 0 fun r s =>
    s.loadBody r (.ldsp p rt off) rt.toNat 31 off.toNat (indexWord off.toNat))

/-- STSP (R85, R129). -/
def execStsp (p : Nat) (rt : R4) (off : BitVec 7) (s : State) : Host.Outcome State Fault Refusal :=
  .next (s.coreStep p (.stsp p rt off) 0 fun r s =>
    s.storeBody r (.stsp p rt off) rt.toNat 31 off.toNat (indexWord off.toNat))

/-- FENCE (R130): MEMORY accesses are performed in order in this model, so nothing but PC changes. -/
def execFence (p : Nat) (s : State) : Host.Outcome State Fault Refusal :=
  .next (s.coreStep p (.fence p) 0 fun r s => .ok (s.nextPc r (.fence p)) s)

end Sys2Proof.Machine
end

