-- ==== Sys2Proof/Machine/Lists.lean ====
section
/-! DEFINITION. List instructions (R131 to R138). -/

namespace Sys2Proof.Machine

/-- RPLACA and RPLACD (R132). -/
def State.replaceCell (s : State) (r : Run) (i : Instr) (cell w : Word) (word : Nat) : Res (BitVec 44) :=
  orFault (typedFault isCons cell) s <|
    (s.store r (cell.payload.toNat + 8 * word) w).bind fun _ s => .ok (s.nextPc r i) s

/-- RPLACA (R132). -/
def execRplaca (p : Nat) (ra rb : R5) (s : State) : Host.Outcome State Fault Refusal :=
  .next (s.coreStep p (.rplaca p ra rb) 0 fun r s =>
    s.replaceCell r (.rplaca p ra rb) (s.getW r ra.toNat) (s.getW r rb.toNat) 0)

/-- RPLACD (R132). -/
def execRplacd (p : Nat) (ra rb : R5) (s : State) : Host.Outcome State Fault Refusal :=
  .next (s.coreStep p (.rplacd p ra rb) 0 fun r s =>
    s.replaceCell r (.rplacd p ra rb) (s.getW r ra.toNat) (s.getW r rb.toNat) 1)

/-! Long resumable instructions (R134 to R136). -/

/-- A step of a long instruction that raises leaves STATUS.RES clear (R136); inside a speculation it only waits. -/
def Res.clearsRes {α : Type} (x : Res α) (r : Run) : Res α :=
  match x with
  | .trap t s => .trap t (if (s.specOf r.scn).isSome then s else s.setRes r false)
  | y => y

/-- The interruption at a yield point: STATUS.RES is set and PC stays (R134). -/
def State.interrupted (s : State) (r : Run) : State := s.setRes r true

/-- The end of a long instruction: RES is cleared and PC advances. -/
def State.longDone (s : State) (r : Run) (i : Instr) : Res (BitVec 44) :=
  .ok (s.nextPc r i) (s.setRes r false)

/-- What a search step finds (R137). -/
inductive Found where
  | hit (w : Word)
  | miss

/-- One comparison of MEMQ, or of ASSQ where `assoc`: `l` the tail, `key` the key (R137). -/
def State.searchStep (s : State) (r : Run) (assoc : Bool) (key l : Word) : Res Found :=
  (s.load r l.payload.toNat).bind fun e s =>
    if !assoc then .ok (if identical e key then .hit l else .miss) s
    else if e.isNil then .ok .miss s
    else orFault (typedFault isCons e) s <|
      (s.load r e.payload.toNat).bind fun c s => .ok (if identical c key then .hit e else .miss) s

/-- The loop of MEMQ and ASSQ (R137): at most n steps, n being CNT; `stop`: the yield point of an interruption. -/
def State.searchLoop (s : State) (r : Run) (i : Instr) (assoc : Bool) (rd ra rb : Nat) :
    Nat → Option Nat → Res (BitVec 44)
  | n, stop =>
    let l := s.getW r rb
    if l.isNil then (s.setW r rd nil).longDone r i
    else match typedFault isCons l with
      | some t => .trap t s
      | none => match n with
        | 0 => (s.setW r rd novalue).longDone r i
        | n + 1 =>
          (s.searchStep r assoc (s.getW r ra) l).bind fun f s =>
            match f with
            | .hit w => (s.setW r rd w).longDone r i
            | .miss =>
              (s.load r (l.payload.toNat + 8)).bind fun next s =>
                let s := (s.setW r rb next).setCnt r n
                if stop = some 1 then .stop (s.interrupted r)
                else s.searchLoop r i assoc rd ra rb n (stop.map (· - 1))

/-- MEMQ (R137). -/
def execMemq (p : Nat) (rd ra rb : R5) (stop : Option Nat) (s : State) : Host.Outcome State Fault Refusal :=
  .next (s.coreStep p (.memq p rd ra rb stop) 0 fun r s =>
    (s.asRoutine r .memq (s.nextPc r (.memq p rd ra rb stop)) true stop <|
    (s.searchLoop r (.memq p rd ra rb stop) false rd.toNat ra.toNat rb.toNat (s.regs r).cnt.toNat stop)).clearsRes r)

/-- ASSQ (R137). -/
def execAssq (p : Nat) (rd ra rb : R5) (stop : Option Nat) (s : State) : Host.Outcome State Fault Refusal :=
  .next (s.coreStep p (.assq p rd ra rb stop) 0 fun r s =>
    (s.asRoutine r .assq (s.nextPc r (.assq p rd ra rb stop)) true stop <|
    (s.searchLoop r (.assq p rd ra rb stop) true rd.toNat ra.toNat rb.toNat (s.regs r).cnt.toNat stop)).clearsRes r)

/-- The loop of LLEN (R138); a count in rd that would pass 2^63 - 1 wraps modulo 2^64 (log entry 69). -/
def State.lengthLoop (s : State) (r : Run) (i : Instr) (rd ra : Nat) : Nat → Option Nat → Res (BitVec 44)
  | n, stop =>
    let l := s.getW r ra
    if l.isNil then s.longDone r i
    else match typedFault isCons l with
      | some t => .trap t s
      | none => match n with
        | 0 => s.longDone r i
        | n + 1 =>
          (s.load r (l.payload.toNat + 8)).bind fun next s =>
            let s := ((s.setW r rd (fix ((s.getW r rd).payload + 1))).setW r ra next).setCnt r n
            if stop = some 1 then .stop (s.interrupted r)
            else s.lengthLoop r i rd ra n (stop.map (· - 1))

/-- LLEN (R138). -/
def execLlen (p : Nat) (rd ra : R5) (stop : Option Nat) (s : State) : Host.Outcome State Fault Refusal :=
  .next (s.coreStep p (.llen p rd ra stop) 0 fun r s =>
    (s.asRoutine r .llen (s.nextPc r (.llen p rd ra stop)) true stop <|
    (orFault (typedFault (·.isFix) (s.getW r rd.toNat)) s
      (s.lengthLoop r (.llen p rd ra stop) rd.toNat ra.toNat (s.regs r).cnt.toNat stop))).clearsRes r)

end Sys2Proof.Machine
end

