-- ==== Sys2Proof/Machine/Vectors.lean ====
section
/-! DEFINITION. Vector instructions (R139 to R142). -/

namespace Sys2Proof.Machine

/-- A word object or a byte object (R139). -/
def isVectorObj (w : Word) : Bool := 0x11 ≤ w.type && w.type ≤ 0x18
/-- A byte object. -/
def isBytes (w : Word) : Bool := w.type = 0x12

/-- D for the header, and for slot 0 of a byte object, with their checks: the extent (R139, R140 step 4), a byte count
in two's complement (R51). -/
def State.extent (s : State) (r : Run) (o : Word) : Res Int :=
  (s.load r o.payload.toNat).bind fun hdr s =>
    if hdr.type = 0x32 then .trap (mkTrap 0x06 0 hdr) s
    else if hdr.type ≠ 0x30 then .trap (mkTrap 0x03 0 hdr) s
    else if isBytes o then
      (s.load r (o.payload.toNat + 8)).bind fun b s =>
        orFault (typedFault (·.isFix) b) s (.ok b.payload.toInt s)
    else .ok (hdrLen hdr) s

/-- An index outside [0, n) (R139). -/
def outside (x : Word) (n : Int) : Bool := x.payload.toInt < 0 || n ≤ x.payload.toInt

/-- Address of the word that holds element j of an object (R68). -/
def elementAddr (o : Word) (j : Nat) : Int :=
  if isBytes o then o.payload.toNat + 16 + 8 * (j / 8) else o.payload.toNat + 8 * (1 + j)

/-- A byte of a word. -/
def byteOf (w : Word) (j : Nat) : Nat := fld w.payload (8 * (j % 8) + 7) (8 * (j % 8))

/-- The element an instruction reads (R140). -/
def State.readElement (s : State) (r : Run) (o : Word) (j : Nat) : Res Word :=
  (s.load r (elementAddr o j)).bind fun w s =>
    if !isBytes o then .ok w s
    else if w.type = 0x32 then .trap (mkTrap 0x06 0 w) s
    else .ok (fixN (byteOf w j)) s

/-- The word of a body with one byte replaced. -/
def putElemByte (w : Word) (j : Nat) (v : Word) : Word :=
  ⟨w.tag, setFld w.payload (8 * (j % 8) + 7) (8 * (j % 8)) v.payload.toNat⟩

/-- The element an instruction writes (R140): a byte by a read-modify-write, checked as a store (R253). -/
def State.writeElement (s : State) (r : Run) (o : Word) (j : Nat) (v : Word) : Res Unit :=
  let a := elementAddr o j
  if !isBytes o then s.store r a v
  else
    (s.prepStore r (stStair (s.status r)) a false (raw 0)).bind fun (pa, _) s =>
      let rd : Res Word := if regionOf s.part pa = .memory then s.readMem r (BitVec.ofInt 64 a) pa false
        else match s.devLoad r pa with
          | (.word x, s) => .ok x s
          | (.error, s) => .trap (mkTrap 0x18 (BitVec.ofInt 64 a) (accessWord true false)) s
          | (.wait, s) => .stop s
      rd.bind fun w s =>
        let w := strip (s.compat r.hall) w
        if w.type = 0x32 then .trap (mkTrap 0x06 0 w) s else .ok () (s.commitStore r pa (putElemByte w j v))

/-- A byte value that a byte element takes (R140). -/
def byteFault (v : Word) : Option Trap :=
  match typedFault (·.isFix) v with
  | some t => some t
  | none => if v.payload.toNat < 256 then none else some (mkTrap 0x05 0 v)

/-- VREF (R139, R140). -/
def execVref (p : Nat) (rd ra rb : R5) (s : State) : Host.Outcome State Fault Refusal :=
  .next (s.coreStep p (.vref p rd ra rb) 0 fun r s =>
    let o := s.getW r ra.toNat
    let x := s.getW r rb.toNat
    orFault (typedFault isVectorObj o) s <| orFault (typedFault (·.isFix) x) s <|
      (s.extent r o).bind fun n s =>
        if outside x n then .trap (mkTrap 0x05 0 x) s
        else (s.readElement r o x.payload.toNat).bind fun w s =>
          .ok (s.nextPc r (.vref p rd ra rb)) (s.setW r rd.toNat w))

/-- VSET (R139, R140). -/
def execVset (p : Nat) (rd ra rb : R5) (s : State) : Host.Outcome State Fault Refusal :=
  .next (s.coreStep p (.vset p rd ra rb) 0 fun r s =>
    let o := s.getW r ra.toNat
    let x := s.getW r rb.toNat
    let v := s.getW r rd.toNat
    orFault (typedFault isVectorObj o) s <| orFault (typedFault (·.isFix) x) s <|
      orFault (if isBytes o then byteFault v else none) s <|
        (s.extent r o).bind fun n s =>
          if outside x n then .trap (mkTrap 0x05 0 x) s
          else (s.writeElement r o x.payload.toNat v).bind fun _ s => .ok (s.nextPc r (.vset p rd ra rb)) s)

/-- A yield point of VFILL and VCOPY follows this step: every 16th element of the execution and the last (R135). -/
def yieldsAfter (moved left : Nat) : Bool := moved % 16 = 0 || left = 0

/-- The steps of VFILL (R141): n elements left, `k` moved in this execution; `stop` counts yield points. Each step stores
rd as it then stands. -/
def State.fillLoop (s : State) (r : Run) (i : Instr) (o : Word) (rd rb : Nat) : Nat → Nat → Option Nat → Res (BitVec 44)
  | 0, _, _ => s.longDone r i
  | n + 1, k, stop =>
    (s.writeElement r o (s.getW r rb).payload.toNat (s.getW r rd)).bind fun _ s =>
      let s := (s.setW r rb (fix ((s.getW r rb).payload + 1))).setCnt r n
      if yieldsAfter (k + 1) n then
        if stop = some 1 then .stop (s.interrupted r) else s.fillLoop r i o rd rb n (k + 1) (stop.map (· - 1))
      else s.fillLoop r i o rd rb n (k + 1) stop

/-- VFILL (R141). -/
def execVfill (p : Nat) (rd ra rb : R5) (stop : Option Nat) (s : State) : Host.Outcome State Fault Refusal :=
  .next (s.coreStep p (.vfill p rd ra rb stop) 0 fun r s =>
    let o := s.getW r ra.toNat
    let x := s.getW r rb.toNat
    let v := s.getW r rd.toNat
    let n := (s.regs r).cnt.toNat
    (s.asRoutine r .vfill (s.nextPc r (.vfill p rd ra rb stop)) true stop <|
    (orFault (typedFault isVectorObj o) s <| orFault (typedFault (·.isFix) x) s <|
      orFault (if isBytes o then byteFault v else none) s <|
        (s.extent r o).bind fun e s =>
          if x.payload.toInt < 0 || e < x.payload.toInt + n then .trap (mkTrap 0x05 0 x) s
          else s.fillLoop r (.vfill p rd ra rb stop) o rd.toNat rb.toNat n 0 stop)).clearsRes r)

/-- The steps of VCOPY (R142). -/
def State.copyLoop (s : State) (r : Run) (i : Instr) (src dst : Word) (rb : Nat) :
    Nat → Nat → Option Nat → Res (BitVec 44)
  | 0, _, _ => s.longDone r i
  | n + 1, k, stop =>
    let x := (s.getW r rb).payload
    (s.readElement r src (fld x 31 0)).bind fun w s =>
      (s.writeElement r dst (fld x 63 32) w).bind fun _ s =>
        let s := (s.setW r rb (fix (setFld (setFld x 31 0 (fld x 31 0 + 1)) 63 32 (fld x 63 32 + 1)))).setCnt r n
        if yieldsAfter (k + 1) n then
          if stop = some 1 then .stop (s.interrupted r) else s.copyLoop r i src dst rb n (k + 1) (stop.map (· - 1))
        else s.copyLoop r i src dst rb n (k + 1) stop

/-- VCOPY (R142). -/
def execVcopy (p : Nat) (rd ra rb : R5) (stop : Option Nat) (s : State) : Host.Outcome State Fault Refusal :=
  .next (s.coreStep p (.vcopy p rd ra rb stop) 0 fun r s =>
    let src := s.getW r ra.toNat
    let dst := s.getW r rd.toNat
    let x := s.getW r rb.toNat
    let n := (s.regs r).cnt.toNat
    (s.asRoutine r .vcopy (s.nextPc r (.vcopy p rd ra rb stop)) true stop <|
    (orFault (typedFault isVectorObj src) s <| orFault (typedFault isVectorObj dst) s <|
      if isBytes src ≠ isBytes dst then .trap (mkTrap 0x03 0 dst) s
      else orFault (typedFault (·.isFix) x) s <|
        (s.extent r src).bind fun e s => (s.extent r dst).bind fun f s =>
          if e < fld x.payload 31 0 + n || f < fld x.payload 63 32 + n then .trap (mkTrap 0x05 0 x) s
          else s.copyLoop r (.vcopy p rd ra rb stop) src dst rb.toNat n 0 stop)).clearsRes r)

end Sys2Proof.Machine
end

