-- ==== Sys2Proof/Machine/Alloc.lean ====
section
/-! DEFINITION. Allocation (R133, R143 to R146, R313 to R316): regions, large bins, exhaustion, CONS and ALLOC. -/

namespace Sys2Proof.Machine

/-- The instruction has waited for a cycle and is retried (R316); one in a handler that was entered since is another. -/
def State.retrying (s : State) (r : Run) : Bool :=
  (s.ctx r.scn).retries.contains (entryLevel (s.regs r).landctl, (s.regs r).pc)

/-- The retry is over, or begins where `due`. -/
def State.setRetry (s : State) (r : Run) (due : Bool) : State :=
  let l := entryLevel (s.regs r).landctl
  let rest := (s.ctx r.scn).retries.filter (fun e => e.1 < l)
  s.setCtx r.scn { s.ctx r.scn with retries := if due then (l, (s.regs r).pc) :: rest else rest }

/-- A size cannot be supplied (R316): raise GRANARY_EXHAUSTED, or wait for a cycle and retry once. -/
def State.exhausted (s : State) (r : Run) (i : Instr) (size : Nat) : Res (BitVec 44) :=
  let g := s.glh r.hall
  let v := s.reg (Reg.glHall r.hall)
  let raise := fun (s : State) => Res.trap (mkTrap 0x11 0 (fixN size)) (s.setRetry r false)
  let wait := fun (s : State) => (s.setRetry r true).waitOr r i (.alloc .cycle)
  if s.retrying r || !bit v 26 then raise s
  else if g.phase ≠ .idle then wait s
  else if fld v 41 34 ≠ 0 && g.edenOpened ≠ 0 then
    match s.startCycle r.hall false with
    | (true, s) => wait s
    | (false, s) => raise s
  else if fld v 33 27 ≠ 0 then
    match s.startCycle r.hall true with
    | (true, s) => wait s
    | (false, s) => raise s
  else raise s

/-- Bytes of a region (GL_CFG.REGION). -/
def State.regionSize (s : State) : Nat := 0x4000 * 2 ^ s.rf Reg.glCfg 7 4

/-- A region from an OPEN EDEN bin of the hall, which one being open (log entry 8), or from a FREE bin (R313): its
physical base. -/
def State.takeRegion (s : State) (h : Nat) : Option Nat × State :=
  let size := s.regionSize
  let (f, s) := s.freeNat
  let take := fun (s : State) (n : Nat) =>
    let b := s.bin n
    (some (binSize * n + b.top), s.setBin n { b with top := b.top + size })
  match pick (s.binsOf h (fun b => b.kind = .eden && b.state = .opened && b.top + size ≤ binSize)) f with
  | some n => take s n
  | none =>
    if !s.mayTake h 1 then (none, s)
    else match s.takeBin h .eden .opened 0 with
      | (none, s) => (none, s)
      | (some n, s) =>
        let (pa, s) := take s n
        let g := s.glh h
        (pa, (s.setGl h { g with edenOpened := g.edenOpened + 1 }).cyclePolicy h)

/-- The region of a context is valid (R314). -/
def State.regionOk (s : State) (r : Run) : Bool :=
  let x := s.regs r
  let a := fixN x.allocp.toNat
  let b := s.binOf (s.heapPa r.hall a)
  let lo := s.heapPa r.hall a
  x.allocp.toNat ≤ x.allocl.toNat && s.isHeap r.hall a && b.kind = .eden && b.state = .opened &&
    lo + (x.allocl.toNat - x.allocp.toNat) ≤ binSize * (lo / binSize + 1)

/-- The region of a context may be used: an unchecked one that is invalid is treated as empty (R314). -/
def State.regionLive (s : State) (r : Run) : Bool := !(s.slot r.hcn).unchecked || s.regionOk r

/-- The region of a context is checked. -/
def State.checked (s : State) (r : Run) : State := s.setSlot r.hcn { s.slot r.hcn with unchecked := false }

/-- A place of `size` bytes, at most 4,096, in the context's region or in a new one (R313): its window address. A core
that has not flipped flips first (R334 rule 4). -/
def State.place (s : State) (r : Run) (i : Instr) (size : Nat) (f : Nat → State → Res (BitVec 44)) : Res (BitVec 44) :=
  let x := s.regs r
  if s.regionLive r && x.allocp.toNat + size ≤ x.allocl.toNat then f x.allocp.toNat (s.checked r)
  else if (s.specOf r.scn).isSome then .hold s
  else
    let s := if (s.glh r.hall).phase = .flip && !(s.core r.p).flipped.contains r.hall then s.adopt r.p r.hall else s
    match s.takeRegion r.hall with
    | (none, s) => s.exhausted r i size
    | (some pa, s) =>
      let a := s.wbase r.hall + pa
      let s := s.setRegs r { s.regs r with allocp := BitVec.ofNat 44 a,
                                           allocl := BitVec.ofNat 44 (a + s.regionSize) } g4
      f a (s.checked r)

/-- The good epoch of the executing core for a generation (R319). -/
def State.myEpoch (s : State) (p h : Nat) (gen : Bool) : Bool :=
  match s.goodE (.core p) h gen with
  | some e => e
  | none => (s.glh h).goodOf gen

/-- Stores the words of a fresh object at a window address, delivers its pointer and advances ALLOCP (R133, R145). -/
def State.build (s : State) (r : Run) (i : Instr) (a ty rd : Nat) (ws : List Word) : Res (BitVec 44) :=
  let items := (List.range ws.length).zip ws |>.map (fun (k, w) => ((a + 8 * k : Nat), w))
  (s.prepStores r false (items.map (fun (x, w) => ((x : Int), w)))).bind fun xs s =>
    let s := (s.commitStores r xs).startObj (s.heapPa r.hall (fixN a)) ty
    let x := s.regs r
    let s := s.setRegs r { x with allocp := BitVec.ofNat 44 (a + 8 * ws.length) } g4
    let s := s.setRetry r false
    let s := s.setW r rd (stamp ⟨BitVec.ofNat 8 ty, 0⟩ (BitVec.ofNat 64 a) false (s.myEpoch r.p r.hall false))
    .ok (s.nextPc r i) s

/-- CONS (R133). -/
def execCons (p : Nat) (rd ra rb : R5) (s : State) : Host.Outcome State Fault Refusal :=
  .next (s.coreStep p (.cons p rd ra rb) 0 fun r s =>
    s.place r (.cons p rd ra rb) 16 fun a s =>
      s.build r (.cons p rd ra rb) a 0x10 rd.toNat [s.getW r ra.toNat, s.getW r rb.toNat])

/-- LENGTH is in its range for a type (R144). -/
def lengthOk (ty n : Nat) : Bool :=
  n < 2 ^ 40 &&
    (if ty = 0x11 then true
     else if ty = 0x13 then n = 5
     else if ty = 0x15 then 2 ≤ n
     else if ty = 0x17 || ty = 0x18 then 4 ≤ n
     else 1 ≤ n)

/-- The header ALLOC writes (R63, R145). -/
def newHeader (ty n : Nat) (pin : Bool) (sub : BitVec 8) : Word :=
  ⟨0x30, setBit (setFld (setFld 0 55 16 n) 15 8 sub.toNat) 61 (pin || ty = 0x18)⟩

/-- Slot k of a fresh object of LENGTH n (R144). -/
def freshSlot (ty n k : Nat) : Word :=
  if ty = 0x12 then if k = 0 then fixN (8 * (n - 1)) else raw 0
  else if ty = 0x13 then
    if k = 1 || k = 2 then unbound else if k = 4 then fixN 0 else nil
  else if ty = 0x15 then raw 0
  else if ty = 0x18 then
    if k = 0 then fixN (8 * (n - 4)) else if k = 1 || k = 2 then nil else if k = 3 then fixN 0 else raw 0
  else nil

/-- The words of a fresh object. -/
def freshWords (ty n : Nat) (pin : Bool) (sub : BitVec 8) : List Word :=
  newHeader ty n pin sub :: (List.range n).map (freshSlot ty n)

/-- Runs of k consecutive FREE bins, by their first bin. -/
def State.freeRuns (s : State) (k : Nat) : List Nat :=
  (List.range (s.part.nbins + 1 - k)).filter (fun n => (List.range k).all (fun j => (s.bin (n + j)).kind = .free))

/-- Gives a run of bins to a large object (R315). -/
def State.giveLarge (s : State) (h n size : Nat) : Nat → Nat → State
  | _, 0 => s
  | j, k + 1 =>
    let s := s.giveBin (n + j) h (if j = 0 then .large else .largeCont) .closed 0
    let s := s.setBin (n + j) { s.bin (n + j) with top := min binSize (size - binSize * j) }
    s.giveLarge h n size (j + 1) k

/-- An ALLOC of more than 4,096 bytes (R146, R315): the place of the run is open (log entry 8); the header names the
object's LENGTH and SUBTYPE to the engine that initialises it. -/
def State.allocLarge (s : State) (r : Run) (i : Instr) (ty n rd : Nat) (hdr : Word) : Res (BitVec 44) :=
  let size := 8 * (n + 1)
  let k := (size - 1) / binSize + 1
  if (s.specOf r.scn).isSome then .hold s
  else if !s.mayTake r.hall k then s.exhausted r i size
  else
    let (f, s) := s.freeNat
    match pick (s.freeRuns k) f with
    | none => s.exhausted r i size
    | some b =>
      if stSth (s.status r) then .trap (stairViolation i (s.regs r).pc) s
      else
        let s := (s.giveLarge r.hall b size 0 k).cyclePolicy r.hall
        let pa := binSize * b
        let s := s.agentStore pa hdr
        let s := s.setRetry r false
        .stop (s.await r (.alloc (.large rd ⟨BitVec.ofNat 8 ty, BitVec.ofNat 64 (s.wbase r.hall + pa)⟩)))

/-- ALLOC (R143 to R146). -/
def execAlloc (p : Nat) (rd ra : R5) (ty : BitVec 6) (pin : Bool) (sub : BitVec 8) (s : State) :
    Host.Outcome State Fault Refusal :=
  let i := Instr.alloc p rd ra ty pin sub
  .next (s.coreStep p i 0 fun r s =>
    let l := s.getW r ra.toNat
    let n := l.payload.toNat
    orFault (typedFault (·.isFix) l) s <|
      if !lengthOk ty.toNat n then .trap (mkTrap 0x05 0 l) s
      else if n ≤ 511 then
        s.place r i (8 * (n + 1)) fun a s => s.build r i a ty.toNat rd.toNat (freshWords ty.toNat n pin sub)
      else s.allocLarge r i ty.toNat n rd.toNat (newHeader ty.toNat n pin sub))

/-- Stores the initial slots of a large object (R146). -/
def State.initSlots (s : State) (pa ty n : Nat) : Nat → State
  | 0 => s
  | k + 1 => (s.agentStore (pa + 8 * (n - k)) (freshSlot ty n (n - 1 - k))).initSlots pa ty n k

/-- LARGE_INIT_DONE (R146): every slot holds its initial value, rd receives the pointer, with E good for the core it is
delivered on and G = 1 (R315, R319), and the context becomes Ready. -/
def execLargeInitDone (scn : Nat) (s : State) : Host.Outcome State Fault Refusal :=
  let c := s.ctx scn
  match c.wait with
  | some (.alloc (.large rd w)) =>
    let pa := s.heapPa c.hall w
    let n := hdrLen (s.memWord pa)
    let s := s.initSlots pa w.type n n
    let w := stamp w w.payload true (s.myEpoch (s.pcnOf c.hcn) c.hall true)
    .next ((s.setCtx scn { s.ctx scn with wait := some (.alloc (.large rd w)) }).allocDone scn)
  | _ => .next s

end Sys2Proof.Machine
end

