-- ==== Sys2Proof/Machine/Manager.lean ====
section
/-! DEFINITION. The requests of the manager mailbox as the device kernel carries them out (spec/14_host_pcie.md, R439): the
hall commands (R410, R411), EVENT_READ, SERVICE (R502, R505) and CASCADE (R493). Arguments whose layout spec/ does not give
are operands of the command rows (log entry 12). -/

namespace Sys2Proof.Machine

/-! RESULT codes (R439). -/

/-- OK. -/
def rOk : Nat := 0
/-- REFUSED_STATE. -/
def rState : Nat := 1
/-- NO_VF. -/
def rNoVf : Nat := 2
/-- RANGE. -/
def rRange : Nat := 3
/-- NO_RESOURCE. -/
def rResource : Nat := 4
/-- NOT_CREATED. -/
def rNotCreated : Nat := 5

/-- A hall command is answered and recorded (R410, R512). -/
def hallAnswer (h code : Nat) (x : Nat × State) : State :=
  (x.2.note { code := 0x093, cls := .event, source := 0xB, hall := h, detail := BitVec.ofNat 64 code }).respondWords none x.1 []

/-- The hall a command names is absent, or not created (R410). -/
def State.noHall (s : State) (h : Nat) : Bool := s.part.hallMax < h || !s.hallCreated h

/-- Every share of a hall at its reset value (R410). -/
def State.freshShares (s : State) (h : Nat) : State :=
  let s := (s.resetShares h).setShare h 0xB (Reg.hallCfg h) 0 0 (fld (regReset s.part (Reg.hallCfg h)) 0 0)
  (s.setShare h 3 (Reg.glHall h) 55 42 0).setShare h 0xA (Reg.glHall h) 63 56 0

/-- HALL_CREATE (R410): an absent hall is NOT_CREATED, and the shares of a new one have their reset values. -/
def State.mgrCreate (s : State) (h : Nat) : Nat × State :=
  if s.part.hallMax < h then (rNotCreated, s)
  else if h = 0 then (rState, s)
  else if s.hstate h ≠ 0 then (rState, s.hallCreate h)
  else (rOk, (s.hallCreate h).freshShares h)

/-- HALL_START (R410): the context that the device kernel then resumes is an operand. -/
def State.mgrStart (s : State) (h : Nat) (first : Option Nat) : Nat × State :=
  if s.noHall h then (rNotCreated, s)
  else if h = 0 then (rState, s)
  else if s.hstate h ≠ 1 then (rState, s.hallStart h)
  else if !s.vfOn h then (rNoVf, s.hallStart h)
  else
    let s := s.hallStart h
    (rOk, match first with
      | none => s
      | some scn => s.ctxApply .pf .resume (scn % 65536) 0)

/-- HALL_RESET (R410, R419). -/
def State.mgrReset (s : State) (h mode grace limit : Nat) : Nat × State :=
  if s.noHall h then (rNotCreated, s)
  else if h = 0 then (rState, s)
  else if 1 < mode || 255 < grace || 30 < limit then (rRange, s)
  else
    let off := Reg.hallReset h
    let s := ((s.setRf off 62 62 mode).setRf off 55 48 grace).setRf off 44 40 limit
    (rOk, s.resetGo h (mode = 1))

/-- HALL_REMOVE (R410). -/
def State.mgrRemove (s : State) (h : Nat) : Nat × State :=
  if s.noHall h then (rNotCreated, s)
  else if h = 0 then (rState, s)
  else if s.hstate h ≠ 1 then (rState, s.hallRemove h)
  else (rOk, s.hallRemove h)

/-! Shares (R411). -/

/-- The function of a register is overridden (R457): the basic write is refused. -/
def State.regHeld (s : State) (off : Nat) : Bool :=
  match regFn off with
  | none => false
  | some (j, b) => bit (s.reg (Reg.devOvr j)) b

/-- A share held in a field of a register, within its range. -/
def State.shareField (s : State) (off hi lo v : Nat) (ok : Bool) : Nat × State :=
  if !ok then (rRange, s)
  else if s.regHeld off then (rState, s)
  else (rOk, s.commitWrite off (fmask hi lo) (setFld 0 hi lo v))

/-- CONTEXTS: the hall is to own v slots of one LCN; `first` is the first of the slots that change owner, which the device
kernel chooses. -/
def State.shareContexts (s : State) (h v lcn first : Nat) : Nat × State :=
  if 64 < v || s.part.cores ≤ lcn then (rRange, s)
  else
    let own := fun (k : Nat) => (s.slot (lcn * 64 + k)).pend.getD (s.slot (lcn * 64 + k)).owner
    let have' := ((List.range 64).filter (fun k => own k = h)).length
    let n := if have' ≤ v then v - have' else have' - v
    let src := if have' ≤ v then 0 else h
    if n = 0 then (rOk, s)
    else if h = 0 || 64 < first + n || (runOf first n).any (fun k => own k ≠ src) then (rResource, s)
    else (rOk, s.slotCmd lcn first n (if have' ≤ v then h else 0))

/-- CAMS: cam group g granted to the hall (`v` = 1), which every other owner loses, or revoked (R411, R416). -/
def State.shareCams (s : State) (h v g : Nat) : Nat × State :=
  let cams := (List.range 8).map (fun k => 8 * g + k)
  let off := Reg.hallDevmap h 7
  if 1 < v || s.part.cams ≤ 8 * g then (rRange, s)
  else if cams.any (fun k => s.regHeld (Reg.camCfg k)) then (rState, s)
  else if v = 0 then (rOk, s.dropCams h g 0)
  else
    let t := ((cams.map s.camOwner).eraseDups.filter (· ≠ h)).foldl (fun s k => s.dropCams k g h) s
    let t := cams.foldl (fun s k => s.setRf (Reg.camCfg k) 63 58 h) t
    let t := if h = 0 then t else t.setRf off (12 + g) (12 + g) 1
    (rOk, if h = 0 || (cams.all (fun k => s.camOwner k = h) && s.rf off (12 + g) (12 + g) = 1) then t
      else t.shareChanged h 9 (16 + g))

/-- BINS and HEAP_WINDOW: fields of GL_HALL[h], which a resetting hall refuses (R423). -/
def State.shareGl (s : State) (h hi lo v id : Nat) : Nat × State :=
  if s.hstate h = 3 then (rState, s)
  else if s.rf (Reg.glHall h) hi lo = v then (rOk, s)
  else (rOk, (s.setRf (Reg.glHall h) hi lo v).shareChanged h id v)

/-- HALL_SET_SHARE (R411): `lcn` and `first` serve CONTEXTS; for CAMS `lcn` is the cam group. -/
def State.mgrShare (s : State) (h id v lcn first : Nat) : Nat × State :=
  let share := Reg.hallShare h
  if s.noHall h then (rNotCreated, s)
  else if id = 1 then s.shareContexts h v lcn first
  else if id = 2 then s.shareField share 63 48 v (v < 65536)
  else if id = 3 then if s.part.nbins < v then (rRange, s) else s.shareGl h 55 42 v 3
  else if id = 4 then
    if s.part.galLines < v then (rRange, s)
    else if s.rf (Reg.galHall h) 47 32 = v then (rOk, s)
    else (rOk, (s.setRf (Reg.galHall h) 47 32 v).shareChanged h 4 v)
  else if id = 5 then s.shareField share 47 34 v (v ≤ 8192)
  else if id = 6 then s.shareField share 33 26 v (1 ≤ v && v ≤ 255)
  else if id = 7 then s.shareField (Reg.hallPdwin h) 63 0 v (v < 2 ^ 64 && s.pdwinOk h (BitVec.ofNat 64 v))
  else if id = 8 then s.shareField share 15 8 v (h ≠ 0 && v < 2 ^ s.part.axes)
  else if id = 9 then s.shareCams h v lcn
  else if id = 0xA then
    if 255 < v then (rRange, s) else if s.hstate h ≠ 1 then (rState, s) else s.shareGl h 63 56 v 0xA
  else if id = 0xB then
    if 1 < v || h = 0 then (rRange, s)
    else if s.rf (Reg.hallCfg h) 0 0 = v then (rOk, s)
    else (rOk, (s.setRf (Reg.hallCfg h) 0 0 v).shareChanged h 0xB v)
  else (rRange, s)

/-- The cam groups whose outputs a hall owns, as a mask. -/
def State.camGroups (s : State) (h : Nat) : Nat :=
  ((List.range (s.part.cams / 8)).filter (fun g => (List.range 8).any (fun k => s.camOwner (8 * g + k) = h))).foldl
    (fun m g => m + 2 ^ g) 0

/-- HALL_QUERY (R410, R450): the words of the answer. -/
def State.hallQuery (s : State) (h : Nat) : List (BitVec 64) :=
  [s.viewHall h, s.reg (Reg.hallShare h), s.reg (Reg.hallPdwin h), BitVec.ofNat 64 (s.rf (Reg.glHall h) 55 42),
   BitVec.ofNat 64 (s.binsUsed h), BitVec.ofNat 64 (s.rf (Reg.galHall h) 47 32), BitVec.ofNat 64 (s.galUsed h),
   BitVec.ofNat 64 (s.camGroups h), BitVec.ofNat 64 (s.rf (Reg.glHall h) 63 56), BitVec.ofNat 64 (s.rf (Reg.hallCfg h) 0 0)]

/-- HALL_QUERY answered. -/
def State.mgrQuery (s : State) (h : Nat) : State :=
  let t := s.note { code := 0x093, cls := .event, source := 0xB, hall := h, detail := 0x15 }
  if s.noHall h then t.respondWords none rNotCreated [] else t.respondWords none rOk (s.hallQuery h)

/-! The other requests. -/

/-- VERSION (R439): the device kernel's version is a free value (log entry 8). -/
def State.mgrVersion (s : State) : State :=
  let (v, s) := s.freeNat
  s.respondWords none rOk [BitVec.ofNat 64 v, BitVec.ofNat 64 (s.rf Reg.devPatchStat 63 32), s.part.features]

/-- The two words of an event of EVENT_READ: DT; record index, event code, hall and vector (R496; log entry 19). -/
def eventWords (e : MgrEvent) : List (BitVec 64) :=
  [BitVec.ofNat 64 e.dt, BitVec.ofNat 64 (e.vector % 65536 + 2 ^ 16 * (e.hall % 65536) + 2 ^ 32 * (e.code % 65536) +
    2 ^ 48 * (e.index % 65536))]

/-- EVENT_READ (R439): up to 255 events, oldest first, which are read once. -/
def State.mgrEventRead (s : State) : State :=
  let n := min (s.reg (boxReq none 1)).toNat 255
  let l := s.mgrEvents.take n
  ({ s with mgrEvents := s.mgrEvents.drop n }).respondWords none rOk (l.flatMap eventWords)

/-- A sub-operation of a mailbox request: bits 7:0 of request word 1. -/
def State.mgrSub (s : State) (code sub : Nat) (f : State → State) : State :=
  s.serve none code fun s => if s.rf (boxReq none 1) 7 0 = sub then f s else s

/-- SERVICE STATUS (R502, R505). -/
def State.mgrServiceStatus (s : State) : State :=
  s.respondWords none rOk ((s.regValue Reg.seedStat :: (List.range s.part.cores).map (fun c => s.reg (Reg.seedMap c)) ++
    [s.regValue Reg.frecStat] ++ s.service.log).take 511)

/-- RESULT of a mailbox response to a seed command, from RESULT of SEED_CMD_STAT (log entry 12). -/
def seedResponse (busy : Bool) (r : Nat) : Nat :=
  if busy then rState else if r = 0 then rOk else if r = 2 then rRange else if r = 3 then rResource else rState

/-- SERVICE with an OP of SEED_CMD, its ARG in word 2 (R502). -/
def State.mgrSeed (s : State) (op : Nat) : State :=
  let busy := s.rf Reg.seedCmdStat 63 63 = 1
  let t := s.seedCmd (setFld (setFld 0 63 60 op) 33 0 (s.rf (boxReq none 2) 33 0))
  t.respondWords none (seedResponse busy (t.rf Reg.seedCmdStat 59 56)) []

/-- CASCADE STATUS (R493). -/
def State.mgrCascStatus (s : State) : State :=
  s.respondWords none rOk [s.regValue Reg.cascState, s.regValue Reg.cascTime]

/-- CASCADE with an OP of CASC_CMD (R493). -/
def State.mgrCasc (s : State) (f : State → State) : State :=
  if !s.part.hasCascade then s.respondWords none rState []
  else
    let t := f s
    t.respondWords none (if t.rf Reg.cascCmd 3 0 = 0 then rOk else rState) []

end Sys2Proof.Machine
end

