-- ==== Sys2Proof/Machine/Commands.lean ====
section
/-! DEFINITION. What the command rows share: the words that a command writes to its register, and the acts of rows that are no
plain register write. -/

namespace Sys2Proof.Machine

/-! Words of command registers. -/

/-- A word of EVR_CTX_CMD (R168). -/
def ctxCmdWord (op scn arg : Nat) : BitVec 64 := setFld (setFld (setFld 0 63 60 op) 59 44 scn) 31 0 arg

/-- A word of CRIB_MAINT_CTRL with GO (R283). -/
def maintWord (op : Nat) (irq : Bool) : BitVec 64 := setBit (setFld 4 1 0 op) 3 irq

/-- A word of GL_CMD (R309). -/
def glCmdWord (op h count : Nat) (any : Bool) (bin : Nat) : BitVec 64 :=
  setFld (setBit (setFld (setFld (setFld 0 63 60 op) 59 54 h) 31 18 count) 13 any) 12 0 bin

/-- A word of HALL_SLOT_CMD (R413). -/
def slotCmdWord (lcn first count h : Nat) : BitVec 64 :=
  setFld (setFld (setFld (setFld 0 63 56 lcn) 55 50 first) 49 43 count) 42 37 h

/-- A word of HALL_RESET[h] with GO (R419). -/
def resetWord (squash : Bool) (grace limit : Nat) : BitVec 64 :=
  setFld (setFld (setBit (setBit 0 63 true) 62 squash) 55 48 grace) 44 40 limit

/-- A word of SEED_CMD (R502). -/
def seedWord (op arg : Nat) : BitVec 64 := setFld (setFld 0 63 60 op) 33 0 arg

/-- A word of AX_STOP that keeps FILT (R374). -/
def stopWord (s : State) (req release : Bool) : BitVec 64 :=
  setBit (setBit (setFld 0 57 48 (s.rf Reg.axStop 57 48)) 60 req) 59 release

/-- A word of DEV_ALERT with KICK that keeps WINDOW and MASK (R534). -/
def kickWord (s : State) : BitVec 64 :=
  setBit (setFld (setFld 0 55 48 (s.rf Reg.devAlert 55 48)) 37 32 (s.rf Reg.devAlert 37 32)) 63 true

/-- The bits of FREC_CTRL that a freeze writes: a context writes the whole register, the host its upper half (R18). -/
def frecMask (who : Initiator) : BitVec 64 := if isCtx who then full64 else fmask 63 32

/-! Acts. -/

/-- The core on which a context runs. -/
def State.runOf (s : State) (scn : Nat) : Option Run :=
  (s.part.pcns.filterMap s.running).find? (fun r => r.scn = scn)

/-- ACCESS_TIMEOUT (R36): a store is abandoned; a core's load raises BUS_ERROR; a read of the host returns all ones. -/
def State.accessTimeout (s : State) (who : Initiator) (off : Nat) (write : Bool) (va : BitVec 64) : State :=
  if write then s.abandonWrite who off
  else
    let t := (s.abandoned who off false).2
    match who with
    | .ctx scn _ => match t.runOf scn with
      | none => t
      | some r => t.take r (mkTrap 0x18 va (accessWord false false))
    | _ => t.send (.completion who 0 full64)

/-- STOP_REQ (R374): the pin, or REQ of AX_STOP. -/
def State.stopReqBy (s : State) : StopCause → State
  | .pin ns => s.stopPinLow ns
  | .req who => s.write64 who Reg.axStop (stopWord s true false)

/-- HALL_DRAIN_ACK (R408): VF h, whose BAR holds its page only, is admitted by the register's own rule. -/
def State.ackDrain (s : State) (who : Initiator) (h : Nat) : State :=
  match who with
  | .vf k => if h = 0 || s.absentUnit (Reg.hallDrainAck h) || !s.fnAnswers (.vf k) then s
    else s.drainAckWrite who h full64 1
  | _ => s.write64 who (Reg.hallDrainAck h) 1

/-- REQ_SEQ (R438): the manager, or the host software of a hall. -/
def State.writeReqSeq (s : State) (box : Option Nat) (seq : BitVec 16) : State :=
  match box with
  | none => s.writeReg .pf Reg.devMbCtrl (fmask 63 48) (setFld 0 63 48 seq.toNat)
  | some h => s.writeReg (.vf h) (Reg.odwCtrl h) (fmask 63 48) (setFld 0 63 48 seq.toNat)

/-- RSP_SEQ (R438): a context of hall 0. -/
def State.writeRspSeq (s : State) (scn : Nat) (box : Option Nat) (seq : BitVec 16) : State :=
  s.writeReg (.ctx scn 2) (boxCtrl box) (fmask 47 32) (setFld 0 47 32 seq.toNat)

/-- PDO_MAPPING (R476): the objects 0x1600, 0x1A00, 0x1C12 and 0x1C13 with their families. -/
def State.pdoMapping (s : State) (path index sub v : Nat) : State :=
  if inFam 0x1600 4 index || inFam 0x1A00 4 index || index = 0x1C12 || index = 0x1C13 then s.odDirect path index sub v
  else s

/-- DEVICE_RESET (R528): KEY of DEV_RESET. -/
def State.keyWrite (s : State) (who : Initiator) (key : BitVec 32) (x : Straps) : State :=
  if s.fnAnswers who then (s.drainAll who (homeKey Reg.devReset)).resetWrite who full64 (setFld 0 63 32 key.toNat) x else s

/-- JTAG_ACCESS (R536): a word of MEMORY, or a control register. What the port does in the other regions spec/ does not
say: a load there is a free value and a store changes nothing (log entry 9). -/
def State.jtagAccess (s : State) (store : Bool) (pa : Nat) (w : Word) : State :=
  if !s.jtagUnlocked then s
  else match regionOf s.part (wordOf pa) with
    | .memory =>
      if store then s.agentStore (wordOf pa) w
      else
        let (v, s) := s.agentLoad (wordOf pa)
        s.send (.completion .jtag v.tag v.payload)
    | .device =>
      if store then s.write64 .jtag (wordOf pa - deviceBase) w.payload
      else
        match s.readAfter .jtag (wordOf pa - deviceBase) with
        | (some v, s) => s.send (.completion .jtag 0x3F v)
        | (none, s) => s
    | _ =>
      if store then s
      else
        let (f, s) := s.freeAt pa
        s.send (.completion .jtag 0x3F (BitVec.ofNat 64 f))

/-- JTAG_ACCESS (R536): an access, which acts while the port is unlocked, or a scan. -/
def State.jtagPort (s : State) (op : JtagOp) (pa : Nat) (w : Word) : State :=
  match op with
  | .load => s.jtagAccess false pa w
  | .store => s.jtagAccess true pa w
  | .scan k => s.jtagScan k

end Sys2Proof.Machine
end

