-- ==== Sys2Proof/Machine/CmdCascade.lean ====
section
/-! DEFINITION. The Cascade Link (spec/16_cascade.md). -/

namespace Sys2Proof.Machine

/-- LINK_TRAINED (R483). -/
def execLinkTrained (closed : Bool) (s : State) : Host.Outcome State Fault Refusal :=
  .next (s.linkTrained closed)

/-- SYNC_SEND (R486). -/
def execSyncSend (s : State) : Host.Outcome State Fault Refusal :=
  .next (s.syncSend)

/-- SYNC_CELL (R486). -/
def execSyncCell (src : Arrival) (epoch time path : Nat) (join : List Nat) (s : State) : Host.Outcome State Fault Refusal :=
  .next (s.syncCell src epoch time path join)

/-- LINK_DELAY_MEASURE (R486). -/
def execLinkDelayMeasure (port ns : Nat) (s : State) : Host.Outcome State Fault Refusal :=
  .next (s.linkDelay port ns)

/-- SYNC_LOSS (R483). -/
def execSyncLoss (s : State) : Host.Outcome State Fault Refusal :=
  .next (s.syncLoss)

/-- JOIN_COMPLETE (R487). -/
def execJoinComplete (s : State) : Host.Outcome State Fault Refusal :=
  .next (s.joinComplete)

/-- CASC_JOIN_WRITE (R484). -/
def execCascJoinWrite (who : Initiator) (v : BitVec 64) (s : State) : Host.Outcome State Fault Refusal :=
  .next (s.write64 who Reg.cascJoin v)

/-- AXIS_SAMPLE_CELL (R489). -/
def execAxisSampleCell (port n src a : Nat) (pos vel acc time : BitVec 64) (flags : SampleFlags)
    (s : State) : Host.Outcome State Fault Refusal :=
  .next (s.axisSample port n src a ⟨pos, vel, acc, time, flags⟩)

/-- REMOTE_AXIS_STALE (R490). -/
def execRemoteAxisStale (x : Nat) (s : State) : Host.Outcome State Fault Refusal :=
  .next (s.axisStale x)

/-- CASC_AXMAP_WRITE (R490). -/
def execCascAxmapWrite (who : Initiator) (x : Nat) (v : BitVec 64) (s : State) : Host.Outcome State Fault Refusal :=
  .next (s.write64 who (Reg.cascAxmap (x % 8)) v)

/-- HANDOFF_SEND (R492). -/
def execHandoffSend (who : Initiator) (tail : Nat) (s : State) : Host.Outcome State Fault Refusal :=
  .next (s.write64 who (Reg.cascHoptr 0) (setFld 0 63 48 tail))

/-- HANDOFF_RECEIVE (R492). -/
def execHandoffReceive (port n : Nat) (cell : List Word) (s : State) : Host.Outcome State Fault Refusal :=
  .next (s.handoffReceive port n cell)

/-- HANDOFF_STATUS (R492). -/
def execHandoffStatus (i : Nat) (answer : Option HandAnswer) (s : State) : Host.Outcome State Fault Refusal :=
  .next (s.handoffStatus i answer)

/-- PROMOTE (R493). -/
def execPromote (who : Initiator) (s : State) : Host.Outcome State Fault Refusal :=
  .next (s.write64 who Reg.cascCmd (setFld 0 63 60 1))

/-- RETIME (R488). -/
def execRetime (who : Initiator) (s : State) : Host.Outcome State Fault Refusal :=
  .next (s.write64 who Reg.cascCmd (setFld 0 63 60 2))

/-- REJOIN (R483). -/
def execRejoin (who : Initiator) (s : State) : Host.Outcome State Fault Refusal :=
  .next (s.write64 who Reg.cascCmd (setFld 0 63 60 3))

/-- RING_BREAK (R482). -/
def execRingBreak (port : Nat) (s : State) : Host.Outcome State Fault Refusal :=
  .next (s.cascBreak port)

/-- JOIN_ANNOUNCEMENT (R484). -/
def execJoinAnnouncement (src : Arrival) (join : List Nat) (s : State) : Host.Outcome State Fault Refusal :=
  .next (s.joinAnnouncement src join)

end Sys2Proof.Machine
end

