-- ==== Sys2Proof/Machine/CmdControl.lean ====
section
/-! DEFINITION. Contexts, registers, patches and the memory system: the commands of the event router (R168, R213), register writes (R31) and abandoned accesses (R36), and the rows of chapters 07 and 09. -/

namespace Sys2Proof.Machine

/-- FILL (R168). -/
def execFill (who : Initiator) (scn arg : Nat) (s : State) : Host.Outcome State Fault Refusal :=
  .next (s.write64 who Reg.evrCtxCmd (ctxCmdWord 1 scn arg))

/-- SPILL (R168). -/
def execSpill (who : Initiator) (scn : Nat) (s : State) : Host.Outcome State Fault Refusal :=
  .next (s.write64 who Reg.evrCtxCmd (ctxCmdWord 2 scn 0))

/-- PARK (R168). -/
def execPark (who : Initiator) (scn : Nat) (s : State) : Host.Outcome State Fault Refusal :=
  .next (s.write64 who Reg.evrCtxCmd (ctxCmdWord 3 scn 0))

/-- RESUME (R168). -/
def execResume (who : Initiator) (scn : Nat) (s : State) : Host.Outcome State Fault Refusal :=
  .next (s.write64 who Reg.evrCtxCmd (ctxCmdWord 4 scn 0))

/-- SETPRIO (R168). -/
def execSetprio (who : Initiator) (scn prio : Nat) (s : State) : Host.Outcome State Fault Refusal :=
  .next (s.write64 who Reg.evrCtxCmd (ctxCmdWord 5 scn prio))

/-- POST (R168). -/
def execPost (who : Initiator) (scn bits : Nat) (s : State) : Host.Outcome State Fault Refusal :=
  .next (s.write64 who Reg.evrCtxCmd (ctxCmdWord 6 scn bits))

/-- CANCEL (R168). -/
def execCancel (who : Initiator) (scn : Nat) (s : State) : Host.Outcome State Fault Refusal :=
  .next (s.write64 who Reg.evrCtxCmd (ctxCmdWord 7 scn 0))

/-- CREATE (R168). -/
def execCreate (who : Initiator) (scn : Nat) (s : State) : Host.Outcome State Fault Refusal :=
  .next (s.write64 who Reg.evrCtxCmd (ctxCmdWord 8 scn 0))

/-- RETIRE (R168). -/
def execRetire (who : Initiator) (scn : Nat) (s : State) : Host.Outcome State Fault Refusal :=
  .next (s.write64 who Reg.evrCtxCmd (ctxCmdWord 9 scn 0))

/-- ALERT_ROUTE_WRITE (R213). -/
def execAlertRouteWrite (who : Initiator) (h : Nat) (v : BitVec 64) (s : State) : Host.Outcome State Fault Refusal :=
  .next (s.write64 who (Reg.evrAlertRoute (h % 64)) v)

/-- WATCHDOG_KICK (R213). -/
def execWatchdogKick (who : Initiator) (h : Nat) (s : State) : Host.Outcome State Fault Refusal :=
  .next (s.write64 who (Reg.evrAlertRoute (h % 64)) (setBit (s.reg (Reg.evrAlertRoute (h % 64))) 16 true))

/-- ACCESS_TIMEOUT (R36). -/
def execAccessTimeout (who : Initiator) (off : Nat) (write : Bool) (va : BitVec 64)
    (s : State) : Host.Outcome State Fault Refusal :=
  .next (s.accessTimeout who off write va)

/-- REGISTER_WRITE (R31). -/
def execRegisterWrite (who : Initiator) (off : Nat) (mask v : BitVec 64)
    (s : State) : Host.Outcome State Fault Refusal :=
  .next (s.writeReg who off mask v)

/-- PATCH_BEGIN (R242). -/
def execPatchBegin (who : Initiator) (s : State) : Host.Outcome State Fault Refusal :=
  .next (s.write64 who Reg.devPatchCtrl 1)

/-- PATCH_DATA (R242). -/
def execPatchData (who : Initiator) (v : BitVec 64) (s : State) : Host.Outcome State Fault Refusal :=
  .next (s.write64 who Reg.devPatchData v)

/-- PATCH_CHECK (R245). -/
def execPatchCheck (who : Initiator) (s : State) : Host.Outcome State Fault Refusal :=
  .next (s.write64 who Reg.devPatchCtrl 2)

/-- PATCH_APPLY (R246). -/
def execPatchApply (who : Initiator) (s : State) : Host.Outcome State Fault Refusal :=
  .next (s.write64 who Reg.devPatchCtrl 3)

/-- PATCH_WE_CHANGE (R240). -/
def execPatchWeChange (level : Bool) (s : State) : Host.Outcome State Fault Refusal :=
  .next (s.setPatchWe level)

/-- PATCH_CORE_SWITCH (R246). -/
def execPatchCoreSwitch (p : Nat) (s : State) : Host.Outcome State Fault Refusal :=
  .next ((s.patchCore p).announceLevel s).releaseWrites

/-- CRIB_DISABLE (R284, R285). -/
def execCribDisable (p : Nat) (s : State) : Host.Outcome State Fault Refusal :=
  .next (s.cribDisable p)

/-- CRIB_ENABLE (R286). -/
def execCribEnable (p : Nat) (s : State) : Host.Outcome State Fault Refusal :=
  .next (s.cribEnable p)

/-- MAINT_GO (R283). -/
def execMaintGo (who : Initiator) (p op : Nat) (irq : Bool) (s : State) : Host.Outcome State Fault Refusal :=
  .next (s.write64 who (Reg.cribMaintCtrl (p % 72)) (maintWord op irq))

/-- MAINT_DONE (R282). -/
def execMaintDone (p : Nat) (s : State) : Host.Outcome State Fault Refusal :=
  .next (s.maintDone p)

/-- SCRUB_READ (R301). -/
def execScrubRead (s : State) : Host.Outcome State Fault Refusal :=
  .next (s.scrubRead)

/-- MEM_INJ (R302). -/
def execMemInj (s : State) : Host.Outcome State Fault Refusal :=
  .next (s.memInject)

end Sys2Proof.Machine
end

