-- ==== Sys2Proof/Machine/CmdDict.lean ====
section
/-! DEFINITION. Commits, transitions and the command objects of the dictionary (spec/15_object_dictionary.md). -/

namespace Sys2Proof.Machine

/-- COMMIT_IMMEDIATE (R460). -/
def execCommitImmediate (path : Nat) (s : State) : Host.Outcome State Fault Refusal :=
  .next (s.odDirect path 0x2F00 2 0)

/-- COMMIT_NEXT_CYCLE (R460). -/
def execCommitNextCycle (path : Nat) (s : State) : Host.Outcome State Fault Refusal :=
  .next (s.odDirect path 0x2F00 2 1)

/-- COMMIT_NEXT_PITCH (R460). -/
def execCommitNextPitch (path : Nat) (s : State) : Host.Outcome State Fault Refusal :=
  .next (s.odDirect path 0x2F00 2 2)

/-- DISCARD (R459). -/
def execDiscard (path : Nat) (s : State) : Host.Outcome State Fault Refusal :=
  .next (s.odDirect path 0x2F00 2 3)

/-- COMMIT_BOUNDARY (R460). -/
def execCommitBoundary (s : State) : Host.Outcome State Fault Refusal :=
  .next (s.commitBoundary)

/-- TRANSITION_STEP (R464). -/
def execTransitionStep (path : Nat) (s : State) : Host.Outcome State Fault Refusal :=
  .next (s.transitionStep path)

/-- STORE_PARAMETERS (R465). -/
def execStoreParameters (path sig : Nat) (s : State) : Host.Outcome State Fault Refusal :=
  .next (s.odDirect path 0x1010 1 sig)

/-- RESTORE_DEFAULTS (R465). -/
def execRestoreDefaults (path sig : Nat) (s : State) : Host.Outcome State Fault Refusal :=
  .next (s.odDirect path 0x1011 1 sig)

/-- RESTORE_CALIBRATION (R466). -/
def execRestoreCalibration (path sig : Nat) (s : State) : Host.Outcome State Fault Refusal :=
  .next (s.odDirect path 0x2E10 1 sig)

/-- STOP_OBJECT (R377). -/
def execStopObject (path v : Nat) (s : State) : Host.Outcome State Fault Refusal :=
  .next (s.odDirect path 0x2741 1 v)

/-- ESM_REQUEST (R473). -/
def execEsmRequest (path v : Nat) (s : State) : Host.Outcome State Fault Refusal :=
  .next (s.odDirect path 0x2A11 1 v)

/-- CLEAR_EMERGENCY (R477). -/
def execClearEmergency (path v : Nat) (s : State) : Host.Outcome State Fault Refusal :=
  .next (s.odDirect path 0x2A41 1 v)

/-- CLEAR_OVERRIDE (R457). -/
def execClearOverride (path j v : Nat) (s : State) : Host.Outcome State Fault Refusal :=
  .next (s.odDirect path 0x2F10 (j % 6 + 1) v)

/-- PATCH_UNLOCK (R240). -/
def execPatchUnlock (path v : Nat) (s : State) : Host.Outcome State Fault Refusal :=
  .next (s.odDirect path 0x2F80 1 v)

/-- JTAG_UNLOCK (R536). -/
def execJtagUnlock (path v : Nat) (s : State) : Host.Outcome State Fault Refusal :=
  .next (s.odDirect path 0x2F81 1 v)

/-- PDO_MAPPING (R476). -/
def execPdoMapping (path index sub v : Nat) (s : State) : Host.Outcome State Fault Refusal :=
  .next (s.pdoMapping path index sub v)

/-- COMMIT_TIMEOUT (R462). -/
def execCommitTimeout (path : Nat) (s : State) : Host.Outcome State Fault Refusal :=
  .next (s.commitTimeout path)

end Sys2Proof.Machine
end

