-- ==== Sys2Proof/Machine/CmdGallery.lean ====
section
/-! DEFINITION. The Gallery (R389 to R400). -/

namespace Sys2Proof.Machine

/-- SPEC_CHECK (R393 to R395). -/
def execSpecCheck (s : State) : Host.Outcome State Fault Refusal :=
  .next (s.specCheck)

/-- ABANDON (R397). -/
def execAbandon (who : Initiator) (speck : BitVec 32) (s : State) : Host.Outcome State Fault Refusal :=
  .next (s.write64 who Reg.galCmd (setFld (setFld 0 63 60 1) 31 0 speck.toNat))

/-- REMOTE_TIMEOUT (R400). -/
def execRemoteTimeout (s : State) : Host.Outcome State Fault Refusal :=
  .next (s.remoteTimeout)

/-- MIRROR_ENABLE (R389, R391). -/
def execMirrorEnable (who : Initiator) (h : Nat) (base : BitVec 29) (s : State) : Host.Outcome State Fault Refusal :=
  .next (s.write64 who (Reg.galMirror (h % 64)) (setFld (setBit 0 63 true) 39 11 base.toNat))

end Sys2Proof.Machine
end

