-- ==== Sys2Proof/Machine/CmdGranary.lean ====
section
/-! DEFINITION. The Granary and the Gleaner (R309, R329 to R338). -/

namespace Sys2Proof.Machine

/-- ASSIGN_ROOT (R309). -/
def execAssignRoot (who : Initiator) (h count : Nat) (any : Bool) (bin : Nat)
    (s : State) : Host.Outcome State Fault Refusal :=
  .next (s.write64 who Reg.glCmd (glCmdWord 1 h count any bin))

/-- ASSIGN_PLAIN (R309). -/
def execAssignPlain (who : Initiator) (h count : Nat) (any : Bool) (bin : Nat)
    (s : State) : Host.Outcome State Fault Refusal :=
  .next (s.write64 who Reg.glCmd (glCmdWord 2 h count any bin))

/-- RELEASE (R309). -/
def execRelease (who : Initiator) (h count bin : Nat) (s : State) : Host.Outcome State Fault Refusal :=
  .next (s.write64 who Reg.glCmd (glCmdWord 3 h count false bin))

/-- CYCLE_YOUNG (R331). -/
def execCycleYoung (who : Initiator) (h : Nat) (s : State) : Host.Outcome State Fault Refusal :=
  .next (s.write64 who Reg.glCmd (glCmdWord 4 h 0 false 0))

/-- CYCLE_FULL (R331). -/
def execCycleFull (who : Initiator) (h : Nat) (s : State) : Host.Outcome State Fault Refusal :=
  .next (s.write64 who Reg.glCmd (glCmdWord 5 h 0 false 0))

/-- ARM_ACK (R329). -/
def execArmAck (p h : Nat) (s : State) : Host.Outcome State Fault Refusal :=
  .next (s.ackArm p h)

/-- FLIP (R332). -/
def execFlip (p h : Nat) (s : State) : Host.Outcome State Fault Refusal :=
  .next (s.flipCore p h)

/-- GLEANER_TRACE (R335). -/
def execGleanerTrace (h : Nat) (s : State) : Host.Outcome State Fault Refusal :=
  .next (s.traceStep h)

/-- FINISH (R338). -/
def execFinish (h : Nat) (s : State) : Host.Outcome State Fault Refusal :=
  .next (s.finishCycle h)

end Sys2Proof.Machine
end

