-- ==== Sys2Proof/Machine/CmdHall.lean ====
section
/-! DEFINITION. Halls and the functions of the host (R408 to R421, R430, R527). -/

namespace Sys2Proof.Machine

/-- HALL_CTRL_CREATE (R409). -/
def execHallCtrlCreate (who : Initiator) (h : Nat) (s : State) : Host.Outcome State Fault Refusal :=
  .next (s.write64 who (Reg.hallCtrl (h % 64)) (setFld 0 63 60 1))

/-- HALL_CTRL_START (R409). -/
def execHallCtrlStart (who : Initiator) (h : Nat) (s : State) : Host.Outcome State Fault Refusal :=
  .next (s.write64 who (Reg.hallCtrl (h % 64)) (setFld 0 63 60 2))

/-- HALL_CTRL_REMOVE (R409). -/
def execHallCtrlRemove (who : Initiator) (h : Nat) (s : State) : Host.Outcome State Fault Refusal :=
  .next (s.write64 who (Reg.hallCtrl (h % 64)) (setFld 0 63 60 3))

/-- HALL_SLOT_CMD (R413). -/
def execHallSlotCmd (who : Initiator) (lcn first count h : Nat) (s : State) : Host.Outcome State Fault Refusal :=
  .next (s.write64 who Reg.hallSlotCmd (slotCmdWord lcn first count h))

/-- HALL_DEVMAP (R416). -/
def execHallDevmap (who : Initiator) (h j : Nat) (v : BitVec 64) (s : State) : Host.Outcome State Fault Refusal :=
  .next (s.write64 who (Reg.hallDevmap (h % 64) (j % 16)) v)

/-- HALL_RESET_GO (R419, R420). -/
def execHallResetGo (who : Initiator) (h : Nat) (squash : Bool) (grace limit : Nat)
    (s : State) : Host.Outcome State Fault Refusal :=
  .next (s.write64 who (Reg.hallReset (h % 64)) (resetWord squash grace limit))

/-- HALL_DRAIN_ACK (R408, R420). -/
def execHallDrainAck (who : Initiator) (h : Nat) (s : State) : Host.Outcome State Fault Refusal :=
  .next (s.ackDrain who (h % 64))

/-- GRACE_END (R420). -/
def execGraceEnd (h : Nat) (s : State) : Host.Outcome State Fault Refusal :=
  .next (s.graceEnd h)

/-- DRAIN_LIMIT_END (R420). -/
def execDrainLimitEnd (h : Nat) (s : State) : Host.Outcome State Fault Refusal :=
  .next (s.drainLimitEnd h)

/-- The posted register writes of a hall's contexts complete (R31): no reset of the hall loses one. -/
def State.drainHall (s : State) (h : Nat) : State :=
  (s.posted.filter (fun w => s.isCtxOf w.who h)).foldl (fun s w => s.drainAll w.who (homeKey w.off)) s

/-- HALL_RESET_DONE (R420, R421). -/
def execHallResetDone (h : Nat) (s : State) : Host.Outcome State Fault Refusal :=
  .next ((if s.hstate h = 3 then s.drainHall h else s).hallResetDone h)

/-- FLR (R419). -/
def execFlr (h : Nat) (s : State) : Host.Outcome State Fault Refusal :=
  .next (s.flr h)

/-- VF_ENABLE_WRITE (R419). -/
def execVfEnableWrite (enable : Bool) (num : Nat) (s : State) : Host.Outcome State Fault Refusal :=
  .next (if s.linkUp then s.vfWrite enable num else s)

/-- PF_FLR (R430). -/
def execPfFlr (s : State) : Host.Outcome State Fault Refusal :=
  .next (if s.linkUp then s.pfFlr else s)

/-- PERST (R527). -/
def execPerst (s : State) : Host.Outcome State Fault Refusal :=
  .next s.perstRise

/-- D3HOT (R430), and the other configuration requests to a function (log entry 66). -/
def execD3hot (fn : Nat) (q : CfgReq) (s : State) : Host.Outcome State Fault Refusal :=
  .next (s.cfgRequest fn q)

end Sys2Proof.Machine
end

