-- ==== Sys2Proof/Machine/CmdHost.lean ====
section
/-! DEFINITION. The manager mailbox, the OD windows, doorbells and descriptors (spec/14_host_pcie.md). -/

namespace Sys2Proof.Machine

/-- REQ_SEQ (R438). -/
def execReqSeq (box : Option Nat) (seq : BitVec 16) (s : State) : Host.Outcome State Fault Refusal :=
  .next (s.writeReqSeq box seq)

/-- RSP_SEQ (R438). -/
def execRspSeq (scn : Nat) (box : Option Nat) (seq : BitVec 16) (s : State) : Host.Outcome State Fault Refusal :=
  .next (s.writeRspSeq scn box seq)

/-- VERSION (R439). -/
def execVersion (s : State) : Host.Outcome State Fault Refusal :=
  .next (s.serve none 1 State.mgrVersion)

/-- OD_READ (R452). -/
def execOdRead (box : Option Nat) (s : State) : Host.Outcome State Fault Refusal :=
  .next (s.odReadRow box)

/-- OD_WRITE (R454). -/
def execOdWrite (box : Option Nat) (s : State) : Host.Outcome State Fault Refusal :=
  .next (s.odWriteRow box)

/-- HALL_CREATE (R410). -/
def execHallCreate (h : Nat) (s : State) : Host.Outcome State Fault Refusal :=
  .next (s.serve none 0x10 fun s => hallAnswer h 0x10 (s.mgrCreate h))

/-- HALL_SET_SHARE (R411). -/
def execHallSetShare (h id value lcn first : Nat) (s : State) : Host.Outcome State Fault Refusal :=
  .next (s.serve none 0x11 fun s => hallAnswer h 0x11 (s.mgrShare h id value lcn first))

/-- HALL_START (R410). -/
def execHallStart (h : Nat) (first : Option Nat) (s : State) : Host.Outcome State Fault Refusal :=
  .next (s.serve none 0x12 fun s => hallAnswer h 0x12 (s.mgrStart h first))

/-- HALL_RESET (R410). -/
def execHallReset (h mode grace limit : Nat) (s : State) : Host.Outcome State Fault Refusal :=
  .next (s.serve none 0x13 fun s => hallAnswer h 0x13 (s.mgrReset h mode grace limit))

/-- HALL_REMOVE (R410). -/
def execHallRemove (h : Nat) (s : State) : Host.Outcome State Fault Refusal :=
  .next (s.serve none 0x14 fun s => hallAnswer h 0x14 (s.mgrRemove h))

/-- HALL_QUERY (R410). -/
def execHallQuery (h : Nat) (s : State) : Host.Outcome State Fault Refusal :=
  .next (s.serve none 0x15 (State.mgrQuery · h))

/-- EVENT_READ (R439). -/
def execEventRead (s : State) : Host.Outcome State Fault Refusal :=
  .next (s.serve none 0x20 State.mgrEventRead)

/-- SERVICE_STATUS (R502). -/
def execServiceStatus (s : State) : Host.Outcome State Fault Refusal :=
  .next (s.mgrSub 0x30 1 State.mgrServiceStatus)

/-- SERVICE_RESPARE (R502). -/
def execServiceRespare (s : State) : Host.Outcome State Fault Refusal :=
  .next (s.mgrSub 0x30 2 (State.mgrSeed · 1))

/-- SERVICE_ROWSPARE (R502). -/
def execServiceRowspare (s : State) : Host.Outcome State Fault Refusal :=
  .next (s.mgrSub 0x30 3 (State.mgrSeed · 2))

/-- SERVICE_PPR (R502). -/
def execServicePpr (s : State) : Host.Outcome State Fault Refusal :=
  .next (s.mgrSub 0x30 4 (State.mgrSeed · 3))

/-- SERVICE_WAYSPARE (R502). -/
def execServiceWayspare (s : State) : Host.Outcome State Fault Refusal :=
  .next (s.mgrSub 0x30 5 (State.mgrSeed · 4))

/-- SERVICE_CTXROW (R502). -/
def execServiceCtxrow (s : State) : Host.Outcome State Fault Refusal :=
  .next (s.mgrSub 0x30 6 (State.mgrSeed · 5))

/-- SERVICE_FREEZE (R502, R514). -/
def execServiceFreeze (s : State) : Host.Outcome State Fault Refusal :=
  .next (s.mgrSub 0x30 7 fun s => s.freezeRing.respondWords none rOk [])

/-- SERVICE_UNFREEZE (R502, R514). -/
def execServiceUnfreeze (s : State) : Host.Outcome State Fault Refusal :=
  .next (s.mgrSub 0x30 8 fun s => s.unfreezeRing.respondWords none rOk [])

/-- CASCADE_STATUS (R493). -/
def execCascadeStatus (s : State) : Host.Outcome State Fault Refusal :=
  .next (s.mgrSub 0x40 1 State.mgrCascStatus)

/-- CASCADE_PROMOTE (R493). -/
def execCascadePromote (s : State) : Host.Outcome State Fault Refusal :=
  .next (s.mgrSub 0x40 2 (State.mgrCasc · State.promote))

/-- CASCADE_RETIME (R493). -/
def execCascadeRetime (s : State) : Host.Outcome State Fault Refusal :=
  .next (s.mgrSub 0x40 3 (State.mgrCasc · State.retime))

/-- CASCADE_REJOIN (R493). -/
def execCascadeRejoin (s : State) : Host.Outcome State Fault Refusal :=
  .next (s.mgrSub 0x40 4 (State.mgrCasc · State.rejoin))

/-- DOORBELL (R440). -/
def execDoorbell (who : Initiator) (h q tail : Nat) (s : State) : Host.Outcome State Fault Refusal :=
  .next (s.write64 who (Reg.qPtr (h % 64) (q % 32)) (setFld 0 63 48 tail))

/-- Q_CFG_WRITE (R440). -/
def execQCfgWrite (who : Initiator) (h q : Nat) (v : BitVec 64) (s : State) : Host.Outcome State Fault Refusal :=
  .next (s.write64 who (Reg.qCfg (h % 64) (q % 32)) v)

/-- HQ_NOTIFY_SET (R437). -/
def execHqNotifySet (who : Initiator) (h : Nat) (set : BitVec 30) (s : State) : Host.Outcome State Fault Refusal :=
  .next (s.write64 who (Reg.hqNotify (h % 64)) (setFld 0 61 32 set.toNat))

/-- DESCRIPTOR_FETCH (R440 to R444). -/
def execDescriptorFetch (h q : Nat) (reply : Option (List (BitVec 64)))
    (s : State) : Host.Outcome State Fault Refusal :=
  .next (s.fetchDescriptor h q reply)

/-- DESCRIPTOR_COMPLETE (R444, R446). -/
def execDescriptorComplete (h e : Nat) (data : List Byte) (done : Nat) (fail cplFail : Bool) (poisoned : List Nat)
    (s : State) : Host.Outcome State Fault Refusal :=
  .next (s.completeDescriptor h e ⟨data, done, fail, cplFail, poisoned⟩)

end Sys2Proof.Machine
end

