-- ==== Sys2Proof/Machine/CmdNet.lean ====
section
/-! DEFINITION. The line ports and the plant port (R451, R468 to R476). -/

namespace Sys2Proof.Machine

/-- LINE_CYCLE_START (R468). -/
def execLineCycleStart (s : State) : Host.Outcome State Fault Refusal :=
  .next (s.lineCycle)

/-- OUTPUT_SNAPSHOT (R473). -/
def execOutputSnapshot (s : State) : Host.Outcome State Fault Refusal :=
  .next (s.outputSnapshot)

/-- FRAME_RETURN (R471). -/
def execFrameReturn (back : List (Nat × Nat × List Byte)) (brk : Option Nat) (news : LineNews)
    (s : State) : Host.Outcome State Fault Refusal :=
  .next (s.frameReturn (back.map fun g => ⟨g.1, g.2.1, g.2.2⟩) brk news)

/-- ECL_MODE_WRITE (R469). -/
def execEclModeWrite (who : Initiator) (v : BitVec 64) (s : State) : Host.Outcome State Fault Refusal :=
  .next (s.write64 who Reg.eclCfg v)

/-- SDO_REQUEST (R451). -/
def execSdoRequest (op : SdoOp) (index sub : Nat) (complete : Bool) (data : List Byte)
    (s : State) : Host.Outcome State Fault Refusal :=
  .next (s.sdoRequest op index sub complete data)

/-- AL_STATE_REQUEST (R475). -/
def execAlStateRequest (q : PlantReq) (s : State) : Host.Outcome State Fault Refusal :=
  .next (s.plantRequest q)

/-- SYNC0 (R475). -/
def execSync0 (plant : BitVec 64) (s : State) : Host.Outcome State Fault Refusal :=
  .next (s.sync0 plant)

/-- SM2_WATCHDOG (R475). -/
def execSm2Watchdog (s : State) : Host.Outcome State Fault Refusal :=
  .next (s.sm2Watchdog)

/-- PLANT_PROCESS_DATA (R476). -/
def execPlantProcessData (rx : List Byte) (s : State) : Host.Outcome State Fault Refusal :=
  .next (s.plantFrame rx)

end Sys2Proof.Machine
end

