-- ==== Sys2Proof/Machine/CmdService.lean ====
section
/-! DEFINITION. Service life: the seed commands, the monitors and the recorder (spec/17_service_life.md). -/

namespace Sys2Proof.Machine

/-- RESPARE (R503). -/
def execRespare (who : Initiator) (lcn : Nat) (s : State) : Host.Outcome State Fault Refusal :=
  .next (s.write64 who Reg.seedCmd (seedWord 1 (lcn % 64)))

/-- RESPARE_GROUP (R503). -/
def execRespareGroup (s : State) : Host.Outcome State Fault Refusal :=
  .next (s.respareGroup)

/-- ROWSPARE (R507). -/
def execRowspare (who : Initiator) (sector : Nat) (s : State) : Host.Outcome State Fault Refusal :=
  .next (s.write64 who Reg.seedCmd (seedWord 2 sector))

/-- PPR (R508). -/
def execPpr (who : Initiator) (ch entry : Nat) (s : State) : Host.Outcome State Fault Refusal :=
  .next (s.write64 who Reg.seedCmd (seedWord 3 (ch % 8 * 16 + entry % 16)))

/-- WAYSPARE (R509). -/
def execWayspare (who : Initiator) (slice way : Nat) (s : State) : Host.Outcome State Fault Refusal :=
  .next (s.write64 who Reg.seedCmd (seedWord 4 (slice % 16 * 16 + way % 16)))

/-- CTXROW (R506). -/
def execCtxrow (who : Initiator) (p slot : Nat) (s : State) : Host.Outcome State Fault Refusal :=
  .next (s.write64 who Reg.seedCmd (seedWord 5 (p % 128 * 64 + slot % 64)))

/-- SERVICE_DONE (R502, R529). -/
def execServiceDone (s : State) : Host.Outcome State Fault Refusal :=
  .next (s.serviceDone.heldCoreReset)

/-- MONITOR_SAMPLE (R500, R501). -/
def execMonitorSample (m : Monitor) (v width : Nat) (ue : Bool) (s : State) : Host.Outcome State Fault Refusal :=
  .next (s.monitorSample m v width ue)

/-- MONITOR_HOUR (R500). -/
def execMonitorHour (m : Monitor) (s : State) : Host.Outcome State Fault Refusal :=
  .next (s.monitorHour m)

/-- HOURLY_SUMMARY (R498). -/
def execHourlySummary (s : State) : Host.Outcome State Fault Refusal :=
  .next (s.hourlySummary)

/-- RECORD_WRITE (R513). -/
def execRecordWrite (s : State) : Host.Outcome State Fault Refusal :=
  .next (s.recordWrite)

/-- FREEZE (R514). -/
def execFreeze (who : Initiator) (s : State) : Host.Outcome State Fault Refusal :=
  .next (s.writeReg who Reg.frecCtrl (frecMask who) (setBit 0 63 true))

/-- UNFREEZE (R514). -/
def execUnfreeze (who : Initiator) (s : State) : Host.Outcome State Fault Refusal :=
  .next (s.writeReg who Reg.frecCtrl (frecMask who) (setBit 0 62 true))

/-- POWER_FAIL (R522). -/
def execPowerFail (s : State) : Host.Outcome State Fault Refusal :=
  .next (s.powerFail)

end Sys2Proof.Machine
end

