-- ==== Sys2Proof/Machine/CmdStartup.lean ====
section
/-! DEFINITION. Resets, boot and pins (spec/18_startup_pins_electrical.md). -/

namespace Sys2Proof.Machine

/-- POR (R527, R530). -/
def execPor (bootSrc : BitVec 2) (cascId : BitVec 3) (legacyN : Bool)
    (s : State) : Host.Outcome State Fault Refusal :=
  .next (s.por ⟨bootSrc, cascId, legacyN⟩)

/-- DEVICE_RESET (R528). -/
def execDeviceReset (who : Initiator) (key : BitVec 32) (bootSrc : BitVec 2) (cascId : BitVec 3) (legacyN : Bool)
    (s : State) : Host.Outcome State Fault Refusal :=
  .next (s.keyWrite who key ⟨bootSrc, cascId, legacyN⟩)

/-- PLL_LOCK (R530). -/
def execPllLock (tb : Bool) (s : State) : Host.Outcome State Fault Refusal :=
  .next (s.pllLock tb)

/-- MEMORY_INIT_DONE (R530). -/
def execMemoryInitDone (s : State) : Host.Outcome State Fault Refusal :=
  .next (s.memoryInit)

/-- BOOT_LOAD_DONE (R532). -/
def execBootLoadDone (a b host : Option (List Byte)) (s : State) : Host.Outcome State Fault Refusal :=
  .next (s.bootLoadDone a b host)

/-- BOOT_GO (R532). -/
def execBootGo (who : Initiator) (s : State) : Host.Outcome State Fault Refusal :=
  .next (s.write64 who Reg.devBootCtrl (setBit 0 63 true))

/-- READY_SET (R530). -/
def execReadySet (who : Initiator) (s : State) : Host.Outcome State Fault Refusal :=
  .next (s.write64 who Reg.devState (setBit 0 59 true))

/-- CORE_RESET (R529). -/
def execCoreReset (who : Initiator) (p : Nat) (s : State) : Host.Outcome State Fault Refusal :=
  .next (s.write64 who Reg.devCoreRst (setFld (setBit 0 56 true) 63 57 p))

/-- TB_LOST (R525). -/
def execTbLost (s : State) : Host.Outcome State Fault Refusal :=
  .next (s.tbLost)

/-- KICK (R534). -/
def execKick (who : Initiator) (s : State) : Host.Outcome State Fault Refusal :=
  .next (s.write64 who Reg.devAlert (kickWord s))

/-- HEARTBEAT_TOGGLE (R534). -/
def execHeartbeatToggle (s : State) : Host.Outcome State Fault Refusal :=
  .next (s.heartbeat)

/-- HEARTBEAT_LOST (R534). -/
def execHeartbeatLost (s : State) : Host.Outcome State Fault Refusal :=
  .next (s.heartbeatLost)

/-- TEMP_SAMPLE (R535). -/
def execTempSample (raw : Nat) (s : State) : Host.Outcome State Fault Refusal :=
  .next (s.tempSample raw)

/-- JTAG_HALT (R536). -/
def execJtagHalt (scn : Nat) (s : State) : Host.Outcome State Fault Refusal :=
  .next (s.jtagHalt scn)

/-- JTAG_DEVICE_RESET (R536). -/
def execJtagDeviceReset (bootSrc : BitVec 2) (cascId : BitVec 3) (legacyN : Bool)
    (s : State) : Host.Outcome State Fault Refusal :=
  .next (s.jtagReset ⟨bootSrc, cascId, legacyN⟩)

/-- JTAG_ACCESS (R536). -/
def execJtagAccess (op : JtagOp) (pa : Nat) (w : Word) (s : State) : Host.Outcome State Fault Refusal :=
  .next (s.jtagPort op pa w)

end Sys2Proof.Machine
end

