-- ==== Sys2Proof/Machine/CmdWeb.lean ====
section
/-! DEFINITION. The Web Position Unit (spec/11_web_position.md). -/

namespace Sys2Proof.Machine

/-- ENCODER_EDGE (R348): ENCx_A and ENCx_B take levels that each holds for a number of ns. -/
def execEncoderEdge (x : Nat) (e : PinEdge) (s : State) : Host.Outcome State Fault Refusal :=
  .next (s.encoderPins x e)

/-- Z_INDEX (R348, R353): ENCx_Z rises and holds its level for a number of ns. -/
def execZIndex (e : ZPulse) (s : State) : Host.Outcome State Fault Refusal :=
  .next (if s.passes e.axis e.ns then s.zEdge e.axis else s)

/-- SSI_FRAME_START (R350). -/
def execSsiFrameStart (x : Nat) (s : State) : Host.Outcome State Fault Refusal :=
  .next (s.ssiStart x)

/-- SSI_FRAME (R350, R351). -/
def execSsiFrame (x bits : Nat) (before after : Bool) (s : State) : Host.Outcome State Fault Refusal :=
  .next (s.ssiFrame x bits before after)

/-- EXTRAP_END (R354). -/
def execExtrapEnd (x : Nat) (s : State) : Host.Outcome State Fault Refusal :=
  .next (s.extrapEnd x)

/-- RECOVER (R355). -/
def execRecover (who : Initiator) (x : Nat) (s : State) : Host.Outcome State Fault Refusal :=
  .next (s.write64 who (Reg.axCtrl (x % 8)) 1)

/-- ESTIMATOR_SAMPLE (R352, R489). -/
def execEstimatorSample (s : State) : Host.Outcome State Fault Refusal :=
  .next (s.estimatorSample.broadcastSamples)

/-- SWAP (R360). -/
def execSwap (who : Initiator) (x count : Nat) (s : State) : Host.Outcome State Fault Refusal :=
  .next (s.write64 who (Reg.axPtabCtrl (x % 8)) (setFld (setBit 0 63 true) 58 48 count))

/-- MARK_EDGE (R361). -/
def execMarkEdge (m ns : Nat) (rising : Bool) (s : State) : Host.Outcome State Fault Refusal :=
  .next (s.markPin m ns rising)

/-- MS_SAMPLE (R362). -/
def execMsSample (c value : Nat) (s : State) : Host.Outcome State Fault Refusal :=
  .next (s.msSample c value)

/-- CAM_ON_AT (R364). -/
def execCamOnAt (who : Initiator) (k : Nat) (target : BitVec 64) (s : State) : Host.Outcome State Fault Refusal :=
  .next (s.write64 who (Reg.camOnAt (k % 64)) target)

/-- CAM_OFF_AT (R364). -/
def execCamOffAt (who : Initiator) (k : Nat) (target : BitVec 64) (s : State) : Host.Outcome State Fault Refusal :=
  .next (s.write64 who (Reg.camOffAt (k % 64)) target)

/-- CAM_ON_DT (R364). -/
def execCamOnDt (who : Initiator) (k : Nat) (target : BitVec 64) (s : State) : Host.Outcome State Fault Refusal :=
  .next (s.write64 who (Reg.camOnDt (k % 64)) target)

/-- CAM_OFF_DT (R364). -/
def execCamOffDt (who : Initiator) (k : Nat) (target : BitVec 64) (s : State) : Host.Outcome State Fault Refusal :=
  .next (s.write64 who (Reg.camOffDt (k % 64)) target)

/-- FLUSH (R366). -/
def execFlush (who : Initiator) (k : Nat) (s : State) : Host.Outcome State Fault Refusal :=
  .next (s.write64 who (Reg.camCtrl (k % 64)) 4)

/-- NOW (R366). -/
def execNow (who : Initiator) (k : Nat) (level : Bool) (s : State) : Host.Outcome State Fault Refusal :=
  .next (s.write64 who (Reg.camCtrl (k % 64)) (if level then 3 else 2))

/-- CAM_FIRE (R366). -/
def execCamFire (k : Nat) (s : State) : Host.Outcome State Fault Refusal :=
  .next (s.camFire k)

/-- IRING_WRITE (R369). -/
def execIringWrite (who : Initiator) (x : Nat) (v : BitVec 64) (s : State) : Host.Outcome State Fault Refusal :=
  .next (s.write64 who (Reg.axIring (x % 8)) v)

/-- IPTR_TAIL (R370). -/
def execIptrTail (who : Initiator) (x tail : Nat) (s : State) : Host.Outcome State Fault Refusal :=
  .next (s.write64 who (Reg.axIptr (x % 8)) (setFld 0 63 48 tail))

/-- STOP_REQ (R374). -/
def execStopReq (who : StopCause) (s : State) : Host.Outcome State Fault Refusal :=
  .next (s.stopReqBy who)

/-- RELEASE_STOP (R374). -/
def execReleaseStop (who : Initiator) (s : State) : Host.Outcome State Fault Refusal :=
  .next (s.write64 who Reg.axStop (stopWord s (s.rf Reg.axStop 60 60 = 1) true))

/-- STOPPED (R374). -/
def execStopped (s : State) : Host.Outcome State Fault Refusal :=
  .next (s.stopDone)

/-- STOP_REQ_N_HIGH (R374). -/
def execStopReqNHigh (s : State) : Host.Outcome State Fault Refusal :=
  .next (s.stopPinHigh)

end Sys2Proof.Machine
end

