-- ==== Sys2Proof/Machine/Special.lean ====
section
/-! DEFINITION. GETS and SETS (R95, R147, R148, R193, R196 to R198, R255 to R257, R548), and the bank window (R152,
R186 to R189). -/

namespace Sys2Proof.Machine

/-- The lowest stair that may use GETS of a selector (R95, R196, R255). -/
def getsStair (sel : Nat) : Nat :=
  if sel < 0x40 || (0x59 ≤ sel && sel ≤ 0x5C) || (0x60 ≤ sel && sel ≤ 0x68) then 0
  else if sel = 0x44 || sel = 0x45 || (0x4C ≤ sel && sel ≤ 0x52) then 2
  else 1

/-- The lowest stair that may use SETS of a selector. -/
def setsStair (sel : Nat) : Nat :=
  if sel < 2 || sel = 0x59 || sel = 0x5A || (0x60 ≤ sel && sel ≤ 0x67) then 0
  else if sel = 0x44 || sel = 0x45 || sel = 0x4C || sel = 0x4D || sel = 0x50 || sel = 0x51 || sel = 0x82 || sel = 0x84
    then 2
  else 1

/-- A selector that waits for the outcome of an open speculation (R113). -/
def selWaits (sel : Nat) : Bool := 0x40 ≤ sel && sel < 0xC0

/-- Word j of the current landing, LF at 8 (R196). -/
def State.landingWord (s : State) (r : Run) (j : Nat) : Word :=
  match s.landing r with
  | .none => nil
  | .ls => if j = 8 then fixN (s.core r.p).lsLf.toNat else strip (s.compat r.hall) (look Word.fix0 (s.core r.p).lsLw j)
  | .own k =>
    if j = 8 then fixN ((s.regs r).getLf k).toNat else strip (s.compat r.hall) ((s.regs r).getLw k j)

/-- A write of a word of the current landing; nothing when none is in use. -/
def State.setLandingWord (s : State) (r : Run) (j : Nat) (w : Word) : State :=
  let w := strip (s.compat r.hall) w
  let a : BitVec 44 := BitVec.ofNat 44 w.payload.toNat
  match s.landing r with
  | .none => s
  | .ls =>
    let c := s.core r.p
    s.setCore r.p (if j = 8 then { c with lsLf := a } else { c with lsLw := put Word.fix0 c.lsLw j w })
  | .own k =>
    let x := s.regs r
    s.setRegs r (if j = 8 then x.putLf k a else x.putLw k j w) g6

/-- VMODEn as GETS returns it: MODE of stairs 0 and 1 reads 0 in a compatible hall (R225). -/
def State.vmodeRead (s : State) (r : Run) (sel : Nat) : BitVec 64 :=
  let v := s.sys (sysHall r.hall sel) sel
  if s.compat r.hall && sel ≠ 0x44 then setBit v 0 false else v

/-- The replacement LFSR (R258): one shift, fed by bits 16, 15, 13 and 4 of x^16 + x^15 + x^13 + x^4 + 1 (log entry 29). -/
def lfsrStep (x : BitVec 16) : BitVec 16 :=
  (x <<< 1) ||| (if (x.getLsbD 15 ^^ x.getLsbD 14 ^^ x.getLsbD 12 ^^ x.getLsbD 3) then 1 else 0)

/-- n shifts. -/
def lfsrSteps (x : BitVec 16) : Nat → BitVec 16
  | 0 => x
  | n + 1 => lfsrSteps (lfsrStep x) n

/-- The LFSR of a core slot as it is read now: it has advanced once per core cycle, a free number of times since it was
last read (log entry 29). -/
def State.lfsr (s : State) (p : Nat) : Nat × State :=
  let (n, s) := s.freeNat
  let c := s.core p
  let x := (lfsrSteps (BitVec.ofNat 16 (fld c.keepI 63 48)) (n % 65535)).toNat
  (x, s.setCore p { c with keepI := setFld c.keepI 63 48 x })

/-- The word GETS returns (R95, R147, R196, R255). -/
def State.getSpecial (s : State) (r : Run) (sel : Nat) : Word × State :=
  let x := s.regs r
  let c := s.core r.p
  if sel = 0x00 then (fix x.status, s)
  else if sel = 0x01 then (fixN x.cnt.toNat, s)
  else if sel = 0x02 then (fixN x.slim.toNat, s)
  else if sel = 0x03 then (fixN x.allocp.toNat, s)
  else if sel = 0x04 then (fixN x.allocl.toNat, s)
  else if sel = 0x05 then (fixN x.speck.toNat, s)
  else if sel = 0x06 then (fixN x.pc.toNat, s)
  else if sel = 0x40 || sel = 0x42 || sel = 0x44 then (fix (s.vmodeRead r sel), s)
  else if sel = 0x4A || sel = 0x4E then (fix (BitVec.ofInt 64 (s.scallSp r (if sel = 0x4A then 1 else 2))), s)
  else if sel = 0x4B || sel = 0x4F then (fix (BitVec.ofInt 64 (s.ssp r (if sel = 0x4B then 1 else 2))), s)
  else if sel < 0x50 then (fix (s.sys (sysHall r.hall sel) sel), s)
  else if sel = 0x50 then (fix (s.reg (Reg.coreSthBase r.p)), s)
  else if sel = 0x51 then (fix (s.reg (Reg.coreSthSpInit r.p)), s)
  else if sel = 0x52 then (fix (s.reg (Reg.coreSthCause r.p)), s)
  else if sel = 0x58 then (fixN x.bankwin.toNat, s)
  else if sel = 0x59 then (fix x.wait, s)
  else if sel = 0x5A then (fixN x.msgp.toNat, s)
  else if sel = 0x5B then (fix x.landctl, s)
  else if sel = 0x5C then (fixN (s.ctx r.scn).pend.toNat, s)
  else if sel = 0x5D then (fixN x.shuse.toNat, s)
  else if 0x60 ≤ sel && sel ≤ 0x68 then (s.landingWord r (sel - 0x60), s)
  else if sel = 0x80 then (fix (s.sys r.hall 0x80), s)
  else if sel = 0x81 then (if fld c.stage 47 42 = r.hcn % 64 then fix c.stage else fixN 0, s)
  else if sel = 0x82 then (fix c.keepD, s)
  else if sel = 0x83 then (fix (s.reg (Reg.tlbStat r.p)), s)
  else
    let (_, s) := s.lfsr r.p
    (fix (s.core r.p).keepI, s)

/-- GETS (R147). -/
def execGets (p : Nat) (rd : R5) (sel : BitVec 8) (s : State) : Host.Outcome State Fault Refusal :=
  .next (s.coreStep p (.gets p rd sel) (getsStair sel.toNat) fun r s =>
    if selWaits sel.toNat && (s.specOf r.scn).isSome then .hold s
    else
      let (w, s) := s.getSpecial r sel.toNat
      .ok (s.nextPc r (.gets p rd sel)) (s.setW r rd.toNat w))

/-! SETS. -/

/-- A system register's value is refused (R198, R548): a reserved bit, or a field outside its range. -/
def State.sysBad (s : State) (sel : Nat) (v : BitVec 64) : Bool :=
  if sel = 0x40 || sel = 0x42 || sel = 0x44 then
    fld v 63 3 ≠ 0 || fld v 2 1 = 3 || fld v 2 1 < (sel - 0x40) / 2
  else if sel = 0x41 || sel = 0x43 || sel = 0x45 then fld v 63 44 ≠ 0 || fld v 11 0 ≠ 0
  else if sel = 0x48 || sel = 0x4C then fld v 63 44 ≠ 0 || bit v 0
  else if sel = 0x49 || sel = 0x4D then
    fld v 63 59 ≠ 0 || fld v 53 44 ≠ 0 || fld v 11 0 ≠ 0 || fld v 58 54 < 12 || 20 < fld v 58 54
  else if sel = 0x50 then fld v 62 40 ≠ 0
  else if sel = 0x51 then fld v 63 40 ≠ 0 || fld v 2 0 ≠ 0
  else if sel = 0x58 then fld v 63 16 ≠ 0
  else if sel = 0x59 then !waitOk v
  else if sel = 0x5A then fld v 63 32 ≠ 0
  else if sel = 0x5B then fld v 63 16 ≠ 0 || fld v 7 3 ≠ 0
  else if sel = 0x68 then !alignedOk v
  else if sel = 0x80 then fld v 51 40 ≠ 0 || fld v 10 0 ≠ 0 || s.part.memSize ≤ 2048 * fld v 39 11
  else if sel = 0x81 then fld v 51 50 = 3
  else if sel = 0x84 then fld v 47 32 ≠ 0
  else false

/-- STATUS after a SETS at a stair (R193). -/
def setsStatus (old v : BitVec 64) (stair : Nat) : BitVec 64 :=
  let n := setBit (setFld old 3 2 (fld v 3 2)) 5 (bit v 5)
  let n := if 1 ≤ stair then setFld (setBit (setBit n 4 (bit v 4)) 6 (bit v 6)) 21 16 (fld v 21 16) else n
  if stair = 2 then setBit n 7 (bit v 7) else n

/-- The event of a WAIT is already satisfied (R175). -/
def State.satisfied (s : State) (r : Run) (v : BitVec 64) : Option State :=
  let x := s.regs r
  let done := fun (s : State) (x : Regs) => some (s.setRegs r x g4)
  let k := fld v 63 60
  if k = 1 then if fld v 59 0 ≤ s.dt.toNat then done s { x with wait := v } else none
  else if k = 2 then
    let q := r.hall * 32 + fld v 7 0
    if s.rings.contains q then done { s with rings := s.rings.filter (· ≠ q) } { x with wait := v } else none
  else if k = 3 then
    let d := x.msgp &&& BitVec.ofNat 32 (fld v 31 0)
    if d ≠ 0 then done s { x with wait := BitVec.ofNat 64 (3 * 2 ^ 60 + d.toNat), msgp := x.msgp &&& ~~~d } else none
  else
    let n := s.rf (Reg.xeHcnt r.hall (fld v 34 32)) 31 0
    if (n + 2 ^ 32 - fld v 31 0) % 2 ^ 32 < 2 ^ 31 then done s { x with wait := v } else none

/-- The wait a WAIT value starts (R175). -/
def waitOf (v : BitVec 64) : Wait :=
  let k := fld v 63 60
  if k = 1 then .timer (fld v 59 0)
  else if k = 2 then .doorbell (fld v 7 0)
  else if k = 3 then .message (BitVec.ofNat 32 (fld v 31 0))
  else .transfer (fld v 34 32) (BitVec.ofNat 32 (fld v 31 0))

/-- The WAIT register of a context that begins a wait holds the specification (R162). -/
def State.beginWait (s : State) (r : Run) (v : BitVec 64) : State := s.setRegs r { s.regs r with wait := v } g4

/-- SETS of WAIT with a valid value (R175, R217). -/
def State.setWait (s : State) (r : Run) (i : Instr) (v : BitVec 64) : Res (BitVec 44) :=
  match s.satisfied r v with
  | some s => .ok (s.nextPc r i) s
  | none => if stSth (s.status r) then s.waitOr r i (waitOf v) else (s.beginWait r v).waitOr r i (waitOf v)

/-- SETS of CORE_STH_BASE (R196, R220): refused once locked, or for a BASE that is no even MEMORY address. -/
def State.setSthBase (s : State) (r : Run) (v : BitVec 64) : State :=
  let a := Reg.coreSthBase r.p
  let base := fld v 39 0
  if bit (s.reg a) 63 || bit v 0 || s.part.memSize ≤ base then s.countRsv 2 (0x50 + r.hall * 256)
  else s.setReg a (setBit (setFld 0 39 0 base) 63 true)

/-- A system register of reset domain HALL (R421). -/
def sysHallDomain (sel : Nat) : Bool :=
  (0x40 ≤ sel && sel < 0x50 && sel ≠ 0x44 && sel ≠ 0x45 && sel ≠ 0x4C && sel ≠ 0x4D) || sel = 0x80

/-- The write of a system register whose value has passed its checks; one of a hall that is RESETTING is ignored and counted
(R423). -/
def State.putSystem (s : State) (r : Run) (sel : Nat) (v : BitVec 64) : State :=
  let x := s.regs r
  let c := s.core r.p
  if sysHallDomain sel && s.resetting r.hall then s.countRsv 2 (sel + r.hall * 256)
  else if sel = 0x40 || sel = 0x42 then
    if s.compat r.hall && bit v 0 then (s.setSys r.hall sel (setBit v 0 false)).countRsv 2 (sel + r.hall * 256)
    else s.setSys r.hall sel v
  else if sel < 0x50 then s.setSys (sysHall r.hall sel) sel v
  else if sel = 0x50 then s.setSthBase r v
  else if sel = 0x51 then s.setReg (Reg.coreSthSpInit r.p) v
  else if sel = 0x58 then s.setRegs r { x with bankwin := BitVec.ofNat 16 v.toNat } g4
  else if sel = 0x5A then s.setRegs r { x with msgp := BitVec.ofNat 32 v.toNat } g4
  else if sel = 0x5B then
    s.setRegs r { x with landctl := setBit (setFld (setFld 0 15 8 (lcDepth v)) 1 0 (lcUse v)) 2 (lcL3 x.landctl) } g6
  else if sel = 0x68 then s.setLandingWord r 8 (fix v)
  else if sel = 0x80 then s.setSys r.hall 0x80 v
  else if sel = 0x81 then
    s.setCore r.p { c with stage := setFld (setBit v 48 true) 47 42 (r.hcn % 64) }
  else if sel = 0x82 then s.setCore r.p { c with keepD := v }
  else s.setCore r.p { c with keepI := setFld c.keepI 31 0 (fld v 31 0) }

/-- SETS past its stair (R148, R198). DESIGN CHOICE (log entry 51): a word that is no FIX written into a register of which
only the payload is kept raises TAG_FAULT. -/
def State.setSpecial (s : State) (r : Run) (i : Instr) (sel : Nat) (w : Word) : Res (BitVec 44) :=
  let x := s.regs r
  let v := w.payload
  let stair := stStair (s.status r)
  let done := fun (s : State) => Res.ok (s.nextPc r i) s
  let bounds : Res (BitVec 44) := .trap (mkTrap 0x05 0 w) s
  if 0x60 ≤ sel && sel ≤ 0x67 then done (s.setLandingWord r (sel - 0x60) w)
  else orFault (typedFault (·.isFix) w) s <|
    if sel = 0x00 then done (s.setRegs r { x with status := setsStatus x.status v stair } g4)
    else if sel = 0x01 then
      if 2 ^ 32 ≤ v.toNat then bounds else done (s.setRegs r { x with cnt := BitVec.ofNat 32 v.toNat } g4)
    else if sel ≤ 0x04 then
      if fld v 2 0 ≠ 0 then .trap (mkTrap 0x07 v w) s
      else if fld v 63 44 ≠ 0 then bounds
      else
        let a : BitVec 44 := BitVec.ofNat 44 v.toNat
        if sel = 0x02 then done (s.setRegs r { x with slim := a } g4)
        else
          let s := s.setRegs r (if sel = 0x03 then { x with allocp := a } else { x with allocl := a }) g4
          done (s.setSlot r.hcn { s.slot r.hcn with unchecked := true })
    else if s.sysBad sel v then bounds
    else if sel = 0x81 && stair = 1 && fld v 41 36 ≠ r.hall then bounds
    else if sel = 0x59 then s.setWait r i v
    else done (s.putSystem r sel v)

/-- SETS (R148). -/
def execSets (p : Nat) (sel : BitVec 8) (rd : R5) (s : State) : Host.Outcome State Fault Refusal :=
  .next (s.coreStep p (.sets p sel rd) (setsStair sel.toNat) fun r s =>
    if selWaits sel.toNat && (s.specOf r.scn).isSome then .hold s
    else s.setSpecial r (.sets p sel rd) sel.toNat (s.getW r rd.toNat))

/-! The bank window. -/

/-- STATUS.WF of the issuing context. -/
def State.setWf (s : State) (r : Run) (b : Bool) : State := s.setStatus r (setBit (s.status r) 5 b)

/-- What a window reaches (R188). -/
inductive Window where
  | parked (slot : Nat)
  | spilled (desc : Nat)
  | closed
  deriving DecidableEq, Repr

/-- The state of a window's target. -/
def State.window (s : State) (scn : Nat) : Window :=
  let c := s.ctx scn
  if c.st = .parked then .parked c.hcn else if c.st = .spilled then .spilled c.desc else .closed

/-- The window is refused at stair 1 for a target of another hall (R152, R189). -/
def State.windowForeign (s : State) (r : Run) (scn : Nat) : Bool :=
  stStair (s.status r) = 1 && (s.ctx scn).st ≠ .none && (s.ctx scn).hall ≠ r.hall

/-- WGET past its checks (R188). -/
def State.windowGet (s : State) (r : Run) (i : Instr) (rd sel scn : Nat) : Res (BitVec 44) :=
  let h := (s.ctx scn).hall
  let give := fun (s : State) (w : Word) => Res.ok (s.nextPc r i) ((s.setW r rd w).setWf r false)
  match s.window scn with
  | .closed => .ok (s.nextPc r i) (s.setWf r true)
  | .parked n => give s (if sel = 0x26 then fixN 0 else strip (s.compat h) ((s.slot n).regs.selWord sel))
  | .spilled desc =>
    if sel = 0x26 then give s (fixN 0)
    else
      let pa := descSlot desc (selSlot sel)
      let (w, s) := s.agentLoad pa
      if s.compat h then give s (strip true w)
      else
        let heal := fun v (s : State) => if s.memWord pa = w then s.gwrite (.core r.p) pa v else s
        (s.coreBarrier r h (BitVec.ofNat 64 pa) w heal (fun s => .ok (s.memWord pa) s)).bind fun v s => give s v

/-- A WPUT at stair 1 that would forge or undo a call into the device kernel (R189). -/
def putForges (sel : Nat) (old v : BitVec 64) : Bool :=
  (0x33 ≤ sel && sel ≤ 0x36) || ((sel = 0x21 || sel = 0x32) && 1 < stStair (checkedStatus old v).1)

/-- A refused value of a window or a fill counts once, with SOURCE 1 (R163). -/
def State.countWindow (s : State) (refused : Bool) (scn sel : Nat) : State :=
  if refused then s.countRsv 1 (scn + 65536 * sel) else s

/-- WPUT past its checks (R163, R188, R189). -/
def State.windowPut (s : State) (r : Run) (i : Instr) (sel scn : Nat) (w : Word) : Res (BitVec 44) :=
  let h := (s.ctx scn).hall
  let w := strip (s.compat h) w
  let low := stStair (s.status r) = 1
  let fail := Res.ok (s.nextPc r i) (s.setWf r true)
  match s.window scn with
  | .closed => fail
  | .parked n =>
    let sl := s.slot n
    if low && putForges sel (sl.regs.selWord sel).payload w.payload then fail
    else
      let (x, bad) := sl.regs.selPut sel w false
      let s := s.setSlot n { sl with regs := x, dirty := sl.dirty ||| selGroup sel,
                                     unchecked := sl.unchecked || sel = 0x24 || sel = 0x25 }
      .ok (s.nextPc r i) (((s.countWindow bad scn sel).alertsDue scn).setWf r false)
  | .spilled desc =>
    let pa := descSlot desc (selSlot sel)
    let (old, s) := s.agentLoad pa
    let old := if old.type = 0x32 then fixN 0 else old
    if low && putForges sel old.payload w.payload then .ok (s.nextPc r i) (s.setWf r true)
    else
      let (x, bad) := (Regs.zero.selPut sel old true).1.selPut sel w false
      let w := x.selWord sel
      if s.compat h then
        let s := s.storeAs .engine .ctx h pa w false
        .ok (s.nextPc r i) (((s.countWindow bad scn sel).alertsDue scn).setWf r false)
      else match s.convert (.core r.p) h w with
        | (.good v, s) =>
          let s := s.storeLogged .engine .ctx h pa w v true
          .ok (s.nextPc r i) (((s.countWindow bad scn sel).alertsDue scn).setWf r false)
        | (.assist k, s) => .trap { mkTrap 0x12 (BitVec.ofNat 64 pa) w with ra := some (h, k) } s

/-- WGET (R152, R188). -/
def execWget (p : Nat) (rd : R5) (sel : BitVec 8) (s : State) : Host.Outcome State Fault Refusal :=
  .next (s.coreStep p (.wget p rd sel) 1 fun r s =>
    let scn := (s.regs r).bankwin.toNat
    if (s.specOf r.scn).isSome then .hold s
    else if s.windowForeign r scn then .trap (stairViolation (.wget p rd sel) (s.regs r).pc) s
    else s.windowGet r (.wget p rd sel) rd.toNat sel.toNat scn)

/-- WPUT (R152, R188). -/
def execWput (p : Nat) (sel : BitVec 8) (rd : R5) (s : State) : Host.Outcome State Fault Refusal :=
  .next (s.coreStep p (.wput p sel rd) 1 fun r s =>
    let scn := (s.regs r).bankwin.toNat
    if (s.specOf r.scn).isSome then .hold s
    else if s.windowForeign r scn then .trap (stairViolation (.wput p sel rd) (s.regs r).pc) s
    else s.windowPut r (.wput p sel rd) sel.toNat scn (s.getW r rd.toNat))

end Sys2Proof.Machine
end

