-- ==== Sys2Proof/Machine/Tlb.lean ====
section
/-! DEFINITION. TLB instructions (R153, R249, R258 to R260, R264, R265). -/

namespace Sys2Proof.Machine

/-- The operand of TLBWI and TLBWR is a FIX or RAW word. -/
def pteFault (w : Word) : Option Trap := typedFault (fun w => w.isFix || w.type = 0x3F) w

/-- Entries of the TLB that TLB_STAGE.SEL selects. -/
def tlbSize (sel : Nat) : Nat := if sel = 1 then 32 else 64

/-- Bytes of the page a PTE of a level maps. -/
def pageSize (level : Nat) : Nat := 2 ^ pageShift level

/-- A valid PTE that R260 step 5 refuses at a level. -/
def pteBad (v : BitVec 64) (level : Nat) : Bool :=
  fld v 61 40 ≠ 0 || fld v 13 12 ≠ 0 || !bit v 62 || (level = 1 && fld v 24 14 ≠ 0) || (level = 0 && fld v 35 14 ≠ 0)

/-- The entry that TLB_STAGE and a leaf make (R251, R260). -/
def stagedEntry (st v : BitVec 64) : TlbEntry :=
  if bit v 63 then
    { v := true, hall := fld st 41 36, asid := fld st 63 52, g := bit v 11, level := fld st 51 50, vpn := fld st 29 0,
      addr := fld v 39 14, r := bit v 4, w := bit v 5, x := bit v 6, u := bit v 7, stk := bit v 8, a := bit v 10,
      d := bit v 9 }
  else TlbEntry.invalid

/-- A core with an entry of a TLB replaced. -/
def Core.setTlb (c : Core) (sel i : Nat) (e : TlbEntry) : Core :=
  if sel = 1 then { c with itlb := put TlbEntry.invalid c.itlb i e }
  else { c with dtlb := put TlbEntry.invalid c.dtlb i e }

/-- Steps 4 to 6 of R260 and the write of the entry at an index. -/
def State.tlbWrite (s : State) (r : Run) (i : Instr) (w : Word) (n : Nat) : Res (BitVec 44) :=
  let c := s.core r.p
  let st := c.stage
  let v := w.payload
  let level := fld st 51 50
  if !bit st 48 || fld st 47 42 ≠ r.hcn % 64 then .ok (s.nextPc r i) (s.bumpRf (Reg.tlbStat r.p) 63 48 1)
  else if level = 3 || (bit v 63 && pteBad v level) then .trap (mkTrap 0x05 0 w) s
  else if stStair (s.status r) = 1 && bit v 63 && !s.reach r.hall (2 ^ 14 * fld v 39 14) (pageSize level) then
    .trap (mkTrap 0x0A (BitVec.ofNat 64 (2 ^ 14 * fld st 29 0)) w) s
  else .ok (s.nextPc r i) (s.setCore r.p (c.setTlb (fld st 49 49) n (stagedEntry st v)))

/-- TLBWI (R153, R260). -/
def execTlbwi (p : Nat) (ra rb : R5) (s : State) : Host.Outcome State Fault Refusal :=
  let i := Instr.tlbwi p ra rb
  .next (s.coreStep p i 1 fun r s =>
    let w := s.getW r ra.toNat
    let x := s.getW r rb.toNat
    let c := s.core r.p
    let sel := fld c.stage 49 49
    let n := x.payload.toNat
    if (s.specOf r.scn).isSome then .hold s
    else orFault (pteFault w) s <| orFault (typedFault (·.isFix) x) s <|
      if tlbSize sel ≤ n then .trap (mkTrap 0x05 0 x) s
      else if stStair (s.status r) = 1 && c.kept sel n then .trap (stairViolation i (s.regs r).pc) s
      else s.tlbWrite r i w n)

/-- TLBWR (R153, R258, R260): a free number of core cycles has passed for the LFSR (log entry 29). -/
def execTlbwr (p : Nat) (ra : R5) (s : State) : Host.Outcome State Fault Refusal :=
  let i := Instr.tlbwr p ra
  .next (s.coreStep p i 1 fun r s =>
    let w := s.getW r ra.toNat
    let c := s.core r.p
    let sel := fld c.stage 49 49
    if (s.specOf r.scn).isSome then .hold s
    else orFault (pteFault w) s <|
      let (f, s) := s.lfsr r.p
      match pick ((List.range (tlbSize sel)).filter (fun n => !c.kept sel n)) f with
      | none => .trap (mkTrap 0x05 0 w) s
      | some n => s.tlbWrite r i w n)

/-! TWALK (R259). -/

/-- How a walk ends. -/
inductive Walk where
  | leaf (level : Nat) (v : BitVec 64)
  | fail (cause addr : Nat)
  deriving DecidableEq, Repr

/-- The walk of `va` from the table word at `a` on level `lvl`, at most three levels; core p reads the words through its
Crib under CRIB_AMASK_MUT (R270, R276). -/
def State.walk (s : State) (p h : Nat) (low : Bool) (va : BitVec 64) (a lvl : Nat) : Nat → Walk × State
  | 0 => (.fail 0x0D a, s)
  | n + 1 =>
    if regionOf s.part a = .outside then (.fail 0x0D a, s)
    else if regionOf s.part a ≠ .memory then (.fail 0x0E a, s)
    else if low && (s.binOf a).hall ≠ h then (.fail 0x0E a, s)
    else
      let (w, s) := s.coreLoad p .mut a
      if w.type = 0x32 then (.fail 0x0D a, s)
      else
        let v := w.payload
        if !bit v 63 || bit v 62 || lvl = 2 then (.leaf lvl v, s)
        else
          let ix := if lvl = 0 then fld va 35 25 else fld va 24 14
          s.walk p h low va (2 ^ 14 * fld v 39 14 + 8 * ix) (lvl + 1) n

/-- TWALK (R259). -/
def execTwalk (p : Nat) (rd ra : R5) (s : State) : Host.Outcome State Fault Refusal :=
  let i := Instr.twalk p rd ra
  .next (s.coreStep p i 1 fun r s =>
    let x := s.getW r ra.toNat
    let va := x.payload
    if (s.specOf r.scn).isSome then .hold s
    else s.asRoutine r .twalk (s.nextPc r i) false none <|
    if x.type = 0x32 then .trap (mkTrap 0x06 0 x) s
    else if fld va 63 44 ≠ 0 then .trap (mkTrap 0x05 0 x) s
    else
      let root := 2 ^ 11 * fld (s.sys r.hall 0x80) 39 11 + 8 * fld va 43 36
      match s.walk p r.hall (stStair (s.status r) = 1) va root 0 3 with
      | (.fail cause a, s) => .trap (mkTrap cause va (raw (BitVec.ofNat 64 a))) s
      | (.leaf lvl v, s) =>
        let c := s.core r.p
        let st := stageWord (s.asid r.hall) lvl (fld c.stage 49 49) (r.hcn % 64) r.hall (fld c.stage 35 30)
          (fld va 43 14)
        .ok (s.nextPc r i) ((s.setCore r.p { c with stage := st }).setW r rd.toNat (raw v)))

/-! TLBI (R264, R265). -/

/-- The scope removes an entry (R264). -/
def scopeHits (v : BitVec 64) (e : TlbEntry) : Bool :=
  let k := fld v 63 60
  let asid := fld v 53 42
  let sh := pageShift e.level
  let at' := 2 ^ 14 * fld v 29 0 / 2 ^ sh = 2 ^ 14 * e.vpn / 2 ^ sh
  e.hall = fld v 59 54 &&
    (if k = 1 then true
     else if k = 2 then e.asid = asid && !e.g
     else if k = 3 then at' && (e.g || e.asid = asid)
     else at')

/-- The contexts of a core slot with posted stores that are not yet applied. -/
def State.storersOn (s : State) (p : Nat) : List Posted :=
  s.posted.filter (fun w => match w.who with
    | .ctx scn _ => s.pcnOf (s.ctx scn).hcn = p
    | _ => false)

/-- The posted stores of a core slot's contexts are performed, as far as none waits in its queue (R265 step 3). -/
def State.performStores (s : State) (p : Nat) : State :=
  (s.storersOn p).foldl (fun s w => s.drainAll w.who (homeKey w.off)) s

/-- A core acknowledges an invalidation once it has removed the matching entries (R265 step 3). -/
def State.tlbiAckOne (s : State) (p : Nat) (j : TlbiJob) : State :=
  let s := s.removeOn p (scopeHits j.scope)
  { s with tlbis := s.tlbis.map (fun k => if k.core = j.core then { k with left := k.left.filter (· ≠ p) } else k) }

/-- The TLBIs whose last acknowledgement has come retire (R265 step 4), unless an alert that the issuer would take became pending
before: the TLBI is then abandoned with PC on it. -/
def State.tlbiRetire (s : State) : State :=
  (s.tlbis.filter (·.left.isEmpty)).foldl (fun s j =>
    let s := { s with tlbis := s.tlbis.filter (fun k => k.core ≠ j.core) }
    match s.running j.core with
    | none => s
    | some r =>
      if r.scn = j.scn && (s.nextAlert r).isNone then s.retire r ((s.regs r).pc + 4) (stSs (s.status r)) else s) s

/-- Slots that acknowledge an invalidation at once: those held in CORE reset and those in Halted-Fault (R265 step 2). -/
def State.acksAtOnce (s : State) (p : Nat) : Bool := s.held p || (s.core p).halt.isSome

/-- TLBI (R264, R265): the broadcast. PC stays on the TLBI until the last acknowledgement. -/
def execTlbi (p : Nat) (ra : R5) (s : State) : Host.Outcome State Fault Refusal :=
  let i := Instr.tlbi p ra
  .next (s.coreStep p i 1 fun r s =>
    let x := s.getW r ra.toNat
    let v := x.payload
    if (s.specOf r.scn).isSome then .hold s
    else orFault (typedFault (·.isFix) x) s <|
      if fld v 63 60 = 0 || 5 ≤ fld v 63 60 || fld v 41 30 ≠ 0 then .trap (mkTrap 0x05 0 x) s
      else if stStair (s.status r) = 1 && fld v 59 54 ≠ r.hall then .trap (stairViolation i (s.regs r).pc) s
      else
        let now := s.part.pcns.filter s.acksAtOnce
        let j : TlbiJob := ⟨p, r.scn, v, s.part.pcns.filter (fun q => !s.acksAtOnce q)⟩
        .stop (now.foldl (fun s q => s.removeOn q (scopeHits v)) { s with tlbis := s.tlbis ++ [j] }))

/-- A core at a point where an interrupt could be taken acknowledges every outstanding TLBI (R265 step 3), once every
access that it made through a removed entry has been performed. -/
def State.tlbiAck (s : State) (p : Nat) : State :=
  let jobs := s.tlbis.filter (·.left.contains p)
  if jobs.isEmpty then s
  else
    let s := s.performStores p
    if (s.storersOn p).isEmpty then (jobs.foldl (fun s j => s.tlbiAckOne p j) s).tlbiRetire else s

/-- TLBI_ACK (R265). -/
def execTlbiAck (p : Nat) (s : State) : Host.Outcome State Fault Refusal := .next (s.tlbiAck p)

end Sys2Proof.Machine
end

