-- ==== Sys2Proof/Machine/Events.lean ====
section
/-! DEFINITION. What happens to contexts between instructions: ILLEGAL_ENCODING (R99), alerts (R114, R202, R211, R217),
scheduling (R173, R174), fills on demand (R182), timers and watchdogs (R175, R213), and the register scans of a flip
(R332, R333). -/

namespace Sys2Proof.Machine

/-- The parcel at an address, as the fetch of the Running context reads it; 0 where the fetch raises a cause. -/
def State.parcelAt (s : State) (r : Run) (pc : BitVec 44) : BitVec 16 :=
  let st := s.status r
  let x := if stToff st then s.physical pc.toNat ⟨false, true, false⟩
    else s.translate r.p r.hall (stStair st) pc.toNat ⟨false, true, false⟩
  match x with
  | .trap _ => 0
  | .pa pa => BitVec.ofNat 16 (fld (s.memWord (wordOf pa)).payload (16 * (pa / 2 % 4) + 15) (16 * (pa / 2 % 4)))

/-- The parcels of the sequence at PC that no opcode map assigns (R82, R99, R102): how many, and the faulting word; none
where the sequence decodes. -/
def State.illegalAt (s : State) (r : Run) : Option (Nat × Word) :=
  let pc := (s.regs r).pc
  let a := s.parcelAt r pc
  let b := s.parcelAt r (pc + 2)
  let c := s.parcelAt r (pc + 4)
  match decodeParcels r.p a b c with
  | some _ => none
  | none =>
    if a = 0x0002 then
      if b.getLsbD 15 then some (3, raw (0x0002#16 ++ 0#16 ++ (b ++ c))) else some (2, raw (0x0002#16 ++ 0#32 ++ b))
    else if a.getLsbD 15 then some (2, raw (0#32 ++ (a ++ b))) else some (1, raw (0#48 ++ a))

/-- ILLEGAL_ENCODING (R99): the parcels at PC, which no opcode map assigns, reach retirement. -/
def execIllegalEncoding (p : Nat) (s : State) : Host.Outcome State Fault Refusal :=
  match s.running p with
  | none => .next s
  | some r =>
    let pc := (s.regs r).pc
    match s.illegalAt r with
    | none => .next s
    | some (n, w) =>
      match s.nextAlert r with
      | some k => .next (s.deliver r k)
      | none =>
      if s.tlbis.any (fun j => j.core = p) then .next s
      else match s.fetchParcels r pc n with
        | (some t, s) => .next (s.take r t)
        | (none, s) => .next (s.take r (mkTrap 0x01 (BitVec.ofNat 64 pc.toNat) w))

/-- ALERT_DELIVERY (R114, R202, R211, R217): a deliverable alert is taken at this boundary or yield point. -/
def execAlertDelivery (p : Nat) (s : State) : Host.Outcome State Fault Refusal :=
  match s.running p with
  | none => .next s
  | some r =>
    match s.nextAlert r with
    | none => .next s
    | some k => .next (s.deliver r k)

/-- The chosen context starts on its core; a pending scan is made first (R332 step 4). -/
def State.dispatchTo (s : State) (p scn : Nat) : State := (s.scanNow (s.ctx scn).hcn).startOn p scn

/-- DISPATCH (R173): a free core runs the context its scheduler chooses. -/
def execDispatch (p : Nat) (s : State) : Host.Outcome State Fault Refusal :=
  if s.coreFree p then
    match s.pickCtx p with
    | none => .next s
    | some scn => .next (s.dispatchTo p scn)
  else .next s

/-- The highest priority among the Ready contexts of a core. -/
def State.topReady (s : State) (p : Nat) : Option Nat :=
  match (s.readyOn p).map (fun n => (s.ctx n).prio) with
  | [] => none
  | x :: xs => some (xs.foldl max x)

/-- PREEMPTION (R174): a context of a higher level is Ready, so the Running one, outside the stairhead (R217), is
switched out and becomes Ready. -/
def execPreemption (p : Nat) (s : State) : Host.Outcome State Fault Refusal :=
  match s.running p with
  | none => .next s
  | some r =>
    match s.topReady p with
    | none => .next s
    | some q =>
      if (s.ctx r.scn).prio < q && !stSth (s.status r) then .next (s.preempt r.scn) else .next s

/-- QUANTUM_END (R174): the quantum of CTX_SCHED ends while another context of the level is Ready. -/
def execQuantumEnd (p : Nat) (s : State) : Host.Outcome State Fault Refusal :=
  match s.running p with
  | none => .next s
  | some r =>
    if s.rf (Reg.ctxSched p) 15 0 ≠ 0 && !stSth (s.status r) &&
        (s.readyOn p).any (fun n => (s.ctx n).prio = (s.ctx r.scn).prio) then .next (s.preempt r.scn)
    else .next s

/-- The fills that wait, with the slot each would take (R182): a pending FILL keeps the LCN it names. -/
def State.fillsDue (s : State) : List (Nat × Nat) :=
  s.ctxs.filterMap (fun (scn, c) =>
    if c.st = .spilled && (c.fillPending || c.resume = .ready) then
      (s.fillSlot scn (if c.fillPending && c.fillLcn ≠ 0xFF then some c.fillLcn else none)).map (fun n => (scn, n))
    else none)

/-- A fill a comes before a fill b: higher PRIO, then pending earlier, a pending one before one that is not. -/
def State.fillBefore (s : State) (a b : Nat) : Bool :=
  let x := s.ctx a
  let y := s.ctx b
  if x.prio ≠ y.prio then y.prio < x.prio
  else if x.fillPending ≠ y.fillPending then x.fillPending
  else if x.fillPending then x.fillNo < y.fillNo else a < b

/-- The contexts in Spilled (Ready) whose fill finds no slot and is not yet pending (R182). -/
def State.fillsShut (s : State) : List Nat :=
  keysWhere (fun n c => c.st = .spilled && c.resume = .ready && !c.fillPending && (s.fillSlot n none).isNone) s.ctxs

/-- FILL_ON_DEMAND (R182): fills that find no slot become pending, and the first in order that has one is made. DESIGN
CHOICE (log entry 50): RESULT of a FILL that was left at NO_SLOT or BUSY becomes DONE with the fill. -/
def execFillOnDemand (s : State) : Host.Outcome State Fault Refusal :=
  let s := s.fillsShut.foldl State.fillBlocked s
  match s.fillsDue with
  | [] => .next s
  | x :: xs =>
    let (scn, n) := xs.foldl (fun b y => if s.fillBefore y.1 b.1 then y else b) x
    let late := (s.ctx scn).fillPending && ((s.ctx scn).result = 3 || (s.ctx scn).result = 1)
    let s := s.fill scn n
    .next (if late then s.setResult scn 0 else s)

/-- A timer wait whose deadline DT has reached. -/
def State.timerDue (s : State) (_ : SwCtx) (w : Wait) : Bool :=
  match w with
  | .timer d => d ≤ s.dt.toNat
  | _ => false

/-- TIMER_WAKE (R175, R176): every context whose deadline DT has reached wakes. -/
def execTimerWake (s : State) : Host.Outcome State Fault Refusal := .next (s.wakeAll s.timerDue)

/-- WATCHDOG (R213): the period of a hall has passed since its watchdog last started. -/
def execWatchdog (h : Nat) (s : State) : Host.Outcome State Fault Refusal :=
  let period := 1000000 * s.rf (Reg.evrAlertRoute h) 15 0
  if h < 64 && period ≠ 0 && look 0 s.wdogFrom h + period ≤ s.dt.toNat then
    .next ({ s with wdogFrom := put 0 s.wdogFrom h s.dt.toNat }.alertHall h 0x21 (fixN h))
  else .next s

/-- REGISTER_SCAN (R332, R333): the background scan of the context in a slot. -/
def execRegisterScan (hcn : Nat) (s : State) : Host.Outcome State Fault Refusal := .next (s.scanNow hcn)

end Sys2Proof.Machine
end

