-- ==== Sys2Proof/Machine/Waits.lean ====
section
/-! DEFINITION. WAITP, SPEC.OPEN and SPEC.CLOSE (R154 to R157, R381, R383, R397). -/

namespace Sys2Proof.Machine

/-- The checks of a POS operand (R154). -/
def State.posFault (s : State) (h : Nat) (w : Word) : Option Trap :=
  match typedFault (fun w => w.tag = 4) w with
  | some t => some t
  | none =>
    if !s.seesAxis h (posAxis w.payload) then some (mkTrap 0x15 0 w)
    else if s.posAhead w.payload = -(2 ^ 60 : Int) then some (mkTrap 0x05 0 w)
    else none

/-- WAITP (R154). -/
def execWaitp (p : Nat) (rd ra : R5) (s : State) : Host.Outcome State Fault Refusal :=
  let i := Instr.waitp p rd ra
  .next (s.coreStep p i 0 fun r s =>
    let w := s.getW r ra.toNat
    if (s.specOf r.scn).isSome then .hold s
    else orFault (s.posFault r.hall w) s <|
      if s.posAhead w.payload ≤ 0 then .ok (s.nextPc r i) (s.setW r rd.toNat novalue)
      else s.waitOr r i (.position w.payload rd.toNat))

/-! SPEC.OPEN. -/

/-- The four words of an ITEM that SPEC.OPEN loads (R155): header and slots 0 to 2. -/
def State.itemWords (s : State) (r : Run) (w : Word) : Res (List Word) :=
  s.loadWords r w.payload.toNat false 4

/-- What the loaded words of an ITEM raise (R72, R155). DESIGN CHOICE (log entry 48): the four loads come first, then
POISON_USE of any of them, then the TAG_FAULT of R72. -/
def itemFault (item : Word) (ws : List Word) : Option Trap :=
  match ws.find? (fun w => w.type = 0x32) with
  | some w => some (mkTrap 0x06 0 w)
  | none =>
    match ws with
    | [hdr, pos, lane, _] =>
      if hdr.type ≠ 0x30 || hdrLen hdr < 4 || pos.tag ≠ 4 || !lane.isFix || 31 < lane.payload.toNat then
        some (mkTrap 0x03 0 item)
      else none
    | _ => none

/-- The checks of rb, with the loads of an ITEM (R155). -/
def State.specItem (s : State) (r : Run) (w : Word) : Res Unit :=
  orFault (typedFault (fun w => w.isNil || w.type = 0x17) w) s <|
    if w.isNil || (s.specOf r.scn).isSome then .ok () s
    else (s.itemWords r w).bind fun ws s => orFault (itemFault w ws) s (.ok () s)

/-- The physical address of slot 2 of an ITEM, in MEMORY. -/
def State.slot2 (s : State) (r : Run) (w : Word) : Option Nat :=
  match s.dataPa r (stStair (s.status r)) (w.payload.toNat + 24) false false with
  | .pa a => if regionOf s.part a = .memory then some a else none
  | .trap _ => none

/-- The slice whose lines a core's speculations take (R380). -/
def sliceOf (p : Nat) : Nat := p / 9

/-- Speculation records in use. -/
def State.galOpen (s : State) : Nat := (s.gal.filter (fun (_, g) => g.st ≠ .free)).length

/-- SPECK of the context. -/
def State.setSpeck (s : State) (r : Run) (v : Nat) : State :=
  s.setRegs r { s.regs r with speck := BitVec.ofNat 32 v } g4

/-- The next SEQ (R381). -/
def nextSeq (q : Nat) : Nat := if (q + 1) % 2 ^ 22 = 0 then 1 else (q + 1) % 2 ^ 22

/-- Opens a speculation in a free record, which one being open (R380, R381, R383; log entry 8). -/
def State.openSpec (s : State) (r : Run) (key : BitVec 64) (item : Option Nat) : State :=
  let (f, s) := s.freeNat
  match pick ((List.range 1024).filter (fun i => (s.galr i).st = .free)) f with
  | none => s
  | some i =>
    let q := nextSeq s.galSeq
    let s := { s with galSeq := q }
    let s := s.setGal i { GalRec.reset with
      st := .opened, hall := r.hall, scn := r.scn, item := item, remote := s.remoteAxis (posAxis key), seq := q,
      key := key, slice := sliceOf r.p, ckpt := s.regs r }
    let s := match item with
      | none => s
      | some pa => match s.takeLine i pa with
        | none => s
        | some s => s.setR i pa
    s.setSpeck r (1024 * q + i)

/-- SPEC.OPEN goes on with no speculation (R155). -/
def State.specPlain (s : State) (r : Run) (i : Instr) : Res (BitVec 44) := .ok (s.nextPc r i) (s.setSpeck r 0)

/-- What the discard of its last speculation makes of a SPEC.OPEN (R156): nothing, unless it is the one that restarts,
which its PC and its level of entries tell from one in a handler. -/
def State.reopening (s : State) (r : Run) : Nat :=
  match (s.ctx r.scn).reopens.find? (fun e => e.1 = entryLevel (s.regs r).landctl && e.2.1 = (s.regs r).pc) with
  | some e => e.2.2
  | none => 0

/-- What the discard left is used up. -/
def State.reopened (s : State) (r : Run) : State :=
  s.setCtx r.scn { s.ctx r.scn with
    reopens := (s.ctx r.scn).reopens.filter (fun e => e.1 ≠ entryLevel (s.regs r).landctl) }

/-- The cases of R155 after the checks, and those a discard leaves (R156, R397). DESIGN CHOICE (log entry 48): an ITEM
whose slot 2 lies outside MEMORY has no sector a Gallery line could be taken for, so the fourth case applies. -/
def State.specCases (s : State) (r : Run) (i : Instr) (key : BitVec 64) (item : Word) : Res (BitVec 44) :=
  let again := s.reopening r
  let cross := fun (s : State) => s.waitOr r i (.crossing key)
  if (s.specOf r.scn).isSome then .hold s
  else if s.posAhead key ≤ 0 then (if again = 0 then s else s.reopened r).specPlain r i
  else if stSth (s.status r) then cross s
  else if again = 2 then (s.reopened r).specPlain r i
  else if again = 1 then cross (s.reopened r)
  else if !s.part.hasGallery || s.compat r.hall || 1024 ≤ s.galOpen then cross s
  else if item.isNil then .ok (s.nextPc r i) (s.openSpec r key none)
  else match s.slot2 r item with
    | none => cross (s.countStall r.hall)
    | some pa =>
      if s.lineFree (sliceOf r.p) r.hall 0 then .ok (s.nextPc r i) (s.openSpec r key (some pa))
      else cross (s.countStall r.hall)

/-- SPEC.OPEN (R155). -/
def execSpecOpen (p : Nat) (ra rb : R5) (s : State) : Host.Outcome State Fault Refusal :=
  let i := Instr.specOpen p ra rb
  .next (s.coreStep p i 0 fun r s =>
    let k := s.getW r ra.toNat
    let w := s.getW r rb.toNat
    orFault (s.posFault r.hall k) s <|
      (s.specItem r w).bind fun _ s => s.specCases r i k.payload w)

/-- SPEC.CLOSE (R157). -/
def execSpecClose (p : Nat) (s : State) : Host.Outcome State Fault Refusal :=
  .next (s.coreStep p (.specClose p) 0 fun r s =>
    if (s.specOf r.scn).isSome then s.waitOr r (.specClose p) (.outcome true)
    else .ok (s.nextPc r (.specClose p)) s)

end Sys2Proof.Machine
end

