-- ==== Sys2Proof/Machine/Dispatch.lean ====
section
/-! DEFINITION. The dispatch: one arm for each command, a direct call of its meaning. -/

namespace Sys2Proof.Machine

/-- What a command does to the block (everything but the queue of waiting commands, which `step` reads). -/
def exec (i : Instr) (s : State) : Host.Outcome State Fault Refusal :=
  match i with
  | .gadd p f => Sys2Proof.Machine.execGadd p f s
  | .gsub p f => Sys2Proof.Machine.execGsub p f s
  | .gmul p rd ra rb => Sys2Proof.Machine.execGmul p rd ra rb s
  | .gaddi p f => Sys2Proof.Machine.execGaddi p f s
  | .gcmp p f => Sys2Proof.Machine.execGcmp p f s
  | .wcmp p f => Sys2Proof.Machine.execWcmp p f s
  | .mov p f => Sys2Proof.Machine.execMov p f s
  | .ldi p f => Sys2Proof.Machine.execLdi p f s
  | .ldk p rd k => Sys2Proof.Machine.execLdk p rd k s
  | .ldik p rd k imm => Sys2Proof.Machine.execLdik p rd k imm s
  | .tagi p rd ra ty => Sys2Proof.Machine.execTagi p rd ra ty s
  | .typeq p rd ra ty => Sys2Proof.Machine.execTypeq p rd ra ty s
  | .tagw p rd ra tag => Sys2Proof.Machine.execTagw p rd ra tag s
  | .br p f => Sys2Proof.Machine.execBr p f s
  | .bcond p f => Sys2Proof.Machine.execBcond p f s
  | .bnil p f => Sys2Proof.Machine.execBnil p f s
  | .bnnil p f => Sys2Proof.Machine.execBnnil p f s
  | .tbr p ra ty sense disp => Sys2Proof.Machine.execTbr p ra ty sense disp s
  | .jmp p ra => Sys2Proof.Machine.execJmp p ra s
  | .callm p ra mask => Sys2Proof.Machine.execCallm p ra mask s
  | .retm p => Sys2Proof.Machine.execRetm p s
  | .brk p => Sys2Proof.Machine.execBrk p s
  | .nop p => Sys2Proof.Machine.execNop p s
  | .rep p op stop => Sys2Proof.Machine.execRep p op stop s
  | .ld p f => Sys2Proof.Machine.execLd p f s
  | .st p f => Sys2Proof.Machine.execSt p f s
  | .ldx p rd ra rb => Sys2Proof.Machine.execLdx p rd ra rb s
  | .stx p rd ra rb => Sys2Proof.Machine.execStx p rd ra rb s
  | .ldsp p rt off => Sys2Proof.Machine.execLdsp p rt off s
  | .stsp p rt off => Sys2Proof.Machine.execStsp p rt off s
  | .fence p => Sys2Proof.Machine.execFence p s
  | .car p f => Sys2Proof.Machine.execCar p f s
  | .cdr p f => Sys2Proof.Machine.execCdr p f s
  | .cons p rd ra rb => Sys2Proof.Machine.execCons p rd ra rb s
  | .rplaca p ra rb => Sys2Proof.Machine.execRplaca p ra rb s
  | .rplacd p ra rb => Sys2Proof.Machine.execRplacd p ra rb s
  | .memq p rd ra rb stop => Sys2Proof.Machine.execMemq p rd ra rb stop s
  | .assq p rd ra rb stop => Sys2Proof.Machine.execAssq p rd ra rb stop s
  | .llen p rd ra stop => Sys2Proof.Machine.execLlen p rd ra stop s
  | .vref p rd ra rb => Sys2Proof.Machine.execVref p rd ra rb s
  | .vset p rd ra rb => Sys2Proof.Machine.execVset p rd ra rb s
  | .vfill p rd ra rb stop => Sys2Proof.Machine.execVfill p rd ra rb stop s
  | .vcopy p rd ra rb stop => Sys2Proof.Machine.execVcopy p rd ra rb stop s
  | .alloc p rd ra ty pin sub => Sys2Proof.Machine.execAlloc p rd ra ty pin sub s
  | .gets p rd sel => Sys2Proof.Machine.execGets p rd sel s
  | .sets p sel rd => Sys2Proof.Machine.execSets p sel rd s
  | .scall p st => Sys2Proof.Machine.execScall p st s
  | .sret p => Sys2Proof.Machine.execSret p s
  | .xret p => Sys2Proof.Machine.execXret p s
  | .wget p rd sel => Sys2Proof.Machine.execWget p rd sel s
  | .wput p sel rd => Sys2Proof.Machine.execWput p sel rd s
  | .tlbwi p ra rb => Sys2Proof.Machine.execTlbwi p ra rb s
  | .tlbwr p ra => Sys2Proof.Machine.execTlbwr p ra s
  | .tlbi p ra => Sys2Proof.Machine.execTlbi p ra s
  | .twalk p rd ra => Sys2Proof.Machine.execTwalk p rd ra s
  | .waitp p rd ra => Sys2Proof.Machine.execWaitp p rd ra s
  | .specOpen p ra rb => Sys2Proof.Machine.execSpecOpen p ra rb s
  | .specClose p => Sys2Proof.Machine.execSpecClose p s
  | .largeInitDone scn => Sys2Proof.Machine.execLargeInitDone scn s
  | .alertDelivery p => Sys2Proof.Machine.execAlertDelivery p s
  | .dispatch p => Sys2Proof.Machine.execDispatch p s
  | .preemption p => Sys2Proof.Machine.execPreemption p s
  | .quantumEnd p => Sys2Proof.Machine.execQuantumEnd p s
  | .fill who scn arg => Sys2Proof.Machine.execFill who scn arg s
  | .spill who scn => Sys2Proof.Machine.execSpill who scn s
  | .park who scn => Sys2Proof.Machine.execPark who scn s
  | .resume who scn => Sys2Proof.Machine.execResume who scn s
  | .setprio who scn prio => Sys2Proof.Machine.execSetprio who scn prio s
  | .post who scn bits => Sys2Proof.Machine.execPost who scn bits s
  | .cancel who scn => Sys2Proof.Machine.execCancel who scn s
  | .create who scn => Sys2Proof.Machine.execCreate who scn s
  | .retire who scn => Sys2Proof.Machine.execRetire who scn s
  | .fillOnDemand => Sys2Proof.Machine.execFillOnDemand s
  | .timerWake => Sys2Proof.Machine.execTimerWake s
  | .watchdog h => Sys2Proof.Machine.execWatchdog h s
  | .alertRouteWrite who h v => Sys2Proof.Machine.execAlertRouteWrite who h v s
  | .watchdogKick who h => Sys2Proof.Machine.execWatchdogKick who h s
  | .registerScan hcn => Sys2Proof.Machine.execRegisterScan hcn s
  | .tlbiAck p => Sys2Proof.Machine.execTlbiAck p s
  | .illegalEncoding p => Sys2Proof.Machine.execIllegalEncoding p s
  | .accessTimeout who off write va => Sys2Proof.Machine.execAccessTimeout who off write va s
  | .registerWrite who off mask v => Sys2Proof.Machine.execRegisterWrite who off mask v s
  | .patchBegin who => Sys2Proof.Machine.execPatchBegin who s
  | .patchData who v => Sys2Proof.Machine.execPatchData who v s
  | .patchCheck who => Sys2Proof.Machine.execPatchCheck who s
  | .patchApply who => Sys2Proof.Machine.execPatchApply who s
  | .patchCoreSwitch p => Sys2Proof.Machine.execPatchCoreSwitch p s
  | .cribDisable p => Sys2Proof.Machine.execCribDisable p s
  | .cribEnable p => Sys2Proof.Machine.execCribEnable p s
  | .maintGo who p op irq => Sys2Proof.Machine.execMaintGo who p op irq s
  | .maintDone p => Sys2Proof.Machine.execMaintDone p s
  | .scrubRead => Sys2Proof.Machine.execScrubRead s
  | .memInj => Sys2Proof.Machine.execMemInj s
  | .assignRoot who h count any bin => Sys2Proof.Machine.execAssignRoot who h count any bin s
  | .assignPlain who h count any bin => Sys2Proof.Machine.execAssignPlain who h count any bin s
  | .release who h count bin => Sys2Proof.Machine.execRelease who h count bin s
  | .cycleYoung who h => Sys2Proof.Machine.execCycleYoung who h s
  | .cycleFull who h => Sys2Proof.Machine.execCycleFull who h s
  | .armAck p h => Sys2Proof.Machine.execArmAck p h s
  | .flip p h => Sys2Proof.Machine.execFlip p h s
  | .gleanerTrace h => Sys2Proof.Machine.execGleanerTrace h s
  | .finish h => Sys2Proof.Machine.execFinish h s
  | .encoderEdge x e => Sys2Proof.Machine.execEncoderEdge x e s
  | .zIndex e => Sys2Proof.Machine.execZIndex e s
  | .ssiFrameStart x => Sys2Proof.Machine.execSsiFrameStart x s
  | .ssiFrame x bits before after => Sys2Proof.Machine.execSsiFrame x bits before after s
  | .extrapEnd x => Sys2Proof.Machine.execExtrapEnd x s
  | .recover who x => Sys2Proof.Machine.execRecover who x s
  | .estimatorSample => Sys2Proof.Machine.execEstimatorSample s
  | .swap who x count => Sys2Proof.Machine.execSwap who x count s
  | .markEdge m ns rising => Sys2Proof.Machine.execMarkEdge m ns rising s
  | .msSample c value => Sys2Proof.Machine.execMsSample c value s
  | .camOnAt who k target => Sys2Proof.Machine.execCamOnAt who k target s
  | .camOffAt who k target => Sys2Proof.Machine.execCamOffAt who k target s
  | .camOnDt who k target => Sys2Proof.Machine.execCamOnDt who k target s
  | .camOffDt who k target => Sys2Proof.Machine.execCamOffDt who k target s
  | .flush who k => Sys2Proof.Machine.execFlush who k s
  | .now who k level => Sys2Proof.Machine.execNow who k level s
  | .camFire k => Sys2Proof.Machine.execCamFire k s
  | .iringWrite who x v => Sys2Proof.Machine.execIringWrite who x v s
  | .iptrTail who x tail => Sys2Proof.Machine.execIptrTail who x tail s
  | .stopReq who => Sys2Proof.Machine.execStopReq who s
  | .releaseStop who => Sys2Proof.Machine.execReleaseStop who s
  | .stopped => Sys2Proof.Machine.execStopped s
  | .specCheck => Sys2Proof.Machine.execSpecCheck s
  | .abandon who speck => Sys2Proof.Machine.execAbandon who speck s
  | .remoteTimeout => Sys2Proof.Machine.execRemoteTimeout s
  | .mirrorEnable who h base => Sys2Proof.Machine.execMirrorEnable who h base s
  | .hallCtrlCreate who h => Sys2Proof.Machine.execHallCtrlCreate who h s
  | .hallCtrlStart who h => Sys2Proof.Machine.execHallCtrlStart who h s
  | .hallCtrlRemove who h => Sys2Proof.Machine.execHallCtrlRemove who h s
  | .hallSlotCmd who lcn first count h => Sys2Proof.Machine.execHallSlotCmd who lcn first count h s
  | .hallDevmap who h j v => Sys2Proof.Machine.execHallDevmap who h j v s
  | .hallResetGo who h squash grace limit => Sys2Proof.Machine.execHallResetGo who h squash grace limit s
  | .hallDrainAck who h => Sys2Proof.Machine.execHallDrainAck who h s
  | .graceEnd h => Sys2Proof.Machine.execGraceEnd h s
  | .drainLimitEnd h => Sys2Proof.Machine.execDrainLimitEnd h s
  | .hallResetDone h => Sys2Proof.Machine.execHallResetDone h s
  | .flr h => Sys2Proof.Machine.execFlr h s
  | .vfEnableWrite enable num => Sys2Proof.Machine.execVfEnableWrite enable num s
  | .pfFlr => Sys2Proof.Machine.execPfFlr s
  | .perst => Sys2Proof.Machine.execPerst s
  | .reqSeq box seq => Sys2Proof.Machine.execReqSeq box seq s
  | .rspSeq scn box seq => Sys2Proof.Machine.execRspSeq scn box seq s
  | .version => Sys2Proof.Machine.execVersion s
  | .odRead box => Sys2Proof.Machine.execOdRead box s
  | .odWrite box => Sys2Proof.Machine.execOdWrite box s
  | .hallCreate h => Sys2Proof.Machine.execHallCreate h s
  | .hallSetShare h id value lcn first => Sys2Proof.Machine.execHallSetShare h id value lcn first s
  | .hallStart h first => Sys2Proof.Machine.execHallStart h first s
  | .hallReset h mode grace limit => Sys2Proof.Machine.execHallReset h mode grace limit s
  | .hallRemove h => Sys2Proof.Machine.execHallRemove h s
  | .hallQuery h => Sys2Proof.Machine.execHallQuery h s
  | .eventRead => Sys2Proof.Machine.execEventRead s
  | .serviceStatus => Sys2Proof.Machine.execServiceStatus s
  | .serviceRespare => Sys2Proof.Machine.execServiceRespare s
  | .serviceRowspare => Sys2Proof.Machine.execServiceRowspare s
  | .servicePpr => Sys2Proof.Machine.execServicePpr s
  | .serviceWayspare => Sys2Proof.Machine.execServiceWayspare s
  | .serviceCtxrow => Sys2Proof.Machine.execServiceCtxrow s
  | .serviceFreeze => Sys2Proof.Machine.execServiceFreeze s
  | .serviceUnfreeze => Sys2Proof.Machine.execServiceUnfreeze s
  | .cascadeStatus => Sys2Proof.Machine.execCascadeStatus s
  | .cascadePromote => Sys2Proof.Machine.execCascadePromote s
  | .cascadeRetime => Sys2Proof.Machine.execCascadeRetime s
  | .cascadeRejoin => Sys2Proof.Machine.execCascadeRejoin s
  | .doorbell who h q tail => Sys2Proof.Machine.execDoorbell who h q tail s
  | .qCfgWrite who h q v => Sys2Proof.Machine.execQCfgWrite who h q v s
  | .hqNotifySet who h set => Sys2Proof.Machine.execHqNotifySet who h set s
  | .descriptorFetch h q reply => Sys2Proof.Machine.execDescriptorFetch h q reply s
  | .descriptorComplete h e data done fail cplFail poisoned => Sys2Proof.Machine.execDescriptorComplete h e data done fail cplFail poisoned s
  | .commitImmediate path => Sys2Proof.Machine.execCommitImmediate path s
  | .commitNextCycle path => Sys2Proof.Machine.execCommitNextCycle path s
  | .commitNextPitch path => Sys2Proof.Machine.execCommitNextPitch path s
  | .discard path => Sys2Proof.Machine.execDiscard path s
  | .commitBoundary => Sys2Proof.Machine.execCommitBoundary s
  | .transitionStep path => Sys2Proof.Machine.execTransitionStep path s
  | .storeParameters path sig => Sys2Proof.Machine.execStoreParameters path sig s
  | .restoreDefaults path sig => Sys2Proof.Machine.execRestoreDefaults path sig s
  | .restoreCalibration path sig => Sys2Proof.Machine.execRestoreCalibration path sig s
  | .stopObject path v => Sys2Proof.Machine.execStopObject path v s
  | .esmRequest path v => Sys2Proof.Machine.execEsmRequest path v s
  | .clearEmergency path v => Sys2Proof.Machine.execClearEmergency path v s
  | .clearOverride path j v => Sys2Proof.Machine.execClearOverride path j v s
  | .patchUnlock path v => Sys2Proof.Machine.execPatchUnlock path v s
  | .jtagUnlock path v => Sys2Proof.Machine.execJtagUnlock path v s
  | .pdoMapping path index sub v => Sys2Proof.Machine.execPdoMapping path index sub v s
  | .lineCycleStart => Sys2Proof.Machine.execLineCycleStart s
  | .outputSnapshot => Sys2Proof.Machine.execOutputSnapshot s
  | .frameReturn back brk news => Sys2Proof.Machine.execFrameReturn back brk news s
  | .eclModeWrite who v => Sys2Proof.Machine.execEclModeWrite who v s
  | .sdoRequest op index sub complete data => Sys2Proof.Machine.execSdoRequest op index sub complete data s
  | .alStateRequest q => Sys2Proof.Machine.execAlStateRequest q s
  | .sync0 plant => Sys2Proof.Machine.execSync0 plant s
  | .sm2Watchdog => Sys2Proof.Machine.execSm2Watchdog s
  | .linkTrained closed => Sys2Proof.Machine.execLinkTrained closed s
  | .syncSend => Sys2Proof.Machine.execSyncSend s
  | .syncCell src epoch time path join => Sys2Proof.Machine.execSyncCell src epoch time path join s
  | .linkDelayMeasure port ns => Sys2Proof.Machine.execLinkDelayMeasure port ns s
  | .syncLoss => Sys2Proof.Machine.execSyncLoss s
  | .joinComplete => Sys2Proof.Machine.execJoinComplete s
  | .cascJoinWrite who v => Sys2Proof.Machine.execCascJoinWrite who v s
  | .axisSampleCell port n src a pos vel acc time loss => Sys2Proof.Machine.execAxisSampleCell port n src a pos vel acc time loss s
  | .remoteAxisStale x => Sys2Proof.Machine.execRemoteAxisStale x s
  | .cascAxmapWrite who x v => Sys2Proof.Machine.execCascAxmapWrite who x v s
  | .handoffSend who tail => Sys2Proof.Machine.execHandoffSend who tail s
  | .handoffReceive port n cell => Sys2Proof.Machine.execHandoffReceive port n cell s
  | .handoffStatus index answer => Sys2Proof.Machine.execHandoffStatus index answer s
  | .promote who => Sys2Proof.Machine.execPromote who s
  | .retime who => Sys2Proof.Machine.execRetime who s
  | .rejoin who => Sys2Proof.Machine.execRejoin who s
  | .respare who lcn => Sys2Proof.Machine.execRespare who lcn s
  | .respareGroup => Sys2Proof.Machine.execRespareGroup s
  | .rowspare who sector => Sys2Proof.Machine.execRowspare who sector s
  | .ppr who ch entry => Sys2Proof.Machine.execPpr who ch entry s
  | .wayspare who slice way => Sys2Proof.Machine.execWayspare who slice way s
  | .ctxrow who p slot => Sys2Proof.Machine.execCtxrow who p slot s
  | .serviceDone => Sys2Proof.Machine.execServiceDone s
  | .monitorSample m v width ue => Sys2Proof.Machine.execMonitorSample m v width ue s
  | .monitorHour m => Sys2Proof.Machine.execMonitorHour m s
  | .hourlySummary => Sys2Proof.Machine.execHourlySummary s
  | .recordWrite => Sys2Proof.Machine.execRecordWrite s
  | .freeze who => Sys2Proof.Machine.execFreeze who s
  | .unfreeze who => Sys2Proof.Machine.execUnfreeze who s
  | .powerFail => Sys2Proof.Machine.execPowerFail s
  | .por bootSrc cascId legacyN => Sys2Proof.Machine.execPor bootSrc cascId legacyN s
  | .deviceReset who key bootSrc cascId legacyN => Sys2Proof.Machine.execDeviceReset who key bootSrc cascId legacyN s
  | .pllLock tb => Sys2Proof.Machine.execPllLock tb s
  | .memoryInitDone => Sys2Proof.Machine.execMemoryInitDone s
  | .bootLoadDone a b host => Sys2Proof.Machine.execBootLoadDone a b host s
  | .bootGo who => Sys2Proof.Machine.execBootGo who s
  | .readySet who => Sys2Proof.Machine.execReadySet who s
  | .coreReset who p => Sys2Proof.Machine.execCoreReset who p s
  | .tbLost => Sys2Proof.Machine.execTbLost s
  | .kick who => Sys2Proof.Machine.execKick who s
  | .heartbeatToggle => Sys2Proof.Machine.execHeartbeatToggle s
  | .heartbeatLost => Sys2Proof.Machine.execHeartbeatLost s
  | .tempSample raw => Sys2Proof.Machine.execTempSample raw s
  | .jtagHalt scn => Sys2Proof.Machine.execJtagHalt scn s
  | .jtagDeviceReset bootSrc cascId legacyN => Sys2Proof.Machine.execJtagDeviceReset bootSrc cascId legacyN s
  | .jtagAccess op pa w => Sys2Proof.Machine.execJtagAccess op pa w s
  | .commitTimeout path => Sys2Proof.Machine.execCommitTimeout path s
  | .ringBreak port => Sys2Proof.Machine.execRingBreak port s
  | .joinAnnouncement src join => Sys2Proof.Machine.execJoinAnnouncement src join s
  | .stopReqNHigh => Sys2Proof.Machine.execStopReqNHigh s
  | .patchWeChange level => Sys2Proof.Machine.execPatchWeChange level s
  | .plantProcessData rx => Sys2Proof.Machine.execPlantProcessData rx s
  | .d3hot fn q => Sys2Proof.Machine.execD3hot fn q s

end Sys2Proof.Machine
end

