-- ==== Sys2Proof/Safety.lean ====
section
/-! DEFINITION. What a safe run is, and the premises that the statements share: the canonical form of the memories, an
instruction that reaches its own effect, a register write that reaches its register. -/

namespace Sys2Proof.Machine

/-- The byte memories of a state are in canonical form: MEMORY's payload and tag bytes (R42, R47) and the bytes of the
Failure Recorder MRAM (R511). -/
def State.MemOk (s : State) : Prop := Memory.wf s.mem = true ∧ Memory.wf s.tags = true ∧ Memory.wf s.mram = true

/-- Instruction i reaches its own effect on core p, which runs context r; `t` is the state after its fetch: no alert is taken
in its place (R202, R211), no TLBI of the core is outstanding (R265), no parcel's fetch raises a cause, its encoding is
assigned (R99), and the context's stair is at least the one it needs (R108, R202). -/
structure Issues (s : State) (p : Nat) (i : Instr) (stair : Nat) (r : Run) (t : State) : Prop where
  runs : s.running p = some r
  calm : s.nextAlert r = none
  acked : s.tlbis.any (fun j => j.core = p) = false
  fetched : s.fetchParcels r (s.regs r).pc (parcelsOf i).length = (none, t)
  assigned : legal i = true
  allowed : stair ≤ stStair (t.status r)

/-- Retirement (R111, R195): instruction i, fetched in state t, has left state u; PC is behind it, and a single step that
was on when it began makes DEBUG pending. -/
def Retires (u : State) (r : Run) (i : Instr) (t : State) : State := u.retire r (t.nextPc r i) (stSs (t.status r))

/-- Retirement with another next PC. -/
def Jumps (u : State) (r : Run) (pc : BitVec 44) (t : State) : State := u.retire r pc (stSs (t.status r))

/-- A write of initiator `who` reaches the register at an offset at once: no earlier write of its own to the domain is
waiting (R31), its function answers (R430), its window reaches the offset (R429), and the register's unit is present (R6). -/
structure Admits (s : State) (who : Initiator) (off : Nat) : Prop where
  posted : s.posted.any (fun w => w.of who (homeKey off)) = false
  free : s.stalled off = false
  answers : s.fnAnswers who = true
  reaches : initReaches who off = true
  present : s.absentUnit off = false

/-- No error waits in MEMORY, and none is to be injected (R298, R302). -/
def State.NoErrors (s : State) : Prop := s.planted = [] ∧ bit (s.reg Reg.devMemInj) 0 = false

/-- Core p reads what MEMORY holds: it has no errors, and no sector of the core's barn cache, and none of its enabled Crib but
an M one, has words beside MEMORY's (R273, R284, R299, R300). -/
def State.Faithful (s : State) (p : Nat) : Prop :=
  s.NoErrors ∧ (∀ a, ((s.barn (barnOf p)).sec a).alt = []) ∧ ((s.core p).cribOn = true → ∀ e k,
    (((s.core p).entry e).sector k).st = .m ∨ (((s.core p).entry e).sector k).alt = [])

/-- Every aligned word of MEMORY outside the addresses from `lo` up to `hi` is in t what it is in s, its tag with it. -/
def SameOutside (s t : State) (lo hi : Nat) : Prop :=
  ∀ a, a % 8 = 0 → a + 8 ≤ lo ∨ hi ≤ a → t.memWord a = s.memWord a

/-- A move of axis x reaches nothing but the axis: no item ring and no pitch (R359, R369), no open speculation and no wait
whose key lies on it (R357, R392). -/
structure AxisAlone (s : State) (x : Nat) : Prop where
  ring : s.ringSize x = 0
  pitch : s.pitchLen x = 0
  table : (s.axr x).tabWait = none
  keys : ∀ i g, (i, g) ∈ s.gal → g.st = .opened → posAxis g.key ≠ x
  waits : ∀ n c k, (n, c) ∈ s.ctxs → c.wait.bind Wait.key = some k → posAxis k ≠ x

/-- The registers outside a list, MEMORY, the context store and the event router's contexts are those of another state. -/
structure Else (s t : State) (offs : List Nat) : Prop where
  regs : ∀ off, off ∉ offs → t.reg off = s.reg off
  mem : t.mem = s.mem ∧ t.tags = s.tags
  slots : t.slots = s.slots
  ctxs : t.ctxs = s.ctxs

/-- An edge of mark input m at DT t0, of an enabled kind and past the filter, has been latched (R361): DT and position of its
axis at that instant, the level, and one more edge. -/
structure Latched (s t : State) (m t0 : Nat) (rising : Bool) : Prop where
  last : look 0 t.marks m = t0 + 1
  dt : t.reg (Reg.markDt m) = BitVec.ofNat 64 t0
  pos : t.reg (Reg.markPos m) = BitVec.ofNat 64 (s.rf (Reg.markCfg m) 63 61 * 2 ^ 61 +
    (s.axAt (s.rf (Reg.markCfg m) 63 61) t0).toNat % 2 ^ 61)
  count : t.rf (Reg.markStat m) 63 32 = (s.rf (Reg.markStat m) 63 32 + 1) % 2 ^ 32
  level : t.rf (Reg.markStat m) 15 15 = if rising then 1 else 0

/-- Speculation i of state s has ended in a discard (R396): its record is free, the discard is counted with its reason, and
its context has the registers of the checkpoint; MEMORY is as it was. -/
structure Discarded (s t : State) (i reason : Nat) : Prop where
  freed : t.galr i = GalRec.reset
  count : t.rf (Reg.galHstat (s.galr i).hall) 47 32 = min (s.rf (Reg.galHstat (s.galr i).hall) 47 32 + 1) 65535
  why : t.rf (Reg.galHstat (s.galr i).hall) 15 12 = reason
  regs : (t.slot (s.ctx (s.galr i).scn).hcn).regs =
    restoreRegs (s.slot (s.ctx (s.galr i).scn).hcn).regs (s.galr i).ckpt
  mem : t.mem = s.mem ∧ t.tags = s.tags

/-- Nothing of hall h is at work: no context, speculation or descriptor, no request in its window, no cycle that holds META
bins. -/
structure HallIdle (s : State) (h : Nat) : Prop where
  ctxs : ∀ n c, (n, c) ∈ s.ctxs → c.hall ≠ h
  gal : ∀ i g, (i, g) ∈ s.gal → g.hall ≠ h
  xe : ∀ o, o ∈ s.xe → o.hall ≠ h
  box : s.boxBusy (some h) = false
  metas : (s.glh h).metas = []

/-- A message of vector v of function f goes out at once (R437). -/
def State.signals (s : State) (f v : Nat) : Bool :=
  (s.fnCfg f).msixOn && !(s.fnCfg f).msixMask && (s.fnCfg f).unmasked.contains v && s.requests f

/-- A message of vector v of function f is held pending (R437). -/
def State.withholds (s : State) (f v : Nat) : Bool :=
  (s.fnCfg f).msixOn && ((s.fnCfg f).msixMask || !(s.fnCfg f).unmasked.contains v) && s.requests f

/-- The message of vector v of function f has been signalled last, or is held pending (R437). -/
structure Signalled (s t : State) (f v : Nat) : Prop where
  sent : s.signals f v = true → t.out.head? = some (.msix f v)
  held : s.withholds f v = true → v ∈ (t.fnCfg f).pending

/-- The request outstanding in a box has been answered (R438): RSP_SEQ meets REQ_SEQ, word 0 of the response echoes CODE with
LENGTH and RESULT, and the requester's vector is signalled. -/
structure Answered (s t : State) (b : Option Nat) (code result len : Nat) : Prop where
  done : t.boxBusy b = false
  code : t.rf (boxRsp b 0) 63 48 = code
  len : t.rf (boxRsp b 0) 47 32 = len
  result : t.rf (boxRsp b 0) 15 0 = result
  told : Signalled s t (b.getD 0) (if b = none then 0 else 32)

/-- An integer that a FIX holds (R49). -/
def InFix (x : Int) : Prop := -(2 ^ 63) ≤ x ∧ x < 2 ^ 63

/-- SCALLn_SP of a context as KSTKn gives it (R198): the top of its stack slot at that stair. -/
def slotTop (kstk : BitVec 64) (scn : Nat) : Int :=
  (4096 * fld kstk 43 12 : Nat) - (scn * 2 ^ fld kstk 58 54 : Nat)

/-- The value of a special register, by selector, that is a field of the executing context, its hall, the device or the core
(R95, R147, R196): none for the words of a landing and KEEP_I. -/
def specialValue (s : State) (r : Run) (sel : Nat) : Option (BitVec 64) :=
  let x := s.regs r
  if sel = 0x00 then some x.status
  else if sel = 0x01 then some (x.cnt.setWidth 64)
  else if sel = 0x02 then some (x.slim.setWidth 64)
  else if sel = 0x03 then some (x.allocp.setWidth 64)
  else if sel = 0x04 then some (x.allocl.setWidth 64)
  else if sel = 0x05 then some (x.speck.setWidth 64)
  else if sel = 0x06 then some (x.pc.setWidth 64)
  else if sel = 0x40 || sel = 0x42 then
    some (if s.compat r.hall then setBit (s.sys r.hall sel) 0 false else s.sys r.hall sel)
  else if sel = 0x41 || sel = 0x43 || sel = 0x48 || sel = 0x49 || sel = 0x80 then some (s.sys r.hall sel)
  else if sel = 0x44 || sel = 0x45 || sel = 0x4C || sel = 0x4D then some (s.sys 0 sel)
  else if sel = 0x4A then some (BitVec.ofInt 64 (slotTop (s.sys r.hall 0x49) r.scn))
  else if sel = 0x4E then some (BitVec.ofInt 64 (slotTop (s.sys 0 0x4D) r.scn))
  else if sel = 0x4B then
    some (BitVec.ofInt 64 (slotTop (s.sys r.hall 0x49) r.scn - (2 ^ (fld (s.sys r.hall 0x49) 58 54 - 1) : Nat)))
  else if sel = 0x4F then
    some (BitVec.ofInt 64 (slotTop (s.sys 0 0x4D) r.scn - (2 ^ (fld (s.sys 0 0x4D) 58 54 - 1) : Nat)))
  else if sel = 0x50 then some (s.reg (Reg.coreSthBase r.p))
  else if sel = 0x51 then some (s.reg (Reg.coreSthSpInit r.p))
  else if sel = 0x52 then some (s.reg (Reg.coreSthCause r.p))
  else if sel = 0x58 then some (x.bankwin.setWidth 64)
  else if sel = 0x59 then some x.wait
  else if sel = 0x5A then some (x.msgp.setWidth 64)
  else if sel = 0x5B then some x.landctl
  else if sel = 0x5C then some ((s.ctx r.scn).pend.setWidth 64)
  else if sel = 0x5D then some (x.shuse.setWidth 64)
  else if sel = 0x81 then some (if fld (s.core r.p).stage 47 42 = r.hcn % 64 then (s.core r.p).stage else 0)
  else if sel = 0x82 then some (s.core r.p).keepD
  else if sel = 0x83 then some (s.reg (Reg.tlbStat r.p))
  else none

/-- The core of an instruction command, none for the other commands. -/
def coreOf (i : Instr) : Option Nat := match i with
  | .gadd p _ | .gsub p _ | .gmul p _ _ _ | .gaddi p _ | .gcmp p _ | .wcmp p _ | .mov p _ | .ldi p _ | .ldk p _ _
  | .ldik p _ _ _ | .tagi p _ _ _ | .typeq p _ _ _ | .tagw p _ _ _ | .br p _ | .bcond p _ | .bnil p _ | .bnnil p _
  | .tbr p _ _ _ _ | .jmp p _ | .callm p _ _ | .retm p | .brk p | .nop p | .rep p _ _ | .ld p _ | .st p _ | .ldx p _ _ _
  | .stx p _ _ _ | .ldsp p _ _ | .stsp p _ _ | .fence p | .car p _ | .cdr p _ | .cons p _ _ _ | .rplaca p _ _
  | .rplacd p _ _ | .memq p _ _ _ _ | .assq p _ _ _ _ | .llen p _ _ _ | .vref p _ _ _ | .vset p _ _ _ | .vfill p _ _ _ _
  | .vcopy p _ _ _ _ | .alloc p _ _ _ _ _ | .gets p _ _ | .sets p _ _ | .scall p _ | .sret p | .xret p | .wget p _ _
  | .wput p _ _ | .tlbwi p _ _ | .tlbwr p _ | .tlbi p _ | .twalk p _ _ | .waitp p _ _ | .specOpen p _ _
  | .specClose p => some p
  | _ => none

/-- An operand that a Generic instruction reads without a fault (R55): well-formed, no POISON, HDR or FWD. -/
def GenericOk (w : Word) : Prop := w.type ≠ 0x30 ∧ w.type ≠ 0x31 ∧ w.type ≠ 0x32 ∧ w.malformed = false

/-- w is the first of the operands a and b of a Generic instruction that is neither FIX nor FLO (R118). -/
def FirstSlow (a b w : Word) : Prop :=
  GenericOk a ∧ GenericOk b ∧
    ((fastType a = false ∧ w = a) ∨ (fastType a = true ∧ fastType b = false ∧ w = b))

/-- Cause t, raised in state s outside speculations and the stairhead on a core whose microcode is not redirected, is delivered by
an entry with a free landing (R183, R205). The causes that carry more than their words (a landing fill, an exhausted
allocation, a read assist, a staged or doubled TLB miss) are left to their own rules. -/
structure Raises (s : State) (r : Run) (t : Trap) : Prop where
  plain : t.cause ≠ 0x0F ∧ t.cause ≠ 0x11 ∧ t.cause ≠ 0x17 ∧ t.ra = none ∧ t.stage = none
  spec : s.specOf r.scn = none
  outside : stSth (s.status r) = false
  landing : lcL3 (s.regs r).landctl = false ∧ lcUse (s.regs r).landctl < 3
  unpatched : (s.core r.p).patched = false

/-- Such a cause enters a handler that no descriptor names and keeps the stack (R203, R205, R206): VMODEs.MODE 0, SP good, and
the eight words of the frame at `base` writable, at the addresses `pas`. -/
structure Enters (s : State) (r : Run) (t : Trap) (pas : List Nat) (base : Int) : Prop where
  raises : Raises s r t
  hall : s.compat r.hall = false
  mode : bit (s.vmode r (stStair (s.status r))) 0 = false
  sp : spOk ((s.regs r).getW 31) (s.regs r).slim.toNat = true
  below : base = (((s.regs r).getW 31).payload.toNat : Int) - 64
  frame : s.framePas r (fld (s.vmode r (stStair (s.status r))) 2 1) base 8 = .inl pas

/-- The state behind an entry to stair `tgt`, in which STATUS.AM becomes `am` and PC `handler` (R205): the frame of R78 lies at
`base`, landing LUSE holds the cause's words and the frame's address, SP points to the frame, LUSE has risen, and STATUS has
the target stair with TOFF, SS and RES off. -/
def State.pushed (s : State) (r : Run) (t : Trap) (pas : List Nat) (base : Int) (tgt am : Nat) (handler : BitVec 44) : State :=
  let x := s.regs r
  ((pas.zip (frameOf x t)).foldl (fun s e => s.coreStore r.p .mut e.1 e.2) s).setRegs r
    { ((((List.range 8).zip t.landingWords).foldl (fun y e => y.putLw (lcUse x.landctl) e.1 e.2) x).putLf
        (lcUse x.landctl) (BitVec.ofInt 44 base)).putW 31 (fix (BitVec.ofInt 64 base)) with
      landctl := setFld x.landctl 1 0 (lcUse x.landctl + 1)
      status := entryStatus x.status tgt am
      pc := handler } (0x8 ||| g4 ||| g6)

/-- The state behind an entry that no descriptor names: to the stair VMODEs.TGT, all alerts masked, at VBASEs plus 64 times the
cause (R203). -/
def State.entered (s : State) (r : Run) (t : Trap) (pas : List Nat) (base : Int) : State :=
  s.pushed r t pas base (fld (s.vmode r (stStair (s.status r))) 2 1) 0x3F
    (BitVec.ofNat 44 (s.vbase r (stStair (s.status r)) + 64 * t.cause))

/-- What the delivery of a fresh object of n words at window address a leaves beside its stores, made in state u (R133, R145,
R319): ALLOCP lies behind it, the destination holds a pointer of the type, of generation 0 and a good epoch, no retry is on at
the present entry, and MEMORY is as the stores left it. -/
structure Delivers (u v : State) (r : Run) (rd ty a n : Nat) : Prop where
  allocp : (v.regs r).allocp = BitVec.ofNat 44 (a + 8 * n)
  pointer : v.getW r rd = strip (u.compat r.hall)
    (stamp ⟨BitVec.ofNat 8 ty, 0⟩ (BitVec.ofNat 64 a) false (u.myEpoch r.p r.hall false))
  others : ∀ m, m ≠ rd → v.getW r m = u.getW r m
  status : v.status r = u.status r
  retry : (v.ctx r.scn).retries = (u.ctx r.scn).retries.filter (fun e => e.1 < entryLevel (u.regs r).landctl)
  mem : v.mem = u.mem ∧ v.tags = u.tags

/-- The registers that a descriptor's slots 1 to 86 give (R163, R164), SPECK 0. -/
def State.descRegs (s : State) (compat : Bool) (desc : Nat) : Regs :=
  { ((List.range 86).map (· + 1)).foldl
      (fun x k => (x.selPut (slotSel k) (strip compat (s.memWord (descSlot desc k))) true).1) Regs.zero with speck := 0 }

/-- A Spilled context whose descriptor core p can read: its microcode is not redirected, MEMORY holds no error, CONTROL is no
POISON, and no slot holds a pointer that a barrier would have to look at. -/
structure Fillable (s : State) (scn p : Nat) : Prop where
  spilled : (s.ctx scn).st = .spilled
  unpatched : (s.core p).patched = false
  clean : s.Faithful p
  control : (s.memWord (descSlot (s.ctx scn).desc 0)).type ≠ 0x32
  words : s.compat (s.ctx scn).hall = true ∨
    ∀ k, 1 ≤ k → k ≤ 86 → (s.memWord (descSlot (s.ctx scn).desc k)).isPtr = false

/-- The fill of a context into slot n, made in state s (R164, R165, R182): the slot holds its registers and is clean, the context
is in the resume state and of the PRIO that CONTROL gives, and MEMORY is as before. -/
structure Filled (s t : State) (scn n : Nat) : Prop where
  slot : (t.slot n).scn = some scn ∧ (t.slot n).dirty = 0
  regs : (t.slot n).regs = s.retireRegion (s.ctx scn).hall (s.descRegs (s.compat (s.ctx scn).hall) (s.ctx scn).desc)
  place : (t.ctx scn).hcn = n ∧ (t.ctx scn).fillPending = false ∧ (t.ctx scn).hall = (s.ctx scn).hall
  state : (t.ctx scn).st = (s.ctx scn).resumeFrom (s.memWord (descSlot (s.ctx scn).desc 0))
  prio : (t.ctx scn).prio = fld (s.memWord (descSlot (s.ctx scn).desc 0)).payload 2 0
  mem : ∀ a, t.memWord a = s.memWord a

/-- A resident context whose wait has ended with the waiting instruction complete (R175): Ready, PC behind the instruction. -/
structure Woken (s t : State) (scn : Nat) : Prop where
  st : (t.ctx scn).st = .ready ∧ (t.ctx scn).wait = none ∧ (t.ctx scn).hcn = (s.ctx scn).hcn
  pc : (t.slot (s.ctx scn).hcn).regs.pc = (s.slot (s.ctx scn).hcn).regs.pc + 4
  mem : t.mem = s.mem ∧ t.tags = s.tags

/-- A resident context waits, outside single step, on an instruction whose next address a PC can hold. -/
structure Waits (s : State) (scn : Nat) (w : Wait) : Prop where
  st : (s.ctx scn).st = .waiting ∧ (s.ctx scn).wait = some w
  pc : (s.slot (s.ctx scn).hcn).regs.pc.toNat % 2 = 0 ∧ (s.slot (s.ctx scn).hcn).regs.pc.toNat + 4 < 2 ^ 44
  step : stSs (s.slot (s.ctx scn).hcn).regs.status = false

/-- The stair an instruction needs (R108, R200). -/
def stairOf (i : Instr) : Nat := match i with
  | .tagw .. | .sret .. | .wget .. | .wput .. | .tlbwi .. | .tlbwr .. | .tlbi .. | .twalk .. => 1
  | .gets _ _ sel => getsStair sel.toNat
  | .sets _ sel _ => setsStair sel.toNat
  | _ => 0

/-- An operand that a Typed instruction accepts (R55): not POISON, well-formed, and of the types `ok`. -/
def Accepts (ok : Word → Bool) (w : Word) : Prop := w.type ≠ 0x32 ∧ w.malformed = false ∧ ok w = true

end Sys2Proof.Machine
end

