-- ==== Sys2Proof/Certificates/Slice0/Obligations.lean ====
section
/-! DEFINITION. The statements about the model, in the order of OBLIGATIONS.json. -/

open Sys2Proof Sys2Proof.Machine

/-- A step takes the oldest waiting command and answers what exec answers on the state with the queue's rest. -/
def Obligations.StepTakesOldestCommand : Prop :=
  ∀ (c : Instr) (rest : List Instr) (s : State),
    step { s with pending := c :: rest } = exec c { s with pending := rest }

/-- On an empty queue the step is one CLK_TB cycle (log entry 7, the model's choice): before the clock has locked nothing
changes; without a trim DT rises by 5 ns (R39), and nothing else changes where no transaction waits for a place (R46) and
STOP_REQ_N has no level under way, which AX_STOP.PIN shows once it has been held for FILT × 5 ns (R374). -/
def Obligations.IdleStepIsClockCycle : Prop :=
  ∀ s : State, s.pending = [] →
    (s.dtRun = false → step s = .next s) ∧
    (s.dtRun = true → s.casc.trim = none → s.casc.odWait = [] → s.casc.hoWait = [] → ∀ u, u = { s with dt := s.dt + 5 } →
      (s.life.stopHigh = none → step s = .next u) ∧
      (∀ since, s.life.stopHigh = some since →
        (u.dt.toNat < since + 5 * s.rf Reg.axStop 57 48 → step s = .next u) ∧
        (since + 5 * s.rf Reg.axStop 57 48 ≤ u.dt.toNat → ∃ t, step s = .next t ∧ t.dt = u.dt ∧
          t.rf Reg.axStop 61 61 = 0 ∧ t.life.stopHigh = none ∧ t.stopState = s.stopState ∧ Else u t [Reg.axStop])))

/-- Every command completes in every state, and leaves the queue as it finds it; a step takes exactly the oldest command. What
the part has sent stays sent, a free value is not used twice, and no step changes the part's variant or stepping (R3, R437).
-/
def Obligations.StepFrame : Prop :=
  ((∀ (i : Instr) (s : State), ∃ t, exec i s = .next t ∧ t.pending = s.pending) ∧
   (∀ s : State, ∃ t, step s = .next t ∧ t.pending = s.pending.tail)) ∧
  (∀ s t : State, step s = .next t →
     s.out <:+ t.out ∧ s.free ≤ t.free ∧ t.part.variant = s.part.variant ∧ t.part.stepping = s.part.stepping)

/-- Every step from a state whose byte memories are in canonical form leads to such a state (R42, R47, R511). -/
def Obligations.StepKeepsMemoriesCanonical : Prop :=
  ∀ s t : State, s.MemOk → step s = .next t → t.MemOk

/-- The state after reset: the byte memories are in canonical form, MEMORY reads FIX 0 (before initialisation the model's
choice, log entry 5), nothing waits, no context exists, no core runs, every bin is FREE, DT is 0 and stands, DEV_STATE is
BOOT, the cause of the reset is POR, and SEED_MAP names slot c mod 8 of barn c / 8 for logical core c (R24, R39, R528,
R530). -/
def Obligations.ResetState : Prop :=
  State.reset.MemOk ∧ State.reset.pending = [] ∧ (∀ a, State.reset.memWord a = Word.fix0) ∧
  (∀ n, (State.reset.ctx n).st = .none) ∧ (∀ p, (State.reset.core p).run = none) ∧
  (∀ n, (State.reset.bin n).kind = .free) ∧ State.reset.dt = 0 ∧ State.reset.dtRun = false ∧
  State.reset.devState = 1 ∧ State.reset.rf Reg.devReset 31 28 = 1 ∧
  (∀ c, c < State.reset.part.cores → State.reset.rf (Reg.seedMap c) 6 0 = c / 8 * 9 + c % 8) ∧
  (∀ k, k < 64 → State.reset.rf (Reg.camStat k) 0 0 = 0)

/-- The parcels of a core instruction with an assigned encoding decode to it on every core, whatever parcels follow, all
operands at every value (R82 to R94, R99, R102); its interruption operand is in no parcel (log entry 11). -/
def Obligations.DecodeOfParcels : Prop :=
  ∀ (i : Instr) (p : Nat) (x y : BitVec 16), coreOf i = some p → legal i = true →
    (match parcelsOf i with
     | [a] => decodeParcels p a x y = some (uninterrupted i)
     | [a, b] => decodeParcels p a b x = some (uninterrupted i)
     | [a, b, c] => decodeParcels p a b c = some (uninterrupted i)
     | _ => False)

/-- LDK's reserved encodings (R89): K values 4 to 7 raise ILLEGAL_ENCODING, cause 0x01, whatever rd, and a parcel of LDK with
P[3:0] not zero decodes to no instruction and raises it too, with PC in the frame and in FAULT_VA. -/
def Obligations.LdkReservedEncodings : Prop :=
  ∀ (p : Nat) (rd : BitVec 4) (k : BitVec 3) (low : BitVec 4) (x y : BitVec 16) (s t : State) (r : Run),
    s.running p = some r → s.tlbis.any (fun j => j.core = p) = false → s.nextAlert r = none →
    s.fetchParcels r (s.regs r).pc 1 = (none, t) →
    (4 ≤ k.toNat → exec (.ldk p rd k) s =
      .next (t.take r (mkTrap 0x01 (BitVec.ofNat 64 (s.regs r).pc.toNat) (rawWord (.ldk p rd k))))) ∧
    (low ≠ 0 → decodeParcels p (0b00110#5 ++ k ++ rd ++ low) x y = none ∧
      (s.parcelAt r (s.regs r).pc = 0b00110#5 ++ k ++ rd ++ low → exec (.illegalEncoding p) s =
        .next (t.take r (mkTrap 0x01 (BitVec.ofNat 64 (s.regs r).pc.toNat)
          (raw (0#48 ++ (0b00110#5 ++ k ++ rd ++ low)))))))

/-- A word written to MEMORY is read back, every other aligned word reads as before, and byte a of the written word is byte
a of its payload, little-endian (R42, R47). -/
def Obligations.MemoryReadsWhatWasWritten : Prop :=
  ∀ (s : State) (a b : Nat) (w : Word), a % 8 = 0 → b % 8 = 0 →
    (s.setMemWord a w).memWord a = w ∧
    (b ≠ a → (s.setMemWord a w).memWord b = s.memWord b) ∧
    (∀ k, k < 8 → (s.setMemWord a w).memByte (a + k) = w.payload.extractLsb' (8 * k) 8) ∧
    (∀ c, c < a ∨ a + 8 ≤ c → (s.setMemWord a w).memByte c = s.memByte c)

/-- A register written in a context is read back there without its G and E bits in a compatible hall (R225); its other
registers, PC, STATUS and the registers of every other slot stay, and MEMORY with them. -/
def Obligations.RegisterReadsWhatWasWritten : Prop :=
  ∀ (s : State) (r : Run) (n : Nat) (w : Word),
    let t := s.setW r n w
    t.getW r n = strip (s.compat r.hall) w ∧
    (∀ m, m ≠ n → t.getW r m = s.getW r m) ∧
    (t.regs r).pc = (s.regs r).pc ∧ t.status r = s.status r ∧ (t.regs r).cnt = (s.regs r).cnt ∧
    (∀ q : Run, q.hcn ≠ r.hcn → t.regs q = s.regs q) ∧
    (∀ a, t.memWord a = s.memWord a) ∧ (∀ a, t.reg a = s.reg a) ∧ (∀ h k, t.sys h k = s.sys h k)

/-- An absent unit (R6): a read of an address that belongs to it by any initiator answers zero and changes nothing, and a
write that reaches it is ignored and counted in DEV_RSV_WRITES with its offset, as a write of a reserved value is; no
exception is raised. -/
def Obligations.AbsentUnits : Prop :=
  ∀ (s : State) (who : Initiator) (off : Nat) (mask v : BitVec 64), s.absentUnit off = true →
    s.readReg who off = (0, s) ∧
    (s.posted.any (fun w => w.of who (homeKey off)) = false → s.stalled off = false → s.fnAnswers who = true →
      initReaches who off = true →
      exec (.registerWrite who off mask v) s = .next (s.countRsv 0 off))

/-- The bins (R304): the bin of a physical address below 16 GiB is PA[33:21], so bin n is that of [n × 2 MiB, (n + 1) × 2
MiB); 8,192, 4,096 and 2,048 bins exist by variant, and BIN_ENTRY of a bin above them belongs to an absent unit. -/
def Obligations.BinsOfAddresses : Prop :=
  ∀ s : State,
    (∀ pa, pa < 2 ^ 34 → s.binOf pa = s.bin (fld (BitVec.ofNat 64 pa) 33 21)) ∧
    (∀ pa n, n * 0x200000 ≤ pa → pa < (n + 1) * 0x200000 → s.binOf pa = s.bin n) ∧
    s.part.nbins = (match s.part.variant with
      | .nrm8640 => 8192
      | .nrm8632 => 4096
      | .nrm8616 => 2048) ∧
    (∀ n, n < 8192 → s.absentUnit (Reg.binEntry n) = decide (s.part.nbins ≤ n))

/-- GADD, GSUB, GMUL and GADDI on FIX operands whose exact result is a 64-bit signed number: the destination is the FIX of the
result, nothing else changes but PC (R115). The same instructions on FIX operands whose exact result does not fit: in a hall
that is not compatible GENERIC_ASSIST with reason 1 is raised and no register is written (R115, R118); in a compatible hall
the result wraps (R158). -/
def Obligations.FixnumArithmetic : Prop :=
  (∀ (p : Nat) (s t : State) (r : Run),
     (∀ f, Issues s p (.gadd p f) 0 r t → (t.getW r f.a).tag = 0 → (t.getW r f.b).tag = 0 →
       InFix ((t.getW r f.a).payload.toInt + (t.getW r f.b).payload.toInt) →
       exec (.gadd p f) s =
         .next (Retires (t.setW r f.dst (fix ((t.getW r f.a).payload + (t.getW r f.b).payload))) r (.gadd p f) t)) ∧
     (∀ f, Issues s p (.gsub p f) 0 r t → (t.getW r f.a).tag = 0 → (t.getW r f.b).tag = 0 →
       InFix ((t.getW r f.a).payload.toInt - (t.getW r f.b).payload.toInt) →
       exec (.gsub p f) s =
         .next (Retires (t.setW r f.dst (fix ((t.getW r f.a).payload - (t.getW r f.b).payload))) r (.gsub p f) t)) ∧
     (∀ rd ra rb, Issues s p (.gmul p rd ra rb) 0 r t → (t.getW r ra.toNat).tag = 0 → (t.getW r rb.toNat).tag = 0 →
       InFix ((t.getW r ra.toNat).payload.toInt * (t.getW r rb.toNat).payload.toInt) →
       exec (.gmul p rd ra rb) s =
         .next (Retires (t.setW r rd.toNat (fix ((t.getW r ra.toNat).payload * (t.getW r rb.toNat).payload))) r
           (.gmul p rd ra rb) t)) ∧
     (∀ f, Issues s p (.gaddi p f) 0 r t → (t.getW r f.a).tag = 0 →
       InFix ((t.getW r f.a).payload.toInt + f.imm.toInt) →
       exec (.gaddi p f) s =
         .next (Retires (t.setW r f.dst (fix ((t.getW r f.a).payload + f.imm))) r (.gaddi p f) t))) ∧
  (∀ (p : Nat) (s t : State) (r : Run),
     (∀ f, Issues s p (.gadd p f) 0 r t → (t.getW r f.a).tag = 0 → (t.getW r f.b).tag = 0 →
       ¬ InFix ((t.getW r f.a).payload.toInt + (t.getW r f.b).payload.toInt) →
       exec (.gadd p f) s = .next (if t.compat r.hall
         then Retires (t.setW r f.dst (fix ((t.getW r f.a).payload + (t.getW r f.b).payload))) r (.gadd p f) t
         else t.take r (assistTrap (t.getW r f.a) (t.getW r f.b) 1 .add f.dst (t.getW r f.a)))) ∧
     (∀ f, Issues s p (.gsub p f) 0 r t → (t.getW r f.a).tag = 0 → (t.getW r f.b).tag = 0 →
       ¬ InFix ((t.getW r f.a).payload.toInt - (t.getW r f.b).payload.toInt) →
       exec (.gsub p f) s = .next (if t.compat r.hall
         then Retires (t.setW r f.dst (fix ((t.getW r f.a).payload - (t.getW r f.b).payload))) r (.gsub p f) t
         else t.take r (assistTrap (t.getW r f.a) (t.getW r f.b) 1 .sub f.dst (t.getW r f.a)))) ∧
     (∀ rd ra rb, Issues s p (.gmul p rd ra rb) 0 r t → (t.getW r ra.toNat).tag = 0 → (t.getW r rb.toNat).tag = 0 →
       ¬ InFix ((t.getW r ra.toNat).payload.toInt * (t.getW r rb.toNat).payload.toInt) →
       exec (.gmul p rd ra rb) s = .next (if t.compat r.hall
         then Retires (t.setW r rd.toNat (fix ((t.getW r ra.toNat).payload * (t.getW r rb.toNat).payload))) r
           (.gmul p rd ra rb) t
         else t.take r (assistTrap (t.getW r ra.toNat) (t.getW r rb.toNat) 1 .mul rd.toNat (t.getW r ra.toNat)))) ∧
     (∀ f, Issues s p (.gaddi p f) 0 r t → (t.getW r f.a).tag = 0 →
       ¬ InFix ((t.getW r f.a).payload.toInt + f.imm.toInt) →
       exec (.gaddi p f) s = .next (if t.compat r.hall
         then Retires (t.setW r f.dst (fix ((t.getW r f.a).payload + f.imm))) r (.gaddi p f) t
         else t.take r (assistTrap (t.getW r f.a) (fix f.imm) 1 .addi f.dst (t.getW r f.a)))))

/-- GADD, GSUB, GMUL and GADDI with a FLO operand beside a FIX or FLO: the result is a FLO, of the binary64 operation on the
operands, a FIX converted first (R115). A well-formed operand of another type raises GENERIC_ASSIST with reason 0, the first
such operand in the order a, b as its faulting word, and writes no register (R115, R118). -/
def Obligations.FloatArithmetic : Prop :=
  ∀ (p : Nat) (s t : State) (r : Run),
    (∀ f, Issues s p (.gadd p f) 0 r t → fastType (t.getW r f.a) = true → fastType (t.getW r f.b) = true →
      ((t.getW r f.a).tag = 1 ∨ (t.getW r f.b).tag = 1) →
      exec (.gadd p f) s =
        .next (Retires (t.setW r f.dst ⟨1,
          floatOp .add (asFloat (t.getW r f.a)) (asFloat (t.getW r f.b))⟩) r (.gadd p f) t)) ∧
    (∀ f, Issues s p (.gsub p f) 0 r t → fastType (t.getW r f.a) = true → fastType (t.getW r f.b) = true →
      ((t.getW r f.a).tag = 1 ∨ (t.getW r f.b).tag = 1) →
      exec (.gsub p f) s =
        .next (Retires (t.setW r f.dst ⟨1, floatOp .sub (asFloat (t.getW r f.a)) (asFloat (t.getW r f.b))⟩) r
          (.gsub p f) t)) ∧
    (∀ rd ra rb, Issues s p (.gmul p rd ra rb) 0 r t → fastType (t.getW r ra.toNat) = true →
      fastType (t.getW r rb.toNat) = true → ((t.getW r ra.toNat).tag = 1 ∨ (t.getW r rb.toNat).tag = 1) →
      exec (.gmul p rd ra rb) s =
        .next (Retires (t.setW r rd.toNat ⟨1, floatOp .mul (asFloat (t.getW r ra.toNat)) (asFloat (t.getW r rb.toNat))⟩) r
          (.gmul p rd ra rb) t)) ∧
    (∀ f, Issues s p (.gaddi p f) 0 r t → (t.getW r f.a).tag = 1 →
      exec (.gaddi p f) s =
        .next (Retires (t.setW r f.dst ⟨1, floatOp .add (t.getW r f.a).payload (fixToB64 f.imm)⟩) r (.gaddi p f) t)) ∧
    (∀ f w, Issues s p (.gadd p f) 0 r t → FirstSlow (t.getW r f.a) (t.getW r f.b) w →
      exec (.gadd p f) s = .next (t.take r (assistTrap (t.getW r f.a) (t.getW r f.b) 0 .add f.dst w))) ∧
    (∀ f w, Issues s p (.gsub p f) 0 r t → FirstSlow (t.getW r f.a) (t.getW r f.b) w →
      exec (.gsub p f) s = .next (t.take r (assistTrap (t.getW r f.a) (t.getW r f.b) 0 .sub f.dst w))) ∧
    (∀ rd ra rb w, Issues s p (.gmul p rd ra rb) 0 r t → FirstSlow (t.getW r ra.toNat) (t.getW r rb.toNat) w →
      exec (.gmul p rd ra rb) s =
        .next (t.take r (assistTrap (t.getW r ra.toNat) (t.getW r rb.toNat) 0 .mul rd.toNat w))) ∧
    (∀ f w, Issues s p (.gaddi p f) 0 r t → FirstSlow (t.getW r f.a) (fix f.imm) w →
      exec (.gaddi p f) s = .next (t.take r (assistTrap (t.getW r f.a) (fix f.imm) 0 .addi f.dst w)))

/-- GCMP on FIX operands sets CC to the order of the signed numbers, on others FIX or FLO to the order of the binary64 values,
UN with a NaN (R115, R117); an operand of another type raises GENERIC_ASSIST with reason 0 and destination -1 (R118). WCMP
sets CC to the order of the two words' keys for words of every type (R119). Only CC and PC change. -/
def Obligations.Comparisons : Prop :=
  ∀ (p : Nat) (s t : State) (r : Run) (f : CmpForm),
    (Issues s p (.gcmp p f) 0 r t → (t.getW r f.a).tag = 0 → (t.getW r f.b).tag = 0 →
      exec (.gcmp p f) s =
        .next (Retires (t.setCc r (ccInt (t.getW r f.a).payload.toInt (t.getW r f.b).payload.toInt)) r (.gcmp p f) t)) ∧
    (Issues s p (.gcmp p f) 0 r t → fastType (t.getW r f.a) = true → fastType (t.getW r f.b) = true →
      ((t.getW r f.a).tag = 1 ∨ (t.getW r f.b).tag = 1) →
      exec (.gcmp p f) s =
        .next (Retires (t.setCc r (ccFloat (asFloat (t.getW r f.a)) (asFloat (t.getW r f.b)))) r (.gcmp p f) t)) ∧
    (∀ w, Issues s p (.gcmp p f) 0 r t → FirstSlow (t.getW r f.a) (t.getW r f.b) w →
      exec (.gcmp p f) s = .next (t.take r (assistTrap (t.getW r f.a) (t.getW r f.b) 0 .cmp 0 w))) ∧
    (Issues s p (.wcmp p f) 0 r t →
      exec (.wcmp p f) s =
        .next (Retires (t.setCc r (ccInt (wcmpKey (t.getW r f.a)) (wcmpKey (t.getW r f.b)))) r (.wcmp p f) t))

/-- MOV, LDI, LDK, LDIK, TAGI, TYPEQ and TAGW write their destination and change nothing else but PC (R54, R56, R86, R120 to
R122). MOV, LDI, LDK and TYPEQ take words of every type; LDIK replaces the 16-bit field k of a FIX; TAGI and TAGW retag. -/
def Obligations.MovesAndTags : Prop :=
  ∀ (p : Nat) (s t : State) (r : Run),
    (∀ f, Issues s p (.mov p f) 0 r t →
      exec (.mov p f) s = .next (Retires (t.setW r f.dst (t.getW r f.src)) r (.mov p f) t)) ∧
    (∀ f, Issues s p (.ldi p f) 0 r t →
      exec (.ldi p f) s = .next (Retires (t.setW r f.dst (fix f.imm)) r (.ldi p f) t)) ∧
    (∀ rd k, Issues s p (.ldk p rd k) 0 r t →
      exec (.ldk p rd k) s = .next (Retires (t.setW r rd.toNat ⟨3, k.setWidth 64⟩) r (.ldk p rd k) t)) ∧
    (∀ rd k imm, Issues s p (.ldik p rd k imm) 0 r t → (t.getW r rd.toNat).tag = 0 →
      exec (.ldik p rd k imm) s = .next (Retires (t.setW r rd.toNat (fix (setFld (t.getW r rd.toNat).payload
        (16 * k.toNat + 15) (16 * k.toNat) imm.toNat))) r (.ldik p rd k imm) t)) ∧
    (∀ rd ra ty, Issues s p (.tagi p rd ra ty) 0 r t → (t.getW r ra.toNat).type ≠ 0x32 →
      (⟨ty.setWidth 8, (t.getW r ra.toNat).payload⟩ : Word).malformed = false →
      exec (.tagi p rd ra ty) s =
        .next (Retires (t.setW r rd.toNat ⟨ty.setWidth 8, (t.getW r ra.toNat).payload⟩) r (.tagi p rd ra ty) t)) ∧
    (∀ rd ra ty, Issues s p (.typeq p rd ra ty) 0 r t →
      exec (.typeq p rd ra ty) s =
        .next (Retires (t.setW r rd.toNat (if (t.getW r ra.toNat).type = ty.toNat then specialT else nil)) r
          (.typeq p rd ra ty) t)) ∧
    (∀ rd ra tag, Issues s p (.tagw p rd ra tag) 1 r t → t.barriers r = false →
      exec (.tagw p rd ra tag) s =
        .next (Retires (t.setW r rd.toNat ⟨tag, (t.getW r ra.toNat).payload⟩) r (.tagw p rd ra tag) t))

/-- A branch goes to its own address plus twice its displacement when it is taken and behind itself when it is not: BR always,
Bcond by CC, BNIL and BNNIL by whether the register is NIL, TBR by its type. Nothing changes but PC (R85, R86, R91, R92,
R97). NOP and FENCE change nothing but PC (R87, R130); REP with CNT 0 runs no iteration (R103); REP whose iterations all
complete retires behind the unit, and one that an interruption stops before an iteration stays with CNT as far as it has
come (R103 to R106). -/
def Obligations.Branches : Prop :=
  (∀ (p : Nat) (s t : State) (r : Run),
     (∀ f, Issues s p (.br p f) 0 r t → exec (.br p f) s = .next (Jumps t r (branchTo (t.regs r).pc f.disp) t)) ∧
     (∀ f, Issues s p (.bcond p f) 0 r t →
       exec (.bcond p f) s = .next (Jumps t r (if condHolds f.cond (stCc (t.status r))
         then branchTo (t.regs r).pc f.disp else t.nextPc r (.bcond p f)) t)) ∧
     (∀ f, Issues s p (.bnil p f) 0 r t →
       exec (.bnil p f) s = .next (Jumps t r (if (t.getW r f.reg).isNil
         then branchTo (t.regs r).pc f.disp else t.nextPc r (.bnil p f)) t)) ∧
     (∀ f, Issues s p (.bnnil p f) 0 r t →
       exec (.bnnil p f) s = .next (Jumps t r (if (t.getW r f.reg).isNil
         then t.nextPc r (.bnnil p f) else branchTo (t.regs r).pc f.disp) t)) ∧
     (∀ ra ty sense disp, Issues s p (.tbr p ra ty sense disp) 0 r t →
       exec (.tbr p ra ty sense disp) s = .next (Jumps t r
         (if decide ((t.getW r ra.toNat).type = ty.toNat) = sense
           then branchTo (t.regs r).pc disp.toInt else t.nextPc r (.tbr p ra ty sense disp)) t))) ∧
  (∀ (p : Nat) (s t : State) (r : Run),
     (Issues s p (.nop p) 0 r t → exec (.nop p) s = .next (Retires t r (.nop p) t)) ∧
     (Issues s p (.fence p) 0 r t → exec (.fence p) s = .next (Retires t r (.fence p) t)) ∧
     (∀ op stop, Issues s p (.rep p op stop) 0 r t → (t.regs r).cnt = 0 →
       exec (.rep p op stop) s = .next (Retires t r (.rep p op stop) t)) ∧
     (∀ op stop u, Issues s p (.rep p op stop) 0 r t → t.repLoop r op (t.regs r).cnt.toNat stop = .ok () u →
       exec (.rep p op stop) s = .next (u.retire r (u.nextPc r (.rep p op stop)) (stSs (t.status r)))) ∧
     (∀ op, Issues s p (.rep p op (some 0)) 0 r t → (t.regs r).cnt ≠ 0 → exec (.rep p op (some 0)) s = .next t) ∧
     (∀ f, Issues s p (.rep p (.mov f) none) 0 r t → (t.regs r).cnt = 1 →
       exec (.rep p (.mov f) none) s =
         .next (Retires ((t.setW r f.dst (t.getW r f.src)).setCnt r 0) r (.rep p (.mov f) none) t)))

/-- JMP to an even FIX below 2^44 goes there, and to the target a CODE or CLOSURE pointer gives when its loads complete
(R123). CALLM pushes the selected registers and the frame word, lowers SP and goes to its target; RETM reads the frame word,
restores the registers and SP and goes to the address in the frame word (R76, R77, R125, R126). SCALL to stair n above its
own saves PC behind it, SP and STATUS in shadow set n and marks the set used, enters stair n with SP at SCALLn_SP and goes
to SCALLn_PC (R149); SRET restores PC, SP and STATUS from the set of its stair and frees it (R150). No other register
changes. -/
def Obligations.CallsAndJumps : Prop :=
  (∀ (p : Nat) (s t : State) (r : Run),
     (∀ ra, Issues s p (.jmp p ra) 0 r t → (t.getW r ra.toNat).tag = 0 →
       (t.getW r ra.toNat).payload.toNat % 2 = 0 → (t.getW r ra.toNat).payload.toNat < 2 ^ 44 →
       exec (.jmp p ra) s = .next (Jumps t r ((t.getW r ra.toNat).payload.setWidth 44) t)) ∧
     (∀ ra pc u, Issues s p (.jmp p ra) 0 r t → t.target r (t.getW r ra.toNat) = .ok pc u →
       exec (.jmp p ra) s = .next (Jumps u r pc t)) ∧
     (∀ ra mask pc u v ws, Issues s p (.callm p ra mask) 0 r t → t.target r (t.getW r ra.toNat) = .ok pc u →
       (u.getW r 31).tag = 0 →
       ((u.regs r).slim.toNat : Int) ≤ (u.getW r 31).payload.toNat - 8 * (1 + (maskRegs mask).length) →
       u.prepStores r (u.stack0 r) (frameWords u r ((u.getW r 31).payload.toNat - 8 * (1 + (maskRegs mask).length)) mask
         (u.nextPc r (.callm p ra mask))) = .ok ws v →
       exec (.callm p ra mask) s = .next (Jumps ((v.commitStores r ws).setW r 31
         (fix (BitVec.ofInt 64 ((u.getW r 31).payload.toNat - 8 * (1 + (maskRegs mask).length))))) r pc t)) ∧
     (∀ w u ws v, Issues s p (.retm p) 0 r t → (t.getW r 31).tag = 0 →
       t.load r (t.getW r 31).payload.toNat (t.stack0 r) = .ok w u → retFrameOk w = true →
       u.loadWords r ((t.getW r 31).payload.toNat + 8) (u.stack0 r) (maskRegs (w.payload.extractLsb' 48 16)).length =
         .ok ws v →
       exec (.retm p) s = .next (Jumps ((v.setWs r ((maskRegs (w.payload.extractLsb' 48 16)).zip ws)).setW r 31
         (fix (BitVec.ofInt 64 ((t.getW r 31).payload.toNat +
           8 * (1 + (maskRegs (w.payload.extractLsb' 48 16)).length))))) r (w.payload.extractLsb' 0 44) t))) ∧
  (∀ (p : Nat) (s t : State) (r : Run), t.specOf r.scn = none →
     (∀ x, x = t.regs r → Issues s p (.scall p false) 0 r t → stStair x.status < 1 → x.shuse.getLsbD 0 = false →
       exec (.scall p false) s = .next (Jumps (t.setRegs r
         (Regs.putW { x with sh1pc := t.nextPc r (.scall p false), sh1sp := (x.getW 31).payload, sh1status := x.status,
                             shuse := x.shuse ||| 1, status := setFld x.status 1 0 1 }
           31 (fix (BitVec.ofInt 64 (t.scallSp r 1)))) (0x8 ||| g4 ||| g5)) r
         (BitVec.ofNat 44 (t.sys r.hall 0x48).toNat) t)) ∧
     (∀ x, x = t.regs r → Issues s p (.scall p true) 0 r t → stStair x.status < 2 → x.shuse.getLsbD 1 = false →
       exec (.scall p true) s = .next (Jumps (t.setRegs r
         (Regs.putW { x with sh2pc := t.nextPc r (.scall p true), sh2sp := (x.getW 31).payload, sh2status := x.status,
                             shuse := x.shuse ||| 2, status := setFld x.status 1 0 2 }
           31 (fix (BitVec.ofInt 64 (t.scallSp r 2)))) (0x8 ||| g4 ||| g5)) r
         (BitVec.ofNat 44 (t.sys 0 0x4C).toNat) t)) ∧
     (∀ x, x = t.regs r → Issues s p (.sret p) 1 r t → stStair x.status = 1 → x.shuse.getLsbD 0 = true →
       exec (.sret p) s = .next (Jumps (t.setRegs r
         (Regs.putW { x with status := x.sh1status, shuse := x.shuse &&& 2 } 31 (fix x.sh1sp)) (0x8 ||| g4 ||| g5)) r
         x.sh1pc t)) ∧
     (∀ x, x = t.regs r → Issues s p (.sret p) 1 r t → stStair x.status = 2 → x.shuse.getLsbD 1 = true →
       exec (.sret p) s = .next (Jumps (t.setRegs r
         (Regs.putW { x with status := x.sh2status, shuse := x.shuse &&& 1 } 31 (fix x.sh2sp)) (0x8 ||| g4 ||| g5)) r
         x.sh2pc t)))

/-- BRK raises BREAKPOINT (cause 0x14) with its own address (R124), and the row ILLEGAL_ENCODING raises cause 0x01 at parcels
that no map assigns (R99): where the entry keeps the stack and no descriptor is used, the whole state behind it is given
(Enters and State.entered: R76 to R78, R203, R205, R206). An instruction of a context below the stair it needs (TAGW, SRET,
WGET, WPUT, TLBWI, TLBWR, TLBI, TWALK, and GETS and SETS by their register) raises STAIR_VIOLATION (R95, R108, R200). -/
def Obligations.RaisedCauses : Prop :=
  ∀ (p : Nat) (s t : State) (r : Run),
    (∀ e, e = mkTrap 0x14 (BitVec.ofNat 64 (t.regs r).pc.toNat) (raw 4) → Issues s p (.brk p) 0 r t →
      exec (.brk p) s = .next (t.take r e) ∧
      (∀ pas base, Enters t r e pas base → exec (.brk p) s = .next (t.entered r e pas base))) ∧
    (∀ n w e, e = mkTrap 0x01 (BitVec.ofNat 64 (s.regs r).pc.toNat) w → s.running p = some r → s.nextAlert r = none →
      s.tlbis.any (fun j => j.core = p) = false → s.illegalAt r = some (n, w) →
      s.fetchParcels r (s.regs r).pc n = (none, t) →
      exec (.illegalEncoding p) s = .next (t.take r e) ∧
      (∀ pas base, Enters t r e pas base → exec (.illegalEncoding p) s = .next (t.entered r e pas base))) ∧
    (∀ i e, e = stairViolation i (s.regs r).pc → coreOf i = some p → Issues s p i 0 r t →
      stStair (t.status r) < stairOf i →
      exec i s = .next (t.take r e) ∧
      (∀ pas base, Enters t r e pas base → exec i s = .next (t.entered r e pas base)))

/-- The address of a load or store through a base (R127, R128). Above stair 0 a base of any type but POISON gives its payload
plus 8 times the index; at stair 0 a FIX at or above SLIM gives a stack access, a CONS its words 0 and 1 only, and a base of
another type is refused. LD, LDX and LDSP write the loaded word to their register, ST, STX and STSP store their register, at
the address that their base and index give, when the access completes (R85, R129); nothing else changes but PC and what the
access itself changes. -/
def Obligations.LoadsAndStores : Prop :=
  (∀ (s : State) (r : Run) (b : Word) (k : Int) (kw : Word) (store : Bool),
     (b.type = 0x32 → s.baseAddr r b k kw store = .trap (mkTrap 0x06 0 b) s) ∧
     (b.type ≠ 0x32 → stStair (s.status r) ≠ 0 →
       s.baseAddr r b k kw store = .ok ((b.payload.toNat : Int) + 8 * k, false) s) ∧
     (b.type = 0 → stStair (s.status r) = 0 → ((s.regs r).slim.toNat : Int) ≤ b.payload.toNat + 8 * k →
       s.baseAddr r b k kw store = .ok ((b.payload.toNat : Int) + 8 * k, true) s) ∧
     (b.type = 0 → stStair (s.status r) = 0 → (b.payload.toNat : Int) + 8 * k < (s.regs r).slim.toNat →
       s.baseAddr r b k kw store = .trap (mkTrap 0x10 (BitVec.ofInt 64 (b.payload.toNat + 8 * k)) b) s) ∧
     (b.type = 0x10 → stStair (s.status r) = 0 →
       s.baseAddr r b k kw store = if k = 0 ∨ k = 1 then .ok ((b.payload.toNat : Int) + 8 * k, false) s
         else .trap (mkTrap 0x05 0 kw) s) ∧
     (b.type ≠ 0x32 → b.type ≠ 0 → b.type ≠ 0x10 → (b.type < 0x11 ∨ 0x18 < b.type) → stStair (s.status r) = 0 →
       s.baseAddr r b k kw store = .trap (mkTrap 0x03 0 b) s) ∧
     (∀ hdr u, 0x11 ≤ b.type → b.type ≤ 0x18 → stStair (s.status r) = 0 →
       s.loadAt r 0 b.payload.toNat false true = .ok hdr u → hdr.type = 0x30 →
       s.baseAddr r b k kw store = if (if store then 1 else 0) ≤ k ∧ k ≤ hdrLen hdr
         then .ok ((b.payload.toNat : Int) + 8 * k, false) u else .trap (mkTrap 0x05 0 kw) u)) ∧
  (∀ (p : Nat) (s t u v : State) (r : Run) (a : Int) (stack : Bool) (w : Word),
     (∀ f, Issues s p (.ld p f) 0 r t →
       t.baseAddr r (t.getW r f.base) f.index (indexWord f.index) false = .ok (a, stack) u → u.load r a stack = .ok w v →
       exec (.ld p f) s = .next (Jumps (v.setW r f.data w) r ((v.setW r f.data w).nextPc r (.ld p f)) t)) ∧
     (∀ f, Issues s p (.st p f) 0 r t →
       t.baseAddr r (t.getW r f.base) f.index (indexWord f.index) true = .ok (a, stack) u →
       u.store r a (t.getW r f.data) stack = .ok () v →
       exec (.st p f) s = .next (Jumps v r (v.nextPc r (.st p f)) t)) ∧
     (∀ rd ra rb, Issues s p (.ldx p rd ra rb) 0 r t → (t.getW r rb.toNat).type = 0 →
       t.baseAddr r (t.getW r ra.toNat) (t.getW r rb.toNat).payload.toInt (t.getW r rb.toNat) false = .ok (a, stack) u →
       u.load r a stack = .ok w v →
       exec (.ldx p rd ra rb) s =
         .next (Jumps (v.setW r rd.toNat w) r ((v.setW r rd.toNat w).nextPc r (.ldx p rd ra rb)) t)) ∧
     (∀ rd ra rb, Issues s p (.stx p rd ra rb) 0 r t → (t.getW r rb.toNat).type = 0 →
       t.baseAddr r (t.getW r ra.toNat) (t.getW r rb.toNat).payload.toInt (t.getW r rb.toNat) true = .ok (a, stack) u →
       u.store r a (t.getW r rd.toNat) stack = .ok () v →
       exec (.stx p rd ra rb) s = .next (Jumps v r (v.nextPc r (.stx p rd ra rb)) t)) ∧
     (∀ rt off, Issues s p (.ldsp p rt off) 0 r t →
       t.baseAddr r (t.getW r 31) off.toNat (indexWord off.toNat) false = .ok (a, stack) u → u.load r a stack = .ok w v →
       exec (.ldsp p rt off) s =
         .next (Jumps (v.setW r rt.toNat w) r ((v.setW r rt.toNat w).nextPc r (.ldsp p rt off)) t)) ∧
     (∀ rt off, Issues s p (.stsp p rt off) 0 r t →
       t.baseAddr r (t.getW r 31) off.toNat (indexWord off.toNat) true = .ok (a, stack) u →
       u.store r a (t.getW r rt.toNat) stack = .ok () v →
       exec (.stsp p rt off) s = .next (Jumps v r (v.nextPc r (.stsp p rt off)) t)))

/-- A store of a context outside a speculation, at an address that its data address gives in MEMORY (`pa`, the address the
store itself computes), of a word that the write barrier leaves alone, completes; the word there is the stored one, and
every other word of MEMORY, every register of the context and every control register but the Crib's counters is as before
(R109, R112, R129). A load of a context outside a speculation, at an address that its data address gives in MEMORY, of a
word that the loaded-value barrier leaves alone, delivers the word there; no word of MEMORY and no register changes but the
Crib's counters (R109, R112, R129). -/
def Obligations.AccessFrames : Prop :=
  (∀ (s : State) (r : Run) (a : Int) (w : Word) (stack : Bool) (pa : Nat),
     s.dataPa r (stStair (s.status r)) a true stack = .pa pa → regionOf s.part pa = .memory →
     (s.barriers r = false ∨ w.isPtr = false) → s.specOf r.scn = none → s.Faithful r.p →
     ∃ t, s.store r a w stack = .ok () t ∧ t.memWord pa = strip (s.compat r.hall) w ∧
       SameOutside s t pa (pa + 8) ∧ t.regs r = s.regs r ∧ t.sysregs = s.sysregs ∧
       (∀ b, b ≠ Reg.cribStat r.p → t.reg b = s.reg b)) ∧
  (∀ (s : State) (r : Run) (a : Int) (stack : Bool) (pa : Nat),
     s.dataPa r (stStair (s.status r)) a false stack = .pa pa → regionOf s.part pa = .memory →
     (s.barriers r = false ∨ (s.memWord pa).isPtr = false) → s.specOf r.scn = none → s.Faithful r.p →
     ∃ t, s.load r a stack = .ok (strip (s.compat r.hall) (s.memWord pa)) t ∧
       (∀ c, t.memWord c = s.memWord c) ∧ t.regs r = s.regs r ∧ t.sysregs = s.sysregs ∧
       (∀ b, b ≠ Reg.cribStat r.p → t.reg b = s.reg b))

/-- CAR and CDR of NIL are NIL, of a CONS the word of its cell, when the load completes (R131); RPLACA and RPLACD store to
word 0 and 1 of the cell (R132); CONS in a region that has room stores its operands there and delivers a CONS pointer
(R133). -/
def Obligations.Cells : Prop :=
  ∀ (p : Nat) (s t u : State) (r : Run) (w : Word),
    (∀ f, Issues s p (.car p f) 0 r t → (t.getW r f.src).isNil = true →
      exec (.car p f) s = .next (Retires (t.setW r f.dst nil) r (.car p f) t)) ∧
    (∀ f, Issues s p (.cdr p f) 0 r t → (t.getW r f.src).isNil = true →
      exec (.cdr p f) s = .next (Retires (t.setW r f.dst nil) r (.cdr p f) t)) ∧
    (∀ f, Issues s p (.car p f) 0 r t → Accepts isCons (t.getW r f.src) →
      t.load r ((t.getW r f.src).payload.toNat) = .ok w u →
      exec (.car p f) s = .next (Jumps (u.setW r f.dst w) r ((u.setW r f.dst w).nextPc r (.car p f)) t)) ∧
    (∀ f, Issues s p (.cdr p f) 0 r t → Accepts isCons (t.getW r f.src) →
      t.load r ((t.getW r f.src).payload.toNat + 8) = .ok w u →
      exec (.cdr p f) s = .next (Jumps (u.setW r f.dst w) r ((u.setW r f.dst w).nextPc r (.cdr p f)) t)) ∧
    (∀ ra rb, Issues s p (.rplaca p ra rb) 0 r t → Accepts isCons (t.getW r ra.toNat) →
      t.store r ((t.getW r ra.toNat).payload.toNat) (t.getW r rb.toNat) = .ok () u →
      exec (.rplaca p ra rb) s = .next (Jumps u r (u.nextPc r (.rplaca p ra rb)) t)) ∧
    (∀ ra rb, Issues s p (.rplacd p ra rb) 0 r t → Accepts isCons (t.getW r ra.toNat) →
      t.store r ((t.getW r ra.toNat).payload.toNat + 8) (t.getW r rb.toNat) = .ok () u →
      exec (.rplacd p ra rb) s = .next (Jumps u r (u.nextPc r (.rplacd p ra rb)) t)) ∧
    (∀ rd ra rb a xs, a = (t.regs r).allocp.toNat → Issues s p (.cons p rd ra rb) 0 r t →
      ((t.slot r.hcn).unchecked = false ∨ t.regionOk r = true) → a + 16 ≤ (t.regs r).allocl.toNat →
      (t.checked r).prepStores r false [((a : Int), t.getW r ra.toNat), (((a + 8 : Nat) : Int), t.getW r rb.toNat)] =
        .ok xs u →
      ∃ v, exec (.cons p rd ra rb) s = .next (Jumps v r (v.nextPc r (.cons p rd ra rb)) t) ∧
        Delivers (u.commitStores r xs) v r rd.toNat 0x10 a 2)

/-- The words of a fresh object (R63, R144, R145): behind the header, whose TYPE, LENGTH, SUBTYPE and PINNED are those of
the instruction (a CODE object is always pinned), each slot holds its type's initial value: NIL, but FIX and RAW for byte
vectors, UNBOUND and FIX 0 in a symbol, RAW 0 in a BIG, and in a CODE object FIX 8 times LENGTH less 4, two NIL, FIX 0 and a
body of RAW 0. ALLOC of up to 511 words in a region that has room stores the words of the fresh object there and delivers
its pointer (R143 to R145); a LENGTH outside its type's range raises BOUNDS and stores nothing (R144). A longer one takes a
run of FREE bins, which run being open (log entry 8), stores the header in its first word, and the context waits for the
initialisation (R146, R315). LARGE_INIT_DONE stores the initial slots of that object and nothing else in MEMORY, delivers
the pointer, G set and of a good epoch, and ends the wait (R146, R319). -/
def Obligations.Allocation : Prop :=
  (∀ (ty n : Nat) (pin : Bool) (sub : BitVec 8), n < 2 ^ 40 →
     (freshWords ty n pin sub).length = n + 1 ∧
     (∀ hdr, (freshWords ty n pin sub).head? = some hdr → hdr.type = 0x30 ∧ hdrLen hdr = n ∧
       fld hdr.payload 15 8 = sub.toNat ∧ hdrPin hdr = (pin || ty = 0x18)) ∧
     (∀ k, k < n → ∃ w, (freshWords ty n pin sub)[k + 1]? = some w ∧
       (ty ≠ 0x12 → ty ≠ 0x13 → ty ≠ 0x15 → ty ≠ 0x18 → w = nil) ∧
       (ty = 0x12 → w = if k = 0 then fixN (8 * (n - 1)) else raw 0) ∧
       (ty = 0x13 → w = if k = 1 ∨ k = 2 then unbound else if k = 4 then fixN 0 else nil) ∧
       (ty = 0x15 → w = raw 0) ∧
       (ty = 0x18 → w = if k = 0 then fixN (8 * (n - 4)) else if k = 1 ∨ k = 2 then nil else if k = 3 then fixN 0
         else raw 0))) ∧
  (∀ (p : Nat) (s t u : State) (r : Run) (rd ra : R5) (ty : BitVec 6) (pin : Bool) (sub : BitVec 8) (n : Nat) (l : Word),
     (Issues s p (.alloc p rd ra ty pin sub) 0 r t → l = t.getW r ra.toNat → l.tag = 0 → n = l.payload.toNat →
       (lengthOk ty.toNat n = false → exec (.alloc p rd ra ty pin sub) s = .next (t.take r (mkTrap 0x05 0 l))) ∧
       (∀ a xs, lengthOk ty.toNat n = true → n ≤ 511 → a = (t.regs r).allocp.toNat →
         ((t.slot r.hcn).unchecked = false ∨ t.regionOk r = true) → a + 8 * (n + 1) ≤ (t.regs r).allocl.toNat →
         (t.checked r).prepStores r false (((List.range (n + 1)).zip (freshWords ty.toNat n pin sub)).map
           (fun e => (((a + 8 * e.1 : Nat) : Int), e.2))) = .ok xs u →
         ∃ v, exec (.alloc p rd ra ty pin sub) s = .next (Jumps v r (v.nextPc r (.alloc p rd ra ty pin sub)) t) ∧
           Delivers (u.commitStores r xs) v r rd.toNat ty.toNat a (n + 1)) ∧
       (∀ k, lengthOk ty.toNat n = true → 511 < n → k = (8 * (n + 1) - 1) / binSize + 1 → t.specOf r.scn = none →
         t.mayTake r.hall k = true → t.freeRuns k ≠ [] → stSth (t.status r) = false →
         fld (t.reg (Reg.glHall r.hall)) 41 34 = 0 → fld (t.reg (Reg.glHall r.hall)) 33 27 = 0 →
         ∃ b v, b ∈ t.freeRuns k ∧ v = (t.freeNat.2.giveLarge r.hall b (8 * (n + 1)) 0 k).agentStore (binSize * b)
             (newHeader ty.toNat n pin sub) ∧
           exec (.alloc p rd ra ty pin sub) s = .next ((v.setRetry r false).await r
             (.alloc (.large rd.toNat ⟨BitVec.ofNat 8 ty.toNat, BitVec.ofNat 64 (v.wbase r.hall + binSize * b)⟩))))) ∧
     (∀ scn ptr pa c pc, c = s.ctx scn → c.st = .waiting → c.wait = some (.alloc (.large rd.toNat ptr)) → c.deferred = [] →
       s.compat c.hall = false → pa = s.heapPa c.hall ptr → pa % 8 = 0 → n = hdrLen (s.memWord pa) → s.NoErrors →
       pc = (s.slot c.hcn).regs.pc → pc.toNat % 2 = 0 → pc.toNat + 4 < 2 ^ 44 → stSs (s.slot c.hcn).regs.status = false →
       ∃ v, exec (.largeInitDone scn) s = .next v ∧ (v.ctx scn).st = .ready ∧ (v.ctx scn).wait = none ∧
         (v.slot c.hcn).regs.getW rd.toNat = stamp ptr ptr.payload true (s.myEpoch (s.pcnOf c.hcn) c.hall true) ∧
         (v.slot c.hcn).regs.pc = pc + 4 ∧ (∀ k, k < n → v.memWord (pa + 8 * (k + 1)) = freshSlot ptr.type n k) ∧
         SameOutside s v (pa + 8) (pa + 8 * (n + 1))))

/-- MEMQ, ASSQ and LLEN on a core whose microcode is not redirected (R134 to R138): at the end of the list MEMQ and ASSQ give
NIL and LLEN its count, with STATUS.RES cleared; with CNT exhausted MEMQ and ASSQ give NOVALUE and LLEN its count; MEMQ
gives the tail whose element is identical to its key, ASSQ the pair whose first word is; a step that finds nothing moves to
the next tail and counts CNT down, and an interruption behind it leaves PC on the instruction with STATUS.RES set. -/
def Obligations.ListSearches : Prop :=
  ∀ (p : Nat) (s t : State) (r : Run) (rd ra rb : R5) (stop : Option Nat), (t.core r.p).patched = false →
    (Issues s p (.memq p rd ra rb stop) 0 r t → (t.getW r rb.toNat).isNil = true →
      exec (.memq p rd ra rb stop) s = .next (Jumps ((t.setW r rd.toNat nil).setRes r false) r
        ((t.setW r rd.toNat nil).nextPc r (.memq p rd ra rb stop)) t)) ∧
    (Issues s p (.assq p rd ra rb stop) 0 r t → (t.getW r rb.toNat).isNil = true →
      exec (.assq p rd ra rb stop) s = .next (Jumps ((t.setW r rd.toNat nil).setRes r false) r
        ((t.setW r rd.toNat nil).nextPc r (.assq p rd ra rb stop)) t)) ∧
    (Issues s p (.llen p rd ra stop) 0 r t → Accepts (·.isFix) (t.getW r rd.toNat) → (t.getW r ra.toNat).isNil = true →
      exec (.llen p rd ra stop) s =
        .next (Jumps (t.setRes r false) r (t.nextPc r (.llen p rd ra stop)) t)) ∧
    (Issues s p (.memq p rd ra rb stop) 0 r t → Accepts isCons (t.getW r rb.toNat) → (t.regs r).cnt = 0 →
      (t.getW r rb.toNat).isNil = false →
      exec (.memq p rd ra rb stop) s = .next (Jumps ((t.setW r rd.toNat novalue).setRes r false) r
        ((t.setW r rd.toNat novalue).nextPc r (.memq p rd ra rb stop)) t)) ∧
    (Issues s p (.assq p rd ra rb stop) 0 r t → Accepts isCons (t.getW r rb.toNat) → (t.regs r).cnt = 0 →
      (t.getW r rb.toNat).isNil = false →
      exec (.assq p rd ra rb stop) s = .next (Jumps ((t.setW r rd.toNat novalue).setRes r false) r
        ((t.setW r rd.toNat novalue).nextPc r (.assq p rd ra rb stop)) t)) ∧
    (Issues s p (.llen p rd ra stop) 0 r t → Accepts (·.isFix) (t.getW r rd.toNat) → Accepts isCons (t.getW r ra.toNat) →
      (t.getW r ra.toNat).isNil = false → (t.regs r).cnt = 0 →
      exec (.llen p rd ra stop) s = .next (Jumps (t.setRes r false) r (t.nextPc r (.llen p rd ra stop)) t)) ∧
    (∀ e c u v n, Issues s p (.assq p rd ra rb stop) 0 r t → Accepts isCons (t.getW r rb.toNat) →
      (t.getW r rb.toNat).isNil = false → (t.regs r).cnt.toNat = n + 1 →
      t.load r (t.getW r rb.toNat).payload.toNat = .ok e u → e.isNil = false → Accepts isCons e →
      u.load r e.payload.toNat = .ok c v → identical c (t.getW r ra.toNat) = true →
      exec (.assq p rd ra rb stop) s = .next (Jumps ((v.setW r rd.toNat e).setRes r false) r
        ((v.setW r rd.toNat e).nextPc r (.assq p rd ra rb stop)) t)) ∧
    (∀ e u next v n, Issues s p (.memq p rd ra rb (some 1)) 0 r t → Accepts isCons (t.getW r rb.toNat) →
      (t.getW r rb.toNat).isNil = false → (t.regs r).cnt.toNat = n + 1 →
      t.load r (t.getW r rb.toNat).payload.toNat = .ok e u → identical e (t.getW r ra.toNat) = false →
      u.load r ((t.getW r rb.toNat).payload.toNat + 8) = .ok next v →
      exec (.memq p rd ra rb (some 1)) s = .next (((v.setW r rb.toNat next).setCnt r n).setRes r true)) ∧
    (∀ u next v n, Issues s p (.assq p rd ra rb (some 1)) 0 r t → Accepts isCons (t.getW r rb.toNat) →
      (t.getW r rb.toNat).isNil = false → (t.regs r).cnt.toNat = n + 1 →
      t.load r (t.getW r rb.toNat).payload.toNat = .ok nil u →
      u.load r ((t.getW r rb.toNat).payload.toNat + 8) = .ok next v →
      exec (.assq p rd ra rb (some 1)) s = .next (((v.setW r rb.toNat next).setCnt r n).setRes r true)) ∧
    (∀ e u n, Issues s p (.memq p rd ra rb stop) 0 r t → Accepts isCons (t.getW r rb.toNat) →
      (t.getW r rb.toNat).isNil = false → (t.regs r).cnt.toNat = n + 1 →
      t.load r (t.getW r rb.toNat).payload.toNat = .ok e u → identical e (t.getW r ra.toNat) = true →
      exec (.memq p rd ra rb stop) s = .next (Jumps ((u.setW r rd.toNat (t.getW r rb.toNat)).setRes r false) r
        ((u.setW r rd.toNat (t.getW r rb.toNat)).nextPc r (.memq p rd ra rb stop)) t)) ∧
    (∀ next u n, Issues s p (.llen p rd ra (some 1)) 0 r t → Accepts (·.isFix) (t.getW r rd.toNat) →
      Accepts isCons (t.getW r ra.toNat) → (t.getW r ra.toNat).isNil = false → (t.regs r).cnt.toNat = n + 1 →
      t.load r ((t.getW r ra.toNat).payload.toNat + 8) = .ok next u →
      exec (.llen p rd ra (some 1)) s = .next ((((u.setW r rd.toNat (fix ((u.getW r rd.toNat).payload + 1))).setW r
        ra.toNat next).setCnt r n).setRes r true))

/-- VREF and VSET read and write element x of a word or byte object whose extent, its LENGTH or byte count, is above x, when
the accesses complete (R139, R140). VFILL and VCOPY on a core whose microcode is not redirected, with the elements of CNT
inside the extents, at CNT 0 only clear STATUS.RES, and at CNT 1 move one element, advance their index and leave CNT 0, with
STATUS.RES cleared, or set and PC on the instruction where an interruption follows (R134, R135, R141, R142). -/
def Obligations.Vectors : Prop :=
  ∀ (p : Nat) (s t u v : State) (r : Run) (rd ra rb : R5) (n : Int) (w : Word),
    (Issues s p (.vref p rd ra rb) 0 r t → Accepts isVectorObj (t.getW r ra.toNat) →
      Accepts (·.isFix) (t.getW r rb.toNat) → t.extent r (t.getW r ra.toNat) = .ok n u →
      0 ≤ (t.getW r rb.toNat).payload.toInt → (t.getW r rb.toNat).payload.toInt < n →
      u.readElement r (t.getW r ra.toNat) (t.getW r rb.toNat).payload.toNat = .ok w v →
      exec (.vref p rd ra rb) s = .next (Jumps (v.setW r rd.toNat w) r (v.nextPc r (.vref p rd ra rb)) t)) ∧
    (Issues s p (.vset p rd ra rb) 0 r t → Accepts isVectorObj (t.getW r ra.toNat) →
      Accepts (·.isFix) (t.getW r rb.toNat) →
      (isBytes (t.getW r ra.toNat) = true → byteFault (t.getW r rd.toNat) = none) →
      t.extent r (t.getW r ra.toNat) = .ok n u → 0 ≤ (t.getW r rb.toNat).payload.toInt →
        (t.getW r rb.toNat).payload.toInt < n →
      u.writeElement r (t.getW r ra.toNat) (t.getW r rb.toNat).payload.toNat (t.getW r rd.toNat) = .ok () v →
      exec (.vset p rd ra rb) s = .next (Jumps v r (v.nextPc r (.vset p rd ra rb)) t)) ∧
    (∀ stop, (t.core r.p).patched = false → Issues s p (.vfill p rd ra rb stop) 0 r t →
      Accepts isVectorObj (t.getW r ra.toNat) → Accepts (·.isFix) (t.getW r rb.toNat) →
      (isBytes (t.getW r ra.toNat) = true → byteFault (t.getW r rd.toNat) = none) →
      t.extent r (t.getW r ra.toNat) = .ok n u → 0 ≤ (t.getW r rb.toNat).payload.toInt →
      (t.getW r rb.toNat).payload.toInt + (t.regs r).cnt.toNat ≤ n →
      ((t.regs r).cnt = 0 →
        exec (.vfill p rd ra rb stop) s = .next (Jumps (u.setRes r false) r (u.nextPc r (.vfill p rd ra rb stop)) t)) ∧
      ((t.regs r).cnt = 1 → ∀ x, u.getW r rb.toNat = t.getW r rb.toNat → u.getW r rd.toNat = t.getW r rd.toNat →
        u.writeElement r (t.getW r ra.toNat) (t.getW r rb.toNat).payload.toNat (t.getW r rd.toNat) = .ok () v →
        x = (v.setW r rb.toNat (fix ((v.getW r rb.toNat).payload + 1))).setCnt r 0 →
        exec (.vfill p rd ra rb stop) s = .next (if stop = some 1 then x.setRes r true
          else Jumps (x.setRes r false) r (x.nextPc r (.vfill p rd ra rb stop)) t))) ∧
    (∀ stop m y, (t.core r.p).patched = false → Issues s p (.vcopy p rd ra rb stop) 0 r t →
      Accepts isVectorObj (t.getW r ra.toNat) → Accepts isVectorObj (t.getW r rd.toNat) →
      isBytes (t.getW r ra.toNat) = isBytes (t.getW r rd.toNat) → Accepts (·.isFix) (t.getW r rb.toNat) →
      t.extent r (t.getW r ra.toNat) = .ok n u → u.extent r (t.getW r rd.toNat) = .ok m y →
      (fld (t.getW r rb.toNat).payload 31 0 : Nat) + (t.regs r).cnt.toNat ≤ n →
      (fld (t.getW r rb.toNat).payload 63 32 : Nat) + (t.regs r).cnt.toNat ≤ m →
      ((t.regs r).cnt = 0 →
        exec (.vcopy p rd ra rb stop) s = .next (Jumps (y.setRes r false) r (y.nextPc r (.vcopy p rd ra rb stop)) t)) ∧
      ((t.regs r).cnt = 1 → ∀ k z x, y.getW r rb.toNat = t.getW r rb.toNat → k = (t.getW r rb.toNat).payload →
        y.readElement r (t.getW r ra.toNat) (fld k 31 0) = .ok w z →
        z.writeElement r (t.getW r rd.toNat) (fld k 63 32) w = .ok () v →
        x = (v.setW r rb.toNat (fix (setFld (setFld k 31 0 (fld k 31 0 + 1)) 63 32 (fld k 63 32 + 1)))).setCnt r 0 →
        exec (.vcopy p rd ra rb stop) s = .next (if stop = some 1 then x.setRes r true
          else Jumps (x.setRes r false) r (x.nextPc r (.vcopy p rd ra rb stop)) t)))

/-- GETS writes the special register to rd (R147, R196): a FIX of the value of every register of the context, its hall, the
device and the core that has one (specialValue: R95, R193, R198, R225, R257), the words of the landing in use as they are,
NIL with none, and KEEP_I with the replacement LFSR advanced by an open number of shifts (R258, log entry 29). SETS of a FIX
writes its register and nothing else (R148, R193, R196, R198, R257, R258, R314): CNT below 2^32, SLIM, ALLOCP and ALLOCL at
multiples of 8 below 2^44, STATUS as far as its stair allows, a word of the landing in use, the registers of the hall, of
the device, of the context and of the core; SETS of WAIT retires when the deadline has passed and waits else (R175). A value
that its register refuses raises BOUNDS and writes nothing (R198, R548); a register of a hall that is RESETTING is not
written and the write is counted (R423). -/
def Obligations.SpecialRegisters : Prop :=
  (∀ (p : Nat) (s t : State) (r : Run) (rd : R5) (sel : BitVec 8),
     Issues s p (.gets p rd sel) (getsStair sel.toNat) r t → t.specOf r.scn = none →
     (∀ v, specialValue t r sel.toNat = some v →
       exec (.gets p rd sel) s = .next (Retires (t.setW r rd.toNat (fix v)) r (.gets p rd sel) t)) ∧
     (∀ j, j < 9 → sel.toNat = 0x60 + j →
       exec (.gets p rd sel) s = .next (Retires (t.setW r rd.toNat (match t.landing r with
         | .none => nil
         | .ls => if j = 8 then fixN (t.core r.p).lsLf.toNat
           else strip (t.compat r.hall) (look Word.fix0 (t.core r.p).lsLw j)
         | .own k => if j = 8 then fixN ((t.regs r).getLf k).toNat
           else strip (t.compat r.hall) ((t.regs r).getLw k j))) r (.gets p rd sel) t)) ∧
     (∀ c, sel = 0x84 → c = t.core r.p →
       ∃ n v u, v = setFld c.keepI 63 48 (lfsrSteps (BitVec.ofNat 16 (fld c.keepI 63 48)) n).toNat ∧
         u = t.freeNat.2.setCore r.p { c with keepI := v } ∧
         exec (.gets p rd sel) s = .next (Retires (u.setW r rd.toNat (fix v)) r (.gets p rd sel) t))) ∧
  (∀ (p : Nat) (s t : State) (r : Run) (rd : R5) (sel : BitVec 8) (v : BitVec 64),
     Issues s p (.sets p sel rd) (setsStair sel.toNat) r t → t.specOf r.scn = none → t.getW r rd.toNat = fix v →
     (sel = 0x01 → v.toNat < 2 ^ 32 →
       exec (.sets p sel rd) s =
         .next (Retires (t.setRegs r { t.regs r with cnt := v.setWidth 32 } g4) r (.sets p sel rd) t)) ∧
     (sel = 0x01 → 2 ^ 32 ≤ v.toNat → exec (.sets p sel rd) s = .next (t.take r (mkTrap 0x05 0 (fix v)))) ∧
     (sel = 0x02 → fld v 2 0 = 0 → fld v 63 44 = 0 →
       exec (.sets p sel rd) s =
         .next (Retires (t.setRegs r { t.regs r with slim := v.setWidth 44 } g4) r (.sets p sel rd) t)) ∧
     ((sel = 0x03 ∨ sel = 0x04) → fld v 2 0 = 0 → fld v 63 44 = 0 → ∀ u,
       u = t.setRegs r (if sel = 0x03 then { t.regs r with allocp := v.setWidth 44 }
         else { t.regs r with allocl := v.setWidth 44 }) g4 →
       exec (.sets p sel rd) s =
         .next (Retires (u.setSlot r.hcn { u.slot r.hcn with unchecked := true }) r (.sets p sel rd) t)) ∧
     ((sel = 0x02 ∨ sel = 0x03 ∨ sel = 0x04) → fld v 2 0 ≠ 0 →
       exec (.sets p sel rd) s = .next (t.take r (mkTrap 0x07 v (fix v)))) ∧
     (0x60 ≤ sel.toNat → sel.toNat ≤ 0x67 → exec (.sets p sel rd) s = .next (Retires (match t.landing r with
       | .none => t
       | .ls => t.setCore r.p { t.core r.p with lsLw := put Word.fix0 (t.core r.p).lsLw (sel.toNat - 0x60) (fix v) }
       | .own k => t.setRegs r ((t.regs r).putLw k (sel.toNat - 0x60) (fix v)) g6) r (.sets p sel rd) t)) ∧
     (sel = 0x68 → alignedOk v = true → exec (.sets p sel rd) s = .next (Retires (match t.landing r with
       | .none => t
       | .ls => t.setCore r.p { t.core r.p with lsLf := v.setWidth 44 }
       | .own k => t.setRegs r ((t.regs r).putLf k (v.setWidth 44)) g6) r (.sets p sel rd) t)) ∧
     (sel = 0x00 → exec (.sets p sel rd) s =
         .next (Retires (t.setRegs r { t.regs r with status := setsStatus (t.regs r).status v (stStair (t.status r)) } g4) r
           (.sets p sel rd) t)) ∧
     (sel = 0x58 → fld v 63 16 = 0 → exec (.sets p sel rd) s =
         .next (Retires (t.setRegs r { t.regs r with bankwin := v.setWidth 16 } g4) r (.sets p sel rd) t)) ∧
     (sel = 0x59 → fld v 63 60 = 1 → fld v 59 0 ≤ t.dt.toNat → exec (.sets p sel rd) s =
         .next (Retires (t.setRegs r { t.regs r with wait := v } g4) r (.sets p sel rd) t)) ∧
     (sel = 0x59 → fld v 63 60 = 1 → t.dt.toNat < fld v 59 0 → stSth (t.status r) = false → exec (.sets p sel rd) s =
         .next ((t.setRegs r { t.regs r with wait := v } g4).await r (.timer (fld v 59 0)))) ∧
     (sel = 0x5A → fld v 63 32 = 0 → exec (.sets p sel rd) s =
         .next (Retires (t.setRegs r { t.regs r with msgp := v.setWidth 32 } g4) r (.sets p sel rd) t)) ∧
     (∀ lc, sel = 0x5B → fld v 63 16 = 0 → fld v 7 3 = 0 →
       lc = setBit (setFld (setFld 0 15 8 (fld v 15 8)) 1 0 (fld v 1 0)) 2 (bit (t.regs r).landctl 2) →
       exec (.sets p sel rd) s = .next (Retires (t.setRegs r { t.regs r with landctl := lc } g6) r (.sets p sel rd) t)) ∧
     ((sel = 0x40 ∨ sel = 0x42) → t.sysBad sel.toNat v = false → t.resetting r.hall = false →
       (t.compat r.hall = false ∨ bit v 0 = false) →
       exec (.sets p sel rd) s = .next (Retires (t.setSys r.hall sel.toNat v) r (.sets p sel rd) t)) ∧
     ((sel = 0x41 ∨ sel = 0x43 ∨ sel = 0x48 ∨ sel = 0x49 ∨ sel = 0x80) → t.sysBad sel.toNat v = false →
       t.resetting r.hall = false →
       exec (.sets p sel rd) s = .next (Retires (t.setSys r.hall sel.toNat v) r (.sets p sel rd) t)) ∧
     ((sel = 0x44 ∨ sel = 0x45 ∨ sel = 0x4C ∨ sel = 0x4D) → t.sysBad sel.toNat v = false →
       exec (.sets p sel rd) s = .next (Retires (t.setSys 0 sel.toNat v) r (.sets p sel rd) t)) ∧
     (sel = 0x50 → t.sysBad 0x50 v = false → bit (t.reg (Reg.coreSthBase r.p)) 63 = false → bit v 0 = false →
       fld v 39 0 < t.part.memSize → exec (.sets p sel rd) s = .next (Retires (t.setReg (Reg.coreSthBase r.p)
         (setBit (setFld 0 39 0 (fld v 39 0)) 63 true)) r (.sets p sel rd) t)) ∧
     (sel = 0x51 → t.sysBad 0x51 v = false →
       exec (.sets p sel rd) s = .next (Retires (t.setReg (Reg.coreSthSpInit r.p) v) r (.sets p sel rd) t)) ∧
     (sel = 0x81 → fld v 51 50 ≠ 3 → (stStair (t.status r) = 1 → fld v 41 36 = r.hall) →
       exec (.sets p sel rd) s = .next (Retires (t.setCore r.p { t.core r.p with
         stage := setFld (setBit v 48 true) 47 42 (r.hcn % 64) }) r (.sets p sel rd) t)) ∧
     (sel = 0x82 → exec (.sets p sel rd) s =
         .next (Retires (t.setCore r.p { t.core r.p with keepD := v }) r (.sets p sel rd) t)) ∧
     (sel = 0x84 → fld v 47 32 = 0 → exec (.sets p sel rd) s = .next (Retires (t.setCore r.p { t.core r.p with
         keepI := setFld (t.core r.p).keepI 31 0 (fld v 31 0) }) r (.sets p sel rd) t)) ∧
     (4 < sel.toNat → t.sysBad sel.toNat v = true → exec (.sets p sel rd) s = .next (t.take r (mkTrap 0x05 0 (fix v)))) ∧
     (sysHallDomain sel.toNat = true → t.sysBad sel.toNat v = false → t.resetting r.hall = true →
       exec (.sets p sel rd) s = .next (Retires (t.countRsv 2 (sel.toNat + r.hall * 256)) r (.sets p sel rd) t)))

/-- WGET through a window whose context is neither Parked nor Spilled, and WPUT, only set STATUS.WF (R152, R188). WGET of a
Parked context reads the selected register of its slot, of a Spilled one the slot of its descriptor, and clears WF; WPUT
writes the register in the slot and marks its group dirty, or writes the descriptor's slot and no other byte, and clears WF
(R186 to R189). A window at stair 1 on another hall's context raises STAIR_VIOLATION (R189). -/
def Obligations.BankWindow : Prop :=
  ∀ (p : Nat) (s t u : State) (r : Run) (rd : R5) (sel : BitVec 8) (scn n : Nat) (w : Word) (h desc pa : Nat),
    t.specOf r.scn = none → scn = (t.regs r).bankwin.toNat → h = (t.ctx scn).hall →
    pa = desc + 8 * (1 + selSlot sel.toNat) →
    (t.windowForeign r scn = true →
      (Issues s p (.wget p rd sel) 1 r t →
        exec (.wget p rd sel) s = .next (t.take r (stairViolation (.wget p rd sel) (t.regs r).pc))) ∧
      (Issues s p (.wput p sel rd) 1 r t →
        exec (.wput p sel rd) s = .next (t.take r (stairViolation (.wput p sel rd) (t.regs r).pc)))) ∧
    (t.windowForeign r scn = false →
      (Issues s p (.wget p rd sel) 1 r t → t.window scn = .closed →
        exec (.wget p rd sel) s = .next (Retires (t.setWf r true) r (.wget p rd sel) t)) ∧
      (Issues s p (.wput p sel rd) 1 r t → t.window scn = .closed →
        exec (.wput p sel rd) s = .next (Retires (t.setWf r true) r (.wput p sel rd) t)) ∧
      (Issues s p (.wget p rd sel) 1 r t → t.window scn = .parked n →
        exec (.wget p rd sel) s = .next (Retires ((t.setW r rd.toNat (if sel = 0x26 then fixN 0 else
          strip (t.compat h) ((t.slot n).regs.selWord sel.toNat))).setWf r false) r (.wget p rd sel) t)) ∧
      (Issues s p (.wget p rd sel) 1 r t → t.window scn = .spilled desc → sel ≠ 0x26 → t.agentLoad pa = (w, u) →
        (u.compat h = true ∨ w.isPtr = false) →
        exec (.wget p rd sel) s =
          .next (Jumps ((u.setW r rd.toNat (strip (u.compat h) w)).setWf r false) r (u.nextPc r (.wget p rd sel)) t)) ∧
      (∀ x, Issues s p (.wput p sel rd) 1 r t → t.window scn = .parked n → stStair (t.status r) = 2 →
        (t.slot n).regs.selPut sel.toNat (strip (t.compat h) (t.getW r rd.toNat)) false = (x, false) →
        exec (.wput p sel rd) s = .next (Retires (((t.setSlot n { t.slot n with
          regs := x, dirty := (t.slot n).dirty ||| selGroup sel.toNat,
          unchecked := (t.slot n).unchecked || sel.toNat = 0x24 || sel.toNat = 0x25 }).alertsDue scn).setWf r false) r
            (.wput p sel rd) t)) ∧
      (Issues s p (.wput p sel rd) 1 r t → t.window scn = .spilled desc → stStair (t.status r) = 2 → sel.toNat < 0x20 →
        t.NoErrors → (t.ctx scn).pend = 0 → w = strip (t.compat h) (t.getW r rd.toNat) →
        (t.compat h = true ∨ w.isPtr = false) →
        ∃ v, exec (.wput p sel rd) s = .next v ∧ v.memWord pa = w ∧ bit (v.status r) 5 = false ∧
          SameOutside t v pa (pa + 8)))

/-- TLBWI writes the entry that TLB_STAGE and its PTE make at the index it names, at stair 2 any index, at stair 1 one that is
not kept, with a page that its hall reaches; a kept index raises STAIR_VIOLATION there (R153, R258, R260). TLBWR writes it
at an entry that is not kept, which the replacement LFSR picks, or raises BOUNDS when every one is kept (R258; the LFSR has
made an open number of shifts, log entry 29). A write with a TLB_STAGE that is not live or of another slot writes nothing
and counts DROPPED (R260); a PTE with a reserved bit or an address that its level does not align raises BOUNDS (R260). TLBI
starts an invalidation that every core which is neither held nor halted must still acknowledge, and PC stays on it (R264,
R265). TLBI_ACK of a core with no posted store waiting removes the entries in the scope from its TLBs and the core from the
outstanding ones (R265); the last one ends the TLBI, and PC moves behind it (R265); with none outstanding nothing happens.
-/
def Obligations.TlbMaintenance : Prop :=
  (∀ (p : Nat) (s t : State) (r : Run) (ra rb : R5) (w x : Word) (st : BitVec 64) (sel : Nat),
     t.specOf r.scn = none → w = t.getW r ra.toNat → x = t.getW r rb.toNat → st = (t.core r.p).stage → sel = fld st 49 49 →
     pteFault w = none → x.tag = 0 → fld st 51 50 < 3 →
     (stStair (t.status r) = 2 ∨ bit w.payload 63 = false ∨
       t.reach r.hall (2 ^ 14 * fld w.payload 39 14) (pageSize (fld st 51 50)) = true) →
     (Issues s p (.tlbwi p ra rb) 1 r t → x.payload.toNat < tlbSize sel →
       (stStair (t.status r) = 1 → (t.core r.p).kept sel x.payload.toNat = true →
         exec (.tlbwi p ra rb) s = .next (t.take r (stairViolation (.tlbwi p ra rb) (t.regs r).pc))) ∧
       ((stStair (t.status r) = 2 ∨ (t.core r.p).kept sel x.payload.toNat = false) →
         (bit st 48 = true → fld st 47 42 = r.hcn % 64 →
           (bit w.payload 63 = true → pteBad w.payload (fld st 51 50) = false) →
           exec (.tlbwi p ra rb) s = .next (Retires (t.setCore r.p ((t.core r.p).setTlb sel x.payload.toNat
             (stagedEntry st w.payload))) r (.tlbwi p ra rb) t)) ∧
         (bit st 48 = true → fld st 47 42 = r.hcn % 64 → bit w.payload 63 = true → pteBad w.payload (fld st 51 50) = true →
           exec (.tlbwi p ra rb) s = .next (t.take r (mkTrap 0x05 0 w))) ∧
         ((bit st 48 = false ∨ fld st 47 42 ≠ r.hcn % 64) →
           exec (.tlbwi p ra rb) s = .next (Retires (t.bumpRf (Reg.tlbStat r.p) 63 48 1) r (.tlbwi p ra rb) t)))) ∧
     (Issues s p (.tlbwr p ra) 1 r t → (∃ k, k < tlbSize sel ∧ (t.core r.p).kept sel k = false) →
       (bit st 48 = true → fld st 47 42 = r.hcn % 64 → (bit w.payload 63 = true → pteBad w.payload (fld st 51 50) = false) →
         ∃ n, n < tlbSize sel ∧ (t.core r.p).kept sel n = false ∧
           exec (.tlbwr p ra) s = .next (Retires ((t.lfsr r.p).2.setCore r.p (((t.lfsr r.p).2.core r.p).setTlb sel n
             (stagedEntry st w.payload))) r (.tlbwr p ra) t)) ∧
       ((bit st 48 = false ∨ fld st 47 42 ≠ r.hcn % 64) →
         exec (.tlbwr p ra) s = .next (Retires ((t.lfsr r.p).2.bumpRf (Reg.tlbStat r.p) 63 48 1) r (.tlbwr p ra) t))) ∧
     (Issues s p (.tlbwr p ra) 1 r t → (∀ k, k < tlbSize sel → (t.core r.p).kept sel k = true) →
       exec (.tlbwr p ra) s = .next ((t.lfsr r.p).2.take r (mkTrap 0x05 0 w)))) ∧
  ((∀ (p : Nat) (s t : State) (r : Run) (ra : R5) (v : BitVec 64), Issues s p (.tlbi p ra) 1 r t →
     t.specOf r.scn = none → t.getW r ra.toNat = fix v → 1 ≤ fld v 63 60 → fld v 63 60 ≤ 4 → fld v 41 30 = 0 →
     (stStair (t.status r) = 2 ∨ fld v 59 54 = r.hall) →
     ∃ u, exec (.tlbi p ra) s = .next u ∧
       u.tlbis = t.tlbis ++ [⟨p, r.scn, v, t.part.pcns.filter (fun q => !t.acksAtOnce q)⟩] ∧ u.regs r = t.regs r ∧
       (∀ q k e, q ∈ t.part.pcns → t.acksAtOnce q = true → (k, e) ∈ (u.core q).dtlb → scopeHits v e = false)) ∧
   (∀ (p : Nat) (s : State) (j : TlbiJob), s.tlbis = [j] → p ∈ j.left → s.storersOn p = [] →
     ∃ u, exec (.tlbiAck p) s = .next u ∧
       (∀ k e, (k, e) ∈ (u.core p).dtlb → scopeHits j.scope e = false) ∧
       (∀ k e, (k, e) ∈ (u.core p).itlb → scopeHits j.scope e = false) ∧
       ((∃ q, q ∈ j.left ∧ q ≠ p) → u.tlbis = [{ j with left := j.left.filter (· ≠ p) }]) ∧
       (∀ r, (∀ q, q ∈ j.left → q = p) → s.running j.core = some r → r.scn = j.scn → stSs (s.status r) = false →
         u.tlbis = [] ∧ (u.regs r).pc = (s.regs r).pc + 4)) ∧
   (∀ (p : Nat) (s : State), (∀ j, j ∈ s.tlbis → p ∉ j.left) → exec (.tlbiAck p) s = .next s))

/-- TWALK on a core whose microcode is not redirected writes the leaf that its walk finds as RAW to rd and loads TLB_STAGE
with its level, the slot, the hall and the page number, LIVE (R259); a failed walk raises its cause (R259). The walk ends at
a word whose V is 0 or L 1, on level 2 at the latest, and goes on else at the table that ADDR names, with the index of its
level; an address outside every region or a POISON word is WALK_BUS_ERROR (0x0D), one in DEVICE or HOSTWIN, and at stair 1
one in a bin of another hall, WALK_REGION (0x0E) (R259). -/
def Obligations.TableWalks : Prop :=
  (∀ (s u : State) (p h a lvl n : Nat) (low : Bool) (va : BitVec 64) (w : Word), u = (s.coreLoad p .mut a).2 →
    w = s.memWord a →
    (regionOf s.part a = .outside → s.walk p h low va a lvl (n + 1) = (.fail 0x0D a, s)) ∧
    (regionOf s.part a ≠ .outside → regionOf s.part a ≠ .memory → s.walk p h low va a lvl (n + 1) = (.fail 0x0E a, s)) ∧
    (regionOf s.part a = .memory → low = true → (s.binOf a).hall ≠ h →
      s.walk p h low va a lvl (n + 1) = (.fail 0x0E a, s)) ∧
    (regionOf s.part a = .memory → (low = false ∨ (s.binOf a).hall = h) → s.Faithful p →
      (w.type = 0x32 → s.walk p h low va a lvl (n + 1) = (.fail 0x0D a, u)) ∧
      (w.type ≠ 0x32 → bit w.payload 63 = false ∨ bit w.payload 62 = true ∨ lvl = 2 →
        s.walk p h low va a lvl (n + 1) = (.leaf lvl w.payload, u)) ∧
      (w.type ≠ 0x32 → bit w.payload 63 = true → bit w.payload 62 = false → lvl < 2 →
        s.walk p h low va a lvl (n + 1) = u.walk p h low va
          (2 ^ 14 * fld w.payload 39 14 + 8 * (if lvl = 0 then fld va 35 25 else fld va 24 14)) (lvl + 1) n))) ∧
  ∀ (p : Nat) (s t u : State) (r : Run) (rd ra : R5) (x : Word), (t.core r.p).patched = false → t.specOf r.scn = none →
    x = t.getW r ra.toNat →
    Issues s p (.twalk p rd ra) 1 r t → x.type ≠ 0x32 → fld x.payload 63 44 = 0 →
    (∀ lvl v, t.walk r.p r.hall (stStair (t.status r) = 1) x.payload
        (2 ^ 11 * fld (t.sys r.hall 0x80) 39 11 + 8 * fld x.payload 43 36) 0 3 = (.leaf lvl v, u) →
      exec (.twalk p rd ra) s = .next (Jumps ((u.setCore r.p { u.core r.p with
        stage := stageWord (u.asid r.hall) lvl (fld (u.core r.p).stage 49 49) (r.hcn % 64) r.hall
          (fld (u.core r.p).stage 35 30) (fld x.payload 43 14) }).setW r rd.toNat (raw v)) r
        (u.nextPc r (.twalk p rd ra)) t)) ∧
    (∀ cause a, t.walk r.p r.hall (stStair (t.status r) = 1) x.payload
        (2 ^ 11 * fld (t.sys r.hall 0x80) 39 11 + 8 * fld x.payload 43 36) 0 3 = (.fail cause a, u) →
      exec (.twalk p rd ra) s = .next (u.take r (mkTrap cause x.payload (raw (BitVec.ofNat 64 a)))))

/-- WAITP at a position that is not ahead delivers NOVALUE; at one ahead the context waits for it (R154). SPEC.OPEN at a
position that is not ahead goes on without a speculation, SPECK 0 (R155); without the Gallery, in a compatible hall and with
no free record it waits for the crossing (R155, R383); one that a discard restarts waits for the crossing after reason 5 and
goes on with SPECK 0 after reasons 1 and 4 (R156); with the Gallery and a free record it opens a speculation, SPECK its
number, whose checkpoint holds the context's registers (R155, R380, R381). SPEC.CLOSE without an open speculation goes on,
with one it waits for the outcome (R157). In the stairhead a wait raises STAIR_VIOLATION (R217). -/
def Obligations.PositionWaits : Prop :=
  ∀ (p : Nat) (s t : State) (r : Run) (rd ra rb : R5) (k : BitVec 64),
    (Issues s p (.waitp p rd ra) 0 r t → t.specOf r.scn = none → t.posFault r.hall (t.getW r ra.toNat) = none →
      k = (t.getW r ra.toNat).payload →
      (t.posAhead k ≤ 0 → exec (.waitp p rd ra) s = .next (Retires (t.setW r rd.toNat novalue) r (.waitp p rd ra) t)) ∧
      (0 < t.posAhead k → stSth (t.status r) = false →
        exec (.waitp p rd ra) s = .next (t.await r (.position k rd.toNat))) ∧
      (0 < t.posAhead k → stSth (t.status r) = true →
        exec (.waitp p rd ra) s = .next (t.take r (stairViolation (.waitp p rd ra) (t.regs r).pc)))) ∧
    (Issues s p (.specOpen p ra rb) 0 r t → t.specOf r.scn = none → t.posFault r.hall (t.getW r ra.toNat) = none →
      (t.getW r rb.toNat).isNil = true → k = (t.getW r ra.toNat).payload →
      (t.posAhead k ≤ 0 → t.reopening r = 0 →
        exec (.specOpen p ra rb) s = .next (Retires (t.setSpeck r 0) r (.specOpen p ra rb) t)) ∧
      (0 < t.posAhead k → stSth (t.status r) = false → t.reopening r = 0 →
        (t.part.hasGallery = false ∨ t.compat r.hall = true ∨ 1024 ≤ t.galOpen) →
        exec (.specOpen p ra rb) s = .next (t.await r (.crossing k))) ∧
      (0 < t.posAhead k → stSth (t.status r) = false → t.reopening r = 1 →
        exec (.specOpen p ra rb) s = .next ((t.reopened r).await r (.crossing k))) ∧
      (0 < t.posAhead k → stSth (t.status r) = false → t.reopening r = 2 →
        exec (.specOpen p ra rb) s = .next (Retires ((t.reopened r).setSpeck r 0) r (.specOpen p ra rb) t)) ∧
      (0 < t.posAhead k → stSth (t.status r) = false → t.reopening r = 0 → t.part.hasGallery = true →
        t.compat r.hall = false → (∃ i, i < 1024 ∧ (t.galr i).st = .free) → t.galOpen < 1024 →
        ∃ i q v, i < 1024 ∧ (t.galr i).st = .free ∧ q = nextSeq t.galSeq ∧
          v = ({ t.freeNat.2 with galSeq := q }).setGal i { GalRec.reset with
            st := .opened, hall := r.hall, scn := r.scn, remote := t.remoteAxis (posAxis k), seq := q, key := k,
            slice := r.p / 9, ckpt := t.regs r } ∧
          exec (.specOpen p ra rb) s =
            .next (Retires (v.setRegs r { v.regs r with speck := BitVec.ofNat 32 (1024 * q + i) } g4) r
              (.specOpen p ra rb) t))) ∧
    (Issues s p (.specClose p) 0 r t → t.specOf r.scn = none →
      exec (.specClose p) s = .next (Retires t r (.specClose p) t)) ∧
    (Issues s p (.specClose p) 0 r t → t.specOf r.scn ≠ none → stSth (t.status r) = false →
      exec (.specClose p) s = .next (t.await r (.outcome true)))

/-- The entry to a handler with a free landing: the frame goes below SP, landing LUSE takes the cause's words and the frame's
address, SP points to the frame, LUSE rises, and STATUS has the target stair with SS, TOFF and RES off (R76 to R78, R203,
R205, R206). With VMODEs.MODE 0 the handler is VBASEs plus 64 times the cause; in a compatible hall, below stair 2, VBASEs
plus 32 times the cause (R225); with MODE 1 it is that of the valid descriptor at VBASEs plus 16 times the cause, which also
names the stair, the stack and the alerts masked (R204). An entry that fails goes to the stairhead (R214 to R217, R219):
with L3 in use the code is 3, with a bad SP 2. PC is CORE_STH_BASE, w31 points to the frame, 64 bytes below
CORE_STH_SP_INIT, STATUS has stair 2, STH, TOFF and all alerts masked with CC and WF kept, LS holds the words of R216 and
CORE_STH_CAUSE the codes, the SCN and its count; LANDCTL and the other registers stay. A core without a locked stairhead, or
in it, halts (R215, R217, R221). XRET through landing k restores PC, STATUS, CNT and SP from the frame that LF names and
frees the landing, when the four words can be read and are good, nothing is stepped and no landing remains to be filled
(R207); in the stairhead it does so from the frame that LS names (R217); with a landing to be filled, LANDING_FILL is raised
behind it (R185, R218); a word of the frame that is not good raises its cause and restores nothing (R207); outside a handler
it raises STAIR_VIOLATION (R207). -/
def Obligations.ExceptionEntryAndReturn : Prop :=
  (∀ (s : State) (r : Run) (t : Trap) (pas : List Nat) (base : Int),
     (Enters s r t pas base → s.take r t = s.entered r t pas base) ∧
     (∀ n tgt, Raises s r t → n = stStair (s.status r) → n < 2 → s.compat r.hall = true →
       spOk ((s.regs r).getW 31) (s.regs r).slim.toNat = true → base = (((s.regs r).getW 31).payload.toNat : Int) - 64 →
       tgt = fld (s.vmode r n) 2 1 → s.framePas r tgt base 8 = .inl pas →
       s.take r t = s.pushed r t pas base tgt 0x3F (BitVec.ofNat 44 (s.vbase r n + 32 * t.cause))) ∧
     (∀ n a w0 w1 u v sp, Raises s r t → n = stStair (s.status r) → (s.compat r.hall = false ∨ n = 2) →
       bit (s.vmode r n) 0 = true → a = s.vbase r n + 16 * t.cause → s.vectorWord r (max n 1) a = (.inl w0, u) →
       u.vectorWord r (max n 1) (a + 8) = (.inl w1, v) → descriptorBad n w0.payload w1.payload = false →
       (bit w0.payload 46 = false ∨ fld w0.payload 45 44 = n → sp = (v.regs r).getW 31 ∧
         spOk sp (v.regs r).slim.toNat = true) →
       (bit w0.payload 46 = true → fld w0.payload 45 44 ≠ n → sp = fix (BitVec.ofInt 64 (v.ssp r (fld w0.payload 45 44))) ∧
         0 ≤ v.ssp r (fld w0.payload 45 44) ∧ v.ssp r (fld w0.payload 45 44) < 2 ^ 64 ∧
         spOk sp (v.sspBottom r (fld w0.payload 45 44)) = true) →
       base = (sp.payload.toNat : Int) - 64 → v.framePas r (fld w0.payload 45 44) base 8 = .inl pas →
       s.take r t = v.pushed r t pas base (fld w0.payload 45 44)
         (Nat.lor (stAm (v.status r)) (fld w0.payload 53 48)) (BitVec.ofNat 44 (fld w0.payload 43 0)))) ∧
  (∀ (s : State) (r : Run) (t : Trap) (x : Regs) (f : EntryFail) (base : BitVec 64) (top : Nat),
     x = s.regs r → s.specOf r.scn = none → (s.core r.p).patched = false → t.cause ≠ 0x0F → t.cause ≠ 0x11 → t.cause ≠ 0x17 →
     t.ra = none → t.stage = none → base = s.reg (Reg.coreSthBase r.p) →
     top = 8 * fld (s.reg (Reg.coreSthSpInit r.p)) 39 3 → s.Faithful r.p →
     (stSth x.status = true → ∃ u, s.take r t = u ∧ (u.core r.p).halt = some 1 ∧ u.regs r = x) ∧
     (stSth x.status = false →
       (lcL3 x.landctl = true ∧ f = ⟨3, 0, 0, none, 0, none⟩) ∨
       (lcL3 x.landctl = false ∧ lcUse x.landctl < 3 ∧ s.compat r.hall = false ∧
         bit (s.vmode r (stStair x.status)) 0 = false ∧ spOk (x.getW 31) x.slim.toNat = false ∧
         f = ⟨2, 0, (x.getW 31).payload, some (fld (s.vmode r (stStair x.status)) 2 1), 0, none⟩) →
       (bit base 63 = false → ∃ u, s.take r t = u ∧ (u.core r.p).halt = some 2 ∧ u.regs r = x) ∧
       (bit base 63 = true → 64 ≤ top → top < s.part.memSize → ∃ u, s.take r t = u ∧
         (u.regs r).pc = BitVec.ofNat 44 (fld base 39 0) ∧ (u.regs r).status = stairheadStatus x.status ∧
         (u.regs r).getW 31 = fixN (top - 64) ∧ (∀ n, n ≠ 31 → (u.regs r).getW n = x.getW n) ∧
         (u.regs r).landctl = x.landctl ∧ (u.core r.p).lsLf = BitVec.ofNat 44 (top - 64) ∧
         (u.core r.p).lsLw = put Word.fix0 (put Word.fix0 (put Word.fix0 (put Word.fix0 (put Word.fix0 (put Word.fix0
           (put Word.fix0 (put Word.fix0 (s.core r.p).lsLw 0 (fixN f.code)) 1 (fixN f.exc)) 2 (fix f.lw2)) 3
           (match f.target with
             | some n => fixN n
             | none => fix (BitVec.allOnes 64))) 4 (fixN r.scn)) 5 (fix x.landctl)) 6 t.word) 7 (fix f.word0) ∧
         (∀ k w, (frameOf x t)[k]? = some w → u.memWord (top - 64 + 8 * k) = w) ∧
         SameOutside s u (top - 64) top ∧
         u.rf (Reg.coreSthCause r.p) 63 60 = f.code ∧ u.rf (Reg.coreSthCause r.p) 59 54 = t.cause % 64 ∧
         u.rf (Reg.coreSthCause r.p) 53 48 = f.exc % 64 ∧ u.rf (Reg.coreSthCause r.p) 47 32 = r.scn % 65536 ∧
         u.rf (Reg.coreSthCause r.p) 15 0 = min (s.rf (Reg.coreSthCause r.p) 15 0 + 1) 65535))) ∧
  (∀ (p : Nat) (s t t1 t2 t3 u v : State) (r : Run) (w0 w1 w6 w7 : Word) (f : Int) (n : Nat),
     Issues s p (.xret p) 0 r t → t.specOf r.scn = none → n = stStair (t.status r) →
     (t.landing r = .none → exec (.xret p) s = .next (t.take r (stairViolation (.xret p) (t.regs r).pc))) ∧
     (t.landing r ≠ .none →
       (∀ k, t.landing r = .own k → f = ((t.regs r).getLf k).toNat) → (t.landing r = .ls → f = (t.core r.p).lsLf.toNat) →
       t.loadAt r n (f + 0) (n = 0) true = .ok w0 t1 → t1.loadAt r n (f + 8) (n = 0) true = .ok w1 t2 →
       t2.loadAt r n (f + 48) (n = 0) true = .ok w6 t3 → t3.loadAt r n (f + 56) (n = 0) true = .ok w7 u →
       (∀ e, frameFault (.xret p) (t.regs r).pc n w0 w1 w6 w7 = some e → exec (.xret p) s = .next (u.take r e)) ∧
       (frameFault (.xret p) (t.regs r).pc n w0 w1 w6 w7 = none → stSs (t.status r) = false →
         v = u.setRegs r { frameRegs (u.regs r) w0 w1 w6 w7 with
           landctl := freeLanding (u.regs r).landctl (t.landing r) } (0x8 ||| g4 ||| g6) →
         (∀ k, t.landing r = .own k → (k = 3 ∨ k ≠ 0 ∨ lcDepth (u.regs r).landctl = 0) → exec (.xret p) s = .next v) ∧
         (t.landing r = .own 0 → lcDepth (u.regs r).landctl ≠ 0 →
           exec (.xret p) s = .next (v.take r (mkTrap 0x17 0 (fixN (lcDepth (u.regs r).landctl))))) ∧
         (t.landing r = .ls → (u.ctx r.scn).fillAgain = false → (u.ctx r.scn).busy = [] →
           ∃ x, exec (.xret p) s = .next x ∧ x.regs r = v.regs r ∧ x.mem = v.mem))))

/-- The lowest pending code that STATUS.AM does not mask, outside speculations, the stairhead and landing L3, is delivered:
the handler of cause 0x20 plus the code is entered, and the code is no longer pending (R114, R202, R211). ALERT_DELIVERY
does so, and so does every instruction of the context in place of its own effect (R202); with none pending ALERT_DELIVERY
changes nothing. -/
def Obligations.AlertDelivery : Prop :=
  ∀ (p : Nat) (s : State) (r : Run), s.running p = some r →
    (s.nextAlert r = none → exec (.alertDelivery p) s = .next s) ∧
    (∀ k e pas base t, s.nextAlert r = some k → (s.ctx r.scn).st = .running → s.tlbis = [] →
      e = mkTrap (0x20 + k) 0 (look Word.fix0 (s.ctx r.scn).alertWord k) → Enters s r e pas base →
      t = s.entered r e pas base →
      (∀ u, u = t.setCtx r.scn { t.ctx r.scn with
        pend := (t.ctx r.scn).pend &&& ~~~(BitVec.ofNat 6 (2 ^ k)),
        alertWord := put Word.fix0 (t.ctx r.scn).alertWord k Word.fix0 } →
        exec (.alertDelivery p) s = .next u ∧ (∀ i, coreOf i = some p → exec i s = .next u)))

/-- DISPATCH runs the context that the scheduler picks on a free core: it is Ready there, no Ready context of the core is of
higher priority, its hall has the smallest virtual time of the halls with a weight that are Ready at its level, it becomes
Running and the core's own (R173); with none Ready nothing happens. PREEMPTION and QUANTUM_END make the Running context
Ready and leave the core free (R174); neither changes a register or MEMORY, and neither happens in the stairhead (R217).
FILL_ON_DEMAND makes the one fill that is due (R182). TIMER_WAKE makes the one context whose deadline has come Ready behind
its SETS (R175, R176), and does nothing where none has come. WATCHDOG, when its period has passed, restarts it and makes
WATCHDOG pending at the route context of its hall, or ESCALATION at hall 0's where it has none, and does nothing before
(R213). REGISTER_SCAN of a slot that waits for its scan leaves no register with a stale pointer and changes no other one
(R332, R333). -/
def Obligations.Scheduling : Prop :=
  (∀ (p : Nat) (s : State),
     (s.coreFree p = true → s.readyOn p = [] → exec (.dispatch p) s = .next s) ∧
     (∀ scn h l, s.coreFree p = true → s.pickCtx p = some scn → h = (s.ctx scn).hall → l = (s.ctx scn).prio →
       (s.slot (s.ctx scn).hcn).scan = false → (s.glh h).phase ≠ .flip →
       (∀ m n, m ∈ s.readyOn p → n ∈ s.readyOn p → (s.ctx m).hcn % 64 = (s.ctx n).hcn % 64 → m = n) →
       scn ∈ s.readyOn p ∧ (∀ n, n ∈ s.readyOn p → (s.ctx n).prio ≤ l) ∧
       (∀ k, k ∈ s.readyHalls p l → s.weight k ≠ 0 →
         s.weight h ≠ 0 ∧ look 0 (s.core p).vt (l * 64 + h) ≤ look 0 (s.core p).vt (l * 64 + k)) ∧
       ∃ t, exec (.dispatch p) s = .next t ∧ (t.core p).run = some (s.ctx scn).hcn ∧
         t.ctx scn = { s.ctx scn with st := .running } ∧ (∀ n, n ≠ scn → t.ctx n = s.ctx n) ∧ t.slots = s.slots ∧
         t.mem = s.mem ∧ t.ctl = s.ctl) ∧
     (∀ r, s.running p = some r → (s.ctx r.scn).st = .running → s.pcnOf (s.ctx r.scn).hcn = p →
       (stSth (s.status r) = true → exec (.preemption p) s = .next s ∧ exec (.quantumEnd p) s = .next s) ∧
       (stSth (s.status r) = false →
         (∀ q, s.topReady p = some q → (s.ctx r.scn).prio < q →
           ∃ t, exec (.preemption p) s = .next t ∧ (t.ctx r.scn).st = .ready ∧ (t.core p).run = none ∧ t.slots = s.slots ∧
             t.mem = s.mem ∧ t.ctl = s.ctl) ∧
         (s.rf (Reg.ctxSched p) 15 0 ≠ 0 → (∃ n, n ∈ s.readyOn p ∧ (s.ctx n).prio = (s.ctx r.scn).prio) →
           ∃ t, exec (.quantumEnd p) s = .next t ∧ (t.ctx r.scn).st = .ready ∧ (t.core p).run = none ∧ t.slots = s.slots ∧
             t.mem = s.mem ∧ t.ctl = s.ctl)))) ∧
  (∀ s : State,
     (s.fillsShut = [] → s.fillsDue = [] → exec .fillOnDemand s = .next s) ∧
     (∀ scn n, s.fillsShut = [] → s.fillsDue = [(scn, n)] → Fillable s scn (s.pcnOf n) →
       ∃ t, exec .fillOnDemand s = .next t ∧ Filled s t scn n) ∧
     (s.waiters s.timerDue = [] → exec .timerWake s = .next s) ∧
     (∀ n d, s.waiters s.timerDue = [n] → Waits s n (.timer d) →
       ∃ t, exec .timerWake s = .next t ∧ Woken s t n ∧ t.ctl = s.ctl) ∧
     (∀ h, h < 64 → s.rf (Reg.evrAlertRoute h) 15 0 ≠ 0 →
       (s.dt.toNat < look 0 s.wdogFrom h + 1000000 * s.rf (Reg.evrAlertRoute h) 15 0 →
         exec (.watchdog h) s = .next s) ∧
       (∀ n code w, look 0 s.wdogFrom h + 1000000 * s.rf (Reg.evrAlertRoute h) 15 0 ≤ s.dt.toNat →
         (s.route h = some n ∧ code = 1 ∧ w = fixN h) ∨
           (h ≠ 0 ∧ s.route h = none ∧ s.route 0 = some n ∧ code = 3 ∧ w = fixN (0x21 + 65536 * h)) →
         (s.ctx n).deferred = [] →
         ∃ t, exec (.watchdog h) s = .next t ∧ look 0 t.wdogFrom h = s.dt.toNat ∧ (t.ctx n).pend.getLsbD code = true ∧
           look Word.fix0 (t.ctx n).alertWord code = w)) ∧
     (∀ hcn, (s.slot hcn).scn = none → exec (.registerScan hcn) s = .next s) ∧
     (∀ hcn scn h p, (s.slot hcn).scn = some scn → h = (s.ctx scn).hall → p = s.pcnOf hcn →
       ((s.slot hcn).scan = false → (s.glh h).phase ≠ .flip → exec (.registerScan hcn) s = .next s) ∧
       ((s.slot hcn).scan = true → s.compat h = false → (s.core p).patched = false → (s.core p).halt = none →
         s.specOf scn = none →
         (s.ctx scn).deferred = [] →
         ∃ t, exec (.registerScan hcn) s = .next t ∧ (t.slot hcn).scan = false ∧
           (∀ n, t.staleRef (.core p) h ((t.slot hcn).regs.getW n) = false) ∧
           (∀ n, s.staleRef (.core p) h ((s.slot hcn).regs.getW n) = false →
             (t.slot hcn).regs.getW n = (s.slot hcn).regs.getW n) ∧
           (t.slot hcn).regs.pc = (s.slot hcn).regs.pc ∧ (t.slot hcn).regs.status = (s.slot hcn).regs.status)))

/-- The context commands from an initiator that may give them (R168 to R172, R176 to R178): what each does to a context in the
states it is for, and the RESULT it leaves. FILL loads the descriptor into the slot (R164, R182). SPILL stores the registers
of the dirty groups in the descriptor's slots and the state in CONTROL, and frees the slot (R180, R181). PARK ends the wait;
RESUME and SETPRIO change the context's state and priority, for a Spilled one in CONTROL too; POST sets bits of MSGP, and
wakes a context that waits for one of them (R176, R177); CANCEL ends a wait (R178), a crossing
wait of SPEC.OPEN with SPECK 0 (log entry 18, the model's choice); CREATE and RETIRE bind and free the
context. A context command that its initiator may not give is refused and recorded, and nothing else happens (R169); a
command that the context's state does not fit leaves RESULT 2, and one to a context that does not exist RESULT 5 (R168,
R170); SPILL and PARK of a context with an open speculation leave RESULT 4 and wait for its outcome (R170); a wait on an
outcome or an allocation is not cancelled (R178). -/
def Obligations.ContextCommands : Prop :=
  (∀ (who : Initiator) (scn arg : Nat) (s : State) (c : SwCtx), Admits s who Reg.evrCtxCmd → scn < 65536 → arg < 2 ^ 32 →
     c = s.ctx scn →
     (∀ n, s.mayCommand who .fill scn = true →
       s.fillSlot scn (if arg % 256 = 0xFF then none else some (arg % 256)) = some n → Fillable s scn (s.pcnOf n) →
       ∃ t, exec (.fill who scn arg) s = .next t ∧ Filled s t scn n ∧ (t.ctx scn).result = 0) ∧
     (s.mayCommand who .fill scn = true → c.st = .spilled → c.fillPending = false →
       s.fillSlot scn (if arg % 256 = 0xFF then none else some (arg % 256)) = none →
       ∃ t, exec (.fill who scn arg) s = .next t ∧ (t.ctx scn).st = .spilled ∧ (t.ctx scn).fillPending = true ∧
         (t.ctx scn).result = 3 ∧ t.slots = s.slots ∧ t.mem = s.mem) ∧
     (∀ x, s.mayCommand who .spill scn = true → (c.st = .ready ∨ c.st = .waiting ∨ c.st = .parked) → s.specOf scn = none →
       (s.core (s.pcnOf c.hcn)).patched = false → s.Faithful (s.pcnOf c.hcn) → x = s.slot c.hcn →
       (s.compat c.hall = true ∨ ∀ k, 1 ≤ k → k ≤ 86 → (x.regs.selWord (slotSel k)).isPtr = false) →
       ∃ t, exec (.spill who scn) s = .next t ∧ (t.ctx scn).st = .spilled ∧ (t.ctx scn).resume = c.st ∧
         (t.ctx scn).result = 0 ∧ (t.slot c.hcn).scn = none ∧
         t.memWord (descSlot c.desc 0) = fixN (c.homeLcn * 256 + c.st.resumeCode * 16 + c.prio) ∧
         (∀ k, 1 ≤ k → k ≤ 86 → x.dirty &&& selGroup (slotSel k) ≠ 0 →
           t.memWord (descSlot c.desc k) = x.regs.selWord (slotSel k)) ∧
         (∀ k, 1 ≤ k → k ≤ 86 → x.dirty &&& selGroup (slotSel k) = 0 →
           t.memWord (descSlot c.desc k) = s.memWord (descSlot c.desc k)) ∧
         SameOutside s t (descSlot c.desc 0) (descSlot c.desc 87)) ∧
     (s.mayCommand who .park scn = true → (c.st = .ready ∨ c.st = .waiting) → (∀ a, c.wait ≠ some (.alloc a)) →
       s.specOf scn = none →
       exec (.park who scn) s = .next (s.setCtx scn { c with st := .parked, wait := none, result := 0 })) ∧
     (∀ r, s.mayCommand who .park scn = true → c.st = .running → c.wait = none → s.specOf scn = none →
       s.running (s.pcnOf c.hcn) = some r → r.scn = scn → stSth (s.slot c.hcn).regs.status = false →
       ∃ t, exec (.park who scn) s = .next t ∧ (t.ctx scn).st = .parked ∧ (t.ctx scn).result = 0 ∧
         (t.core (s.pcnOf c.hcn)).run = none ∧ t.slots = s.slots ∧ t.mem = s.mem) ∧
     (s.mayCommand who .resume scn = true → c.st = .parked →
       ∃ t, exec (.resume who scn) s = .next t ∧ t.ctx scn = { c with st := .ready, wait := none, result := 0 } ∧
         t.slots = s.slots ∧ t.mem = s.mem ∧ t.ctl = s.ctl) ∧
     (s.mayCommand who .resume scn = true → c.st = .spilled → c.resume = .parked → s.NoErrors →
       ∃ t, exec (.resume who scn) s = .next t ∧ (t.ctx scn).st = .spilled ∧ (t.ctx scn).resume = .ready ∧
         (t.ctx scn).result = 0 ∧ t.memWord (descSlot c.desc 0) = fixN (c.homeLcn * 256 + 2 * 16 + c.prio) ∧
         SameOutside s t (descSlot c.desc 0) (descSlot c.desc 1)) ∧
     (s.mayCommand who .setprio scn = true → c.st ≠ .none → c.st ≠ .spilled →
       ∃ t, exec (.setprio who scn arg) s = .next t ∧ t.ctx scn = { c with prio := arg % 8, result := 0 } ∧
         t.slots = s.slots ∧ t.mem = s.mem ∧ t.ctl = s.ctl) ∧
     (s.mayCommand who .setprio scn = true → c.st = .spilled → s.NoErrors →
       ∃ t, exec (.setprio who scn arg) s = .next t ∧ t.ctx scn = { c with prio := arg % 8, result := 0 } ∧
         t.memWord (descSlot c.desc 0) = fixN (c.homeLcn * 256 + c.resume.resumeCode * 16 + arg % 8) ∧
         SameOutside s t (descSlot c.desc 0) (descSlot c.desc 1)) ∧
     (s.mayCommand who .post scn = true → c.st ≠ .none → c.st ≠ .spilled → (∀ m, c.wait ≠ some (.message m)) →
       ∃ t, exec (.post who scn arg) s = .next t ∧
         (t.slot c.hcn).regs.msgp = (s.slot c.hcn).regs.msgp ||| BitVec.ofNat 32 arg ∧
         t.ctx scn = { c with result := 0 } ∧ t.mem = s.mem ∧ t.ctl = s.ctl) ∧
     (∀ m d, s.mayCommand who .post scn = true → Waits s scn (.message m) →
       d = ((s.slot c.hcn).regs.msgp ||| BitVec.ofNat 32 arg) &&& m → d ≠ 0 →
       ∃ t, exec (.post who scn arg) s = .next t ∧ Woken s t scn ∧ (t.ctx scn).result = 0 ∧
         (t.slot c.hcn).regs.wait = BitVec.ofNat 64 (3 * 2 ^ 60 + d.toNat) ∧
         (t.slot c.hcn).regs.msgp = ((s.slot c.hcn).regs.msgp ||| BitVec.ofNat 32 arg) &&& ~~~d) ∧
     (∀ w, s.mayCommand who .cancel scn = true → Waits s scn w →
       ((∃ d, w = .timer d) ∨ (∃ q, w = .doorbell q) ∨ (∃ m, w = .message m) ∨ (∃ e n, w = .transfer e n)) →
       ∃ t, exec (.cancel who scn) s = .next t ∧ Woken s t scn ∧ (t.slot c.hcn).regs.wait = 0 ∧ (t.ctx scn).result = 0) ∧
     (∀ k rd, s.mayCommand who .cancel scn = true → Waits s scn (.position k rd) → rd < 32 →
       ∃ t, exec (.cancel who scn) s = .next t ∧ Woken s t scn ∧ (t.slot c.hcn).regs.getW rd = unbound ∧
         (t.ctx scn).result = 0) ∧
     (∀ k, s.mayCommand who .cancel scn = true → Waits s scn (.crossing k) →
       ∃ t, exec (.cancel who scn) s = .next t ∧ Woken s t scn ∧ (t.slot c.hcn).regs.speck = 0 ∧ (t.ctx scn).result = 0) ∧
     (∀ e hdr w0 u v w h desc, s.mayCommand who .create scn = true → c.st = .none →
       s.agentLoad (2 ^ 19 * s.rf Reg.evrCtxtab 39 19 + 8 * scn) = (e, u) → bit e.payload 63 = true →
       h = fld e.payload 62 57 → h ≤ u.part.hallMax → u.hallCreated h = true → desc = 1024 * fld e.payload 39 10 →
       u.agentLoad desc = (hdr, v) → v.agentLoad (descSlot desc 0) = (w0, w) → createFault w.part.cores hdr w0 = none →
       (fld w0.payload 6 4 ≠ 2 →
         exec (.create who scn) s = .next (w.setCtx scn { SwCtx.reset with
           st := .spilled, resume := .parked, hall := h, prio := fld w0.payload 2 0, desc := desc,
           homeLcn := fld w0.payload 15 8 })) ∧
       (fld w0.payload 6 4 = 2 →
         ∃ t, exec (.create who scn) s = .next t ∧ (t.ctx scn).st = .spilled ∧ (t.ctx scn).resume = .ready ∧
           (t.ctx scn).hall = h ∧ (t.ctx scn).prio = fld w0.payload 2 0 ∧ (t.ctx scn).desc = desc ∧
           (t.ctx scn).homeLcn = fld w0.payload 15 8 ∧ t.slots = w.slots ∧ t.mem = w.mem)) ∧
     (s.mayCommand who .retire scn = true → c.st = .spilled → c.resume = .parked →
       exec (.retire who scn) s = .next (s.setCtx scn SwCtx.reset))) ∧
  (∀ (who : Initiator) (scn arg : Nat) (s : State) (c : SwCtx), Admits s who Reg.evrCtxCmd → scn < 65536 → arg < 2 ^ 32 →
     c = s.ctx scn →
     (∀ op i, (op = .fill ∧ i = Instr.fill who scn arg) ∨ (op = .spill ∧ i = .spill who scn) ∨
         (op = .park ∧ i = .park who scn) ∨ (op = .resume ∧ i = .resume who scn) ∨ (op = .setprio ∧
           i = .setprio who scn arg) ∨
         (op = .post ∧ i = .post who scn arg) ∨ (op = .cancel ∧ i = .cancel who scn) ∨
         (op = .create ∧ i = .create who scn) ∨ (op = .retire ∧ i = .retire who scn) →
       (s.mayCommand who op scn = false → exec i s = .next (s.refuseWrite who Reg.evrCtxCmd)) ∧
       (s.mayCommand who op scn = true → op ≠ .create → c.st = .none →
         exec i s = .next (s.setCtx scn { c with result := 5 })) ∧
       (s.mayCommand who op scn = true → c.st ≠ .none → c.st ≠ .running →
         ((op = .fill ∧ c.st ≠ .spilled) ∨ (op = .spill ∧ c.st = .spilled) ∨
           (op = .park ∧ (c.st = .spilled ∨ c.st = .parked)) ∨ (op = .cancel ∧ (c.st = .ready ∨ c.st = .parked)) ∨
           (op = .resume ∧ (c.st = .ready ∨ c.st = .waiting)) ∨ (op = .create) ∨ (op = .retire ∧ c.st ≠ .spilled)) →
         exec i s = .next (s.setCtx scn { c with result := 2 }))) ∧
     (s.mayCommand who .retire scn = true → c.st = .spilled → c.resume ≠ .parked →
       exec (.retire who scn) s = .next (s.setCtx scn { c with result := 2 })) ∧
     ((c.st = .ready ∨ c.st = .waiting) → s.specOf scn ≠ none →
       (s.mayCommand who .spill scn = true →
         exec (.spill who scn) s = .next (s.setCtx scn { c with result := 4, deferred := c.deferred ++ [.spill] })) ∧
       (s.mayCommand who .park scn = true →
         exec (.park who scn) s = .next (s.setCtx scn { c with result := 4, deferred := c.deferred ++ [.park] }))) ∧
     (∀ b, s.mayCommand who .cancel scn = true → c.st = .waiting → c.wait = some (.outcome b) →
       exec (.cancel who scn) s = .next (s.setCtx scn { c with result := 2 })))

/-- CANCEL of a waiting context, resident or Spilled, by an initiator that may give it (R178): a WAIT wait ends at once with
WAIT := FIX 0 (selector 0x28), a WAITP wait with rd := UNBOUND, in the context's slot or in its descriptor, and the context
is Ready (a Spilled one to be filled as Ready) behind its instruction with RESULT 0; a wait on a speculation outcome or an
allocation stays, with RESULT 2, REFUSED_STATE. -/
def Obligations.CancelEndsWaits : Prop :=
  ∀ (who : Initiator) (scn : Nat) (s : State) (c : SwCtx) (w : Wait), Admits s who Reg.evrCtxCmd → scn < 65536 →
    s.mayCommand who .cancel scn = true → c = s.ctx scn → c.wait = some w →
    (∀ sel v, (sel = 0x28 ∧ v = fixN 0 ∧ ((∃ d, w = .timer d) ∨ (∃ q, w = .doorbell q) ∨ (∃ m, w = .message m) ∨
          (∃ e n, w = .transfer e n))) ∨ (sel < 32 ∧ v = unbound ∧ ∃ k, w = .position k sel) →
      (c.st = .waiting → stSs (s.slot c.hcn).regs.status = false → ∃ t, exec (.cancel who scn) s = .next t ∧
        (sel = 0x28 → (t.slot c.hcn).regs.wait = 0) ∧ (sel < 32 → (t.slot c.hcn).regs.getW sel = unbound) ∧
        (∀ pc, pc = (s.slot c.hcn).regs.pc → pc.toNat % 2 = 0 → pc.toNat + 4 < 2 ^ 44 → (t.slot c.hcn).regs.pc = pc + 4) ∧
        t.ctx scn = { c with st := .ready, wait := none, result := 0 } ∧ t.mem = s.mem ∧ t.tags = s.tags) ∧
      (c.st = .spilled → c.resume = .waiting → s.NoErrors → c.desc % 8 = 0 →
        (s.memWord (descSlot c.desc 33)).type ≠ 0x32 → stSs (s.memWord (descSlot c.desc 34)).payload = false →
        ∃ t, exec (.cancel who scn) s = .next t ∧
          ((t.ctx scn).st = .spilled ∧ (t.ctx scn).resume = .ready ∧ (t.ctx scn).wait = none ∧ (t.ctx scn).result = 0) ∧
          t.memWord (descSlot c.desc (selSlot sel)) = v ∧
          t.memWord (descSlot c.desc 33) = fix ((s.memWord (descSlot c.desc 33)).payload + 4) ∧
          t.memWord (descSlot c.desc 0) = (t.ctx scn).control ∧
          (∀ a, a % 8 = 0 → a ≠ descSlot c.desc (selSlot sel) → a ≠ descSlot c.desc 33 → a ≠ descSlot c.desc 0 →
            t.memWord a = s.memWord a))) ∧
    ((c.st = .waiting ∨ (c.st = .spilled ∧ c.resume = .waiting)) → (∃ b, w = .outcome b) ∨ (∃ a, w = .alloc a) →
      exec (.cancel who scn) s = .next (s.setResult scn 2))

/-- A write of a register, field by field (R18, R19, R21): where no two fields of the register overlap, an RO field keeps its
value, an RW field takes the written bits when its value is one it takes and keeps its own and marks the write otherwise, a
W1C field clears where a 1 is written, and a W1S or WO field keeps nothing and hands on the written bits. REGISTER_WRITE to
EVR_CTXTAB, whose one field is BASE: a privileged initiator's bits of BASE are stored and a reserved bit is counted as well,
another initiator's write is refused and recorded (R19, R21, R545); a write to an address of no register is counted (R6).
ALERT_ROUTE_WRITE stores the route and restarts the watchdog when its period changes, and WATCHDOG_KICK restarts it (R213).
-/
def Obligations.RegisterWrites : Prop :=
  (∀ (d : RegDesc) (old mask v : BitVec 64) (f : Field), f ∈ d.fields →
     (∀ g, g ∈ d.fields → g ≠ f → g.hi < f.lo ∨ f.hi < g.lo) → (∀ g, g ∈ d.fields → g.hi < 64) → d.fields.Nodup →
     ∀ (w : Wr) (m : BitVec 64), w = d.write old mask v → m = fmask f.hi f.lo →
     (f.ty = .ro → w.new &&& m = old &&& m) ∧
     (f.ty = .rw → f.takes (fld ((old &&& ~~~mask) ||| (v &&& mask)) f.hi f.lo) = true →
       w.new &&& m = ((old &&& ~~~mask) ||| (v &&& mask)) &&& m) ∧
     (f.ty = .rw → m &&& mask ≠ 0 → f.takes (fld ((old &&& ~~~mask) ||| (v &&& mask)) f.hi f.lo) = false →
       w.new &&& m = old &&& m ∧ w.bad = true) ∧
     (f.ty = .w1c → w.new &&& m = old &&& ~~~(v &&& mask) &&& m) ∧
     (f.ty = .w1s → w.new &&& m = old &&& m ∧ w.act &&& m = v &&& mask &&& m) ∧
     (v &&& mask &&& ~~~d.bits ≠ 0 → w.bad = true)) ∧
  (∀ (who : Initiator) (s : State) (mask v : BitVec 64),
     (Admits s who Reg.evrCtxtab → ∀ u,
       u = s.setReg Reg.evrCtxtab ((s.reg Reg.evrCtxtab &&& ~~~(fmask 39 19 &&& mask)) ||| (v &&& (fmask 39 19 &&& mask))) →
       (s.privileged who = true → v &&& mask &&& ~~~fmask 39 19 = 0 →
         exec (.registerWrite who Reg.evrCtxtab mask v) s = .next u) ∧
       (s.privileged who = true → v &&& mask &&& ~~~fmask 39 19 ≠ 0 →
         exec (.registerWrite who Reg.evrCtxtab mask v) s = .next (u.countRsv 0 Reg.evrCtxtab)) ∧
       (s.privileged who = false →
         exec (.registerWrite who Reg.evrCtxtab mask v) s = .next (s.refuseWrite who Reg.evrCtxtab))) ∧
     (∀ off, s.posted.any (fun w => w.of who (homeKey off)) = false → s.stalled off = false → s.fnAnswers who = true →
       initReaches who off = true → regDesc off = none →
       exec (.registerWrite who off mask v) s = .next (s.countRsv 0 off)) ∧
     (∀ h, h < 64 → Admits s who (Reg.evrAlertRoute h) → (s.kernelOrPf who || s.isCtxOf who h) = true →
       (h = 0 ∨ s.resetting h = false) →
       (∃ t, exec (.alertRouteWrite who h v) s = .next t ∧
         t.rf (Reg.evrAlertRoute h) 63 63 = fld v 63 63 ∧ t.rf (Reg.evrAlertRoute h) 55 40 = fld v 55 40 ∧
         t.rf (Reg.evrAlertRoute h) 15 0 = fld v 15 0 ∧
         (bit v 16 = true ∨ fld v 15 0 ≠ s.rf (Reg.evrAlertRoute h) 15 0 → look 0 t.wdogFrom h = s.dt.toNat) ∧
         (bit v 16 = false ∧ fld v 15 0 = s.rf (Reg.evrAlertRoute h) 15 0 → t.wdogFrom = s.wdogFrom) ∧
         t.slots = s.slots ∧ t.mem = s.mem) ∧
       (∃ t, exec (.watchdogKick who h) s = .next t ∧ look 0 t.wdogFrom h = s.dt.toNat ∧
         t.rf (Reg.evrAlertRoute h) 15 0 = s.rf (Reg.evrAlertRoute h) 15 0 ∧ t.slots = s.slots ∧ t.mem = s.mem)))

/-- ACCESS_TIMEOUT (R36): the abandoned access is recorded in DEV_XSTAT, the first one with its address and kind, and in a
report; a read of an initiator that is no context completes with all ones, a load of a running context raises BUS_ERROR, and
a write is dropped, one that waits in a queue leaving it with the code of the initiator that issued it, with MACHINE_CHECK
to the context that made it (R499). -/
def Obligations.AbandonedAccesses : Prop :=
  ∀ (s u : State) (who : Initiator) (off i : Nat) (va : BitVec 64),
    ((∀ scn st, who ≠ .ctx scn st) → s.abandoned who off false = (i, u) →
      exec (.accessTimeout who off false va) s = .next (u.send (.completion who 0 full64))) ∧
    (∀ scn st r, who = .ctx scn st → s.abandoned who off false = (i, u) → u.runOf scn = some r →
      exec (.accessTimeout who off false va) s = .next (u.take r (mkTrap 0x18 va (accessWord false false)))) ∧
    ((∃ w, s.posted.find? (fun y => y.who.same who && y.off = off) = some w ∧
          { s with posted := s.posted.erase w }.abandonedAs w.code w.hall (initScn who) off true = (i, u)) ∨
        (s.posted.find? (fun y => y.who.same who && y.off = off) = none ∧ s.abandoned who off true = (i, u)) →
      exec (.accessTimeout who off true va) s = .next (match who with
        | .ctx scn _ => u.alertCtx scn 0x20 (fixN i)
        | _ => u)) ∧
    (∀ b, s.rf Reg.devXstat 63 63 = 0 → s.abandoned who off b = (i, u) → off < 2 ^ 24 →
      u.rf Reg.devXstat 63 63 = 1 ∧ u.rf Reg.devXstat 62 62 = (if b then 1 else 0) ∧ u.rf Reg.devXstat 55 32 = off ∧
      u.rf Reg.devXstat 31 16 = s.initCode who % 65536 ∧ u.rf Reg.devXstat 15 0 = 1) ∧
    (∀ b, s.rf Reg.devXstat 63 63 = 1 → s.abandoned who off b = (i, u) →
      u.rf Reg.devXstat 55 32 = s.rf Reg.devXstat 55 32 ∧ u.rf Reg.devXstat 62 62 = s.rf Reg.devXstat 62 62 ∧
      u.rf Reg.devXstat 15 0 = min (s.rf Reg.devXstat 15 0 + 1) 65535)

/-- The patch commands of a context at stair 2 while the gate is open (R240 to R246): BEGIN empties the staging buffer, DATA
appends eight bytes, little-endian, CHECK sets CHECKED or names the first fault and its offset, APPLY of a checked image
takes it and visits every core slot, and each switch gives a core its RAM and match table. With the gate closed ERR is
GATE_CLOSED; PATCH_WE_CHANGE sets the pin. -/
def Obligations.Patches : Prop :=
  ∀ (scn : Nat) (s : State) (who : Initiator), who = .ctx scn 2 →
    (Admits s who Reg.devPatchCtrl → s.patchGate = true →
      (∃ t, exec (.patchBegin who) s = .next t ∧ t.patch = { s.patch with staging := [] } ∧
        t.rf Reg.devPatchStat 28 24 = 0 ∧ t.rf Reg.devPatchStat 30 30 = 0 ∧ t.rf Reg.devPatchStat 23 7 = 0 ∧
        t.cores = s.cores ∧ t.mem = s.mem) ∧
      (imgFault s.part.stepping.toNat s.patch.staging = none →
        ∃ t, exec (.patchCheck who) s = .next t ∧ t.rf Reg.devPatchStat 30 30 = 1 ∧ t.patch = s.patch ∧
          t.cores = s.cores ∧ t.mem = s.mem) ∧
      (∀ e o, imgFault s.part.stepping.toNat s.patch.staging = some (e, o) → e < 32 → o < 2 ^ 17 →
        ∃ t, exec (.patchCheck who) s = .next t ∧ t.rf Reg.devPatchStat 30 30 = 0 ∧
          t.rf Reg.devPatchStat 28 24 = e ∧ t.rf Reg.devPatchStat 23 7 = o ∧ t.patch = s.patch ∧ t.cores = s.cores) ∧
      (∀ p ps, s.rf Reg.devPatchStat 30 30 = 1 → s.part.pcns = p :: ps → s.patchAtOnce p = false →
        ∃ t, exec (.patchApply who) s = .next t ∧ t.rf Reg.devPatchStat 31 31 = 1 ∧ t.rf Reg.devPatchStat 6 0 = 0 ∧
          t.patch.image = s.patch.staging ∧ t.patch.left = s.part.pcns ∧ t.cores = s.cores) ∧
      (s.rf Reg.devPatchStat 30 30 = 0 →
        ∃ t, exec (.patchApply who) s = .next t ∧ t.rf Reg.devPatchStat 28 24 = 0x0B ∧ t.patch = s.patch)) ∧
    (∀ v, Admits s who Reg.devPatchData → s.patchGate = true → s.patch.staging.length + 8 ≤ 12288 →
      ∃ t, exec (.patchData who v) s = .next t ∧ t.rf Reg.devPatchStat 30 30 = 0 ∧
        t.patch = { s.patch with staging := s.patch.staging ++ (List.range 8).map (fun i => v.extractLsb' (8 * i) 8) } ∧
        t.cores = s.cores ∧ t.mem = s.mem) ∧
    (∀ v, Admits s who Reg.devPatchData → s.patchGate = false →
      ∃ t, exec (.patchData who v) s = .next t ∧ t.rf Reg.devPatchStat 28 24 = 1 ∧ t.patch = s.patch) ∧
    (∀ p q ps, s.patch.left = p :: q :: ps → p ≠ q → p ∉ ps → s.patchAtOnce q = false → s.patchBusy = true →
      (∀ r, s.running p = some r → stSth (s.status r) = false) →
      ∃ t, exec (.patchCoreSwitch p) s = .next t ∧ (t.core p).pram = imgRam s.patch.image ∧
        (t.core p).pmatch = imgTable s.patch.image ∧ t.patch.left = q :: ps ∧ t.mem = s.mem ∧ t.slots = s.slots) ∧
    (∀ p q, (s.patch.left = [] ∨ s.patch.left.head? = some q ∧ q ≠ p) → s.stalledWriters = [] →
      exec (.patchCoreSwitch p) s = .next s) ∧
    (∀ level, exec (.patchWeChange level) s = .next { s with part := { s.part with patchWe := level } })

/-- CRIB_DISABLE applies a written EN of 0: the Crib leaves the coherent view, counts the M sectors that it still holds and
shows them as DIRTY_HELD; with an open speculation on the core EN is 1 again and REFUSED set (R284, R285). CRIB_ENABLE
applies a written EN of 1; without an M sector MEMORY stays in both (R286). MAINT_GO starts the operation over the range of
CRIB_MAINT_START and END; MAINT_DONE makes the visit and ends it, DONE set: CLEAN and FLUSH write the M sectors back, INVAL
discards them, a locked entry is skipped by INVAL, and the entry is gone after the last two (R281 to R283). A scrub read
moves on to the next sector (R301). MEM_INJ writes the armed sector that a cache holds in M with COUNT symbols inverted from
SYMBOL on, and clears ARM (R302). -/
def Obligations.CribAndMemory : Prop :=
  ∀ (s : State) (p : Nat), p < 72 →
    (∀ d, s.part.hasPcn p = true → d = (s.core p).dirtySectors.length → (s.core p).cribOn = true →
      s.rf (Reg.cribCtrl p) 0 0 = 0 →
      (s.specOnCore p = false →
        ∃ t, exec (.cribDisable p) s = .next t ∧ (t.core p).cribOn = false ∧ t.rf (Reg.cribStat p) 55 48 = d % 256 ∧
          t.rf (Reg.cribStat p) 63 63 = (if d = 0 then 0 else 1) ∧ (d = 0 → t.mem = s.mem ∧ t.tags = s.tags) ∧
          t.slots = s.slots) ∧
      (s.specOnCore p = true →
        ∃ t, exec (.cribDisable p) s = .next t ∧ t.cores = s.cores ∧ t.rf (Reg.cribCtrl p) 0 0 = 1 ∧
          t.rf (Reg.cribStat p) 62 62 = 1 ∧ t.mem = s.mem ∧ t.tags = s.tags ∧ t.slots = s.slots)) ∧
    (s.part.hasPcn p = true → (s.core p).dirtySectors = [] → s.NoErrors → (s.core p).cribOn = false →
      s.rf (Reg.cribCtrl p) 0 0 = 1 → (∀ a, ((s.barn (barnOf p)).sec a).alt = []) →
      ∃ t, exec (.cribEnable p) s = .next t ∧ (t.core p).cribOn = true ∧ t.rf (Reg.cribStat p) 63 63 = 0 ∧ t.mem = s.mem ∧
        t.tags = s.tags ∧ t.slots = s.slots) ∧
    (∀ who op irq, Admits s who (Reg.cribMaintCtrl p) → s.privileged who = true → (s.core p).maint = none →
      1 ≤ op → op ≤ 3 →
      (s.rf (Reg.cribMaintStart p) 39 6 < s.rf (Reg.cribMaintEnd p) 39 6 →
        ∃ t, exec (.maintGo who p op irq) s = .next t ∧
          (t.core p).maint = some ⟨op, 64 * s.rf (Reg.cribMaintStart p) 39 6, 64 * s.rf (Reg.cribMaintEnd p) 39 6⟩ ∧
          t.rf (Reg.cribMaintStat p) 63 63 = 1 ∧ t.rf (Reg.cribMaintStat p) 62 62 = 0 ∧ t.mem = s.mem ∧
          t.slots = s.slots) ∧
      (s.rf (Reg.cribMaintEnd p) 39 6 ≤ s.rf (Reg.cribMaintStart p) 39 6 →
        ∃ t, exec (.maintGo who p op irq) s = .next t ∧ (t.core p).maint = none ∧
          t.rf (Reg.cribMaintStat p) 61 61 = 1 ∧ t.mem = s.mem ∧ t.slots = s.slots)) ∧
    (∀ m, (s.core p).maint = some m → s.rf (Reg.cribMaintCtrl p) 3 3 = 0 →
      ((s.core p).crib = [] → ∃ t, exec (.maintDone p) s = .next t ∧ (t.core p).maint = none ∧
        t.rf (Reg.cribMaintStat p) 63 63 = 0 ∧ t.rf (Reg.cribMaintStat p) 62 62 = 1 ∧ t.mem = s.mem ∧
        t.slots = s.slots) ∧
      (∀ e x d lock, (s.core p).crib = [(e, x)] → e < 48 → x.valid = true → (s.core p).cribOn = true →
        m.start ≤ x.line * 256 → x.line * 256 + 256 ≤ m.stop → 1 ≤ m.op → m.op ≤ 3 → lock = bit (s.reg (Reg.cribLock p)) e →
        d = ((List.range 4).filter (fun k => (x.sector k).st = .m)).length → (lock = true → m.op = 2) →
        ∃ t, exec (.maintDone p) s = .next t ∧ (t.core p).maint = none ∧ t.rf (Reg.cribMaintStat p) 62 62 = 1 ∧
          t.rf (Reg.cribMaintStat p) 39 32 = (if m.op = 2 then 0 else d) ∧
          t.rf (Reg.cribMaintStat p) 55 48 = (if m.op = 2 ∧ lock = false then d else 0) ∧
          t.rf (Reg.cribMaintStat p) 47 40 = (if lock then 1 else 0) ∧
          (lock = true → (t.core p).crib = (s.core p).crib) ∧
          (lock = false → m.op ≠ 1 → (t.core p).findLine x.line = none) ∧ (m.op ≠ 2 → t.mem = s.mem))) ∧
    (s.rf Reg.devMemScrub 17 17 = 1 → s.planted = [] →
      ((s.scrubPos + 1) * 64 < s.part.memSize → exec .scrubRead s = .next { s with scrubPos := s.scrubPos + 1 }) ∧
      (s.part.memSize ≤ (s.scrubPos + 1) * 64 →
        exec .scrubRead s = .next { s.bumpRf Reg.devMemScrub 15 0 1 with scrubPos := 0 })) ∧
    (∀ n, n = s.rf Reg.devMemInj 39 6 →
      (s.rf Reg.devMemInj 0 0 = 1 → 64 * n < s.part.memSize → s.heldModified (64 * n) = true →
        ∃ t, exec .memInj s = .next t ∧ t.rf Reg.devMemInj 0 0 = 0 ∧
          t.planted = put [] s.planted n (invertedFrom (s.rf Reg.devMemInj 61 56) (s.rf Reg.devMemInj 63 62)) ∧
          t.mem = s.mem ∧ t.tags = s.tags ∧ t.slots = s.slots) ∧
      (s.rf Reg.devMemInj 0 0 = 0 ∨ s.heldModified (64 * n) = false → exec .memInj s = .next s))

/-- EN = 0 written while the core's context store holds a context with an open speculation (R285): the write is refused, EN
stays 1, REFUSED is set, the Crib stays on, and the write is not retried, so that CRIB_DISABLE does nothing; one still
waiting when the speculation opens is refused when it would be applied. -/
def Obligations.CribStaysOnUnderSpeculation : Prop :=
  ∀ (s : State) (p : Nat), p < 72 → s.part.hasPcn p = true → (s.core p).cribOn = true →
    (∃ i g, (i, g) ∈ s.gal ∧ g.st ≠ .free ∧ (s.ctx g.scn).st ≠ .spilled ∧ (s.ctx g.scn).st ≠ .none ∧
      s.pcnOf (s.ctx g.scn).hcn = p) →
    (∀ who v, Admits s who (Reg.cribCtrl p) → s.privileged who = true → s.rf (Reg.cribCtrl p) 0 0 = 1 → bit v 0 = false →
      ∃ t, exec (.registerWrite who (Reg.cribCtrl p) full64 v) s = .next t ∧ t.rf (Reg.cribCtrl p) 0 0 = 1 ∧
        t.rf (Reg.cribStat p) 62 62 = 1 ∧ t.cores = s.cores ∧ t.mem = s.mem ∧ t.slots = s.slots ∧ t.ctxs = s.ctxs ∧
        exec (.cribDisable p) t = .next t) ∧
    (s.rf (Reg.cribCtrl p) 0 0 = 0 →
      ∃ t, exec (.cribDisable p) s = .next t ∧ t.rf (Reg.cribCtrl p) 0 0 = 1 ∧ t.rf (Reg.cribStat p) 62 62 = 1 ∧
        t.cores = s.cores ∧ Else s t [Reg.cribCtrl p, Reg.cribStat p] ∧ exec (.cribDisable p) t = .next t)

/-- The Granary's commands of a hall 0 context (R308, R309, R331). ASSIGN_ROOT and ASSIGN_PLAIN of a run of FREE bins outside
the reserve and within the quota give the bins to the hall, zeroed as FIX 0, and answer DONE and the first bin; no word
outside the run changes. RELEASE frees the bins; CYCLE_YOUNG and CYCLE_FULL arm a cycle with two META bins, or are held
while one runs. An ASSIGN to a hall that does not exist answers 6 and takes no bin. -/
def Obligations.GranaryCommands : Prop :=
  ∀ (s : State) (who : Initiator) (h : Nat), Admits s who Reg.glCmd → s.isCtxOf who 0 = true → h < 64 →
    (∀ bin count, bin < 8192 → 1 ≤ count → count ≤ 8192 → s.hallCreated h = true → s.allFree bin count = true →
      s.reserveBins + count ≤ s.freeCount → s.binsUsed h + count ≤ s.binQuota h →
      (∃ t, exec (.assignRoot who h count false bin) s = .next t ∧
        (∀ k, k < count → (t.bin (bin + k)).hall = h ∧ (t.bin (bin + k)).kind = .root) ∧
        t.rf Reg.glCmdStat 59 56 = 0 ∧ t.rf Reg.glCmdStat 12 0 = bin ∧
        (∀ a, a % 8 = 0 → binSize * bin ≤ a → a < binSize * (bin + count) → t.memWord a = Word.fix0) ∧
        SameOutside s t (binSize * bin) (binSize * (bin + count)) ∧ t.slots = s.slots) ∧
      (∃ t, exec (.assignPlain who h count false bin) s = .next t ∧
        (∀ k, k < count → (t.bin (bin + k)).hall = h ∧ (t.bin (bin + k)).kind = .plain) ∧
        t.rf Reg.glCmdStat 59 56 = 0 ∧ t.rf Reg.glCmdStat 12 0 = bin ∧
        (∀ a, a % 8 = 0 → binSize * bin ≤ a → a < binSize * (bin + count) → t.memWord a = Word.fix0) ∧
        SameOutside s t (binSize * bin) (binSize * (bin + count)) ∧ t.slots = s.slots)) ∧
    (∀ bin, bin < 8192 → bin < s.part.nbins → (s.bin bin).hall = h → ((s.bin bin).kind = .root ∨ (s.bin bin).kind = .plain) →
      s.mayCycle h = false →
      ∃ t, exec (.release who h 1 bin) s = .next t ∧ (t.bin bin).kind = .free ∧ (t.bin bin).hall = 0 ∧
        t.rf Reg.glCmdStat 59 56 = 0 ∧ t.mem = s.mem ∧ t.slots = s.slots) ∧
    (s.mayCycle h = true → s.resetting h = false → 2 ≤ s.freeCount → 2 ≤ s.reserveBins → 2 ≤ s.freeBins.length →
      (s.glh h).metas = [] →
      (∃ t, exec (.cycleYoung who h) s = .next t ∧ (t.glh h).phase = .arm ∧ (t.glh h).full = false ∧
        (t.glh h).cycles = (s.glh h).cycles + 1 ∧ (t.glh h).metas.length = 2 ∧ t.rf Reg.glCmdStat 59 56 = 0 ∧
        t.mem = s.mem ∧ t.slots = s.slots) ∧
      (∃ t, exec (.cycleFull who h) s = .next t ∧ (t.glh h).phase = .arm ∧ (t.glh h).full = true ∧
        (t.glh h).cycles = (s.glh h).cycles + 1 ∧ (t.glh h).metas.length = 2 ∧ t.rf Reg.glCmdStat 59 56 = 0 ∧
        t.mem = s.mem ∧ t.slots = s.slots)) ∧
    (s.hallCreated h = true → s.resetting h = false → s.compat h = false → (s.glh h).phase ≠ .idle →
      (∃ t, exec (.cycleYoung who h) s = .next t ∧ t.glh h = { s.glh h with held := some ((s.glh h).held = some true) } ∧
        t.rf Reg.glCmdStat 59 56 = 1 ∧ t.bins = s.bins ∧ t.mem = s.mem) ∧
      (∃ t, exec (.cycleFull who h) s = .next t ∧ t.glh h = { s.glh h with held := some true } ∧
        t.rf Reg.glCmdStat 59 56 = 1 ∧ t.bins = s.bins ∧ t.mem = s.mem)) ∧
    (∀ bin count any, bin < 8192 → count < 16384 → s.hallCreated h = false → 1 ≤ count → count ≤ 8192 →
      bin + count ≤ s.part.nbins →
      ∃ t, exec (.assignRoot who h count any bin) s = .next t ∧ t.rf Reg.glCmdStat 59 56 = 6 ∧ t.bins = s.bins ∧
        t.mem = s.mem)

/-- The phases of a cycle (R329, R332, R335, R338): each core acknowledges ARM once and the last one starts FLIP. Each core
adopts the new epochs in its turn: one without a context of the hall acknowledges at once, one with a context that does not
run has it wait for its scan, and the last acknowledgement makes the epochs the hall's and starts TRACE. An engine heals a
stale root, with POISON for a foreign pointer (R328), then takes the snapshot log and the queue, whose objects it heals
alike, and does nothing when no work is left. FINISH frees the bin of the relocation set that holds no STAY, pinned or held
object (R443), keeps the one that does as OLD (R337), and ends the cycle; before the work is done it does nothing. -/
def Obligations.CyclePhases : Prop :=
  ∀ (s : State) (p h : Nat) (g : GlHall), g = s.glh h →
    (g.phase = .arm → s.part.hasPcn p = true → p ∉ g.armAcks →
      ∃ t, exec (.armAck p h) s = .next t ∧ h ∈ (t.core p).armed ∧
        t.glh h = { g with armAcks := p :: g.armAcks,
                           phase := if s.part.pcns.all (p :: g.armAcks).contains then .flip else .arm } ∧
        t.mem = s.mem ∧ t.slots = s.slots) ∧
    (g.phase = .flip → s.part.hasPcn p = true → p ∉ g.flipAcks → h ∉ (s.core p).flipped →
      (∀ k, k < p % 9 → p / 9 * 9 + k ∈ g.flipAcks) →
      (s.slotsOf p h = [] → s.part.pcns.all (p :: g.flipAcks).contains = false →
        ∃ t, exec (.flip p h) s = .next t ∧ t.glh h = { g with flipAcks := p :: g.flipAcks } ∧
          h ∈ (t.core p).flipped ∧ t.mem = s.mem ∧ t.slots = s.slots) ∧
      (s.slotsOf p h = [] → s.part.pcns.all (p :: g.flipAcks).contains = true →
        ∃ t, exec (.flip p h) s = .next t ∧ (t.glh h).phase = .trace ∧ (t.glh h).goodY = !g.goodY ∧
          (t.glh h).goodO = (if g.full then !g.goodO else g.goodO) ∧ t.mem = s.mem ∧ t.slots = s.slots) ∧
      (∀ n, s.slotsOf p h = [n] → (s.core p).halt = none → (s.core p).run ≠ some n →
        ∃ t, exec (.flip p h) s = .next t ∧ t.glh h = g ∧ h ∈ (t.core p).flipped ∧
          t.slot n = { s.slot n with scan := true } ∧ t.mem = s.mem)) ∧
    (g.phase = .trace → s.NoErrors → (∀ q, (s.core q).logBuf = []) →
      (∀ pa w gen, s.rootSlot h = some pa → w = s.memWord pa →
        (s.isHeap h w = true → (s.binOf (s.heapPa h w)).state ≠ .fromSet → g.marked (s.heapPa h w) = true →
          gen = genOf (s.binOf (s.heapPa h w)).kind →
          ∃ t, exec (.gleanerTrace h) s = .next t ∧ t.memWord pa = stamp w w.payload gen (s.newE h gen) ∧
            SameOutside s t pa (pa + 8) ∧ t.slots = s.slots) ∧
        (s.isHeap h w = false →
          ∃ t, exec (.gleanerTrace h) s = .next t ∧ (t.memWord pa).type = 0x32 ∧
            SameOutside s t pa (pa + 8) ∧ t.slots = s.slots)) ∧
      (∀ w rest, s.rootSlot h = none → g.snapshot = w :: rest →
        (s.isHeap h w = false ∨ ((s.binOf (s.heapPa h w)).state ≠ .fromSet ∧ g.marked (s.heapPa h w) = true)) →
        exec (.gleanerTrace h) s = .next (s.setGl h { g with snapshot := rest })) ∧
      (∀ pa ty rest size, s.rootSlot h = none → g.snapshot = [] → s.galRoot h = none → g.queue = (pa, ty) :: rest →
        size = objSize ty.toNat (s.memWord pa) →
        ((∀ a, pa ≤ a → a < pa + size → s.wantsHeal h a = false) →
          exec (.gleanerTrace h) s = .next (s.setGl h { g with queue := rest })) ∧
        (∀ a w gen, (s.tags.filter (fun e => pa ≤ e.1 && e.1 < pa + size)).map Prod.fst = [a] → s.wantsHeal h a = true →
          w = s.memWord a → s.isHeap h w = true → (s.binOf (s.heapPa h w)).state ≠ .fromSet → g.marked (s.heapPa h w) = true →
          gen = genOf (s.binOf (s.heapPa h w)).kind →
          ∃ t, exec (.gleanerTrace h) s = .next t ∧ t.glh h = { g with queue := rest } ∧
            t.memWord a = stamp w w.payload gen (s.newE h gen) ∧
            SameOutside s t a (a + 8) ∧ t.slots = s.slots)) ∧
      (s.traceDone h = true → exec (.gleanerTrace h) s = .next s)) ∧
    (s.traceDone h = true → (∀ q, (s.core q).logBuf = []) → g.full = false → g.held = none →
      s.rf (Reg.glHall h) 41 34 = 0 → s.rf (Reg.glHall h) 33 27 = 0 →
      (∀ n c, (n, c) ∈ s.ctxs → c.wait ≠ some (.alloc .cycle)) →
      ∃ t, exec (.finish h) s = .next t ∧ (t.glh h).phase = .idle ∧ (t.glh h).marking = false ∧
        (t.glh h).marks = [] ∧ (t.glh h).metas = [] ∧ t.slots = s.slots ∧
        (∀ n, s.binsOf h (fun b => b.state = .fromSet) = [n] → n ∉ g.metas →
          ((s.bin n).kind = .eden ∨ (s.bin n).kind = .surv) →
          ((s.bin n).stays = false → s.holdsPinned n = false →
            (∀ o, o ∈ s.xe → o.counted = true → o.status = 0 → o.obj / binSize ≠ n) → (t.bin n).kind = .free) ∧
          ((s.bin n).stays = true → (t.bin n).kind = .old ∧ (t.bin n).state = .closed ∧ (t.bin n).hall = h))) ∧
    (s.traceDone h = false → exec (.finish h) s = .next s)

/-- Axes that decode their own inputs, with nothing waiting on a move. ENCODER_EDGE: a level that an input holds for less
than AX_CFG.FILT × 5 ns is ignored, whatever the other input does. One input that changes is a step, up while A leads B,
which AX_CFG.DIR turns round (log entry 65); it moves the count by one, at a DT less the input's delay (R516), and sets the
direction. Both that change are an illegal transition, kept for 1 ms; more than ERRTHR of them are loss with WHY 1 (R348,
R351, R353). Z_INDEX takes its first count as the reference; a later one agrees when its distance is a multiple of CPR and
is counted otherwise (R353). SSI_FRAME_START starts a frame; SSI_FRAME ends it: a bad one counts, the third in a row is
loss, and a good one moves the position by the signed difference, or by the fraction where there is none, and ends a loss
for which RECOVER waits (R350, R351, R355). Loss ignores everything else. -/
def Obligations.AxisInputs : Prop :=
  ∀ (s : State) (x : Nat) (r : AxRec), r = s.axr x → AxisAlone s x →
    (s.decodes x 1 = true → ∀ filt, filt = 5 * s.rf (Reg.axCfg x) 47 40 →
      (∀ e, e.nsA < filt → e.nsB < filt → exec (.encoderEdge x e) s = .next s) ∧
      (∀ e a b p, filt ≤ e.nsA ∨ filt ≤ e.nsB → a = (if filt ≤ e.nsA then e.a else r.pinA) →
          b = (if filt ≤ e.nsB then e.b else r.pinB) → p = { r with pinA := a, pinB := b } →
          ((a = r.pinA ∧ b = r.pinB) ∨ s.axLoss x = true → exec (.encoderEdge x e) s = .next (s.setAxr x p)) ∧
          (∀ up d pos, s.axLoss x = false →
            ((a ≠ r.pinA ∧ b = r.pinB ∧ up = (a != b)) ∨ (a = r.pinA ∧ b ≠ r.pinB ∧ up = (a == b))) →
            d = (if up = decide (s.rf (Reg.axCfg x) 61 61 = 0) then (1 : Int) else -1) →
            pos = BitVec.ofInt 64 (((r.base.toNat / 65536 : Nat) + d) * 65536) →
            ∃ t, exec (.encoderEdge x e) s = .next t ∧ t.reg (Reg.axPos x) = pos ∧
              (∀ past, past = s.track x :: r.past.filter (fun e => s.dt.toNat < e.till + 1000) → t.axr x =
                { p with base := pos, chgDt := (if a = r.pinA then s.trimmed (88 + x) 19 10 s.dt.toNat
                    else s.trimmed (88 + x) 9 0 s.dt.toNat), updFrom := r.updDt, updDt := s.dt.toNat, past := past }) ∧
              t.rf (Reg.axStat x) 60 60 = (if d = 1 then 0 else 1) ∧ Else s t [Reg.axPos x, Reg.axStat x]) ∧
          (∀ ill, s.axLoss x = false → a ≠ r.pinA → b ≠ r.pinB →
            ill = s.dt.toNat :: r.ill.filter (fun u => s.dt.toNat < u + 1000000) →
            (ill.length ≤ s.rf (Reg.axCfg x) 39 32 →
              ∃ t, exec (.encoderEdge x e) s = .next t ∧ t.axr x = { p with ill := ill } ∧
                (∀ y, y ≠ x → t.axr y = s.axr y) ∧ Else s t []) ∧
            (s.rf (Reg.axCfg x) 39 32 < ill.length →
              ∃ t, exec (.encoderEdge x e) s = .next t ∧ t.axLoss x = true ∧ t.rf (Reg.axStat x) 59 56 = 1 ∧
                (t.axr x).lossDt = s.dt.toNat ∧ t.reg (Reg.axPos x) = s.reg (Reg.axPos x) ∧ t.slots = s.slots ∧
                t.ctxs = s.ctxs ∧ t.mem = s.mem))) ∧
      (∀ ns, (ns < filt → exec (.zIndex ⟨x, ns⟩) s = .next s) ∧ (filt ≤ ns →
        (s.axLoss x = true ∨ s.rf (Reg.axCfg x) 60 60 = 0 → exec (.zIndex ⟨x, ns⟩) s = .next s) ∧
        (s.axLoss x = false → s.rf (Reg.axCfg x) 60 60 = 1 →
          (r.zref = none → exec (.zIndex ⟨x, ns⟩) s = .next (s.setAxr x { r with zref := some (r.base.toNat / 65536) })) ∧
          (∀ z, r.zref = some z →
            ((signed 48 (r.base.toNat / 65536 + 2 ^ 48 - z % 2 ^ 48)).natAbs % s.rf (Reg.axCfg x) 31 0 = 0 →
              exec (.zIndex ⟨x, ns⟩) s = .next s) ∧
            ((signed 48 (r.base.toNat / 65536 + 2 ^ 48 - z % 2 ^ 48)).natAbs % s.rf (Reg.axCfg x) 31 0 ≠ 0 →
              ∃ t, exec (.zIndex ⟨x, ns⟩) s = .next t ∧
                t.rf (Reg.axStat x) 47 32 = min (s.rf (Reg.axStat x) 47 32 + 1) 65535 ∧
                t.out = .event 0 "Z_MISMATCH" x :: s.out ∧ Else s t [Reg.axStat x])))))) ∧
    (s.decodes x 2 = true →
      (r.ssiStart = none → r.ssiNext ≤ s.dt.toNat →
        exec (.ssiFrameStart x) s = .next (s.setAxr x { r with ssiStart := some s.dt.toNat })) ∧
      (r.ssiStart ≠ none ∨ s.dt.toNat < r.ssiNext → exec (.ssiFrameStart x) s = .next s) ∧
      (∀ b bits before after n v d next, r.ssiStart = some b → n = s.rf (Reg.axSsi x) 63 58 →
        v = (if s.rf (Reg.axSsi x) 57 57 = 1 then unGray (bits % 2 ^ n) n % 2 ^ n else bits % 2 ^ n) →
        d = signed n (v + 2 ^ n - r.ssi % 2 ^ n) →
        next = max (b + 1000 * s.rf (Reg.axSsi x) 39 24) (s.dt.toNat + 20000) →
        (s.axLoss x = true → r.recov = false → exec (.ssiFrame x bits before after) s =
          .next (s.setAxr x { r with ssiStart := none, ssiNext := next })) ∧
        (s.axLoss x = false ∨ r.recov = true →
          ((before = false ∨ after = true ∨ (r.recov = false ∧ s.rf (Reg.axSsi x) 23 0 < d.natAbs)) →
            (r.bad < 2 ∨ s.axLoss x = true → exec (.ssiFrame x bits before after) s =
              .next (s.setAxr x { r with ssiStart := none, ssiNext := next, bad := r.bad + 1 })) ∧
            (2 ≤ r.bad → s.axLoss x = false → ∃ t, exec (.ssiFrame x bits before after) s = .next t ∧
              (t.axr x).ssiStart = none ∧ (t.axr x).ssiNext = next ∧ t.axLoss x = true ∧
              t.rf (Reg.axStat x) 59 56 = (if before = false ∨ after = true then 2 else 3) ∧
              t.slots = s.slots ∧ t.ctxs = s.ctxs ∧ t.mem = s.mem)) ∧
          (before = true → after = false → (r.recov = true ∨ d.natAbs ≤ s.rf (Reg.axSsi x) 23 0) →
            ∃ t, exec (.ssiFrame x bits before after) s = .next t ∧ (t.axr x).ssi = v ∧ (t.axr x).bad = 0 ∧
              (t.axr x).ssiStart = none ∧ (t.axr x).ssiNext = next ∧ (t.axr x).recov = false ∧
              t.axLoss x = false ∧ t.rf (Reg.axCtrl x) 0 0 = 0 ∧ Else s t [Reg.axPos x, Reg.axStat x, Reg.axCtrl x] ∧
              (r.recov = true ∨ d ≠ 0 → ∀ e pos, e = (if s.rf (Reg.axCfg x) 61 61 = 1 then -d else d) →
                pos = BitVec.ofInt 64 (((r.base.toNat / 65536 : Nat) + e) * 65536) →
                t.reg (Reg.axPos x) = pos ∧ (t.axr x).base = pos ∧ (t.axr x).chgDt = s.dt.toNat) ∧
              (r.recov = false → d = 0 → (∀ e, e ∈ r.past → e.till ≤ s.dt.toNat) →
                t.reg (Reg.axPos x) = s.axAt x s.dt.toNat ∧ (t.axr x).base = r.base ∧
                (t.axr x).chgDt = r.chgDt)))))

/-- EXTRAP_END ends an extrapolation whose limit has passed, with the web at rest, and is nothing before (R354). RECOVER of
a quadrature axis ends the loss where the position stands; of an SSI or a remote axis its bit reads 1 and it waits for the
next good frame or sample; out of loss it does nothing (R355, R490). ESTIMATOR_SAMPLE counts a sample of every axis and
holds DT and the position of it (R351, R352). SWAP sets its function's override flag (R456) and waits for the next pitch
while LEN is not 0; at LEN 0 a shadow table that fails its check is turned away, and one that passes changes places with the
active table, with LENP for LEN and the position as origin (R360). MARK_EDGE of an enabled kind, past the filter of the
input, counts the edge and latches DT, less the input's delay (R516), and the position of its axis at that instant; another
edge is only counted apart, and LEVEL follows it unless it comes within FILT (log entry 36, the model's choice); one of an
input that a comparator drives is none (R361). MS_SAMPLE of an enabled channel stores the sample, corrected by the channel's
gain and offset (R516; log entry 67), and counts it, and moves the comparator over its two thresholds; where the comparator
drives a mark input, a change of its level is an edge of that input at the instant the line between the two samples met the
threshold, rounded down (R362; log entry 36, the model's choice). No hall mirrors the inputs here. -/
def Obligations.AxisCommandsAndMarks : Prop :=
  (∀ (s : State) (x : Nat), x < s.part.axes →
     (AxisAlone s x → s.axActive x = true → s.axExtrap x = true →
       ((s.axr x).lossDt + 1000000 * s.rf (Reg.axCfg x) 57 48 ≤ s.dt.toNat →
         ∃ t, exec (.extrapEnd x) s = .next t ∧ t.axExtrap x = false ∧ t.axVel x = 0 ∧ t.reg (Reg.axAcc x) = 0 ∧
           t.reg (Reg.axPos x) = s.axAt x s.dt.toNat ∧ t.axLoss x = s.axLoss x ∧
           Else s t [Reg.axPos x, Reg.axStat x, Reg.axVel x, Reg.axAcc x]) ∧
       (s.dt.toNat < (s.axr x).lossDt + 1000000 * s.rf (Reg.axCfg x) 57 48 → exec (.extrapEnd x) s = .next s)) ∧
     (∀ who, Admits s who (Reg.axCtrl x) → s.kernelOrPf who = true →
       (s.axLoss x = false → ∃ t, exec (.recover who x) s = .next t ∧ t.axes = s.axes ∧ Else s t []) ∧
       (s.axLoss x = true → s.remoteAxis x = false → s.axMode x ≠ 2 →
         ∃ t, exec (.recover who x) s = .next t ∧ t.axLoss x = false ∧ t.axExtrap x = false ∧
           (t.axr x).base = s.reg (Reg.axPos x) ∧ (t.axr x).chgDt = s.dt.toNat ∧ (t.axr x).bad = 0 ∧
           t.rf (Reg.axCtrl x) 0 0 = 0 ∧ Else s t [Reg.axStat x, Reg.axCtrl x]) ∧
       (s.axLoss x = true → (s.remoteAxis x = true ∨ s.axMode x = 2) →
         ∃ t, exec (.recover who x) s = .next t ∧ t.axr x = { s.axr x with recov := true } ∧
           t.rf (Reg.axCtrl x) 0 0 = 1 ∧ t.axLoss x = true ∧ Else s t [Reg.axCtrl x])) ∧
     ((∀ y, y < s.part.axes → AxisAlone s y) → s.cams = [] → s.stopState ≠ 1 →
       ∃ t, exec .estimatorSample s = .next t ∧
         t.rf (Reg.axStat x) 31 0 = (s.rf (Reg.axStat x) 31 0 + 1) % 2 ^ 32 ∧ t.reg (Reg.axSmpDt x) = s.dt ∧
         t.reg (Reg.axPos x) = (if s.axActive x then s.axAt x s.dt.toNat else s.reg (Reg.axPos x)) ∧
         t.reg (Reg.axSmpPos x) = t.reg (Reg.axPos x) ∧ (t.axr x).dec = s.decel x ∧
         t.mem = s.mem ∧ t.slots = s.slots ∧ t.ctxs = s.ctxs) ∧
     (∀ who count, Admits s who (Reg.axPtabCtrl x) → s.kernelOrPf who = true → 1 ≤ count → count ≤ 1024 →
       (s.pitchLen x ≠ 0 → ∃ t, exec (.swap who x count) s = .next t ∧ t.rf (Reg.axPtabCtrl x) 63 63 = 1 ∧
         t.rf (Reg.axPtabCtrl x) 58 48 = count ∧ t.rf (Reg.devOvr 1) (8 + x) (8 + x) = 1 ∧ t.axes = s.axes ∧
         t.mem = s.mem ∧ t.slots = s.slots ∧ t.ctxs = s.ctxs) ∧
       (s.pitchLen x = 0 → s.shadowOk x count = false →
         ∃ t, exec (.swap who x count) s = .next t ∧ t.rf (Reg.axPtabCtrl x) 63 63 = 0 ∧
           t.rf (Reg.axPtabCtrl x) 62 62 = 1 ∧ t.rf (Reg.devOvr 1) (8 + x) (8 + x) = 1 ∧ t.axes = s.axes ∧
           t.mem = s.mem ∧ t.slots = s.slots ∧ t.ctxs = s.ctxs) ∧
       (s.pitchLen x = 0 → s.shadowOk x count = true → s.reg (Reg.axPitchAdj x) = 0 →
         fld (s.reg (Reg.ptabShadow x 0)) 47 0 ≠ 0 → keysRise s.ctl = true →
         ∃ t, exec (.swap who x count) s = .next t ∧ t.rf (Reg.axPtabCtrl x) 63 63 = 0 ∧
           t.rf (Reg.axPtabCtrl x) 36 26 = count ∧ t.reg (Reg.axPitchLen x) = s.reg (Reg.axPitchLenp x) ∧
           t.reg (Reg.axPitchOrg x) = s.reg (Reg.axPos x) ∧ t.reg (Reg.axPitch x) = 0 ∧
           (t.axr x).pitchStart = s.reg (Reg.axPos x) ∧ (t.axr x).nextPt = 0 ∧
           t.rf (Reg.devOvr 1) (8 + x) (8 + x) = 1 ∧
           (∀ i, i < 1024 → t.reg (Reg.ptabActive x i) = s.reg (Reg.ptabShadow x i) ∧
             t.reg (Reg.ptabShadow x i) = s.reg (Reg.ptabActive x i)) ∧ t.mem = s.mem ∧ t.slots = s.slots ∧
           t.ctxs = s.ctxs))) ∧
  (∀ (s : State),
     (∀ m ns rising t0, m < 16 → t0 = s.trimmed m 15 0 (s.dt.toNat + ns % 5) →
       (s.rf (Reg.markCfg m) 58 58 = 1 → exec (.markEdge m ns rising) s = .next s) ∧
       (s.rf (Reg.markCfg m) 58 58 = 0 → s.mirrorHalls m = [] →
         (s.rf (Reg.markCfg m) (if rising then 59 else 60) (if rising then 59 else 60) = 1 →
           (look 0 s.marks m = 0 ∨ look 0 s.marks m - 1 + 5 * s.rf (Reg.markCfg m) 57 50 ≤ t0) →
           ∃ t, exec (.markEdge m ns rising) s = .next t ∧ Latched s t m t0 rising ∧
             Else s t [Reg.markStat m, Reg.markDt m, Reg.markPos m]) ∧
         (s.rf (Reg.markCfg m) (if rising then 59 else 60) (if rising then 59 else 60) = 0 ∨
             (look 0 s.marks m ≠ 0 ∧ t0 < look 0 s.marks m - 1 + 5 * s.rf (Reg.markCfg m) 57 50) →
           ∃ t, exec (.markEdge m ns rising) s = .next t ∧ t.marks = s.marks ∧
             t.rf (Reg.markStat m) 31 16 = min (s.rf (Reg.markStat m) 31 16 + 1) 65535 ∧
             t.rf (Reg.markStat m) 15 15 =
               (if look 0 s.marks m ≠ 0 ∧ t0 < look 0 s.marks m - 1 + 5 * s.rf (Reg.markCfg m) 57 50
                 then s.rf (Reg.markStat m) 15 15 else if rising then 1 else 0) ∧ Else s t [Reg.markStat m]))) ∧
     (∀ c value, c < 8 → s.rf (Reg.msCfg c) 63 63 = 0 → exec (.msSample c value) s = .next s) ∧
     (∀ c value v was level lo hi, c < 8 → s.rf (Reg.msCfg c) 63 63 = 1 → hi = s.rf (Reg.msCfg c) 55 44 →
       lo = s.rf (Reg.msCfg c) 43 32 → v = s.msCorrect c (value % 4096) →
         was = ((look [] s.ms c).head?.map MsSample.level).getD false →
       level = (if was then !decide (v ≤ lo) else decide (hi ≤ v)) →
       (level = was ∨ s.rf (Reg.markCfg (c + 8)) 58 58 = 0 →
         ∃ t, exec (.msSample c value) s = .next t ∧ (look [] t.ms c).head? = some ⟨s.dt.toNat, v, level⟩ ∧
           t.rf (Reg.msVal c) 11 0 = v ∧ t.rf (Reg.msVal c) 63 32 = (s.rf (Reg.msVal c) 63 32 + 1) % 2 ^ 32 ∧
           t.marks = s.marks ∧ Else s t [Reg.msVal c]) ∧
       (∀ a q m at_, level ≠ was → m = c + 8 → s.rf (Reg.markCfg m) 58 58 = 1 → s.mirrorHalls m = [] →
         s.rf (Reg.markCfg m) (if level then 59 else 60) (if level then 59 else 60) = 1 → look 0 s.marks m = 0 →
         look [] s.ms c = a :: q →
         ((level = true ∧ a.value < v ∧ at_ = a.dt + (hi - a.value) * (s.dt.toNat - a.dt) / (v - a.value)) ∨
           (level = false ∧ v < a.value ∧ at_ = a.dt + (a.value - lo) * (s.dt.toNat - a.dt) / (a.value - v))) →
         ∃ t, exec (.msSample c value) s = .next t ∧ (look [] t.ms c).head? = some ⟨s.dt.toNat, v, level⟩ ∧
           t.rf (Reg.msVal c) 11 0 = v ∧ Latched s t m at_ level ∧
           Else s t [Reg.msVal c, Reg.markStat m, Reg.markDt m, Reg.markPos m])))

/-- Cam outputs, for a writer of the output (R347, R364 to R367, R485). An action at a position of an axis that the hall
sees, or at a DT still ahead, joins the queue while that holds fewer than 32, the DT action locked at its DT; a full queue,
another axis, an ambiguous position and a WITHHELD part refuse it with a count and an event; a DT that has passed is LATE,
and its level is made at once where the policy is FIRE. FLUSH empties the queue; NOW sets the level, and has no effect in a
WITHHELD part. CAM_FIRE takes the actions of the earliest DT reached, the output's delay before it (R516), out of the queue
and leaves the level of the last of them, every other edge a COLLIDE. -/
def Obligations.CamOutputs : Prop :=
  ∀ (s : State) (k : Nat), k < 64 →
    (∀ who target (on : Bool), s.camWriter who k = true →
      (Admits s who (if on then Reg.camOnAt k else Reg.camOffAt k) → ∀ i, i = (if on then Instr.camOnAt who k target
          else Instr.camOffAt who k target) →
        (s.withheld = false → (s.camQ k).length < 32 → s.seesAxis (s.camOwner k) (posAxis target) = true →
          s.posAhead target ≠ -(2 ^ 60) → ∃ t, exec i s = .next t ∧ t.camQ k = s.camQ k ++ [⟨on, some target, none⟩] ∧
            t.rf (Reg.camStat k) 63 58 = (s.camQ k).length + 1 ∧ t.out = s.out ∧ Else s t [Reg.camStat k]) ∧
        (s.withheld = true ∨ 32 ≤ (s.camQ k).length ∨ s.seesAxis (s.camOwner k) (posAxis target) = false ∨
            s.posAhead target = -(2 ^ 60) → ∃ t, exec i s = .next t ∧ t.cams = s.cams ∧
          t.rf (Reg.camStat k) 41 26 = min (s.rf (Reg.camStat k) 41 26 + 1) 65535 ∧
          t.out = .event (s.camOwner k) "CAM_REFUSED" k :: s.out ∧ Else s t [Reg.camStat k])) ∧
      (Admits s who (if on then Reg.camOnDt k else Reg.camOffDt k) → ∀ i, i = (if on then Instr.camOnDt who k target
          else Instr.camOffDt who k target) →
        (s.withheld = false → (s.camQ k).length < 32 → s.dt.toNat ≤ target.toNat →
          ∃ t, exec i s = .next t ∧ t.camQ k = s.camQ k ++ [⟨on, none, some target.toNat⟩] ∧
            t.rf (Reg.camStat k) 63 58 = (s.camQ k).length + 1 ∧ (s.camNet k = false → t.out = s.out) ∧
            Else s t [Reg.camStat k, Reg.eclStat]) ∧
        (s.withheld = true ∨ 32 ≤ (s.camQ k).length → ∃ t, exec i s = .next t ∧ t.cams = s.cams ∧
          t.rf (Reg.camStat k) 41 26 = min (s.rf (Reg.camStat k) 41 26 + 1) 65535 ∧
          t.out = .event (s.camOwner k) "CAM_REFUSED" k :: s.out ∧ Else s t [Reg.camStat k]) ∧
        (s.withheld = false → (s.camQ k).length < 32 → target.toNat < s.dt.toNat →
          ∃ t, exec i s = .next t ∧ t.cams = s.cams ∧
            t.rf (Reg.camStat k) 57 42 = min (s.rf (Reg.camStat k) 57 42 + 1) 65535 ∧
            t.rf (Reg.camCfg k) 0 0 =
              (if s.rf (Reg.camCfg k) 54 54 = 1 then s.rf (Reg.camCfg k) 0 0 else if on then 1 else 0) ∧
            t.mem = s.mem ∧ t.slots = s.slots ∧ t.ctxs = s.ctxs))) ∧
    (∀ who level, Admits s who (Reg.camCtrl k) → s.camWriter who k = true →
      (∃ t, exec (.flush who k) s = .next t ∧ t.camQ k = [] ∧ t.rf (Reg.camStat k) 63 58 = 0 ∧
        (∀ j, j ≠ k → t.camQ j = s.camQ j) ∧ Else s t [Reg.camStat k]) ∧
      (s.withheld = false → ∃ t, exec (.now who k level) s = .next t ∧
        t.rf (Reg.camCfg k) 0 0 = (if level then 1 else 0) ∧ t.cams = s.cams ∧
        Else s t [Reg.camCfg k, Reg.camStat k, Reg.eclStat]) ∧
      (s.withheld = true → ∃ t, exec (.now who k level) s = .next t ∧ t.cams = s.cams ∧ t.out = s.out ∧ Else s t [])) ∧
    (∀ f, firstFire (s.camQ k) = some f →
      (s.switchDt k f ≤ s.dt.toNat → ∀ l lv n, l = ((s.camQ k).filter (fun a => a.fire = some f)).map CamAct.level →
        l.getLast? = some lv → n = (edges (decide (s.rf (Reg.camCfg k) 0 0 = 1)) l).1 →
        ∃ t, exec (.camFire k) s = .next t ∧ t.camQ k = (s.camQ k).filter (fun a => a.fire ≠ some f) ∧
          t.rf (Reg.camCfg k) 0 0 = (if lv then 1 else 0) ∧
          t.rf (Reg.camStat k) 25 10 =
            min (s.rf (Reg.camStat k) 25 10 + (if look 0 s.camEdge k = f + 1 then n else n - 1)) 65535 ∧
          Else s t [Reg.camStat k, Reg.camCfg k]) ∧
      (s.dt.toNat < s.switchDt k f → exec (.camFire k) s = .next s)) ∧
    (firstFire (s.camQ k) = none → exec (.camFire k) s = .next s)

/-- Item rings (R369, R370): IRING_WRITE with tracking off sets the ring up, with TAIL and HEAD 0 and the cursor of every
enabled station at its start, when it lies within one ROOT bin of its hall, and is refused otherwise, as a change of it is
while tracking is on. IPTR_TAIL moves TAIL where the appended entries are free, with HEAD behind the cursors of the enabled
stations, or at TAIL where no station is enabled; it accepts the present TAIL without effect and is refused otherwise. The
stop state (R374). STOP_REQ by REQ, or at the pin held low for FILT × 5 ns, starts COAST from NONE, with DT and a count of
it, and leaves another state, and a shorter low level starts none; RELEASE_STOP ends the stop once the pin is high and REQ
is 0, and is refused, with its bit, otherwise; STOPPED follows COAST when every axis of the profile, of which there is one,
has been still for 10 ms; STOP_REQ_N_HIGH begins the hold time after which AX_STOP shows the pin high. -/
def Obligations.ItemRingsAndStop : Prop :=
  (∀ (s : State) (x : Nat), x < 8 →
     (∀ who v, Admits s who (Reg.axIring x) → s.kernelOrPf who = true → v &&& ~~~(fmask 63 53 ||| fmask 39 4) = 0 →
       4 ≤ fld v 57 53 → fld v 57 53 ≤ 16 →
       (s.ringSize x = 0 → s.ringPlaced v = true →
         ∃ t, exec (.iringWrite who x v) s = .next t ∧ t.ringSize x = fld v 57 53 ∧ t.ringHall x = fld v 63 58 ∧
           t.rf (Reg.axIring x) 39 4 = fld v 39 4 ∧ t.rf (Reg.axIptr x) 63 48 = 0 ∧ t.rf (Reg.axIptr x) 47 32 = 0 ∧
           (∀ k, k ∈ s.stationsOn x → t.cursor x k = 0) ∧ Else s t [Reg.axIring x, Reg.axIptr x]) ∧
       ((s.ringSize x ≠ 0 ∧ (fld v 57 53 ≠ s.ringSize x ∨ fld v 63 58 ≠ s.ringHall x ∨
           fld v 39 4 ≠ s.rf (Reg.axIring x) 39 4)) ∨ (s.ringSize x = 0 ∧ s.ringPlaced v = false) →
         ∃ t, exec (.iringWrite who x v) s = .next t ∧ t.rf (Reg.axIptr x) 0 0 = 1 ∧
           t.rf (Reg.axIptr x) 63 48 = s.rf (Reg.axIptr x) 63 48 ∧ t.axes = s.axes ∧ Else s t [Reg.axIptr x])) ∧
     (∀ who tail m head old, Admits s who (Reg.axIptr x) → s.tailWriter who x = true → tail < 65536 →
       m = 2 ^ s.ringSize x → head = s.rf (Reg.axIptr x) 47 32 → old = s.rf (Reg.axIptr x) 63 48 →
       (tail = old → ∃ t, exec (.iptrTail who x tail) s = .next t ∧ t.axes = s.axes ∧ Else s t []) ∧
       (tail ≠ old → s.ringSize x ≠ 0 → s.ringSize x ≤ 16 → tail < m →
         ringGap old tail m ≤ (head + 2 * m - old - 1) % m →
         ∃ t, exec (.iptrTail who x tail) s = .next t ∧ t.rf (Reg.axIptr x) 63 48 = tail ∧
           (s.stationsOn x = [] → t.rf (Reg.axIptr x) 47 32 = tail) ∧
           (∀ gaps, gaps = (s.stationsOn x).map (fun k => ringGap head (s.cursor x k) m) →
             t.rf (Reg.axIptr x) 47 32 = (head + gaps.foldl min (ringGap head tail m)) % m) ∧
           t.rf (Reg.axIptr x) 0 0 = s.rf (Reg.axIptr x) 0 0 ∧ t.axes = s.axes ∧ Else s t [Reg.axIptr x]) ∧
       (tail ≠ old → (s.ringSize x = 0 ∨ m ≤ tail ∨ (head + 2 * m - old - 1) % m < ringGap old tail m) →
         ∃ t, exec (.iptrTail who x tail) s = .next t ∧ t.rf (Reg.axIptr x) 0 0 = 1 ∧
           t.rf (Reg.axIptr x) 63 48 = old ∧ t.rf (Reg.axIptr x) 47 32 = head ∧ t.axes = s.axes ∧
           Else s t [Reg.axIptr x]))) ∧
  (∀ s : State,
     (s.stopState = 0 →
       (∀ ns, 5 * s.rf Reg.axStop 57 48 ≤ ns → ∃ t, exec (.stopReq (.pin ns)) s = .next t ∧ t.stopState = 1 ∧
         t.rf Reg.axStop 61 61 = 1 ∧ t.reg Reg.axStopDt = s.dt ∧
         t.rf Reg.axStop 31 0 = (s.rf Reg.axStop 31 0 + 1) % 2 ^ 32 ∧
         t.mem = s.mem ∧ t.slots = s.slots ∧ t.ctxs = s.ctxs) ∧
       (∀ who, Admits s who Reg.axStop → s.kernelOrPf who = true →
         ∃ t, exec (.stopReq (.req who)) s = .next t ∧ t.stopState = 1 ∧ t.rf Reg.axStop 60 60 = 1 ∧
           t.reg Reg.axStopDt = s.dt ∧ t.mem = s.mem ∧ t.slots = s.slots ∧ t.ctxs = s.ctxs)) ∧
     (s.stopState ≠ 0 →
       (∀ ns, 5 * s.rf Reg.axStop 57 48 ≤ ns → ∃ t, exec (.stopReq (.pin ns)) s = .next t ∧ t.stopState = s.stopState ∧
         t.rf Reg.axStop 61 61 = 1 ∧
         Else s t [Reg.axStop]) ∧
       (∀ who, Admits s who Reg.axStop → s.kernelOrPf who = true →
         ∃ t, exec (.stopReq (.req who)) s = .next t ∧ t.stopState = s.stopState ∧ t.rf Reg.axStop 60 60 = 1 ∧
           Else s t [Reg.axStop])) ∧
     (∀ who, Admits s who Reg.axStop → s.kernelOrPf who = true →
       (s.stopState ≠ 0 → s.rf Reg.axStop 61 60 = 0 →
         ∃ t, exec (.releaseStop who) s = .next t ∧ t.stopState = 0 ∧ t.rf Reg.axStop 61 60 = 0 ∧
           t.reg Reg.axStopDt = s.reg Reg.axStopDt ∧ t.mem = s.mem ∧ t.slots = s.slots ∧ t.ctxs = s.ctxs) ∧
       ((s.stopState ≠ 0 ∧ s.rf Reg.axStop 61 60 ≠ 0) ∨ (s.stopState = 0 ∧ s.rf Reg.axStop 60 60 = 0) →
         ∃ t, exec (.releaseStop who) s = .next t ∧ t.stopState = s.stopState ∧ t.rf Reg.axStop 58 58 = 1 ∧
           t.rf Reg.axStop 61 60 = s.rf Reg.axStop 61 60 ∧ Else s t [Reg.axStop])) ∧
     (∀ prof, prof = (List.range s.part.axes).filter (fun x => (s.axr x).dec ≠ 0) →
       (prof ≠ [] → (∀ x, x ∈ prof → ∃ u, (s.axr x).still = some u ∧ u + 10000000 ≤ s.dt.toNat) → s.stopState = 1 →
         ∃ t, exec .stopped s = .next t ∧ t.stopState = 2 ∧ t.mem = s.mem ∧ t.slots = s.slots ∧ t.ctxs = s.ctxs) ∧
       (s.stopState ≠ 1 ∨ prof = [] ∨ (∃ x, x ∈ prof ∧ ((s.axr x).still = none ∨
           ∃ u, (s.axr x).still = some u ∧ s.dt.toNat < u + 10000000)) → exec .stopped s = .next s)) ∧
     (∀ ns, ns < 5 * s.rf Reg.axStop 57 48 → ∃ t, exec (.stopReq (.pin ns)) s = .next t ∧ t.stopState = s.stopState ∧
       (s.life.stopHigh = none → t = s) ∧ Else s t []) ∧
     (∃ t, exec .stopReqNHigh s = .next t ∧ t.stopState = s.stopState ∧ Else s t [] ∧
       (s.rf Reg.axStop 61 61 = 0 → t = s) ∧
       (s.rf Reg.axStop 61 61 = 1 → s.life.stopHigh = none → t.life.stopHigh = some s.dt.toNat)))

/-- The Gallery. SPEC_CHECK with nothing due does nothing; the first crossed speculation commits when no conflict is noted:
its tentative word is written, its record is free, the commit is counted and SPECK cleared; an item held for suspect time
gets TIME_SUSPECT; a context that waits for the outcome becomes Ready, behind its SPEC.CLOSE. With a conflict it is
discarded with reason 1 (R393 to R396, R400). ABANDON, by the device kernel or by the hall, and REMOTE_TIMEOUT discard with
reasons 5 and 4 (R397, R400); an ABANDON that names no speculation does nothing. MIRROR_ENABLE takes a base that meets R389,
sets its function's override flag (R456) and writes every selected sector (R390, R391), and is counted otherwise. The
commands that wait for the outcome are none here, and MEMORY has no error. -/
def Obligations.Gallery : Prop :=
  ∀ s : State,
    (s.checkDue = [] → exec .specCheck s = .next s) ∧
    (∀ i rest g c, s.checkDue = i :: rest → g = s.galr i → c = s.ctx g.scn → c.deferred = [] → g.hall < 64 →
      (g.conflict = false → s.NoErrors → ∀ x, x = (s.slot c.hcn).regs →
        (∀ n k w, g.held = false → g.lines = [(n, ⟨0, [(k, w)]⟩)] → k < 32 → w.isPtr = false →
          c.st = .ready → c.wait = none →
          ∃ t, exec .specCheck s = .next t ∧ t.galr i = GalRec.reset ∧ t.memWord (n * 256 + 8 * k) = w ∧
            t.rf (Reg.galHstat g.hall) 63 48 = min (s.rf (Reg.galHstat g.hall) 63 48 + 1) 65535 ∧
            (t.slot c.hcn).regs = { x with speck := 0 } ∧ t.ctx g.scn = c) ∧
        (∀ pa, g.held = true → g.item = some pa → g.lines = [] → (s.memWord pa).tag.extractLsb' 0 6 ≠ 0x32 →
          c.st = .ready → c.wait = none →
          ∃ t, exec .specCheck s = .next t ∧ t.galr i = GalRec.reset ∧
            (t.memWord pa).payload = (s.memWord pa).payload ||| 0x20 ∧ (t.memWord pa).tag = (s.memWord pa).tag ∧
            (t.slot c.hcn).regs = { x with speck := 0 }) ∧
        (∀ b, g.held = false → g.lines = [] → c.st = .waiting → c.wait = some (.outcome b) → stSs x.status = false →
          ∃ t, exec .specCheck s = .next t ∧ t.galr i = GalRec.reset ∧ (t.ctx g.scn).st = .ready ∧
            (t.ctx g.scn).wait = none ∧ t.mem = s.mem ∧
            (t.slot c.hcn).regs = { x with speck := 0, pc := if b then x.pc + 4 else x.pc })) ∧
      (g.conflict = true → g.lines = [] → c.st = .ready → c.wait = none →
        ∃ t, exec .specCheck s = .next t ∧ Discarded s t i 1)) ∧
    (∀ who speck, Admits s who Reg.galCmd →
      (∀ i, s.kernelOrPf who = true ∨ s.isCtxOf who (s.galr i).hall = true → s.speckRec (BitVec.toNat speck) = some i →
        (s.ctx (s.galr i).scn).st = .ready → (s.ctx (s.galr i).scn).deferred = [] → (s.galr i).hall < 64 →
        ∃ t, exec (.abandon who speck) s = .next t ∧ Discarded s t i 5) ∧
      (s.kernelOrPf who = true → s.speckRec speck.toNat = none →
        ∃ t, exec (.abandon who speck) s = .next t ∧ t.gal = s.gal ∧ Else s t [])) ∧
    ((∀ i g, (i, g) ∈ s.gal → g.st = .crossed → g.remote = true → s.suspect = true →
        s.dt.toNat < g.crossDt + 100000 * s.rf Reg.galCfg 15 0) → exec .remoteTimeout s = .next s) ∧
    (∀ i g rest, s.gal = (i, g) :: rest → g.st = .crossed → g.remote = true → s.suspect = true →
      g.crossDt + 100000 * s.rf Reg.galCfg 15 0 ≤ s.dt.toNat → (s.ctx g.scn).st = .ready → (s.ctx g.scn).deferred = [] →
      g.hall < 64 → ∃ t, exec .remoteTimeout s = .next t ∧ Discarded s t i 4) ∧
    (∀ who h base v, h < 64 → Admits s who (Reg.galMirror h) → s.kernelOrPf who = true → s.resetting h = false →
      v = setFld (setBit 0 63 true) 39 11 (BitVec.toNat base) →
      (s.mirrorOk h v = true → s.reg (Reg.galMsel h) = 0 →
        ∃ t, exec (.mirrorEnable who h base) s = .next t ∧ t.rf (Reg.galMirror h) 63 63 = 1 ∧
          t.rf (Reg.galMirror h) 39 11 = base.toNat ∧ t.rf (Reg.devOvr 4) h h = 1 ∧ t.mem = s.mem ∧
          t.slots = s.slots ∧ t.ctxs = s.ctxs) ∧
      (∀ m a, m < 16 → s.mirrorOk h v = true → s.NoErrors → s.rf (Reg.galMirror h) 63 63 = 0 →
        s.reg (Reg.galMsel h) = setBit 0 m true → a = 2048 * base.toNat + 64 * m →
        ∃ t, exec (.mirrorEnable who h base) s = .next t ∧ t.rf (Reg.galMirror h) 63 63 = 1 ∧
          t.memWord a = posW (s.reg (Reg.markPos m)) ∧ t.memWord (a + 8) = timeW (s.reg (Reg.markDt m)).toNat ∧
          t.memWord (a + 16) = fixN (s.rf (Reg.markStat m) 63 32) ∧
          (∀ k, 3 ≤ k → k < 8 → t.memWord (a + 8 * k) = fixN 0)) ∧
      (s.mirrorOk h v = false →
        exec (.mirrorEnable who h base) s = .next (s.countRsv 0 (Reg.galMirror h))))

/-- The hall commands of a hall 0 context (R409, R410, R413, R416): CREATE of a hall that is NONE stops it; START of a
stopped hall whose function is enabled runs it and samples COMPAT; REMOVE of a stopped hall ends it with its pages, and its
shares take their reset values; from another state they are turned away with RESULT 1, and START without its function with
RESULT 2; a START with COMPAT ends a collection, and no scan waits then. HALL_SLOT_CMD gives free slots at once and the
others when they are freed. HALL_DEVMAP stores the pages but for the groups no hall may have. The host's functions (R419,
R430 to R432, R527), while no hall beside hall 0 is created and no descriptor of one is left. VF_ENABLE_WRITE sets VF
Enable, and NumVFs where the part has as many halls, and resets the configuration of a VF that goes; PF_FLR and PERST
disable the VFs, end the manager's outstanding request and reset every function to D0. The requests of the row D3HOT (log
entry 66) of a function that is present move it to D3hot and back, set Bus Master Enable, MSI-X Enable and the masks, the
sizes and timeouts that the part has, and the control bits of its features and of no other (R429), and read the
configuration; a vector that is no longer masked is signalled when its message was pending (R437). While the link is down
only PERST acts. -/
def Obligations.HallsAndFunctions : Prop :=
  (∀ (s : State) (who : Initiator), s.isCtxOf who 0 = true →
     (∀ h, 1 ≤ h → h < 64 → Admits s who (Reg.hallCtrl h) →
       (s.hstate h = 0 → ∃ t, exec (.hallCtrlCreate who h) s = .next t ∧ t.hstate h = 1 ∧ t.rf (Reg.hallCtrl h) 3 0 = 0 ∧
         Else s t [Reg.hallState h, Reg.hallCtrl h]) ∧
       (s.hstate h = 1 → s.vfOn h = true → (s.rf (Reg.hallCfg h) 0 0 = 0 ∨ (s.glh h).phase = .idle) →
         ∃ t, exec (.hallCtrlStart who h) s = .next t ∧ t.hstate h = 2 ∧ t.rf (Reg.hallCtrl h) 3 0 = 0 ∧
           t.rf (Reg.hallState h) 57 57 = s.rf (Reg.hallCfg h) 0 0 ∧ Else s t [Reg.hallState h, Reg.hallCtrl h]) ∧
       (s.hstate h = 1 → s.vfOn h = true → s.rf (Reg.hallCfg h) 0 0 = 1 → (s.glh h).phase ≠ .idle →
         (s.glh h).metas = [] → keysRise s.slots = true →
         ∃ t, exec (.hallCtrlStart who h) s = .next t ∧ t.hstate h = 2 ∧ t.rf (Reg.hallState h) 57 57 = 1 ∧
           (t.glh h).phase = .idle ∧ t.mem = s.mem ∧ t.ctxs = s.ctxs ∧ (∀ n scn, (s.slot n).scn = some scn →
             t.slot n = (if (s.ctx scn).hall = h then { s.slot n with scan := false } else s.slot n))) ∧
       (s.hstate h = 1 → s.vfOn h = false →
         ∃ t, exec (.hallCtrlStart who h) s = .next t ∧ t.hstate h = 1 ∧ t.rf (Reg.hallCtrl h) 3 0 = 2 ∧
           Else s t [Reg.hallCtrl h]) ∧
       (s.hstate h = 1 → ∃ t, exec (.hallCtrlRemove who h) s = .next t ∧ t.hstate h = 0 ∧
         t.rf (Reg.hallCtrl h) 3 0 = 0 ∧ t.reg (Reg.hallPdwin h) = 0 ∧ t.rf (Reg.galHall h) 47 32 = 0 ∧
         (∀ r, r = regReset s.part (Reg.hallShare h) → t.rf (Reg.hallShare h) 63 48 = fld r 63 48 ∧
           t.rf (Reg.hallShare h) 47 34 = fld r 47 34 ∧ t.rf (Reg.hallShare h) 33 26 = fld r 33 26 ∧
           t.rf (Reg.hallShare h) 15 8 = fld r 15 8) ∧
         (∀ j, j < 16 → t.reg (Reg.hallDevmap h j) = 0)) ∧
       (s.hstate h ≠ 0 → ∃ t, exec (.hallCtrlCreate who h) s = .next t ∧ t.rf (Reg.hallCtrl h) 3 0 = 1 ∧
         Else s t [Reg.hallCtrl h]) ∧
       (s.hstate h ≠ 1 →
         (∃ t, exec (.hallCtrlStart who h) s = .next t ∧ t.rf (Reg.hallCtrl h) 3 0 = 1 ∧ Else s t [Reg.hallCtrl h]) ∧
         (∃ t, exec (.hallCtrlRemove who h) s = .next t ∧ t.rf (Reg.hallCtrl h) 3 0 = 1 ∧ Else s t [Reg.hallCtrl h]))) ∧
     (∀ lcn first count h, Admits s who Reg.hallSlotCmd → lcn < 256 → first < 64 → count < 128 → h < 64 →
       (1 ≤ count → first + count ≤ 64 → lcn < s.part.cores → (h = 0 ∨ s.hallCreated h = true) →
         ∃ t, exec (.hallSlotCmd who lcn first count h) s = .next t ∧
           (∀ k, k < count → ∀ n, n = lcn * 64 + first + k →
             ((s.slot n).scn = none → t.slot n = { s.slot n with owner := h, pend := none }) ∧
             ((s.slot n).scn ≠ none →
               t.slot n = { s.slot n with pend := if (s.slot n).owner = h then none else some h })) ∧
           (∀ n, n < lcn * 64 + first ∨ lcn * 64 + first + count ≤ n → t.slot n = s.slot n) ∧
           t.rf Reg.hallSlotStat 62 60 ≤ 1 ∧ t.mem = s.mem ∧ t.ctxs = s.ctxs) ∧
       (count = 0 ∨ 64 < first + count ∨ s.part.cores ≤ lcn ∨ (h ≠ 0 ∧ s.hallCreated h = false) →
         ∃ t, exec (.hallSlotCmd who lcn first count h) s = .next t ∧ t.rf Reg.hallSlotStat 62 60 = 2 ∧
           Else s t [Reg.hallSlotStat])) ∧
     (∀ h j v, 1 ≤ h → h < 64 → j < 16 → Admits s who (Reg.hallDevmap h j) →
       (j ≠ 0 → j ≠ 12 → j ≠ 13 → ∃ t, exec (.hallDevmap who h j v) s = .next t ∧ t.reg (Reg.hallDevmap h j) = v ∧
         Else s t [Reg.hallDevmap h j]) ∧
       ((j = 0 ∨ j = 12 ∨ j = 13) → v ≠ 0 →
         exec (.hallDevmap who h j v) s = .next (s.countRsv 0 (Reg.hallDevmap h j))))) ∧
  (∀ s : State, (∀ h, 1 ≤ h → h ≤ s.part.hallMax → s.hstate h = 0) → (∀ o, o ∈ s.xe → o.hall = 0) →
     (s.linkUp = false → exec .pfFlr s = .next s ∧
       ∀ enable num fn q, exec (.vfEnableWrite enable num) s = .next s ∧ exec (.d3hot fn q) s = .next s) ∧
     (s.linkUp = true → ∀ enable num, ∃ t, exec (.vfEnableWrite enable num) s = .next t ∧ t.vfEnable = enable ∧
       t.numVfs = (if s.part.hallMax < num then s.numVfs else num) ∧
       (∀ h, s.vfOn h = true → t.vfOn h = false → h ≤ s.part.hallMax → t.fnCfg h = FnCfg.reset ∧ h ∉ t.d3hot) ∧
       t.ctl = s.ctl ∧ Else s t []) ∧
     (s.linkUp = true → ∃ t, exec .pfFlr s = .next t ∧ t.vfEnable = false ∧ t.numVfs = 0 ∧ t.d3hot = [] ∧ t.fns = [] ∧
       t.boxBusy none = false ∧ Else s t [Reg.devMbCtrl]) ∧
     (∃ t, exec .perst s = .next t ∧ t.linkUp = true ∧ t.vfEnable = false ∧ t.numVfs = 0 ∧ t.d3hot = [] ∧ t.fns = [] ∧
       t.boxBusy none = false ∧ Else s t [Reg.devMbCtrl]) ∧
     (∀ fn q, fn ≠ 0 → s.vfOn fn = false → exec (.d3hot fn q) s = .next s) ∧
     (∀ fn c, s.linkUp = true → fn = 0 ∨ s.vfOn fn = true → c = s.fnCfg fn →
       (∀ on, ∃ t, exec (.d3hot fn (.power on)) s = .next t ∧ (fn ∈ t.d3hot ↔ on = true) ∧
         (∀ f, f ≠ fn → (f ∈ t.d3hot ↔ f ∈ s.d3hot)) ∧ t.fns = s.fns ∧ t.ctl = s.ctl ∧ Else s t []) ∧
       (∀ on, ∃ t, exec (.d3hot fn (.master on)) s = .next t ∧ (t.fnCfg fn).master = on ∧
         (t.fnCfg fn).unmasked = c.unmasked ∧ (t.fnCfg fn).msixOn = c.msixOn ∧ t.ctl = s.ctl ∧ Else s t []) ∧
       (∀ on mask, ∃ t, exec (.d3hot fn (.msixControl on mask)) s = .next t ∧ (t.fnCfg fn).msixOn = on ∧
         (t.fnCfg fn).msixMask = mask ∧ (t.fnCfg fn).unmasked = c.unmasked ∧ t.ctl = s.ctl ∧ Else s t []) ∧
       (∀ k masked, k < (if fn = 0 then 2048 else 64) →
         ∃ t, exec (.d3hot fn (.vector k masked)) s = .next t ∧ (k ∈ (t.fnCfg fn).unmasked ↔ masked = false) ∧
           (∀ j, j ≠ k → (j ∈ (t.fnCfg fn).unmasked ↔ j ∈ c.unmasked)) ∧
           (masked = false → k ∈ c.pending → c.msixOn = true → c.msixMask = false → s.requests fn = true →
             Out.msix fn k ∈ t.out ∧ k ∉ (t.fnCfg fn).pending) ∧ t.ctl = s.ctl ∧ Else s t []) ∧
       (∀ k masked, (if fn = 0 then 2048 else 64) ≤ k → exec (.d3hot fn (.vector k masked)) s = .next s) ∧
       (∀ k on, (k = .tag10 ∨ k = .ecrc ∨ k = .aer ∨ k = .ari ∨ k = .cplTimeout →
           ∃ t, exec (.d3hot fn (.control k on)) s = .next t ∧ t.featureOn fn k = on ∧
             (∀ j, j ≠ k → t.featureOn fn j = s.featureOn fn j) ∧ t.ctl = s.ctl ∧ Else s t []) ∧
         (k ≠ .tag10 → k ≠ .ecrc → k ≠ .aer → k ≠ .ari → k ≠ .cplTimeout →
           exec (.d3hot fn (.control k on)) s = .next s ∧ s.featureOn fn k = false)) ∧
       (∀ n, (n ∈ [128, 256, 512] → ∃ t, exec (.d3hot fn (.maxPayload n)) s = .next t ∧ t.fnCfg fn = { c with payload := n } ∧
           t.ctl = s.ctl ∧ Else s t []) ∧
         (n ∈ [128, 256, 512, 1024, 2048, 4096] → ∃ t, exec (.d3hot fn (.maxReadReq n)) s = .next t ∧
           t.fnCfg fn = { c with readReq := n } ∧ t.ctl = s.ctl ∧ Else s t []) ∧
         (n ∉ [128, 256, 512] → exec (.d3hot fn (.maxPayload n)) s = .next s) ∧
         (n ∉ [128, 256, 512, 1024, 2048, 4096] → exec (.d3hot fn (.maxReadReq n)) s = .next s)) ∧
       (∀ n off, (n ∈ [0, 1, 2, 5, 6] → ∃ t, exec (.d3hot fn (.cplTimeout n off)) s = .next t ∧
           t.fnCfg fn = { c with cplRange := n, cplOff := off } ∧ t.ctl = s.ctl ∧ Else s t []) ∧
         (n ∉ [0, 1, 2, 5, 6] → exec (.d3hot fn (.cplTimeout n off)) s = .next s)) ∧
       (∃ t, exec (.d3hot fn .clearAer) s = .next t ∧ t.fnCfg fn = { c with aer := [] } ∧ t.ctl = s.ctl ∧ Else s t []) ∧
       (∃ t hd cap cfg, exec (.d3hot fn .read) s = .next t ∧ t = { s with out := .cfgRead fn hd cap cfg :: s.out } ∧
         hd.device = (if fn = 0 then 0x8640 else 0xFFFF) ∧ hd.classCode = 0x120000 ∧ hd.revision = s.part.stepping ∧
         hd.subsystem = s.life.subsys ∧ hd.intPin = 0 ∧ hd.link = s.life.link ∧
         hd.bars = (if fn = 0 then [⟨0, 16777216, true, false⟩] else []) ∧ (cap.isSome = true ↔ fn = 0) ∧
         (∀ v, cap = some v → v.totalVfs = s.part.hallMax ∧ v.firstOffset = 1 ∧ v.stride = 1 ∧ v.vfDevice = 0x8641 ∧
           v.enable = s.vfEnable ∧ v.numVfs = s.numVfs ∧ v.migration = false ∧ v.vfBar0 = ⟨0, 65536, true, false⟩) ∧
         cfg.payload = c.payload ∧ cfg.readReq = c.readReq ∧ cfg.cplRange = c.cplRange ∧ cfg.aer = c.aer ∧
         ∀ k, k ∈ cfg.features ↔ s.featureOn fn k = true)))

/-- Hall reset (R419 to R421, R424, R425), of a hall with nothing at work. HALL_RESET_GO of a hall that is NONE is refused
with its bit; with a grace period the hall is RESETTING in GRACE until its end; SQUASH, and an FLR of its function, whose
configuration is reset, take it to SQUASH; another request without SQUASH changes nothing. The acknowledgement and the end
of the grace period lead to DRAIN, the drain limit to SQUASH. The last step, of a hall none of whose register writes is
still posted, waits in DRAIN for what is left, and leaves the hall stopped, without contexts and its registers of reset
domain HALL at their reset values. -/
def Obligations.HallReset : Prop :=
  ∀ (s : State) (h : Nat), 1 ≤ h → h < 64 →
    (∀ who grace limit, s.isCtxOf who 0 = true → Admits s who (Reg.hallReset h) → grace < 256 → limit ≤ 30 →
      (∀ squash, s.hstate h = 0 → ∃ t, exec (.hallResetGo who h squash grace limit) s = .next t ∧
        t.rf (Reg.hallReset h) 61 61 = 1 ∧ t.hstate h = 0 ∧ Else s t [Reg.hallReset h]) ∧
      (s.hstate h ≠ 0 → s.hstate h ≠ 3 → s.route h = none → s.route 0 = none →
        ∃ t, exec (.hallResetGo who h false grace limit) s = .next t ∧ t.hstate h = 3 ∧ t.hphase h = 1 ∧
          (look ⟨0, 0⟩ t.hallRst h).deadline = s.dt.toNat + 1000000 * grace ∧ t.rf (Reg.hallState h) 55 55 = 0 ∧
          t.mem = s.mem ∧ t.slots = s.slots ∧ t.ctxs = s.ctxs) ∧
      (s.hstate h = 3 → ∃ t, exec (.hallResetGo who h false grace limit) s = .next t ∧ t.hstate h = 3 ∧
        t.hphase h = s.hphase h ∧ t.hallRst = s.hallRst ∧ t.mem = s.mem ∧ t.slots = s.slots ∧ t.ctxs = s.ctxs) ∧
      (s.hstate h ≠ 0 → (s.hstate h ≠ 3 ∨ (s.hphase h = 1 ∧ s.rf (Reg.hallState h) 55 55 = 0)) → HallIdle s h →
        ∃ t, exec (.hallResetGo who h true grace limit) s = .next t ∧ t.hstate h = 3 ∧ t.hphase h = 5 ∧
          t.rf (Reg.hallState h) 55 55 = 1 ∧ t.mem = s.mem ∧ t.slots = s.slots ∧ t.ctxs = s.ctxs)) ∧
    (HallIdle s h → s.hstate h = 3 → s.hphase h = 1 →
      (∀ who, s.isCtxOf who 0 = true → Admits s who (Reg.hallDrainAck h) →
        ∃ t, exec (.hallDrainAck who h) s = .next t ∧ t.hstate h = 3 ∧ t.hphase h = 3 ∧
          (look ⟨0, 0⟩ t.hallRst h).deadline = s.dt.toNat + 100000 * s.rf (Reg.hallReset h) 44 40 ∧
          t.mem = s.mem ∧ t.slots = s.slots ∧ t.ctxs = s.ctxs) ∧
      ((look ⟨0, 0⟩ s.hallRst h).deadline ≤ s.dt.toNat →
        ∃ t, exec (.graceEnd h) s = .next t ∧ t.hstate h = 3 ∧ t.hphase h = 3 ∧
          (look ⟨0, 0⟩ t.hallRst h).deadline = s.dt.toNat + 100000 * s.rf (Reg.hallReset h) 44 40 ∧
          t.mem = s.mem ∧ t.slots = s.slots ∧ t.ctxs = s.ctxs)) ∧
    (s.dt.toNat < (look ⟨0, 0⟩ s.hallRst h).deadline →
      exec (.graceEnd h) s = .next s ∧ exec (.drainLimitEnd h) s = .next s) ∧
    (HallIdle s h → s.hstate h = 3 → s.hphase h = 3 → (look ⟨0, 0⟩ s.hallRst h).deadline ≤ s.dt.toNat →
      ∃ t, exec (.drainLimitEnd h) s = .next t ∧ t.hstate h = 3 ∧ t.hphase h = 5 ∧ t.mem = s.mem ∧ t.slots = s.slots ∧
        t.ctxs = s.ctxs) ∧
    (s.hstate h ≠ 3 ∨ s.hphase h ≠ 1 → ∀ who, s.isCtxOf who 0 = true → Admits s who (Reg.hallDrainAck h) →
      ∃ t, exec (.hallDrainAck who h) s = .next t ∧ Else s t []) ∧
    ((∀ w, w ∈ s.posted → s.isCtxOf w.who h = false) → s.hstate h = 3 → s.hphase h = 3 → (∃ o, o ∈ s.xe ∧ o.hall = h) →
      exec (.hallResetDone h) s = .next s) ∧
    ((∀ w, w ∈ s.posted → s.isCtxOf w.who h = false) → s.hstate h = 3 → (s.hphase h = 5 ∨ (s.hphase h = 3 ∧
      (∀ o, o ∈ s.xe → o.hall ≠ h) ∧ s.boxBusy (some h) = false)) →
      ∃ t, exec (.hallResetDone h) s = .next t ∧
      (∀ n, (s.ctx n).hall = h → (s.ctx n).st ≠ .none → t.ctx n = SwCtx.reset) ∧ t.hstate h = 1 ∧ t.hphase h = 0 ∧
      t.glh h = GlHall.reset ∧ (∀ off, regHall off = some h → t.reg off = regReset t.part off) ∧
      (∀ sel, sel < 256 → t.sys h sel = sysReset sel) ∧ (∀ o, o ∈ t.xe → o.hall ≠ h)) ∧
    (s.hstate h ≠ 3 → exec (.hallResetDone h) s = .next s) ∧
    (s.vfOn h = false ∨ s.linkUp = false → exec (.flr h) s = .next s) ∧
    (s.vfOn h = true → s.linkUp = true → s.hstate h ≠ 0 → s.hstate h ≠ 3 → HallIdle s h →
      ∃ t, exec (.flr h) s = .next t ∧ t.hstate h = 3 ∧ t.hphase h = 5 ∧ t.rf (Reg.hallState h) 56 56 = 1 ∧
        h ∉ t.d3hot ∧ t.fnCfg h = FnCfg.reset ∧ t.mem = s.mem ∧ t.slots = s.slots ∧ t.ctxs = s.ctxs)

/-- The doorbells of the mailbox and of an OD window of a running hall (R435, R437 to R439). REQ_SEQ of a box that is not
busy stores the number; a request it knows is told to the device kernel, one of an unknown code or of too great a length is
answered at once with UNKNOWN or BAD_LENGTH, and the number of the last response makes none outstanding; of a busy box it
only sets the bit, and of an OD window while 1,024 transactions are in flight it waits (R46, R478). RSP_SEQ by a context of
hall 0 stores the number and signals the requester's vector. The other requests of the manager mailbox (R439, R493, R502,
R514), answered when outstanding: VERSION with the patch level and the features, whose first word is the model's free value
(log entry 8); EVENT_READ with the oldest events, which are read once; SERVICE and CASCADE with the effect of their
registers' commands, here the checks that accept or turn them away. -/
def Obligations.MailboxRequests : Prop :=
  (∀ (s : State) (box : Option Nat) (seq : BitVec 16),
     (∀ h, box = some h → 1 ≤ h ∧ h < 64 ∧ s.hstate h = 2) →
     (∀ who, who = (match box with
         | none => Initiator.pf
         | some h => Initiator.vf h) → Admits s who (boxCtrl box) →
       (s.boxBusy box = false → seq.toNat ≠ s.rf (boxCtrl box) 47 32 → (∀ h, box = some h → s.netFlight < 1024) →
         (knownCode box (s.boxCode box) = true → s.boxLen box ≤ 4088 →
           ∃ t, exec (.reqSeq box seq) s = .next t ∧ t.rf (boxCtrl box) 63 48 = seq.toNat ∧ t.boxBusy box = true ∧
             t.out = (match box with
               | none => Out.event 0 "MAILBOX" seq.toNat
               | some h => Out.event 0 "OD_WINDOW" h) :: s.out ∧ Else s t [boxCtrl box]) ∧
         (∀ code, code = s.boxCode box → knownCode box code = false →
           ∃ t, exec (.reqSeq box seq) s = .next t ∧ Answered s t box code 6 0 ∧
             t.rf (boxCtrl box) 63 48 = seq.toNat ∧ Else s t [boxCtrl box, boxRsp box 0]) ∧
         (∀ code, code = s.boxCode box → knownCode box code = true → 4088 < s.boxLen box →
           ∃ t, exec (.reqSeq box seq) s = .next t ∧ Answered s t box code 7 0 ∧
             t.rf (boxCtrl box) 63 48 = seq.toNat ∧ Else s t [boxCtrl box, boxRsp box 0])) ∧
       (∀ h, box = some h → s.boxBusy box = false → seq.toNat ≠ s.rf (boxCtrl box) 47 32 → 1024 ≤ s.netFlight →
         h ∉ s.casc.odWait → ∃ t, exec (.reqSeq box seq) s = .next t ∧ t.boxBusy box = true ∧ t.out = s.out ∧
           t.casc.odWait = s.casc.odWait ++ [h] ∧ Else s t [boxCtrl box]) ∧
       (s.boxBusy box = false → seq.toNat = s.rf (boxCtrl box) 47 32 →
         ∃ t, exec (.reqSeq box seq) s = .next t ∧ t.boxBusy box = false ∧ t.out = s.out ∧ Else s t [boxCtrl box]) ∧
       (s.boxBusy box = true → ∃ t, exec (.reqSeq box seq) s = .next t ∧
         t.rf (boxCtrl box) 63 48 = s.rf (boxCtrl box) 63 48 ∧ t.rf (boxCtrl box) 30 30 = 1 ∧ t.out = s.out ∧
         Else s t [boxCtrl box])) ∧
     (∀ scn, Admits s (.ctx scn 2) (boxCtrl box) → s.isCtxOf (.ctx scn 2) 0 = true →
       ∃ t, exec (.rspSeq scn box seq) s = .next t ∧ t.rf (boxCtrl box) 47 32 = seq.toNat ∧
         t.rf (boxCtrl box) 63 48 = s.rf (boxCtrl box) 63 48 ∧
         Signalled s t (box.getD 0) (if box = none then 0 else 32) ∧
         (s.signals (box.getD 0) (if box = none then 0 else 32) = false → t.out = s.out) ∧ Else s t [boxCtrl box])) ∧
  (∀ s : State, s.boxBusy none = true →
     (s.boxCode none = 1 → ∃ t, exec .version s = .next t ∧ Answered s t none 1 0 24 ∧
       t.reg (boxRsp none 2) = BitVec.ofNat 64 (s.rf Reg.devPatchStat 63 32) ∧ t.reg (boxRsp none 3) = s.part.features ∧
       t.slots = s.slots ∧ t.mem = s.mem ∧ t.ctxs = s.ctxs) ∧
     (∀ n, s.boxCode none = 0x20 → n = min (s.reg (boxReq none 1)).toNat 255 →
       ∃ t, exec .eventRead s = .next t ∧ Answered s t none 0x20 0 (16 * min n s.mgrEvents.length) ∧
         t.mgrEvents = s.mgrEvents.drop n ∧
         (∀ e rest, s.mgrEvents = e :: rest → 1 ≤ n → t.reg (boxRsp none 1) = BitVec.ofNat 64 e.dt ∧
           t.rf (boxRsp none 2) 63 48 = e.index % 65536)) ∧
     (∀ sub, s.boxCode none = 0x30 → s.rf (boxReq none 1) 7 0 = sub →
       (sub = 1 → ∃ t, exec .serviceStatus s = .next t ∧ t.boxBusy none = false ∧
         t.reg (boxRsp none 1) = s.regValue Reg.seedStat ∧ t.slots = s.slots ∧ t.mem = s.mem) ∧
       (s.rf Reg.seedCmdStat 63 63 = 0 → ∀ arg, arg = s.rf (boxReq none 2) 33 0 →
         (sub = 2 → s.seedCheck 1 arg = 0 → ∃ t, exec .serviceRespare s = .next t ∧ Answered s t none 0x30 0 0 ∧
           t.rf Reg.seedCmdStat 63 63 = 1 ∧ t.service.cmd = some (seedWord 1 arg)) ∧
         (sub = 3 → s.seedCheck 2 arg = 0 → ∃ t, exec .serviceRowspare s = .next t ∧ Answered s t none 0x30 0 0 ∧
           t.rf Reg.seedCmdStat 63 63 = 1 ∧ t.service.cmd = some (seedWord 2 arg)) ∧
         (sub = 4 → s.seedCheck 3 arg = 0 → ∃ t, exec .servicePpr s = .next t ∧ Answered s t none 0x30 0 0 ∧
           t.rf Reg.seedCmdStat 63 63 = 1 ∧ t.service.cmd = some (seedWord 3 arg)) ∧
         (sub = 5 → s.seedCheck 4 arg = 0 → ∃ t, exec .serviceWayspare s = .next t ∧ Answered s t none 0x30 0 0 ∧
           t.rf Reg.seedCmdStat 63 63 = 1 ∧ t.service.cmd = some (seedWord 4 arg)) ∧
         (sub = 6 → s.seedCheck 5 arg = 0 → ∃ t, exec .serviceCtxrow s = .next t ∧ Answered s t none 0x30 0 0 ∧
           t.rf Reg.seedCmdStat 63 63 = 1 ∧ t.service.cmd = some (seedWord 5 arg)) ∧
         (sub = 2 → s.seedCheck 1 arg = 2 → ∃ t, exec .serviceRespare s = .next t ∧ Answered s t none 0x30 3 0 ∧
           t.service.cmd = s.service.cmd)) ∧
       (sub = 7 → s.recorder.queue.length < 64 → ∃ t, exec .serviceFreeze s = .next t ∧ Answered s t none 0x30 0 0 ∧
         (∃ r, t.recorder.queue = s.recorder.queue ++ [r] ∧ r.code = 0x003 ∧ r.detail = 0xFF) ∧ t.mem = s.mem) ∧
       (sub = 8 → ∃ t, exec .serviceUnfreeze s = .next t ∧ Answered s t none 0x30 0 0 ∧ t.recorder.frozen = none ∧
         t.mem = s.mem)) ∧
     (∀ sub, s.boxCode none = 0x40 → s.rf (boxReq none 1) 7 0 = sub →
       (sub = 1 → ∃ t, exec .cascadeStatus s = .next t ∧ Answered s t none 0x40 0 16 ∧
         t.reg (boxRsp none 1) = s.regValue Reg.cascState ∧ t.reg (boxRsp none 2) = s.regValue Reg.cascTime) ∧
       (s.part.hasCascade = true →
         (sub = 2 → (s.cascSt = 4 ∨ s.cascSt = 6) → s.cascPresent (s.rf Reg.cascState 52 50) = false →
           ∃ t, exec .cascadePromote s = .next t ∧ Answered s t none 0x40 0 0 ∧ t.cascSt = 5 ∧
             t.rf Reg.cascState 52 50 = s.cascId) ∧
         (sub = 2 → s.cascSt ≠ 4 → s.cascSt ≠ 6 → ∃ t, exec .cascadePromote s = .next t ∧ Answered s t none 0x40 1 0 ∧
           t.cascSt = s.cascSt) ∧
         (sub = 3 → s.rf Reg.cascTime 63 63 = 1 → s.casc.lastOff.natAbs < 1000000 →
           ∃ t, exec .cascadeRetime s = .next t ∧ Answered s t none 0x40 0 0 ∧ t.casc.retime = true ∧
             t.rf Reg.cascTime 62 62 = 0 ∧ t.dt = s.dt) ∧
         (sub = 4 → (s.cascSt = 3 ∨ s.cascSt = 6) → ∃ t, exec .cascadeRejoin s = .next t ∧ Answered s t none 0x40 0 0 ∧
           t.cascSt = 2)) ∧
       (s.part.hasCascade = false → sub = 2 → ∃ t, exec .cascadePromote s = .next t ∧ Answered s t none 0x40 1 0)))

/-- The hall requests of the manager mailbox (R410, R411, R439) are carried out when their request is outstanding, and
answered: OK with the effect, HALL_CREATE with every share at its reset value, HALL_SET_SHARE for the shares that registers
hold; REFUSED_STATE for a hall in another state or an overridden share (R457); RANGE for a value out of range; NOT_CREATED
for a hall that is absent or not created. A row whose request is not outstanding does nothing. -/
def Obligations.HallRequests : Prop :=
  ∀ (s : State) (h : Nat), 1 ≤ h → h ≤ s.part.hallMax →
    (s.boxBusy none = true → s.boxCode none = 0x10 →
      (s.hstate h = 0 → ∃ t, exec (.hallCreate h) s = .next t ∧ Answered s t none 0x10 0 0 ∧ t.hstate h = 1 ∧
        t.rf (Reg.hallCfg h) 0 0 = fld (regReset s.part (Reg.hallCfg h)) 0 0 ∧ t.rf (Reg.glHall h) 63 42 = 0 ∧
        t.reg (Reg.hallPdwin h) = 0 ∧ t.rf (Reg.galHall h) 47 32 = 0 ∧ t.mem = s.mem ∧ t.ctxs = s.ctxs) ∧
      (s.hstate h ≠ 0 → ∃ t, exec (.hallCreate h) s = .next t ∧ Answered s t none 0x10 1 0 ∧ t.hstate h = s.hstate h) ∧
      (∀ k, s.part.hallMax < k →
        ∃ t, exec (.hallCreate k) s = .next t ∧ Answered s t none 0x10 5 0 ∧ t.slots = s.slots)) ∧
    (s.boxBusy none = true → s.boxCode none = 0x11 → s.hallCreated h = true → ∀ id v lcn first,
      (∀ off hi lo, ((id = 2 ∧ hi = 63 ∧ lo = 48 ∧ v < 65536) ∨ (id = 5 ∧ hi = 47 ∧ lo = 34 ∧ v ≤ 8192) ∨
          (id = 6 ∧ hi = 33 ∧ lo = 26 ∧ 1 ≤ v ∧ v ≤ 255) ∨ (id = 8 ∧ hi = 15 ∧ lo = 8 ∧ v < 2 ^ s.part.axes)) →
        off = Reg.hallShare h →
        (s.rf (Reg.devOvr 5) h h = 0 → ∃ t, exec (.hallSetShare h id v lcn first) s = .next t ∧
          Answered s t none 0x11 0 0 ∧ t.rf off hi lo = v ∧ t.mem = s.mem ∧ t.slots = s.slots ∧ t.ctxs = s.ctxs) ∧
        (s.rf (Reg.devOvr 5) h h = 1 → ∃ t, exec (.hallSetShare h id v lcn first) s = .next t ∧
          Answered s t none 0x11 1 0 ∧ t.reg off = s.reg off ∧ t.slots = s.slots)) ∧
      (∀ off hi lo, ((id = 3 ∧ off = Reg.glHall h ∧ hi = 55 ∧ lo = 42 ∧ v ≤ s.part.nbins ∧ s.hstate h ≠ 3) ∨
          (id = 0xA ∧ off = Reg.glHall h ∧ hi = 63 ∧ lo = 56 ∧ v ≤ 255 ∧ s.hstate h = 1) ∨
          (id = 4 ∧ off = Reg.galHall h ∧ hi = 47 ∧ lo = 32 ∧ v ≤ s.part.galLines) ∨
          (id = 0xB ∧ off = Reg.hallCfg h ∧ hi = 0 ∧ lo = 0 ∧ v ≤ 1)) →
        ∃ t, exec (.hallSetShare h id v lcn first) s = .next t ∧ Answered s t none 0x11 0 0 ∧ t.rf off hi lo = v ∧
          t.mem = s.mem ∧ t.slots = s.slots ∧ t.ctxs = s.ctxs) ∧
      ((id = 0 ∨ 0xB < id ∨ (id = 2 ∧ 65536 ≤ v) ∨ (id = 5 ∧ 8192 < v) ∨ (id = 6 ∧ (v = 0 ∨ 255 < v)) ∨
          (id = 8 ∧ 2 ^ s.part.axes ≤ v) ∨ (id = 3 ∧ s.part.nbins < v) ∨ (id = 4 ∧ s.part.galLines < v) ∨
          (id = 0xA ∧ 255 < v) ∨ (id = 0xB ∧ 1 < v)) →
        ∃ t, exec (.hallSetShare h id v lcn first) s = .next t ∧ Answered s t none 0x11 3 0 ∧
          t.reg (Reg.hallShare h) = s.reg (Reg.hallShare h) ∧ t.reg (Reg.glHall h) = s.reg (Reg.glHall h) ∧
          t.slots = s.slots)) ∧
    (s.boxBusy none = true → s.boxCode none = 0x11 → s.hallCreated h = false → ∀ id v lcn first,
      ∃ t, exec (.hallSetShare h id v lcn first) s = .next t ∧ Answered s t none 0x11 5 0 ∧ t.slots = s.slots) ∧
    (s.boxBusy none = true → s.boxCode none = 0x12 →
      (s.hstate h = 1 → s.vfOn h = true → ∃ t, exec (.hallStart h none) s = .next t ∧ Answered s t none 0x12 0 0 ∧
        t.hstate h = 2 ∧ t.slots = s.slots ∧ t.mem = s.mem) ∧
      (∀ first, s.hstate h = 1 → s.vfOn h = false → ∃ t, exec (.hallStart h first) s = .next t ∧
        Answered s t none 0x12 2 0 ∧ t.hstate h = 1 ∧ t.ctxs = s.ctxs) ∧
      (∀ first, 2 ≤ s.hstate h → ∃ t, exec (.hallStart h first) s = .next t ∧ Answered s t none 0x12 1 0 ∧
        t.hstate h = s.hstate h ∧ t.ctxs = s.ctxs)) ∧
    (s.boxBusy none = true → s.boxCode none = 0x13 → ∀ grace limit, grace ≤ 255 → limit ≤ 30 →
      (HallIdle s h → s.hstate h = 2 → ∃ t, exec (.hallReset h 1 grace limit) s = .next t ∧ Answered s t none 0x13 0 0 ∧
        t.hstate h = 3 ∧ t.hphase h = 5 ∧ t.slots = s.slots ∧ t.mem = s.mem) ∧
      (s.route h = none → s.route 0 = none → s.hstate h = 2 → ∃ t, exec (.hallReset h 0 grace limit) s = .next t ∧
        Answered s t none 0x13 0 0 ∧ t.hstate h = 3 ∧ t.hphase h = 1 ∧
        (look ⟨0, 0⟩ t.hallRst h).deadline = s.dt.toNat + 1000000 * grace ∧ t.slots = s.slots ∧ t.mem = s.mem) ∧
      (∀ mode, 2 ≤ mode → s.hstate h ≠ 0 → ∃ t, exec (.hallReset h mode grace limit) s = .next t ∧
        Answered s t none 0x13 3 0 ∧ t.hstate h = s.hstate h)) ∧
    (s.boxBusy none = true → s.boxCode none = 0x14 →
      (s.hstate h = 1 → s.binsOf h (fun b => b.kind = .root || b.kind = .plain) = [] →
        s.rf (Reg.glHall h) 41 34 = 0 → s.rf (Reg.glHall h) 33 27 = 0 →
        ∃ t, exec (.hallRemove h) s = .next t ∧ Answered s t none 0x14 0 0 ∧ t.hstate h = 0 ∧
          t.reg (Reg.hallPdwin h) = 0 ∧ ∀ j, j < 16 → t.reg (Reg.hallDevmap h j) = 0) ∧
      (2 ≤ s.hstate h → ∃ t, exec (.hallRemove h) s = .next t ∧ Answered s t none 0x14 1 0 ∧
        t.hstate h = s.hstate h)) ∧
    (s.boxBusy none = true → s.boxCode none = 0x15 →
      (s.hallCreated h = true → ∃ t, exec (.hallQuery h) s = .next t ∧ Answered s t none 0x15 0 80 ∧
        t.reg (boxRsp none 1) = s.viewHall h ∧ t.reg (boxRsp none 2) = s.reg (Reg.hallShare h) ∧
        t.reg (boxRsp none 3) = s.reg (Reg.hallPdwin h) ∧
        t.reg (boxRsp none 4) = BitVec.ofNat 64 (s.rf (Reg.glHall h) 55 42) ∧
        t.reg (boxRsp none 6) = BitVec.ofNat 64 (s.rf (Reg.galHall h) 47 32) ∧
        t.reg (boxRsp none 8) = BitVec.ofNat 64 (s.camGroups h) ∧
        t.reg (boxRsp none 9) = BitVec.ofNat 64 (s.rf (Reg.glHall h) 63 56) ∧
        t.reg (boxRsp none 10) = BitVec.ofNat 64 (s.rf (Reg.hallCfg h) 0 0) ∧ t.slots = s.slots ∧ t.mem = s.mem) ∧
      (s.hallCreated h = false → ∃ t, exec (.hallQuery h) s = .next t ∧ Answered s t none 0x15 5 0)) ∧
    (s.boxBusy none = false → ∀ first id v lcn mode grace limit, exec (.hallCreate h) s = .next s ∧
      exec (.hallSetShare h id v lcn v) s = .next s ∧ exec (.hallStart h first) s = .next s ∧
      exec (.hallReset h mode grace limit) s = .next s ∧ exec (.hallRemove h) s = .next s ∧
      exec (.hallQuery h) s = .next s)

/-- Requests to the object dictionary (R451 to R454). OD_READ of an entry a path may read answers with its bytes, and with the
abort code of its check otherwise; OD_WRITE of a configuration entry that passes the checks enters the path's pending set
(R458). SDO_REQUEST on the plant port does the same with an SDO response, and an SDO Information request (R475) describes an
object or an entry (its form: log entry 28). -/
def Obligations.DictionaryRequests : Prop :=
  ∀ (s : State) (box : Option Nat) (p i sub : Nat), p = boxPath box →
    (∀ h, box = some h → h < 64) →
    (s.boxBusy box = true → s.boxCode box = 2 → s.pathOpen p = true → 8 ≤ s.boxLen box → s.rf (boxReq box 1) 31 16 = i →
      s.rf (boxReq box 1) 15 8 = sub → s.rf (boxReq box 1) 0 0 = 0 → ∀ size, (odEntry s.part i sub).size = size →
      size ≠ 0 → size ≤ 8 →
      (s.odReadBad p i sub = 0 → ∃ t, exec (.odRead box) s = .next t ∧ Answered s t box 2 0 size ∧
        t.reg (boxRsp box 1) = BitVec.ofNat 64 ((s.odValue p i sub).1 % 256 ^ size) ∧ t.slots = s.slots ∧ t.mem = s.mem) ∧
      (∀ a, s.odReadBad p i sub = a → a ≠ 0 → ∃ t, exec (.odRead box) s = .next t ∧ Answered s t box 2 8 8 ∧
        t.reg (boxRsp box 1) = BitVec.ofNat 64 a ∧ t.slots = s.slots ∧ t.mem = s.mem)) ∧
    (s.boxBusy box = true → s.boxCode box = 3 → s.pathOpen p = true → 8 ≤ s.boxLen box → s.rf (boxReq box 1) 31 16 = i →
      s.rf (boxReq box 1) 15 8 = sub → s.rf (boxReq box 1) 0 0 = 0 → (odEntry s.part i sub).size ≠ 0 →
      ∀ l e, l = s.boxValue box → e = ({ index := i, sub := sub, value := bytesNat l, bytes := [] } : Staged) →
      (s.odWriteBad p i sub l = 0 → isCommand i = false → stageFits ((s.path p).whole (stagePut (s.path p).pend e)) = true →
        ∃ t, exec (.odWrite box) s = .next t ∧ Answered s t box 3 0 0 ∧
          (t.path p).pend = stagePut (s.path p).pend e ∧ t.slots = s.slots ∧ t.mem = s.mem) ∧
      (∀ a, s.odWriteBad p i sub l = a → a ≠ 0 → ∃ t, exec (.odWrite box) s = .next t ∧ Answered s t box 3 8 8 ∧
        t.reg (boxRsp box 1) = BitVec.ofNat 64 a ∧ (t.path p).pend = (s.path p).pend)) ∧
    (s.pathOpen 0 = true →
      (∀ data, (odEntry s.part i sub).size ≠ 0 → isCommand i = false → s.odWriteBad 0 i sub data = 0 →
        stageFits ((s.path 0).whole
          (stagePut (s.path 0).pend { index := i, sub := sub, value := bytesNat data, bytes := [] })) = true →
        ∃ t, exec (.sdoRequest .download i sub false data) s = .next t ∧ t.out = .sdo 0 [] :: s.out ∧
          (t.path 0).pend = stagePut (s.path 0).pend { index := i, sub := sub, value := bytesNat data, bytes := [] } ∧
          Else s t []) ∧
      (∀ a data, s.odWriteBad 0 i sub data = a → a ≠ 0 →
        ∃ t, exec (.sdoRequest .download i sub false data) s = .next t ∧ t.out = .sdo a [] :: s.out ∧ t.dict = s.dict ∧
          Else s t []) ∧
      (∀ data, s.odReadBad 0 i sub = 0 → (odEntry s.part i sub).size ≠ 0 →
        ∃ t, exec (.sdoRequest .upload i sub false data) s = .next t ∧
          t.out = .sdo 0 (natBytes (odEntry s.part i sub).size (s.odValue 0 i sub).1) :: s.out ∧ Else s t []) ∧
      (∀ data, s.odSeen 0 i 0 = true →
        exec (.sdoRequest .object i sub false data) s = .next (s.send (.odInfo 0 [i, subTop s.part i])) ∧
        (sub ≤ subTop s.part i → exec (.sdoRequest .entry i sub false data) s =
          .next (s.send (.odInfo 0 [i, sub, (odEntry s.part i sub).size, if (odEntry s.part i sub).ro then 1 else 0])))) ∧
      (∀ data, s.odSeen 0 i 0 = false → exec (.sdoRequest .object i sub false data) s =
        .next (s.send (.odInfo 0x06020000 [])))) ∧
    (s.pathOpen 0 = false → ∀ op data, exec (.sdoRequest op i sub false data) s = .next s)

/-- The queues of a running hall (R176, R437, R440 to R445). DOORBELL moves TAIL, and HEAD with it on a NOTIFY queue, and sets
the ring flag where no context waits, else wakes it; a value beyond the queue is counted. Q_CFG_WRITE that enables the queue
empties it; HQ_NOTIFY_SET makes its bits pending and signals their vectors. DESCRIPTOR_FETCH takes the entry at HEAD,
numbers it and finds an outcome that needs no data, and a failed read stops the queue. DESCRIPTOR_COMPLETE of one that moves
nothing, or a word of WIRE mode that is no pointer, moves it, writes its record, advances DONE and signals the queue's
vector. A FENCE descriptor fetched behind others of its queue has its header and bounds read when it starts (R441). -/
def Obligations.HostQueues : Prop :=
  ∀ (s : State) (h q : Nat), h < 64 → q < 32 →
    (s.hstate h = 2 →
      (∀ who tail, Admits s who (Reg.qPtr h q) → (who = .vf h ∨ who = .pf ∨ s.isCtxOf who h = true) → tail < 65536 →
        (tail < 2 ^ s.rf (Reg.qCfg h q) 59 56 → ∀ head, head = (if s.rf (Reg.qCfg h q) 63 62 = 3 then tail
            else s.rf (Reg.qPtr h q) 47 32) →
          ((∀ n c, (n, c) ∈ s.ctxs → c.wait ≠ some (.doorbell q)) →
            ∃ t, exec (.doorbell who h q tail) s = .next t ∧ t.rf (Reg.qPtr h q) 63 48 = tail ∧
              t.rf (Reg.qPtr h q) 47 32 = head ∧ h * 32 + q ∈ t.rings ∧ Else s t [Reg.qPtr h q]) ∧
          (∀ n, s.waiters (fun c w => c.hall = h && w = .doorbell q) = [n] → Waits s n (.doorbell q) →
            ∃ t, exec (.doorbell who h q tail) s = .next t ∧ t.rf (Reg.qPtr h q) 63 48 = tail ∧
              t.rf (Reg.qPtr h q) 47 32 = head ∧ h * 32 + q ∉ t.rings ∧ Woken s t n)) ∧
        (2 ^ s.rf (Reg.qCfg h q) 59 56 ≤ tail →
          exec (.doorbell who h q tail) s = .next (s.countRsv 0 (Reg.qPtr h q)))) ∧
      (∀ who v, Admits s who (Reg.qCfg h q) → (who = .vf h ∨ who = .pf ∨ s.isCtxOf who h = true) →
        s.rf (Reg.qCfg h q) 63 63 = 0 → fld v 63 63 = 1 → 4 ≤ fld v 59 56 → fld v 59 56 ≤ 12 → fld v 52 0 = 0 →
        fld v 60 60 = 0 →
        ∃ t, exec (.qCfgWrite who h q v) s = .next t ∧ t.rf (Reg.qCfg h q) 63 62 = fld v 63 62 ∧
          t.rf (Reg.qCfg h q) 59 53 = fld v 59 53 ∧ t.reg (Reg.qPtr h q) = 0 ∧ h * 32 + q ∉ t.evenPass ∧
          t.rf (Reg.qCfg h q) 61 61 = (if isCtx who then fld v 61 61 else s.rf (Reg.qCfg h q) 61 61) ∧
          Else s t [Reg.qCfg h q, Reg.qPtr h q]) ∧
      (∀ who set, Admits s who (Reg.hqNotify h) → s.isCtxOf who h = true →
        ∃ t, exec (.hqNotifySet who h set) s = .next t ∧
          (∀ k, k < 30 → bit (t.reg (Reg.hqNotify h)) k = (bit (s.reg (Reg.hqNotify h)) k || set.getLsbD k)) ∧
          (∀ k, k < 30 → set.getLsbD k = true → h ≠ 0 → (s.signals h (34 + k) = true → Out.msix h (34 + k) ∈ t.out) ∧
            (s.withholds h (34 + k) = true → 34 + k ∈ (t.fnCfg h).pending)) ∧ Else s t [Reg.hqNotify h])) ∧
    (∀ e i acc rd, s.fetchable h q = true →
      rd = Out.hostRead h ((s.reg (Reg.qDbase h q) &&& fmask 63 12).toNat + 32 * i) 32 → e = s.rf (Reg.qCfg h q) 55 53 →
        i = s.rf (Reg.qPtr h q) 47 32 →
      acc = (s.rf (Reg.xeHcnt h e) 63 32 + 1) % 2 ^ 32 →
      (∃ t, exec (.descriptorFetch h q none) s = .next t ∧ t.rf (Reg.qCfg h q) 60 60 = 1 ∧ t.xe = s.xe ∧
        t.rf (Reg.qPtr h q) 47 32 = i ∧ rd ∈ t.out ∧ t.mem = s.mem) ∧
      (∀ ws o, o = XeOp.mk h q e (BitVec.ofNat 32 acc) i (!s.evenPass.contains (h * 32 + q)) ws true 0 0 0 false → ∀ ok st,
        ((s.rf (Reg.hallShare h) 47 34 ≤ s.xeOps h ∧ ok = false ∧ st = 3) ∨
          (s.xeOps h < s.rf (Reg.hallShare h) 47 34 ∧ badDescriptor o = true ∧ ok = true ∧ st = 5) ∨
          (s.xeOps h < s.rf (Reg.hallShare h) 47 34 ∧ badDescriptor o = false ∧ o.mode = 2 ∧
            s.rf (Reg.qCfg h q) 61 61 = 0 ∧ ok = true ∧ st = 6) ∨
          (s.xeOps h < s.rf (Reg.hallShare h) 47 34 ∧ badDescriptor o = false ∧ o.mode ≠ 2 ∧ o.len = 0 ∧ ok = true ∧
            st = 0)) →
        ∃ t, exec (.descriptorFetch h q (some ws)) s = .next t ∧ t.xe = s.xe ++ [{ o with counted := ok, status := st }] ∧
          t.rf (Reg.qPtr h q) 47 32 = (i + 1) % 2 ^ s.rf (Reg.qCfg h q) 59 56 ∧ t.rf (Reg.xeHcnt h e) 63 32 = acc ∧
          rd ∈ t.out ∧
          Else s t [Reg.qPtr h q, Reg.xeHcnt h e])) ∧
    (∀ e i acc ws o, s.fetchable h q = true → e = s.rf (Reg.qCfg h q) 55 53 → i = s.rf (Reg.qPtr h q) 47 32 →
      acc = (s.rf (Reg.xeHcnt h e) 63 32 + 1) % 2 ^ 32 →
      o = XeOp.mk h q e (BitVec.ofNat 32 acc) i (!s.evenPass.contains (h * 32 + q)) ws true 0 0 0 false → o.fence = true →
      (∃ k, k ∈ s.xe ∧ k.hall = h ∧ k.queue = q) → s.xeOps h < s.rf (Reg.hallShare h) 47 34 → badDescriptor o = false →
      (o.mode = 2 → s.rf (Reg.qCfg h q) 61 61 = 1) → o.len ≠ 0 →
      ∃ t pa n, exec (.descriptorFetch h q (some ws)) s = .next t ∧
        t.xe = s.xe ++ [{ o with obj := pa, slots := n, waits := true }]) ∧
    (s.fetchable h q = false → ∀ reply, exec (.descriptorFetch h q reply) s = .next s) ∧
    (∀ e o data done poisoned rec, e < 8 → s.xeNext h e = some o → s.xeOn h = true → s.xeFenced o = false → o.queue < 32 →
      o.waits = false →
      (∀ n c w, (n, c) ∈ s.ctxs → c.wait = some w → ∀ k b, w ≠ .transfer k b) →
      rec = (fun (status moved : Nat) => Out.hostWrite h ((s.reg (Reg.qCbase h o.queue) &&& fmask 63 12).toNat + 16 * o.entry)
        (o.record status moved)) →
      ((o.status ≠ 0 ∨ o.len = 0) →
        ∃ t, exec (.descriptorComplete h e data done false false poisoned) s = .next t ∧
          t.xe = s.xe.filter (fun k => !(k.hall = o.hall && k.engine = o.engine && k.seq = o.seq)) ∧
          t.rf (Reg.xeHcnt h e) 31 0 = o.seq.toNat ∧ rec o.status 0 ∈ t.out ∧
          (o.irq = true → h ≠ 0 → Signalled s t h o.queue) ∧ Else s t [Reg.xeHcnt h e]) ∧
      (∀ w, o.status = 0 → o.len = 16 → o.mode = 0 → w.isPtr = false → w.malformed = false →
        w.type ≠ 0x30 → w.type ≠ 0x31 → w.type ≠ 0x32 → s.NoErrors → s.compat h = false →
        (o.inbound = true → data = wireBytes w → poisoned = [] →
          ∃ t, exec (.descriptorComplete h e data done false false poisoned) s = .next t ∧
            t.memWord (o.obj + 8 + 8 * o.start) = w ∧ t.rf (Reg.xeHcnt h e) 31 0 = o.seq.toNat ∧ rec 0 16 ∈ t.out ∧
            Out.hostRead h o.host 16 ∈ t.out) ∧
        (o.inbound = false → s.memWord (o.obj + 8 + 8 * o.start) = w →
          ∃ t, exec (.descriptorComplete h e data done false false poisoned) s = .next t ∧
            Out.hostWrite h o.host (wireBytes w) ∈ t.out ∧ t.rf (Reg.xeHcnt h e) 31 0 = o.seq.toNat ∧
            rec 0 16 ∈ t.out ∧ t.mem = s.mem))) ∧
    (∀ e o data done poisoned st pa n u, e < 8 → s.xeNext h e = some o → s.xeOn h = true → s.xeFenced o = false →
      o.queue < 32 → o.waits = true → s.NoErrors → (∀ n c w, (n, c) ∈ s.ctxs → c.wait = some w → ∀ k b, w ≠ .transfer k b) →
      s.xeBuffer o = (st, pa, n, u) → st ≠ 0 →
      ∃ t, exec (.descriptorComplete h e data done false false poisoned) s = .next t ∧
        t.rf (Reg.xeHcnt h e) 31 0 = o.seq.toNat ∧ t.mem = s.mem ∧
        Out.hostWrite h ((s.reg (Reg.qCbase h o.queue) &&& fmask 63 12).toNat + 16 * o.entry) (o.record st 0) ∈ t.out) ∧
    (∀ e data done fail cf poisoned, s.xeNext h e = none →
      exec (.descriptorComplete h e data done fail cf poisoned) s = .next s)

/-- Staged commits (R458 to R464), of a pending set of one age threshold (0x5C00) on a path that has no commit in progress.
COMMIT_IMMEDIATE applies it and counts the commit; COMMIT_NEXT_CYCLE and COMMIT_NEXT_PITCH arm it, and COMMIT_BOUNDARY
applies the first armed whose boundary has come; a refused COMMIT keeps the set and names the cause; DISCARD empties it; a
second COMMIT of the manager's path meanwhile changes nothing. TRANSITION_STEP loads one bank of a staged pitch table, and
COMMIT_TIMEOUT ends a NEXT_PITCH commit whose axis does not come to its boundary. The command objects on the manager's path
(R240, R377, R457, R465, R466, R474, R477, R536), and PDO_MAPPING on the plant's (R476). The signatures store and drop the
parameter store and restore the factory calibration, another signature does nothing; 0x2741 sets, clears and releases the
stop request; 0x2A11 holds the request and tells the device kernel; 0x2A41 clears object 0x1001; 0x2F10 clears the flags
whose bits are 1; 0x2F80 and 0x2F81 unlock with their values and lock with 0. No path is served before the device kernel
runs (R465). -/
def Obligations.Commits : Prop :=
  (∀ (s : State) (p : Nat) (x : PathSt), x = s.path p → p < 66 → s.pathOpen p = true →
     (∀ e : Staged, x.commit = none → x.pend = [e] → e.index = 0x5C00 → 1 ≤ e.sub → e.sub ≤ 8 → e.value < 2 ^ 32 →
       (s.commitBad p [e] 0 x.axis = none →
         ∃ t, exec (.commitImmediate p) s = .next t ∧ (t.path p).status = 3 ∧ (t.path p).count = (x.count + 1) % 65536 ∧
           (t.path p).pend = [] ∧ (t.path p).commit = none ∧ t.rf (Reg.ageThr (e.sub - 1)) 31 0 = e.value ∧
           t.mem = s.mem ∧ t.slots = s.slots ∧ t.ctxs = s.ctxs) ∧
       (s.commitBad p [e] 1 x.axis = none → s.linePeriod ≠ 0 →
         ∃ t c, exec (.commitNextCycle p) s = .next t ∧ (t.path p).status = 1 ∧ (t.path p).commit = some c ∧
           c.boundary = 1 ∧ c.group = [e] ∧ c.steps = [] ∧ s.dt.toNat + 5000 ≤ c.due ∧ (t.path p).pend = [] ∧
           t.dt = s.dt ∧ Else s t []) ∧
       (s.commitBad p [e] 2 x.axis = none → s.pitchLen x.axis ≠ 0 →
         ∃ t c, exec (.commitNextPitch p) s = .next t ∧ (t.path p).status = 1 ∧ (t.path p).commit = some c ∧
           c.boundary = 2 ∧ c.axis = x.axis ∧ c.group = [e] ∧ c.bounds = (s.axr x.axis).bounds ∧ (t.path p).pend = [] ∧
           Else s t [])) ∧
     (∀ r, x.commit = none → s.commitBad p x.pend 0 x.axis = some r →
       ∃ t, exec (.commitImmediate p) s = .next t ∧ (t.path p).status = 4 ∧ (t.path p).badAbort = r.abort ∧
         (t.path p).badIndex = r.index ∧ (t.path p).badSub = r.sub ∧ (t.path p).pend = x.pend ∧
         (t.path p).commit = none ∧ t.mem = s.mem ∧ t.slots = s.slots) ∧
     (x.commit = none → ∃ t, exec (.discard p) s = .next t ∧ t.path p = { x with pend := [] } ∧ Else s t []) ∧
     (x.commit.isSome = true → p = 1 → exec (.commitImmediate p) s = .next s ∧ exec (.commitNextCycle p) s = .next s ∧
       exec (.commitNextPitch p) s = .next s ∧ exec (.discard p) s = .next s) ∧
     (∀ c (e : Staged) rest, s.armedBy s.boundaryReached = (p, c) :: rest → c.group = [e] → e.index = 0x5C00 → 1 ≤ e.sub →
       e.sub ≤ 8 → e.value < 2 ^ 32 →
       ∃ t, exec .commitBoundary s = .next t ∧ (t.path p).status = 3 ∧ (t.path p).count = (x.count + 1) % 65536 ∧
         (t.path p).commit = none ∧ t.rf (Reg.ageThr (e.sub - 1)) 31 0 = e.value ∧ t.mem = s.mem ∧ t.slots = s.slots) ∧
     (s.armedBy s.boundaryReached = [] → exec .commitBoundary s = .next s) ∧
     (∀ c a i e r rest, x.commit = some c → c.steps = .bank a i :: r :: rest → a < 8 → i < 4 →
       c.group.find? (fun e => e.index = 0x4180 + a) = some e →
       ∃ t, exec (.transitionStep p) s = .next t ∧ (t.path p).trDone = x.trDone + 1 ∧
         (t.path p).commit = some { c with steps := r :: rest } ∧
         (∀ k, 256 * i ≤ k → k < 256 * (i + 1) → k < e.points → t.reg (Reg.ptabShadow a k) = e.point k) ∧
         t.mem = s.mem ∧ t.slots = s.slots ∧ t.axes = s.axes) ∧
     (x.commit = none → exec (.transitionStep p) s = .next s ∧ exec (.commitTimeout p) s = .next s) ∧
     (∀ c, x.commit = some c → c.steps = [] → c.boundary = 2 → s.pitchWaits c.axis = true → s.boundaryReached c = false →
       (c.since + 1000000 * x.timeout ≤ s.dt.toNat →
         ∃ t, exec (.commitTimeout p) s = .next t ∧ (t.path p).status = 4 ∧ (t.path p).badAbort = 0x08000022 ∧
           (t.path p).commit = none ∧ t.mem = s.mem ∧ t.slots = s.slots) ∧
       (s.dt.toNat < c.since + 1000000 * x.timeout → exec (.commitTimeout p) s = .next s))) ∧
  (∀ s : State, s.kernelUp = false → ∀ p sig, exec (.storeParameters p sig) s = .next s ∧
     exec (.restoreDefaults p sig) s = .next s ∧ exec (.restoreCalibration p sig) s = .next s ∧
     exec (.commitImmediate p) s = .next s ∧ exec (.discard p) s = .next s ∧ exec (.stopObject p sig) s = .next s ∧
     exec (.patchUnlock p sig) s = .next s ∧ exec (.jtagUnlock p sig) s = .next s) ∧
  (∀ s : State, s.kernelUp = true →
     exec (.storeParameters 1 0x65766173) s = .next { s with params := some s.applied } ∧
     exec (.restoreDefaults 1 0x64616F6C) s = .next { s with params := none } ∧
     (∀ sig, sig < 2 ^ 32 → sig ≠ 0x65766173 → exec (.storeParameters 1 sig) s = .next s) ∧
     (∀ sig, sig < 2 ^ 32 → sig ≠ 0x64616F6C →
       exec (.restoreDefaults 1 sig) s = .next s ∧ exec (.restoreCalibration 1 sig) s = .next s) ∧
     (s.calOverridden = false →
       ∃ t, exec (.restoreCalibration 1 0x64616F6C) s = .next t ∧ (t.path 1).count = ((s.path 1).count + 1) % 65536 ∧
         (t.path 1).status = 3 ∧
         (∀ i, i < 256 → t.reg (Reg.calWord i) =
           BitVec.ofNat 64 (bytesNat ((List.range 8).map (fun k => look 0 s.mram (0x300000 + 8 * i + k))))) ∧
         (∀ k, k < 2048 → look 0 t.mram (0x301000 + k) = look 0 s.mram (0x300000 + k)) ∧ t.mem = s.mem ∧
         t.slots = s.slots) ∧
     (s.calOverridden = true → exec (.restoreCalibration 1 0x64616F6C) s = .next s) ∧
     (s.stopState = 0 → ∃ t, exec (.stopObject 1 1) s = .next t ∧ t.stopState = 1 ∧ t.rf Reg.axStop 60 60 = 1 ∧
       t.mem = s.mem ∧ t.slots = s.slots) ∧
     (∃ t, exec (.stopObject 1 0) s = .next t ∧ t.stopState = s.stopState ∧ t.rf Reg.axStop 60 60 = 0 ∧
       Else s t [Reg.axStop]) ∧
     (s.stopState ≠ 0 → s.rf Reg.axStop 61 60 = 0 → ∃ t, exec (.stopObject 1 2) s = .next t ∧ t.stopState = 0 ∧
       t.mem = s.mem ∧ t.slots = s.slots) ∧
     (∀ v, v ∈ [1, 2, 4, 8] → ∃ t, exec (.esmRequest 1 v) s = .next t ∧ t.obj 0x2A11 1 = v ∧
       t.out = .event 0 "ESM_REQUEST" v :: s.out ∧ Else s t []) ∧
     (∃ t, exec (.clearEmergency 1 1) s = .next t ∧ t.emcy.obj1001 = 0 ∧ Else s t [Reg.ecpStat]) ∧
     (∀ j (v : BitVec 64), j < 6 → ∃ t, exec (.clearOverride 1 j v.toNat) s = .next t ∧
       t.reg (Reg.devOvr j) = s.reg (Reg.devOvr j) &&& ~~~v ∧ t.out = s.out ∧ Else s t [Reg.devOvr j]) ∧
     exec (.patchUnlock 1 0x68637470) s = .next { s with patch := { s.patch with unlocked := true } } ∧
     exec (.patchUnlock 1 0) s = .next { s with patch := { s.patch with unlocked := false } } ∧
     exec (.jtagUnlock 1 0x6A746167) s = .next { s with jtagUnlocked := true } ∧
     exec (.jtagUnlock 1 0) s = .next { s with jtagUnlocked := false } ∧
     (∀ v, v < 2 ^ 32 → v ≠ 0 → (v ≠ 0x68637470 → exec (.patchUnlock 1 v) s = .next s) ∧
       (v ≠ 0x6A746167 → exec (.jtagUnlock 1 v) s = .next s)) ∧
     (∀ k sub v, k < 4 → 1 ≤ sub → sub ≤ 32 → v < 2 ^ 32 →
       (s.plantAl = 2 → mappable true v = true →
         exec (.pdoMapping 0 (0x1600 + k) sub v) s = .next ((s.setObj (0x1600 + k) sub v).send (.sdo 0 []))) ∧
       (s.plantAl = 8 → exec (.pdoMapping 0 (0x1600 + k) sub v) s = .next (s.send (.sdo 0x08000022 [])))))

/-- The line and the plant port. With MODE on, LINE_CYCLE_START at a multiple of the period opens a cycle, takes the halls'
windows, sends each frame of the table with its datagrams and writes or reads the reference clock (R469, R472),
OUTPUT_SNAPSHOT tSNAP before it takes the output image, and FRAME_RETURN with every datagram good counts the cycle, clears
the working-counter map and keeps what the frames brought; with MODE OFF or at another time the first two do nothing, and so
does FRAME_RETURN when no cycle is open (R415, R468, R471). ECL_MODE_WRITE sets MODE when the frame table allows it, and
CFG_ERR with MODE unchanged otherwise (R469). AL_STATE_REQUEST follows the allowed changes, or sets a sync manager or an
FMMU (log entry 26), SYNC0 latches both times, SM2_WATCHDOG leaves OP (R475), and PLANT_PROCESS_DATA takes outputs in OP
only and sends inputs in SAFEOP and OP (R476). -/
def Obligations.FieldNetworks : Prop :=
  ∀ s : State,
    (s.lineOn = false ∨ s.lineAt 0 = false ∨ s.line.cycle = s.lineCycleNo 0 + 1 → exec .lineCycleStart s = .next s) ∧
    (s.lineOn = false ∨ s.lineAt 2000 = false ∨ s.line.snap = s.lineCycleNo 2000 + 1 → exec .outputSnapshot s = .next s) ∧
    (s.lineOn = true → s.lineAt 0 = true → s.line.cycle ≠ s.lineCycleNo 0 + 1 → s.lineOpen = false →
      ∃ t, exec .lineCycleStart s = .next t ∧ t.lineOpen = true ∧ t.line.sent = some s.dt.toNat ∧
        t.line.image = s.lineSnap ∧ t.line.cycle = s.lineCycleNo 0 + 1 ∧
        (∀ h, h < 64 → look 0 t.pdActive h = s.reg (Reg.hallPdwin h)) ∧ s.out <:+ t.out ∧
        (∀ f, f < 16 → s.gramsOf f ≠ [] →
          Out.lineFrame s.linePorts (s.dt.toNat / s.linePeriod) f ((s.gramsOf f).map t.lineGram) ∈ t.out) ∧
        Out.lineClock s.linePorts (s.rf Reg.eclDc 63 48) (if s.rf Reg.eclCfg 61 61 = 1 then
          some (s.dt + s.reg Reg.eclDcOfs + BitVec.ofNat 64 s.line.delay) else none) ∈ t.out ∧ Else s t []) ∧
    (s.lineOn = true → s.lineAt 2000 = true → s.line.snap ≠ s.lineCycleNo 2000 + 1 → (∀ k, k < s.part.cams →
      s.rf (Reg.eclCamnet k) 63 63 = 0) →
      ∃ t, exec .outputSnapshot s = .next t ∧ (∀ i, i < 512 → look 0 t.lineSnap i = s.reg (Reg.pdOut i)) ∧
        t.line.snap = s.lineCycleNo 2000 + 1 ∧ t.out = s.out ∧ Else s t []) ∧
    (s.lineOpen = false → ∀ back brk news, exec (.frameReturn back brk news) s = .next s) ∧
    (∀ back brk news, ∀ t0 : Nat, s.line.sent = some t0 → (∀ i, i < 64 → s.rf (Reg.eclFt i) 63 63 = 0) →
      s.rf Reg.eclStat 60 60 = 0 →
      s.rf Reg.eclCfg 63 62 = 1 →
      ∃ t, exec (.frameReturn back brk news) s = .next t ∧ t.lineOpen = false ∧ t.reg Reg.eclWkcmap = 0 ∧
        t.line.delay = news.delay.getD s.line.delay ∧ t.line.low = news.low.getD s.line.low ∧
        (∀ r, news.time = some r → s.rf Reg.eclCfg 61 61 = 0 → t.rf Reg.eclDc 31 0 =
          min ((r : Int) - s.lineTime (t0 + t.line.delay)).natAbs (2 ^ 32 - 1)) ∧
        t.rf Reg.eclCyc 31 0 = (s.rf Reg.eclCyc 31 0 + 1) % 2 ^ 32 ∧ t.rf Reg.eclStat 60 60 = 0 ∧ t.mem = s.mem ∧
        t.slots = s.slots) ∧
    (∀ who v, Admits s who Reg.eclCfg → s.privileged who = true → fld v 63 62 ≤ 2 → fld v 59 32 = 0 →
      (fld v 63 62 = 0 ∨ s.lineBad = false →
        ∃ t, exec (.eclModeWrite who v) s = .next t ∧ t.rf Reg.eclCfg 63 60 = fld v 63 60 ∧
          t.rf Reg.eclCfg 31 0 = fld v 31 0 ∧ t.rf (Reg.devOvr 0) 3 3 = 1 ∧ t.mem = s.mem ∧ t.slots = s.slots ∧
          t.ctxs = s.ctxs ∧ (s.rf (Reg.devOvr 0) 3 3 = 1 → Else s t [Reg.eclCfg])) ∧
      (fld v 63 62 ≠ 0 → s.lineBad = true →
        ∃ t, exec (.eclModeWrite who v) s = .next t ∧ t.reg Reg.eclCfg = s.reg Reg.eclCfg ∧
          t.rf Reg.eclStat 59 59 = 1 ∧ Else s t [Reg.eclStat])) ∧
    (∀ st, st ∈ [1, 2, 3, 4, 8] →
      (alAllowed s.plantAl st = true → s.emcy.burst = none →
        ∃ t, exec (.alStateRequest (.al st)) s = .next t ∧ t.plantAl = st ∧ t.rf Reg.ecpStat 47 32 = 0 ∧
          (st ≠ 1 → st ≠ 3 → t.emcy.queue = []) ∧ Else s t [Reg.ecpStat]) ∧
      (alAllowed s.plantAl st = false → ∃ t, exec (.alStateRequest (.al st)) s = .next t ∧ t.plantAl = s.plantAl ∧
        t.rf Reg.ecpStat 47 32 = 0x11 ∧ Else s t [Reg.ecpStat])) ∧
    (∀ k c, (k < 4 → (k < 2 → c.on = true → c.bytes = 1024) → ∃ t, exec (.alStateRequest (.sm k c)) s = .next t ∧
        look SmCfg.reset t.plant.sms k = c ∧ Else s t []) ∧
      (4 ≤ k ∨ (k < 2 ∧ c.on = true ∧ c.bytes ≠ 1024) → exec (.alStateRequest (.sm k c)) s = .next s)) ∧
    (∀ k c, (k < 3 → ∃ t, exec (.alStateRequest (.fmmu k c)) s = .next t ∧ look FmmuCfg.reset t.plant.fmmus k = c ∧
        Else s t []) ∧ (3 ≤ k → exec (.alStateRequest (.fmmu k c)) s = .next s)) ∧
    (∀ v, ∃ t, exec (.sync0 v) s = .next t ∧ t.reg Reg.ecpDcPlant = v ∧ t.reg Reg.ecpDcDt = s.dt ∧
      Else s t [Reg.ecpDcPlant, Reg.ecpDcDt]) ∧
    (s.plantAl = 8 → ∃ t, exec .sm2Watchdog s = .next t ∧ t.plantAl = 4 ∧ t.rf Reg.ecpStat 47 32 = 0x1B ∧
      Else s t [Reg.ecpStat]) ∧
    (s.plantAl ≠ 8 → exec .sm2Watchdog s = .next s) ∧
    (∀ rx k, s.plantAl = 8 → 1 ≤ k → k ≤ 64 → s.pdoMap 0x1C12 = [0x60000000 + 0x100 * k + 32] → rx.length = 4 →
      ∃ t, exec (.plantProcessData rx) s = .next t ∧ t.reg (Reg.ecpRxd (k - 1)) = BitVec.ofNat 64 (bytesNat rx) ∧
        Else s t [Reg.ecpRxd (k - 1)]) ∧
    (∀ rx, s.plantAl = 4 → s.pdoMap 0x1C13 = [0x61000120] →
      exec (.plantProcessData rx) s = .next (s.send (.plantFrame (natBytes 4 (s.reg (Reg.ecpTxd 0)).toNat)))) ∧
    (∀ rx, s.plantAl ≠ 4 → s.plantAl ≠ 8 → exec (.plantProcessData rx) s = .next s)

/-- The Cascade Link of a part that has one (R481 to R490). LINK_TRAINED, RING_BREAK and LINK_DELAY_MEASURE keep the ring's
state; SYNC_SEND of the master sends its time both ways; a SYNC_CELL makes an isolated part whose link has trained, and
whose values agree with the master's, join, DT stepping to the master's time when it is behind, one of its present master
sets OFFSET and goes on, an older one changes neither, and one that failed its CRC is dropped; SYNC_LOSS leaves a member
WITHOUT its master and its time suspect; JOIN_COMPLETE makes a joining part a member; CASC_JOIN_WRITE and JOIN_ANNOUNCEMENT
take the values of the join check, of which the first is announced and the second withholds a member that differs, and a
cell with the part's own identity withholds it; CASC_AXMAP_WRITE makes an axis remote or its own, AXIS_SAMPLE_CELL moves it
and REMOTE_AXIS_STALE declares its loss. A part without a link ignores them. Hand-off and the commands of CASC_CMD (R45,
R46, R488, R491 to R493). HANDOFF_SEND of the present TAIL changes nothing, of a TAIL beyond the ring is refused, and of the
next one sends the cell to a part that is present while fewer than 1,024 transactions are in flight, and lets it wait
otherwise. HANDOFF_RECEIVE of an ANNOUNCE enters a new identity in the expect table, of a HANDOFF takes a known one out, and
both deliver the cell where there is room; a CANCEL takes a known identity out; a cell for another part goes on, by the
other port (log entry 68); a WITHHELD part takes none. HANDOFF_STATUS writes the answer, or after 1 ms that there was none,
into the cell, and of a cell that is not outstanding does nothing. PROMOTE makes a member whose master is absent the master
with a newer epoch; RETIME starts the trim again; REJOIN starts to join. -/
def Obligations.CascadeLink : Prop :=
  (∀ s : State, (s.part.hasCascade = false →
       (∀ b port ns src epoch time path join, exec (.linkTrained b) s = .next s ∧ exec (.ringBreak port) s = .next s ∧
         exec (.linkDelayMeasure port ns) s = .next s ∧ exec .syncSend s = .next s ∧
         exec (.syncCell src epoch time path join) s = .next s ∧ exec .syncLoss s = .next s ∧
         exec (.joinAnnouncement src join) s = .next s) ∧
       (∀ port n src a pos vel acc time l b,
         exec (.axisSampleCell port n src a pos vel acc time b) s = .next s ∧
         exec (.handoffReceive port n l) s = .next s)) ∧
   (s.part.hasCascade = true →
     (∀ closed, ∃ t, exec (.linkTrained closed) s = .next t ∧ t.casc.trained = true ∧
       t.rf Reg.cascState 41 41 = (if closed then 1 else 0) ∧ t.cascSt = s.cascSt ∧ Else s t [Reg.cascState]) ∧
     (∀ port, ∃ t, exec (.ringBreak port) s = .next t ∧ t.rf Reg.cascState 41 41 = 0 ∧
       t.rf Reg.cascState 15 0 = min (s.rf Reg.cascState 15 0 + 1) 65535 ∧ t.casc.links = s.casc.links + 1 ∧
       t.mem = s.mem ∧ t.slots = s.slots ∧ t.ctxs = s.ctxs) ∧
     (∀ port ns, ∃ t, exec (.linkDelayMeasure port ns) s = .next t ∧ look 0 t.casc.delays (port % 2) = ns ∧ Else s t []) ∧
     (s.cascSt = 5 → exec .syncSend s = .next (s.send (.cell "sync" s.cascId 0xFF [0, 1]
       (s.dt :: (s.rf Reg.cascState 31 16 :: 0 :: s.joinVals).map (BitVec.ofNat 64))))) ∧
     (s.cascSt ≠ 5 → exec .syncSend s = .next s) ∧
     (∀ src port epoch, ∀ time path : Nat, ∀ join d total, src ≠ s.cascId → src < 8 → epoch < 65536 →
       total = path + look 0 s.casc.delays (port % 2) → d = (s.dt.toNat : Int) - (time : Int) - (total : Int) →
       (s.cascSt = 1 → s.casc.trained = true → join = s.joinVals →
         (d.natAbs < 1000000 → ∃ t, exec (.syncCell ⟨src, port, 0⟩ epoch time path join) s = .next t ∧ t.cascSt = 2 ∧
           t.rf Reg.cascState 52 50 = src ∧ t.rf Reg.cascState 31 16 = epoch ∧ signed 32 (t.rf Reg.cascTime 31 0) = d ∧
           t.dt = s.dt ∧ t.mem = s.mem ∧ t.slots = s.slots ∧ t.ctxs = s.ctxs) ∧
         (d ≤ -1000000 → ∃ t, exec (.syncCell ⟨src, port, 0⟩ epoch time path join) s = .next t ∧ t.cascSt = 2 ∧
           t.rf Reg.cascState 52 50 = src ∧ t.dt = s.dt + BitVec.ofNat 64 d.natAbs ∧ t.mem = s.mem ∧ t.slots = s.slots ∧
           t.ctxs = s.ctxs)) ∧
       (s.cascSt = 4 → src = s.rf Reg.cascState 52 50 → epoch = s.rf Reg.cascState 31 16 → d.natAbs ≤ 100 →
         ∃ t, exec (.syncCell ⟨src, port, 0⟩ epoch time path join) s = .next t ∧ t.cascSt = 4 ∧
           signed 32 (t.rf Reg.cascTime 31 0) = d ∧ t.rf Reg.cascTime 61 48 = min total 16383 ∧
           .cell "sync" src 0xFF [1 - port % 2] (BitVec.ofNat 64 time :: (epoch :: total :: join).map (BitVec.ofNat 64)) ∈
             t.out ∧ t.casc.lastSync = some s.dt.toNat ∧ t.dt = s.dt ∧ t.mem = s.mem ∧ t.slots = s.slots ∧
           t.ctxs = s.ctxs) ∧
       (s.cascSt = 4 → epoch ≤ s.rf Reg.cascState 31 16 →
         src ≠ s.rf Reg.cascState 52 50 ∨ epoch < s.rf Reg.cascState 31 16 →
         ∃ t, exec (.syncCell ⟨src, port, 0⟩ epoch time path join) s = .next t ∧
           look 0 t.casc.heard src = s.dt.toNat + 1 ∧ t.casc.lastSync = s.casc.lastSync ∧ t.dt = s.dt ∧ Else s t []) ∧
       (∀ fails, fails ≠ 0 → exec (.syncCell ⟨src, port, fails⟩ epoch time path join) s = .next s)) ∧
     (s.cascSt ≠ 3 → ∀ port epoch time path join,
       ∃ t, exec (.syncCell ⟨s.cascId, port, 0⟩ epoch time path join) s = .next t ∧ t.cascSt = 3 ∧
         t.rf Reg.cascState 59 56 = 5 ∧ (s.cascSt = 5 → t.casc.lastSync = some s.dt.toNat)) ∧
     (∀ u, s.casc.lastSync = some u → s.cascSt = 4 →
       (u + 100000 ≤ s.dt.toNat → ∃ t, exec .syncLoss s = .next t ∧ t.cascSt = 6 ∧ t.rf Reg.cascTime 63 63 = 1 ∧
         t.mem = s.mem ∧ t.slots = s.slots ∧ t.ctxs = s.ctxs) ∧
       (s.dt.toNat < u + 100000 → exec .syncLoss s = .next s)) ∧
     (s.casc.lastSync = none ∨ s.cascSt < 2 ∨ s.cascSt = 5 ∨ s.cascSt = 6 → exec .syncLoss s = .next s) ∧
     (s.casc.tolFrom = none ∨ s.cascSt ≠ 2 → exec .joinComplete s = .next s) ∧
     (∀ u, s.casc.tolFrom = some u → s.cascSt = 2 →
       (u + 1000000 ≤ s.dt.toNat → ∃ t, exec .joinComplete s = .next t ∧ t.cascSt = 4 ∧ t.rf Reg.cascTime 63 62 = 0 ∧
         t.mem = s.mem ∧ t.slots = s.slots ∧ t.ctxs = s.ctxs) ∧
       (s.dt.toNat < u + 1000000 → exec .joinComplete s = .next s)) ∧
     (∀ who v vals, Admits s who Reg.cascJoin → s.kernelOrPf who = true →
       vals = [s.part.stepping.toNat, s.rf Reg.devPatchStat 63 32, fld v 63 48, fld v 31 0] →
       (s.cascSt < 2 ∨ 6 ≤ s.cascSt → ∃ t, exec (.cascJoinWrite who v) s = .next t ∧ t.reg Reg.cascJoin = v ∧
         t.out = s.out ∧ Else s t [Reg.cascJoin]) ∧
       ((s.cascSt = 2 ∨ s.cascSt = 3 ∨ s.cascSt = 5 ∨ (s.cascSt = 4 ∧ s.casc.masterJoin = vals)) →
         ∃ t, exec (.cascJoinWrite who v) s = .next t ∧ t.reg Reg.cascJoin = v ∧
           t.out = .cell "join" s.cascId 0xFF [0, 1] ((vals ++ [s.rf Reg.cascTime 63 63]).map (BitVec.ofNat 64)) :: s.out ∧
           Else s t [Reg.cascJoin]) ∧
       (∀ a b, s.cascSt = 4 → s.casc.masterJoin = [s.part.stepping.toNat, s.rf Reg.devPatchStat 63 32, a, b] →
         a ≠ fld v 63 48 → ∃ t, exec (.cascJoinWrite who v) s = .next t ∧ t.cascSt = 3 ∧
           t.rf Reg.cascState 59 56 = 3 ∧ t.mem = s.mem ∧ t.slots = s.slots ∧ t.ctxs = s.ctxs)) ∧
     (∀ src port join, src ≠ s.cascId →
       (s.cascSt ≠ 4 ∨ src ≠ s.rf Reg.cascState 52 50 ∧ s.joinReason = 0 →
         ∃ t, exec (.joinAnnouncement ⟨src, port, 0⟩ join) s = .next t ∧
         t.out = .cell "join" src 0xFF [1 - port % 2] (join.map (BitVec.ofNat 64)) :: s.out ∧
         look 0 t.casc.heard src = s.dt.toNat + 1 ∧ t.casc.masterJoin = (if src = s.rf Reg.cascState 52 50 then join.take 4
           else s.casc.masterJoin) ∧ Else s t []) ∧
       (∀ k, s.cascSt = 4 → src = s.rf Reg.cascState 52 50 → join.length = 4 → k < 4 → join.getD k 0 ≠ s.joinVals.getD k 0 →
         (∀ j, j < k → join.getD j 0 = s.joinVals.getD j 0) → 
           ∃ t, exec (.joinAnnouncement ⟨src, port, 0⟩ join) s = .next t ∧
           t.cascSt = 3 ∧ t.rf Reg.cascState 59 56 = k + 1 ∧ t.mem = s.mem ∧ t.slots = s.slots ∧ t.ctxs = s.ctxs)) ∧
     (∀ who x v, x < s.part.axes → Admits s who (Reg.cascAxmap x) → s.kernelOrPf who = true → fld v 54 0 = 0 →
       (s.rf (Reg.cascAxmap x) 63 63 = 0 → fld v 63 63 = 1 →
         (s.axMode x = 0 → ∃ t, exec (.cascAxmapWrite who x v) s = .next t ∧ t.remoteAxis x = true ∧
           t.rf (Reg.cascAxmap x) 62 57 = fld v 62 57 ∧ (t.axr x).base = s.reg (Reg.axPos x) ∧
           (t.axr x).cellDt = s.dt.toNat ∧ (t.axr x).recov = false ∧ Else s t [Reg.cascAxmap x, Reg.axCtrl x]) ∧
         (s.axMode x ≠ 0 → exec (.cascAxmapWrite who x v) s = .next (s.countRsv 0 (Reg.cascAxmap x)))) ∧
       (fld v 63 63 = 0 → ∃ t, exec (.cascAxmapWrite who x v) s = .next t ∧ t.remoteAxis x = false ∧
         t.rf (Reg.cascAxmap x) 62 57 = fld v 62 57 ∧ Else s t [Reg.cascAxmap x])) ∧
     (∀ x port src a pos vel acc time lost, x < s.part.axes → s.remoteAxis x = true →
       s.rf (Reg.cascAxmap x) 62 60 = src → s.rf (Reg.cascAxmap x) 59 57 = a → src ≠ s.cascId →
       (∀ y, y < s.part.axes → y ≠ x → s.remoteAxis y = false) →
       ((s.axLoss x = false ∨ (s.axr x).recov = true) → AxisAlone s x → ∀ now : BitVec 64,
         now = (if s.dt.toNat ≤ BitVec.toNat time then pos
           else towards pos (signed 64 vel.toNat) (s.dt.toNat - BitVec.toNat time)) →
         ∃ t, exec (.axisSampleCell port 0 src a pos vel acc time lost) s = .next t ∧ t.reg (Reg.axPos x) = now ∧
           t.reg (Reg.axVel x) = vel ∧ t.reg (Reg.axAcc x) = acc ∧ (t.axr x).base = pos ∧
           (t.axr x).chgDt = BitVec.toNat time ∧ (t.axr x).cellDt = s.dt.toNat ∧ t.axLoss x = false ∧
           t.rf (Reg.cascAxmap x) 56 55 = (if lost.loss then 2 else 0) ∧
           Else s t [Reg.cascAxmap x, Reg.axPos x, Reg.axStat x, Reg.axCtrl x, Reg.axVel x, Reg.axAcc x]) ∧
       (s.axLoss x = true → (s.axr x).recov = false →
         ∃ t, exec (.axisSampleCell port 0 src a pos vel acc time lost) s = .next t ∧
           t.axr x = { s.axr x with cellDt := s.dt.toNat } ∧ t.rf (Reg.cascAxmap x) 56 55 = (if lost.loss then 2 else 0) ∧
           Else s t [Reg.cascAxmap x])) ∧
     (∀ x, x < s.part.axes → s.remoteAxis x = true → s.rf (Reg.cascAxmap x) 55 55 = 0 → s.axLoss x = false →
       ((s.axr x).cellDt + 10000 ≤ s.dt.toNat → ∃ t, exec (.remoteAxisStale x) s = .next t ∧ t.axLoss x = true ∧
         t.rf (Reg.cascAxmap x) 55 55 = 1 ∧ t.reg (Reg.axPos x) = s.reg (Reg.axPos x) ∧ t.mem = s.mem ∧
         t.slots = s.slots) ∧
       (s.dt.toNat < (s.axr x).cellDt + 10000 → exec (.remoteAxisStale x) s = .next s)) ∧
     (∀ x, s.part.axes ≤ x ∨ s.remoteAxis x = false ∨ s.rf (Reg.cascAxmap x) 55 55 = 1 →
       exec (.remoteAxisStale x) s = .next s))) ∧
  (∀ s : State, s.part.hasCascade = true →
     (∀ who tail, Admits s who (Reg.cascHoptr 0) →
       (s.kernelOrPf who = true ∨ s.isCtxOf who (s.rf (Reg.cascHoring 0) 63 58) = true) → tail < 65536 →
       (s.hoSize 0 ≠ 0 → tail < s.hoSize 0 → s.rf (Reg.cascHoptr 0) 63 48 = tail → s.casc.handOut = [] →
         s.casc.hoWait = [] →
         ∃ t, exec (.handoffSend who tail) s = .next t ∧ t.rf (Reg.cascHoptr 0) 63 48 = tail ∧
           t.rf (Reg.cascHoptr 0) 47 32 = tail ∧ t.out = s.out ∧ Else s t [Reg.cascHoptr 0]) ∧
       (∀ i l dest, i = s.rf (Reg.cascHoptr 0) 63 48 → 2 ≤ s.hoSize 0 → i < s.hoSize 0 → tail = (i + 1) % s.hoSize 0 →
         s.rf (Reg.cascHoptr 0) 47 32 = i → s.casc.hoWait = [] → s.NoErrors →
         l = (List.range 8).map (fun k => s.memWord (s.hoCell 0 i + 8 * k)) → l.any hoBadWord = false →
         1 ≤ hoKind (s.memWord (s.hoCell 0 i)) → hoKind (s.memWord (s.hoCell 0 i)) ≤ 3 →
         dest = fld (s.memWord (s.hoCell 0 i)).payload 59 57 → s.cascPresent dest = true → s.cascSt ≠ 3 →
         (s.netFlight < 1024 →
           ∃ t, exec (.handoffSend who tail) s = .next t ∧ t.casc.handOut = s.casc.handOut ++ [⟨i, dest, s.dt.toNat⟩] ∧
             t.out = .cell "handoff" s.cascId dest (s.cascPorts dest) (hoWire (s.hoStamp l)) :: s.out ∧
               t.rf (Reg.cascHoptr 0) 63 48 = tail ∧
             t.casc.hoWait = [] ∧ Else s t [Reg.cascHoptr 0]) ∧
         (1024 ≤ s.netFlight →
           ∃ t, exec (.handoffSend who tail) s = .next t ∧ t.casc.handOut = s.casc.handOut ∧ t.casc.hoWait = [i] ∧
             t.out = s.out ∧ t.rf (Reg.cascHoptr 0) 63 48 = tail ∧ Else s t [Reg.cascHoptr 0])) ∧
       (s.hoSize 0 ≤ tail →
         ∃ t, exec (.handoffSend who tail) s = .next t ∧ t.rf (Reg.cascHoptr 0) 0 0 = 1 ∧
           t.rf (Reg.cascHoptr 0) 63 48 = s.rf (Reg.cascHoptr 0) 63 48 ∧ t.casc = s.casc ∧
           Else s t [Reg.cascHoptr 0])) ∧
     (∀ port w0 w1 w2 l origin id, l = w0 :: w1 :: w2 :: l.drop 3 → l.length = 8 →
       fld (Word.payload w0) 59 57 = s.cascId → origin = fld w0.payload 56 54 → origin ≠ s.cascId →
       id = (origin, (Word.payload w1).toNat, (Word.payload w2).toNat) → ∀ back : Nat → Out,
       back = (fun k => .cell "status" s.cascId origin (s.cascPorts origin) [w0.payload, BitVec.ofNat 64 k]) →
       (s.cascSt = 3 → ∃ t, exec (.handoffReceive port 0 l) s = .next t ∧ t.out = back 5 :: s.out ∧
         t.casc.expect = s.casc.expect ∧ Else s t []) ∧
       (s.cascSt ≠ 3 → hoKind w0 = 1 →
         (id ∈ s.casc.expect → ∃ t, exec (.handoffReceive port 0 l) s = .next t ∧ t.out = back 6 :: s.out ∧
           t.casc.expect = s.casc.expect ∧ Else s t []) ∧
         (id ∉ s.casc.expect → 4096 ≤ s.casc.expect.length ∨ s.hoSize 1 = 0 ∨
             (s.rf (Reg.cascHoptr 1) 63 48 + 1) % s.hoSize 1 = s.rf (Reg.cascHoptr 1) 47 32 →
           ∃ t, exec (.handoffReceive port 0 l) s = .next t ∧ t.out = back 3 :: s.out ∧
             t.casc.expect = s.casc.expect ∧ Else s t [])) ∧
       (∀ a tail ids, s.cascSt ≠ 3 → ((hoKind w0 = 1 ∧ id ∉ s.casc.expect ∧ s.casc.expect.length < 4096 ∧
           ids = s.casc.expect ++ [id]) ∨ (hoKind w0 = 2 ∧ id ∈ s.casc.expect ∧ ids = s.casc.expect.erase id)) →
         s.hoSize 1 ≠ 0 → tail = s.rf (Reg.cascHoptr 1) 63 48 →
         (tail + 1) % s.hoSize 1 ≠ s.rf (Reg.cascHoptr 1) 47 32 → s.NoErrors →
         (s.ctx (s.rf (Reg.cascHoring 1) 53 38)).st = .none → a = s.hoCell 1 tail →
         ∃ t, exec (.handoffReceive port 0 l) s = .next t ∧ t.out = back 1 :: s.out ∧ t.casc.expect = ids ∧
           t.rf (Reg.cascHoptr 1) 63 48 = (tail + 1) % s.hoSize 1 ∧
           t.memWord a = ⟨w0.tag, setFld w0.payload 7 0 1⟩ ∧
           (∀ k, 1 ≤ k → k < 8 → t.memWord (a + 8 * k) = l.getD k Word.fix0)) ∧
       (s.cascSt ≠ 3 → hoKind w0 = 2 → id ∉ s.casc.expect →
         ∃ t, exec (.handoffReceive port 0 l) s = .next t ∧ t.out.head? = some (back 2) ∧
           t.rf (Reg.cascHoptr 1) 31 16 = min (s.rf (Reg.cascHoptr 1) 31 16 + 1) 65535 ∧
           t.casc.expect = s.casc.expect ∧ t.mem = s.mem ∧ t.slots = s.slots ∧ t.ctxs = s.ctxs) ∧
       (s.cascSt ≠ 3 → hoKind w0 = 3 →
         (id ∈ s.casc.expect → ∃ t, exec (.handoffReceive port 0 l) s = .next t ∧ t.out = back 1 :: s.out ∧
           t.casc.expect = s.casc.expect.erase id ∧ Else s t []) ∧
         (id ∉ s.casc.expect → ∃ t, exec (.handoffReceive port 0 l) s = .next t ∧ t.out = back 2 :: s.out ∧
           t.casc.expect = s.casc.expect ∧ Else s t []))) ∧
     (∀ port n l, l.length ≠ 8 → exec (.handoffReceive port n l) s = .next s) ∧
     (∀ port l, ∀ w0 : Word, w0 = List.headD l Word.fix0 → l.length = 8 →
       (fld w0.payload 56 54 ≠ s.cascId → fld w0.payload 59 57 ≠ s.cascId →
         ∃ t, exec (.handoffReceive port 0 l) s = .next t ∧ t.out = .cell "handoff" (fld w0.payload 56 54)
           (fld w0.payload 59 57) [1 - port % 2] (hoWire l) :: s.out ∧ t.casc.expect = s.casc.expect ∧ Else s t []) ∧
       (fld w0.payload 56 54 = s.cascId → s.cascSt ≠ 3 → ∃ t, exec (.handoffReceive port 0 l) s = .next t ∧ t.cascSt = 3 ∧
         t.rf Reg.cascState 59 56 = 5)) ∧
     (∀ i answer, s.casc.handOut.find? (fun o => o.entry = i) = none → exec (.handoffStatus i answer) s = .next s) ∧
     (∀ i o k w, s.casc.handOut.find? (fun o => o.entry = i) = some o →
       w = s.memWord (s.hoCell 0 i) → w.type ≠ 0x32 → s.NoErrors → s.casc.hoWait = [] →
       (s.ctx (s.rf (Reg.cascHoring 0) 53 38)).st = .none →
       (∀ port, k ∈ [1, 2, 3, 5, 6] → ∃ t, exec (.handoffStatus i (some ⟨k, port, 0⟩)) s = .next t ∧
         t.memWord (s.hoCell 0 i) = ⟨w.tag, setFld w.payload 7 0 k⟩ ∧ t.casc.handOut = s.casc.handOut.erase o) ∧
       (o.sent + 1000000 ≤ s.dt.toNat → ∃ t, exec (.handoffStatus i none) s = .next t ∧
         t.memWord (s.hoCell 0 i) = ⟨w.tag, setFld w.payload 7 0 4⟩ ∧ t.casc.handOut = s.casc.handOut.erase o) ∧
       (s.dt.toNat < o.sent + 1000000 → exec (.handoffStatus i none) s = .next s)) ∧
     (∀ who, Admits s who Reg.cascCmd → s.kernelOrPf who = true →
       ((s.cascSt = 4 ∨ s.cascSt = 6) → s.cascPresent (s.rf Reg.cascState 52 50) = false →
         ∃ t, exec (.promote who) s = .next t ∧ t.cascSt = 5 ∧ t.rf Reg.cascState 52 50 = s.cascId ∧
           t.rf Reg.cascState 31 16 = (max s.casc.epochMax (s.rf Reg.cascState 31 16) + 1) % 65536 ∧
           t.rf Reg.cascCmd 3 0 = 0 ∧ t.mem = s.mem ∧ t.slots = s.slots) ∧
       ((s.cascSt ≠ 4 ∧ s.cascSt ≠ 6) ∨ s.cascPresent (s.rf Reg.cascState 52 50) = true →
         ∃ t, exec (.promote who) s = .next t ∧ t.rf Reg.cascCmd 3 0 = 1 ∧ Else s t [Reg.cascCmd]) ∧
       (s.rf Reg.cascTime 63 63 = 1 → s.casc.lastOff.natAbs < 1000000 →
         ∃ t, exec (.retime who) s = .next t ∧ t.casc.retime = true ∧ t.rf Reg.cascTime 62 62 = 0 ∧ t.dt = s.dt ∧
           t.rf Reg.cascCmd 3 0 = 0 ∧ Else s t [Reg.cascCmd, Reg.cascTime]) ∧
       ((s.cascSt = 3 ∨ s.cascSt = 6) → ∃ t, exec (.rejoin who) s = .next t ∧ t.cascSt = 2 ∧ t.rf Reg.cascCmd 3 0 = 0 ∧
         t.mem = s.mem ∧ t.slots = s.slots) ∧
       (s.cascSt ≠ 3 → s.cascSt ≠ 6 → ∃ t, exec (.rejoin who) s = .next t ∧ t.rf Reg.cascCmd 3 0 = 1 ∧
         Else s t [Reg.cascCmd])))

/-- The seed commands (R502 to R510): a command that its checks accept becomes the one in progress, one that they refuse
leaves its RESULT, and one that finds another in progress sets only `hit`; RESPARE holds the seed slot; RESPARE_GROUP lets
the next group arrive, to be scanned first where its hall has flipped on the seed core only (R332, R504); SERVICE_DONE ends
the command in progress with its effect and logs it. -/
def Obligations.SeedCommands : Prop :=
  ∀ s : State,
    (∀ who lcn sector ch e slice way p k, Admits s who Reg.seedCmd → s.kernelOrPf who = true → lcn < 64 → sector < 2 ^ 34 →
      ch < 8 → e < 16 → slice < 16 → way < 16 → p < 128 → k < 64 →
      ∀ i op arg, (i, op, arg) ∈ [(Instr.respare who lcn, 1, lcn), (Instr.rowspare who sector, 2, sector),
          (Instr.ppr who ch e, 3, ch * 16 + e), (Instr.wayspare who slice way, 4, slice * 16 + way),
          (Instr.ctxrow who p k, 5, p * 64 + k)] →
        (s.rf Reg.seedCmdStat 63 63 = 1 →
          ∃ t, exec i s = .next t ∧ t.service = { s.service with hit := true } ∧ Else s t [Reg.seedCmd]) ∧
        (s.rf Reg.seedCmdStat 63 63 = 0 → s.seedCheck op arg ≠ 0 →
          ∃ t, exec i s = .next t ∧ t.service = s.service ∧ t.rf Reg.seedCmdStat 63 63 = 0 ∧
            t.rf Reg.seedCmdStat 59 56 = s.seedCheck op arg ∧ t.rf Reg.seedCmdStat 55 52 = op ∧
            Else s t [Reg.seedCmd, Reg.seedCmdStat]) ∧
        (s.rf Reg.seedCmdStat 63 63 = 0 → s.seedCheck op arg = 0 →
          ∃ t, exec i s = .next t ∧ t.service = { s.service with cmd := some (seedWord op arg), hit := false } ∧
            t.rf Reg.seedCmdStat 63 63 = 1 ∧ t.rf Reg.seedCmdStat 59 56 = 0 ∧ t.rf Reg.seedCmdStat 55 52 = op ∧
            (op = 1 → t.rf (Reg.seedSlot (seedOf (s.pcnOfLcn lcn))) 63 61 = 4 ∧
              t.rf (Reg.seedSlot (seedOf (s.pcnOfLcn lcn))) 57 52 = lcn ∧ t.rf Reg.seedCmdStat 51 48 = 0) ∧
            (op ≠ 1 → Else s t [Reg.seedCmd, Reg.seedCmdStat]) ∧
            Else s t [Reg.seedCmd, Reg.seedCmdStat, Reg.seedSlot (s.pcnOfLcn lcn),
              Reg.seedSlot (seedOf (s.pcnOfLcn lcn))])) ∧
    (s.service.cmd = none → exec .respareGroup s = .next s) ∧
    (∀ v c w g, s.service.cmd = some v → fld v 63 60 = 1 → c = fld v 33 0 → w = s.pcnOfLcn c → (s.core w).run = none →
      g = s.rf Reg.seedCmdStat 51 48 → g < 8 →
      ((∀ h, (s.core (seedOf w)).flipped.contains h = true → (s.core w).flipped.contains h = true) →
        ∃ t, exec .respareGroup s = .next t ∧ t.rf Reg.seedCmdStat 51 48 = g + 1 ∧ Else s t [Reg.seedCmdStat]) ∧
      (∀ n scn, n / 8 = c * 8 + g → (s.slot n).scn = some scn → scn < 65536 →
        (s.core (seedOf w)).flipped.contains (s.ctx scn).hall = true →
        (s.core w).flipped.contains (s.ctx scn).hall = false →
        ∃ t, exec .respareGroup s = .next t ∧ t.rf Reg.seedCmdStat 51 48 = g + 1 ∧
          t.slot n = { s.slot n with scan := true } ∧ t.mem = s.mem ∧ t.ctxs = s.ctxs)) ∧
    (s.rf Reg.devCoreRst 56 56 = 0 → s.service.cmd = none → exec .serviceDone s = .next s) ∧
    (s.rf Reg.devCoreRst 56 56 = 0 → ∀ op arg, arg < 2 ^ 34 → s.service.cmd = some (seedWord op arg) →
      (op = 1 → arg < 64 → s.rf Reg.seedCmdStat 51 48 = 8 → s.pcnOfLcn arg < 72 →
        s.pcnOfLcn arg % 9 ≠ 8 → (s.core (s.pcnOfLcn arg)).dirtySectors = [] →
        ∃ t, exec .serviceDone s = .next t ∧ t.service.cmd = none ∧ t.service.log = s.service.log ++ [seedWord op arg] ∧
          t.pcnOfLcn arg = seedOf (s.pcnOfLcn arg) ∧ t.rf (Reg.seedSlot (s.pcnOfLcn arg)) 63 61 = 5 ∧
          t.rf (Reg.seedSlot (seedOf (s.pcnOfLcn arg))) 63 61 = 1 ∧ (t.core (s.pcnOfLcn arg)).run = none ∧
          (t.core (s.pcnOfLcn arg)).crib = [] ∧ t.rf Reg.seedStat 63 63 = 1 ∧ t.mem = s.mem ∧ t.slots = s.slots ∧
          t.ctxs = s.ctxs) ∧
      (op = 2 → (∃ e, e < 16 ∧ s.spareUsed (channelOf (arg * 64)) e = false) →
        ∃ t e, exec .serviceDone s = .next t ∧ t.service.cmd = none ∧ t.service.log = s.service.log ++ [seedWord op arg] ∧
          e < 16 ∧ s.spareUsed (channelOf (arg * 64)) e = false ∧ t.spareUsed (channelOf (arg * 64)) e = true ∧
          look 0 t.service.rows (channelOf (arg * 64) * 16 + e) = Config.rowOf (arg * 64 / 256) + 1 ∧ t.slots = s.slots ∧
            t.ctxs = s.ctxs) ∧
      (op = 3 → arg < 128 →
        ∃ t, exec .serviceDone s = .next t ∧ t.service.cmd = none ∧ t.service.log = s.service.log ++ [seedWord op arg] ∧
          t.spareUsed (arg / 16) (arg % 16) = false ∧
          t.service.banks = s.spareBank (arg / 16) (arg % 16) :: s.service.banks ∧
          t.rf (Reg.seedMem (arg / 16)) 47 32 = min (s.rf (Reg.seedMem (arg / 16)) 47 32 + 1) 65535 ∧
          t.mem = s.mem ∧ t.slots = s.slots ∧ t.ctxs = s.ctxs) ∧
      (op = 4 → arg < 256 →
        ∃ t, exec .serviceDone s = .next t ∧ t.service.cmd = none ∧ t.service.log = s.service.log ++ [seedWord op arg] ∧
          t.service.ways = arg :: s.service.ways ∧
          (bit (s.reg Reg.seedStat) (16 + 2 * (arg / 16)) = false → bit (t.reg Reg.seedStat) (16 + 2 * (arg / 16)) = true) ∧
          t.mem = s.mem ∧ t.slots = s.slots ∧ t.ctxs = s.ctxs) ∧
      (op = 5 → arg < 4608 →
        ∃ t, exec .serviceDone s = .next t ∧ t.service.cmd = none ∧ t.service.log = s.service.log ++ [seedWord op arg] ∧
          t.service.ctxRows = arg :: s.service.ctxRows ∧
          t.rf (Reg.seedSlot (arg / 64)) 51 50 = s.rf (Reg.seedSlot (arg / 64)) 51 50 - 1 ∧
          t.rf Reg.seedCmdStat 63 63 = 0 ∧ t.rf Reg.seedCmdStat 59 56 = (if s.service.hit then 1 else 0) ∧
          t.mem = s.mem ∧ t.slots = s.slots ∧ t.ctxs = s.ctxs))

/-- The ageing monitors and the Failure Recorder (R498 to R501, R506, R511 to R515). A sample of a monitor present joins its
hour and shows in the register of a core or lane; a tracker beyond its threshold gives notice once; the hour's mean joins
the history. A corrected error of a context row or of an array is counted for its hour, and an uncorrectable one replaces
the register, the checkpoint's word or the M word by POISON, is reported, or halts the core with reason 4 (R221, R230, R300,
R506; its form: log entry 60). A sample of a field network port shows its link, and one of the PCI Express link what it has
negotiated (log entry 60).
RECORD_WRITE writes the oldest queued record to its place in the MRAM; FREEZE and UNFREEZE queue a record, and UNFREEZE
releases the block; HOURLY_SUMMARY empties the hour's counts; POWER_FAIL trips the detection. -/
def Obligations.MonitorsAndRecorder : Prop :=
  ∀ s : State,
    (∀ m v w ue, s.monitorOn m = false → exec (.monitorSample m v w ue) s = .next s ∧ exec (.monitorHour m) s = .next s) ∧
    (∀ p, ∀ v : Nat, ∀ w ue, s.part.hasPcn p = true →
      (∀ m, m = min ((v : Int) + signed 16 (s.rf (Reg.calWord (109 + p)) 15 0)).toNat 65535 →
        ∃ t, exec (.monitorSample (.core p) v w ue) s = .next t ∧ t.rf (Reg.ageCore p) 63 48 = m ∧
        (t.age p).sum = (s.age p).sum + (m : Nat) ∧ (t.age p).n = (s.age p).n + 1 ∧ t.mem = s.mem ∧
        t.slots = s.slots ∧ t.ctxs = s.ctxs) ∧
      ((s.age p).n ≠ 0 → ∃ t, exec (.monitorHour (.core p)) s = .next t ∧
        (t.age p).means = ((s.age p).sum / ((s.age p).n : Int) :: (s.age p).means).take 1000 ∧ (t.age p).n = 0 ∧
        (t.age p).sum = 0 ∧ t.rf (Reg.ageCore p) 63 48 = s.rf (Reg.ageCore p) 63 48 ∧ t.mem = s.mem ∧
        t.slots = s.slots ∧ t.ctxs = s.ctxs)) ∧
    (∀ m k, k = monKey m → (∃ pa, m = .row pa) ∨ (∃ c, m = .channel c) ∨ (∃ a b, m = .way a b) ∨ (∃ p n, m = .ctxRow p n) →
      s.monitorOn m = true →
      ((s.age k).n = 0 → exec (.monitorHour m) s = .next s) ∧
      ((s.age k).n ≠ 0 → exec (.monitorHour m) s = .next (s.setAge k { s.age k with
        sum := 0, n := 0, means := ((s.age k).sum / ((s.age k).n : Int) :: (s.age k).means).take 1000 }))) ∧
    (∀ m, (∃ a pa, m = .word a pa) ∨ (∃ a line, m = .entry a line) ∨ (∃ p, m = .coreState p) ∨ (∃ p n, m = .patchWord p n) ∨
      (∃ k, m = .link k) ∨ (∃ p k, m = .ctxWord p k) → exec (.monitorHour m) s = .next s) ∧
    (∀ k r b, (k, r, b) ∈ [(0, Reg.eclStat, 63), (1, Reg.eclStat, 62), (2, Reg.ecpStat, 59), (3, Reg.ecpStat, 58)] →
      ∀ v w ue, ∃ t, exec (.monitorSample (.link k) v w ue) s = .next t ∧ t.rf r b b = (if v = 0 then 0 else 1) ∧
        Else s t [r]) ∧
    (∀ v w ue, ∃ t, exec (.monitorSample (.link 4) v w ue) s = .next t ∧ t.life.link =
      (if 1 ≤ v ∧ v ≤ 4 ∧ (w = 1 ∨ w = 2 ∨ w = 4) then some ⟨v, w⟩ else none) ∧ Else s t []) ∧
    (∀ l, s.monitorOn (.lane l) = true → ∃ t, exec (.monitorHour (.lane l)) s = .next t ∧ (t.age (100 + l)).n = 0 ∧
      (t.age (widthKey l)).n = 0 ∧ t.rf (Reg.ageLane l) 63 48 = s.rf (Reg.ageLane l) 63 48 ∧ t.mem = s.mem ∧
      t.slots = s.slots ∧ t.ctxs = s.ctxs) ∧
    (∀ l v w ue, s.monitorOn (.lane l) = true →
      ∃ t, exec (.monitorSample (.lane l) v w ue) s = .next t ∧ t.rf (Reg.ageLane l) 63 48 = min v 65535 ∧
        t.rf (Reg.ageLane l) 47 32 = min w 65535 ∧ t.mem = s.mem ∧ t.slots = s.slots ∧ t.ctxs = s.ctxs) ∧
    (∀ m i v w, (∃ pa, m = .row pa ∧ i = 4) ∨ (∃ c, m = .channel c ∧ i = 5) ∨ (∃ a b, m = .way a b ∧ i = 6) ∨
        (∃ p k, m = .ctxRow p k ∧ i = 7) →
      s.monitorOn m = true → (s.age (monKey m)).noticed = false →
      (v ≤ s.ageThr i → exec (.monitorSample m v w false) s = .next (s.setAge (monKey m) { s.age (monKey m) with
        last := v, sum := (s.age (monKey m)).sum + (v : Int), n := (s.age (monKey m)).n + 1 })) ∧
      (s.ageThr i < v → ∃ t, exec (.monitorSample m v w false) s = .next t ∧ (t.age (monKey m)).noticed = true ∧
        t.mem = s.mem ∧ t.slots = s.slots ∧ t.ctxs = s.ctxs) ∧
      (i ≠ 5 → ∃ t, exec (.monitorSample m v w true) s = .next t ∧ (t.age (monKey m)).noticed = true ∧
        t.mem = s.mem ∧ t.slots = s.slots ∧ t.ctxs = s.ctxs)) ∧
    (∀ p k v w, s.part.hasPcn p = true → k < 64 →
      (∃ t, exec (.monitorSample (.ctxWord p k) v w false) s = .next t ∧
        look 0 t.hourCe (400 + p) = look 0 s.hourCe (400 + p) + 1 ∧ t.mem = s.mem ∧ t.slots = s.slots ∧ t.ctxs = s.ctxs) ∧
      ((s.hcnAt p k).all (fun n => (s.slot n).scn.isNone) = true →
        ∃ t, exec (.monitorSample (.ctxWord p k) v w true) s = .next t ∧ t.mem = s.mem ∧ t.slots = s.slots ∧
          t.ctxs = s.ctxs) ∧
      (∀ n scn, s.hcnAt p k = some n → (s.slot n).scn = some scn → (s.ctx scn).st ≠ .none → (s.ctx scn).st ≠ .spilled →
        natBit (s.alertMask scn).1 0 = true →
        (1 ≤ w → w ≤ 86 → w ≠ 34 → ∃ t i, exec (.monitorSample (.ctxWord p k) v w true) s = .next t ∧
          (t.slot n).regs = (s.slot n).regs.lose (slotSel w) (poisonWord i) ∧
          (t.slot n).dirty = (s.slot n).dirty ||| selGroup (slotSel w) ∧ (t.ctx scn).pend.getLsbD 0 = true ∧
          t.mem = s.mem) ∧
        (∀ g, s.specOf scn = some g → 129 ≤ w → w ≤ 214 →
          ∃ t i, exec (.monitorSample (.ctxWord p k) v w true) s = .next t ∧
            (t.galr g).ckpt = (s.galr g).ckpt.lose (slotSel (w - 128)) (poisonWord i) ∧ t.slots = s.slots ∧
            (t.ctx scn).pend.getLsbD 0 = true ∧ t.mem = s.mem))) ∧
    (∀ a pa v w, s.arrayOn a = true →
      (s.arrayState (wordOf pa) a = .i → ∀ ue, exec (.monitorSample (.word a pa) v w ue) s = .next s) ∧
      (s.arrayState (wordOf pa) a ≠ .i → ∃ t, exec (.monitorSample (.word a pa) v w false) s = .next t ∧
        look 0 t.hourCe (arrayUnit a) = look 0 s.hourCe (arrayUnit a) + 1 ∧ Else s t []) ∧
      (s.arrayState (wordOf pa) a ≠ .i → s.arrayState (wordOf pa) a ≠ .m → s.NoErrors →
        ∃ t, exec (.monitorSample (.word a pa) v w true) s = .next t ∧ t.mem = s.mem ∧ t.slots = s.slots ∧
          t.ctxs = s.ctxs) ∧
      (s.arrayState (wordOf pa) a = .m → s.arrayStale (wordOf pa) a = false →
        (∀ p, a = .crib p → (s.core p).cribOn = true) →
        ∃ t i, exec (.monitorSample (.word a pa) v w true) s = .next t ∧ t.memWord (wordOf pa) = poisonWord i ∧
          (∀ b, b % 8 = 0 → b ≠ wordOf pa → t.memWord b = s.memWord b) ∧ t.slots = s.slots ∧ t.ctxs = s.ctxs)) ∧
    (∀ a line v w, s.arrayOn a = true →
      ((∀ pa, pa ∈ lineSectors line → s.arrayState pa a = .i) →
        ∀ ue, exec (.monitorSample (.entry a line) v w ue) s = .next s) ∧
      ((∃ pa, pa ∈ lineSectors line ∧ s.arrayState pa a ≠ .i) →
        ∃ t, exec (.monitorSample (.entry a line) v w false) s = .next t ∧
          look 0 t.hourCe (arrayUnit a) = look 0 s.hourCe (arrayUnit a) + 1 ∧ Else s t []) ∧
      (∀ p pa, a = .crib p → pa ∈ lineSectors line → s.arrayState pa a = .m → (s.core p).halt = none →
        ∃ t, exec (.monitorSample (.entry a line) v w true) s = .next t ∧ (t.core p).halt = some 4 ∧ t.mem = s.mem ∧
          t.slots = s.slots ∧ t.ctxs = s.ctxs)) ∧
    (∀ p v w n, s.part.hasPcn p = true →
      exec (.monitorSample (.coreState p) v w false) s = .next s ∧
      ((s.core p).halt = none → ∃ t, exec (.monitorSample (.coreState p) v w true) s = .next t ∧
        (t.core p).halt = some 4 ∧ t.mem = s.mem ∧ t.slots = s.slots ∧ t.ctxs = s.ctxs) ∧
      (∀ ue, ∃ t, exec (.monitorSample (.patchWord p n) v w ue) s = .next t ∧
        look 0 (t.core p).pramErr n = (if ue then 2 else 1) ∧ Else s t [])) ∧
    (∃ t, exec .hourlySummary s = .next t ∧ t.hourCe = [] ∧ t.mem = s.mem ∧ t.slots = s.slots ∧ t.ctxs = s.ctxs) ∧
    (s.hourCe = [] → exec .hourlySummary s = .next s) ∧
    (s.recorder.queue = [] → exec .recordWrite s = .next s) ∧
    (∀ r rest, s.recorder.queue = r :: rest → r.index < 65536 →
      ∃ t, exec .recordWrite s = .next t ∧ t.mramWord (32 * r.index) = r.dt ∧
        t.mramWord (32 * r.index + 8) = BitVec.ofNat 64 (r.word1 s.recorder.seq) ∧
        t.mramWord (32 * r.index + 16) = BitVec.ofNat 64 r.word2 ∧ t.mramWord (32 * r.index + 24) = r.detail ∧
        t.recorder.seq = s.recorder.seq + 1 ∧ rest <+: t.recorder.queue ∧
        (s.recorder.frozen.isSome = true → s.recorder.ovf = none →
          t.recorder = { s.recorder with queue := rest, seq := s.recorder.seq + 1 }) ∧
        t.mem = s.mem ∧ t.slots = s.slots ∧ t.ctxs = s.ctxs) ∧
    (∀ who, Admits s who Reg.frecCtrl → s.kernelOrPf who = true → s.recorder.queue.length < 64 →
      (∃ t c, exec (.freeze who) s = .next t ∧ t.recorder.queue = s.recorder.queue ++ [c] ∧ c.code = 3 ∧
        c.detail = 0xFF ∧ c.index = s.recorder.next ∧ t.recorder.frozen = s.recorder.frozen ∧ t.mem = s.mem ∧
        t.slots = s.slots ∧ t.ctxs = s.ctxs) ∧
      (∃ t c, exec (.unfreeze who) s = .next t ∧ t.recorder.queue = s.recorder.queue ++ [c] ∧ c.code = 4 ∧
        c.index = s.recorder.next ∧ t.recorder.frozen = none ∧ t.mem = s.mem ∧ t.slots = s.slots ∧ t.ctxs = s.ctxs)) ∧
    (∃ t, exec .powerFail s = .next t ∧ t.life.failed = true ∧ t.hourCe = [] ∧ t.mem = s.mem ∧ t.slots = s.slots ∧
      t.ctxs = s.ctxs)

/-- Resets and boot (R525 to R532). POR and a DEVICE reset give the part its reset state, with what POR state, the straps and
the service log keep and the cause of the reset; a wrong key is counted; PLL_LOCK starts DT at 0; MEMORY_INIT_DONE leaves
FIX 0 in all of MEMORY; BOOT_LOAD_DONE copies a good image, from flash or read from the host, and starts the boot context at
its entry (its registers: log entry 4); BOOT_GO, READY_SET and a CORE reset do what their registers' rules say. -/
def Obligations.ResetsAndBoot : Prop :=
  ∀ s : State,
    (∀ b c l, ∃ t, exec (.por b c l) s = .next t ∧ t.part = { s.part with bootSrc := b, cascId := c, legacyN := l } ∧
      t.mem = [] ∧ t.tags = [] ∧ t.dtRun = false ∧ t.slots = [] ∧ t.ctxs = [] ∧ t.cores = [] ∧ t.bins = [] ∧
      t.rf Reg.devReset 31 28 = 1 ∧ t.rf Reg.devReset 15 0 = 0 ∧ t.devState = 1 ∧ t.service.log = s.service.log) ∧
    (∀ who b c l cause, s.fnAnswers who = true → (who = .pf ∧ cause = 2) ∨ (s.kernel2 who = true ∧ cause = 3) →
      (∃ t, exec (.deviceReset who 0x44455652 b c l) s = .next t ∧
        t.part = { s.part with bootSrc := b, cascId := c, legacyN := l } ∧ t.mem = [] ∧ t.tags = [] ∧ t.dtRun = false ∧
        t.slots = [] ∧ t.ctxs = [] ∧ t.cores = [] ∧ t.bins = [] ∧ t.rf Reg.devReset 31 28 = cause ∧
        t.rf Reg.devReset 15 0 = min (s.rf Reg.devReset 15 0 + 1) 65535 ∧ t.devState = 1 ∧
        t.service.log = s.service.log ∧ (∀ p, p < 72 → t.reg (Reg.ageCore p) = s.reg (Reg.ageCore p))) ∧
      (∀ key, key ≠ 0x44455652 → ∃ t, exec (.deviceReset who key b c l) s = .next t ∧
        t.rf Reg.devRsvWrites 31 0 = min (s.rf Reg.devRsvWrites 31 0 + 1) 0xFFFFFFFF ∧ Else s t [Reg.devRsvWrites])) ∧
    (∀ tb, s.dtRun = false → ∃ t, exec (.pllLock tb) s = .next t ∧ t.dtRun = true ∧ t.dt = 0 ∧
      t.rf Reg.devStraps 56 56 = (if tb then 1 else 0) ∧ Else s t [Reg.devStraps]) ∧
    (∀ tb, s.dtRun = true → exec (.pllLock tb) s = .next s) ∧
    (s.dtRun = true → s.life.memOk = false → ∃ t, exec .memoryInitDone s = .next t ∧ (∀ a, t.memWord a = Word.fix0) ∧
      t.life.memOk = true ∧ t.slots = s.slots ∧ t.ctxs = s.ctxs ∧
      (s.part.bootSrc = 3 → t.devState = 4 ∧ t.rf Reg.devState 58 56 = 1) ∧
      (s.part.bootSrc ≠ 3 → t.devState = s.devState ∧ t.life.hostLoad = (s.part.bootSrc == 1))) ∧
    ((s.dtRun = false ∨ s.life.memOk = true) → exec .memoryInitDone s = .next s) ∧
    (∀ a b host, (s.devState ≠ 1 ∨ s.life.memOk = false) → exec (.bootLoadDone a b host) s = .next s) ∧
    (∀ l b host, s.devState = 1 → s.life.memOk = true → s.life.hostLoad = false → imageErr s.part l = 0 →
      s.params = none →
      ∃ t, exec (.bootLoadDone (some l) b host) s = .next t ∧ t.devState = 2 ∧
        (t.slot 0).regs.pc = BitVec.ofNat 44 (imgLoad l + imgEntry l) ∧ (t.slot 0).scn = some 0 ∧
        (t.ctx 0).st = .running ∧ (t.core 0).run = some 0 ∧
        (∀ k, k < imgLength l / 8 → t.memWord (imgLoad l + 8 * k) = raw (BitVec.ofNat 64 (imgNat l (40 + 8 * k) 8))) ∧
        stStair (t.slot 0).regs.status = 2 ∧ stSth (t.slot 0).regs.status = false ∧
        SameOutside s t (imgLoad l) (imgLoad l + imgLength l)) ∧
    (∀ l a b host, s.devState = 1 → s.life.memOk = true → s.life.hostLoad = true → s.rf Reg.devBootCtrl 62 62 = 1 →
      s.requests 0 = true → imageErr s.part l = 0 → s.params = none → host = (s.reg Reg.devBootHost &&& fmask 63 3).toNat →
      ∃ t, exec (.bootLoadDone a b (some l)) s = .next t ∧ t.devState = 2 ∧ Out.hostRead 0 host 40 ∈ t.out ∧
        Out.hostRead 0 (host + 40) (imgLength l) ∈ t.out ∧ (t.slot 0).regs.pc = BitVec.ofNat 44 (imgLoad l + imgEntry l) ∧
        SameOutside s t (imgLoad l) (imgLoad l + imgLength l)) ∧
    (∀ a b host, s.devState = 1 → s.life.memOk = true → s.life.hostLoad = false → copyErr s.part a ≠ 0 →
      copyErr s.part b ≠ 0 → ∃ t, exec (.bootLoadDone a b host) s = .next t ∧
        t.rf Reg.devState 58 56 = copyErr s.part b ∧
        (s.part.bootSrc = 2 → t.life.hostLoad = true ∧ t.devState = 1) ∧
        (s.part.bootSrc ≠ 2 → t.devState = 4) ∧ Else s t [Reg.devState]) ∧
    (Admits s .pf Reg.devBootCtrl → s.devState = 1 →
      ∃ t, exec (.bootGo .pf) s = .next t ∧ t.rf Reg.devBootCtrl 62 62 = 1 ∧ Else s t [Reg.devBootCtrl]) ∧
    (∀ who, Admits s who Reg.devState → s.kernel2 who = true →
      ∃ t, exec (.readySet who) s = .next t ∧ t.devState = (if s.devState = 2 then 3 else s.devState) ∧
        Else s t [Reg.devState]) ∧
    (∀ who p, Admits s who Reg.devCoreRst → (who = .pf ∨ s.kernel2 who = true) → p < 128 →
      s.rf Reg.devCoreRst 56 56 = 0 →
      (s.part.hasPcn p = false → ∃ t, exec (.coreReset who p) s = .next t ∧ t.rf Reg.devCoreRst 55 52 = 2 ∧
        t.cores = s.cores ∧ Else s t [Reg.devCoreRst]) ∧
      (s.part.hasPcn p = true → (s.rf (Reg.seedSlot p) 63 61 = 3 ∨ s.rf (Reg.seedSlot p) 63 61 = 4) →
        ∃ t, exec (.coreReset who p) s = .next t ∧ t.rf Reg.devCoreRst 55 52 = 3 ∧ t.rf Reg.devCoreRst 56 56 = 1 ∧
          t.cores = s.cores ∧ Else s t [Reg.devCoreRst]) ∧
      (s.part.hasPcn p = true → s.rf (Reg.seedSlot p) 63 61 < 3 → s.otherSlots p = true →
        ∃ t, exec (.coreReset who p) s = .next t ∧ t.rf Reg.devCoreRst 55 52 = 1 ∧ t.cores = s.cores ∧
          Else s t [Reg.devCoreRst]) ∧
      (s.part.hasPcn p = true → s.rf (Reg.seedSlot p) 63 61 < 3 → s.otherSlots p = false →
        (s.core p).dirtySectors = [] → (s.core p).halt = none →
        ∃ t, exec (.coreReset who p) s = .next t ∧ t.rf Reg.devCoreRst 55 52 = 0 ∧ t.rf Reg.devCoreRst 56 56 = 0 ∧
          (t.core p).run = none ∧ (t.core p).crib = [] ∧ (t.core p).itlb = [] ∧ (t.core p).dtlb = [] ∧
          (t.core p).pram = (s.core p).pram ∧ t.mem = s.mem ∧ t.tags = s.tags ∧ t.ctxs = s.ctxs))

/-- Pins and JTAG (R525, R534 to R536). TB_LOST sets LOST of a part that used TBCLK; KICK starts the window, within which
HEARTBEAT toggles and at whose end the heartbeat is lost; TEMP_SAMPLE sets TEMP and ZONE; the JTAG commands do nothing while
JTAG is locked and otherwise read and write, reset the part, or raise a JTAG alert; a scan with IDCODE shifts out its value,
and one with an instruction that behaves as BYPASS one bit. -/
def Obligations.PinsAndJtag : Prop :=
  ∀ s : State,
    ((s.dtRun = true ∧ s.rf Reg.devStraps 56 55 = 2 → ∃ t, exec .tbLost s = .next t ∧ t.rf Reg.devStraps 56 55 = 3 ∧
        t.mem = s.mem ∧ t.slots = s.slots ∧ t.ctxs = s.ctxs) ∧
      (s.dtRun = false ∨ s.rf Reg.devStraps 56 55 ≠ 2 → exec .tbLost s = .next s)) ∧
    (∀ who, Admits s who Reg.devAlert → s.kernel2 who = true → s.rf Reg.devAlert 55 48 ≠ 0 →
      ∃ t, exec (.kick who) s = .next t ∧ t.life.kick = some s.dt.toNat ∧ t.reg Reg.devAlert = s.reg Reg.devAlert ∧
        t.rf Reg.devRsvWrites 31 0 = s.rf Reg.devRsvWrites 31 0 ∧ Else s t []) ∧
    (s.life.kick = none → exec .heartbeatToggle s = .next s ∧ exec .heartbeatLost s = .next s) ∧
    (∀ u, s.life.kick = some u →
      (s.dt.toNat < u + s.beatWindow →
        exec .heartbeatToggle s = .next { s with life := { s.life with beat := !s.life.beat } } ∧
        exec .heartbeatLost s = .next s) ∧
      (u + s.beatWindow ≤ s.dt.toNat → exec .heartbeatToggle s = .next s ∧
        ∃ t, exec .heartbeatLost s = .next t ∧ t.life.kick = none ∧ t.rf Reg.devAlert 0 0 = 1 ∧ t.mem = s.mem ∧
          t.slots = s.slots ∧ t.ctxs = s.ctxs)) ∧
    (∀ rd temp zone, temp = BitVec.ofInt 16 (signed 16 rd + signed 16 (s.rf (Reg.calWord 108) 15 0)) →
      zone = zoneOf (s.rf Reg.devTherm 19 18) temp.toInt (signed 12 (s.rf Reg.devTherm 47 36))
        (signed 12 (s.rf Reg.devTherm 35 24)) (4 * s.rf Reg.devTherm 23 20) →
      ((zone = s.rf Reg.devTherm 19 18 →
        ∃ t, exec (.tempSample rd) s = .next t ∧ t.rf Reg.devTherm 63 48 = temp.toNat ∧ t.rf Reg.devTherm 19 18 = zone ∧
          Else s t [Reg.devTherm]) ∧
      (zone ≠ s.rf Reg.devTherm 19 18 → s.route 0 = none →
        ∃ t, exec (.tempSample rd) s = .next t ∧ t.rf Reg.devTherm 63 48 = temp.toNat ∧ t.rf Reg.devTherm 19 18 = zone ∧
          t.rf Reg.devAlert 2 2 = 1 ∧ t.mem = s.mem ∧ t.slots = s.slots ∧ t.ctxs = s.ctxs))) ∧
    (s.jtagUnlocked = false → ∀ scn b c l pa w, exec (.jtagHalt scn) s = .next s ∧
      exec (.jtagDeviceReset b c l) s = .next s ∧ exec (.jtagAccess .load pa w) s = .next s ∧
      exec (.jtagAccess .store pa w) s = .next s) ∧
    (∀ pa w, (∃ t, exec (.jtagAccess (.scan .idcode) pa w) s = .next t ∧ t.life.ir = .idcode ∧ t.out = .jtag 32
        ((2 ^ 28 * (s.part.stepping.toNat % 16) + 2 ^ 12 * 0x8640 + 2 * Config.jep106 + 1) % 2 ^ 32) :: s.out ∧ Else s t []) ∧
      (∀ k, k = .bypass ∨ k = .clamp ∨ k = .highz ∨ (k = .extest ∧ s.jtagUnlocked = false) →
        ∃ t, exec (.jtagAccess (.scan k) pa w) s = .next t ∧ t.life.ir = k ∧ t.out = .jtag 1 0 :: s.out ∧ Else s t [])) ∧
    (s.jtagUnlocked = true →
      (∀ scn, scn < 65536 → (s.ctx scn).st ≠ .none → natBit (s.alertMask scn).1 4 = true → s.NoErrors →
        ∃ t, exec (.jtagHalt scn) s = .next t ∧ (t.ctx scn).pend = (s.ctx scn).pend ||| 16 ∧
          (∀ n, n ≠ scn → t.ctx n = s.ctx n) ∧ (∀ off, t.reg off = s.reg off) ∧ t.mem = s.mem ∧ t.slots = s.slots) ∧
      (∀ b c l, ∃ t, exec (.jtagDeviceReset b c l) s = .next t ∧
        t.part = { s.part with bootSrc := b, cascId := c, legacyN := l } ∧ t.mem = [] ∧ t.slots = [] ∧ t.ctxs = [] ∧
        t.rf Reg.devReset 31 28 = 4 ∧ t.rf Reg.devReset 15 0 = min (s.rf Reg.devReset 15 0 + 1) 65535) ∧
      (∀ pa w, pa % 8 = 0 → pa < s.part.memSize → s.planted = [] →
        (∃ t, exec (.jtagAccess .store pa w) s = .next t ∧ t.memWord pa = w ∧
          (∀ a, a % 8 = 0 → a ≠ pa → t.memWord a = s.memWord a) ∧ (∀ off, t.reg off = s.reg off) ∧
          t.slots = s.slots ∧ t.ctxs = s.ctxs) ∧
        (∃ t, exec (.jtagAccess .load pa w) s = .next t ∧
          t.out = .completion .jtag (s.memWord pa).tag (s.memWord pa).payload :: s.out ∧ Else s t [])) ∧
      (∀ off v, off % 8 = 0 → regionOf s.part (deviceBase + off) = .device →
        exec (.jtagAccess .store (deviceBase + off) (raw v)) s =
        .next (s.write64 .jtag off v)))
end

