-- ==== Sys2Proof/Laws/Table.lean ====
section
/-! SUPPORT. Laws of the sparse tables: read after write, and the canonical form. -/

namespace Sys2Proof.Laws

open Sys2Proof.Machine

variable {α : Type}

/-- A table whose keys all lie above a bound, rising. -/
def Above (b : Nat) : Table α → Prop
  | [] => True
  | (k, _) :: t => b < k ∧ Above k t

theorem above_mono {b c : Nat} (t : Table α) (hb : c ≤ b) (h : Above b t) : Above c t := by
  cases t with
  | nil => trivial
  | cons e t => exact ⟨Nat.lt_of_le_of_lt hb h.1, h.2⟩

theorem keysRise_cons (k : Nat) (v : α) (t : Table α) : keysRise ((k, v) :: t) = true ↔ Above k t := by
  induction t generalizing k v with
  | nil => simp [keysRise, Above]
  | cons e t ih =>
    obtain ⟨a, u⟩ := e
    simp [keysRise, Above, ih]

theorem above_rise {b : Nat} {t : Table α} (h : Above b t) : keysRise t = true := by
  cases t with
  | nil => rfl
  | cons e t => obtain ⟨a, u⟩ := e; exact (keysRise_cons a u t).mpr h.2

theorem look_above (d : α) {b n : Nat} (t : Table α) (h : Above b t) (hn : n ≤ b) : look d t n = d := by
  induction t generalizing b with
  | nil => rfl
  | cons e t ih =>
    obtain ⟨a, u⟩ := e
    have hb : b < a := h.1
    simp only [look]
    rw [if_neg (by omega)]
    exact ih h.2 (by omega)

theorem above_insert {b n : Nat} (t : Table α) (v : α) (h : Above b t) (hn : b < n) : Above b (Machine.insert t n v) := by
  induction t generalizing b with
  | nil => exact ⟨hn, trivial⟩
  | cons e t ih =>
    obtain ⟨a, u⟩ := e
    simp only [Machine.insert]
    split
    · rename_i he; subst he; exact ⟨hn, h.2⟩
    · split
      · rename_i hlt; exact ⟨hn, hlt, h.2⟩
      · exact ⟨h.1, ih h.2 (by omega)⟩

theorem above_erase {b n : Nat} (t : Table α) (h : Above b t) : Above b (erase t n) := by
  induction t generalizing b with
  | nil => trivial
  | cons e t ih =>
    obtain ⟨a, u⟩ := e
    simp only [erase]
    split
    · exact ih (above_mono t (Nat.le_of_lt h.1) h.2)
    · exact ⟨h.1, ih h.2⟩

theorem insert_rise {t : Table α} {n : Nat} {v : α} (h : keysRise t = true) : keysRise (Machine.insert t n v) = true := by
  cases t with
  | nil => rfl
  | cons e t =>
    obtain ⟨a, u⟩ := e
    have ha := (keysRise_cons a u t).mp h
    simp only [Machine.insert]
    split
    · rename_i he; subst he; exact (keysRise_cons _ _ _).mpr ha
    · split
      · rename_i hlt; exact (keysRise_cons _ _ _).mpr ⟨hlt, ha⟩
      · exact (keysRise_cons _ _ _).mpr (above_insert t v ha (by omega))

theorem erase_rise {t : Table α} {n : Nat} (h : keysRise t = true) : keysRise (erase t n) = true := by
  cases t with
  | nil => rfl
  | cons e t =>
    obtain ⟨a, u⟩ := e
    have ha := (keysRise_cons a u t).mp h
    simp only [erase]
    split
    · exact above_rise (above_erase t ha)
    · exact (keysRise_cons _ _ _).mpr (above_erase t ha)

/-- A read after an insertion. -/
theorem look_insert (d : α) (t : Table α) (n m : Nat) (v : α) :
    look d (Machine.insert t n v) m = if m = n then v else look d t m := by
  induction t with
  | nil => simp [Machine.insert, look]
  | cons e t ih =>
    obtain ⟨a, u⟩ := e
    simp only [Machine.insert]
    split
    · rename_i he; subst he
      simp only [look]
      split <;> simp_all
    · split
      · simp only [look]
      · simp only [look, ih]
        split <;> split <;> simp_all

/-- A read after an erasure. -/
theorem look_erase (d : α) (t : Table α) (n m : Nat) :
    look d (erase t n) m = if m = n then d else look d t m := by
  induction t with
  | nil => simp [erase, look]
  | cons e t ih =>
    obtain ⟨a, u⟩ := e
    simp only [erase]
    split
    · rename_i he; subst he
      simp only [ih, look]
      split <;> simp_all
    · simp only [look, ih]
      split <;> split <;> simp_all

variable [DecidableEq α]

theorem noDefault_cons {d : α} {a : Nat} {u : α} {t : Table α} :
    noDefault d ((a, u) :: t) = true ↔ u ≠ d ∧ noDefault d t = true := by
  simp [noDefault]

theorem noDefault_insert {d : α} {t : Table α} {n : Nat} {v : α} (hv : v ≠ d) (h : noDefault d t = true) :
    noDefault d (Machine.insert t n v) = true := by
  induction t with
  | nil => exact noDefault_cons.mpr ⟨hv, rfl⟩
  | cons e t ih =>
    obtain ⟨a, u⟩ := e
    have hu := noDefault_cons.mp h
    simp only [Machine.insert]
    split
    · exact noDefault_cons.mpr ⟨hv, hu.2⟩
    · split
      · exact noDefault_cons.mpr ⟨hv, h⟩
      · exact noDefault_cons.mpr ⟨hu.1, ih hu.2⟩

theorem noDefault_erase {d : α} {t : Table α} {n : Nat} (h : noDefault d t = true) :
    noDefault d (erase t n) = true := by
  induction t with
  | nil => rfl
  | cons e t ih =>
    obtain ⟨a, u⟩ := e
    have hu := noDefault_cons.mp h
    simp only [erase]
    split
    · exact ih hu.2
    · exact noDefault_cons.mpr ⟨hu.1, ih hu.2⟩

/-- A write keeps the canonical form. -/
theorem canon_put {d : α} {t : Table α} (n : Nat) (v : α) (h : Canon d t = true) : Canon d (put d t n v) = true := by
  simp only [Canon, Bool.and_eq_true] at h ⊢
  simp only [put]
  split
  · exact ⟨erase_rise h.1, noDefault_erase h.2⟩
  · rename_i hv; exact ⟨insert_rise h.1, noDefault_insert hv h.2⟩

/-- Read after write, in any table. -/
theorem look_put (d : α) (t : Table α) (n m : Nat) (v : α) :
    look d (put d t n v) m = if m = n then v else look d t m := by
  simp only [put]
  split
  · rename_i hv; rw [look_erase d t n m, hv]
  · exact look_insert d t n m v

/-- A read at another key, whatever the defaults. -/
theorem look_put_other {d e : α} (t : Table α) {n m : Nat} (v : α) (h : m ≠ n) :
    look e (put d t n v) m = look e t m := by
  simp only [put]
  split
  · rw [look_erase, if_neg h]
  · rw [look_insert, if_neg h]

omit [DecidableEq α] in
theorem above_filter {b : Nat} (f : Nat × α → Bool) (t : Table α) (h : Above b t) : Above b (t.filter f) := by
  induction t generalizing b with
  | nil => trivial
  | cons e t ih =>
    obtain ⟨a, u⟩ := e
    simp only [List.filter_cons]
    split
    · exact ⟨h.1, ih h.2⟩
    · exact ih (above_mono t (Nat.le_of_lt h.1) h.2)

/-- Leaving entries out keeps the canonical form. -/
theorem canon_filter {d : α} {t : Table α} (f : Nat × α → Bool) (h : Canon d t = true) :
    Canon d (t.filter f) = true := by
  simp only [Canon, Bool.and_eq_true] at h ⊢
  constructor
  · cases t with
    | nil => rfl
    | cons e t =>
      obtain ⟨a, u⟩ := e
      have ha := (keysRise_cons a u t).mp h.1
      simp only [List.filter_cons]
      split
      · exact (keysRise_cons _ _ _).mpr (above_filter f t ha)
      · exact above_rise (above_filter f t ha)
  · simp only [noDefault, List.all_eq_true, List.mem_filter] at h ⊢
    exact fun e he => h.2 e he.1

/-- A canonical table is fixed by what it reads: equal contents are equal data. -/
theorem canon_ext {d : α} {t u : Table α} (ht : Canon d t = true) (hu : Canon d u = true)
    (h : ∀ n, look d t n = look d u n) : t = u := by
  simp only [Canon, Bool.and_eq_true] at ht hu
  induction t generalizing u with
  | nil =>
    clear ht
    cases u with
    | nil => rfl
    | cons e u =>
      obtain ⟨a, v⟩ := e
      have := h a
      simp only [look, if_pos] at this
      simp [noDefault, ← this] at hu
  | cons e t ih =>
    obtain ⟨a, v⟩ := e
    have hta := (keysRise_cons a v t).mp ht.1
    have hv : v ≠ d ∧ noDefault d t = true := by simpa [noDefault] using ht.2
    cases u with
    | nil =>
      have := h a
      simp only [look, if_pos] at this
      exact absurd this hv.1
    | cons e' u =>
      obtain ⟨b, w⟩ := e'
      have hub := (keysRise_cons b w u).mp hu.1
      have hw : w ≠ d ∧ noDefault d u = true := by simpa [noDefault] using hu.2
      have ha := h a
      have hb := h b
      simp only [look, if_pos] at ha hb
      have hab : a = b := by
        rcases Nat.lt_trichotomy a b with hlt | he | hgt
        · rw [if_neg (by omega), look_above d u hub (by omega)] at ha
          exact absurd ha hv.1
        · exact he
        · rw [if_neg (by omega), look_above d t hta (by omega)] at hb
          exact absurd hb.symm hw.1
      subst hab
      simp only [if_pos] at ha
      subst ha
      congr 1
      refine ih (fun n => ?_) ⟨above_rise hta, hv.2⟩ ⟨above_rise hub, hw.2⟩
      have hn := h n
      simp only [look] at hn
      by_cases hna : n ≤ a
      · rw [look_above d t hta hna, look_above d u hub hna]
      · rwa [if_neg (by omega), if_neg (by omega)] at hn

end Sys2Proof.Laws
end

