-- ==== Sys2Proof/Laws/Evolves.lean ====
section
/-! SUPPORT. What every operation of the machine keeps: the canonical form of the memories, the queue, the variant; what it
only adds to: the outputs and the count of free values. The lemmas named after an operation with the ending _ev say so of
that operation, so that a claim about a step need not unfold it. -/

namespace Sys2Proof.Machine

structure Keep where
  part : Part
  mem : List Host.Cell
  tags : List Host.Cell
  mram : List Host.Cell
  pending : List Instr
  out : List Out
  free : Nat

def State.keep (s : State) : Keep := ⟨s.part, s.mem, s.tags, s.mram, s.pending, s.out, s.free⟩

def EvK (o : State) (k : Keep) : Prop :=
  (o.MemOk → Memory.wf k.mem = true ∧ Memory.wf k.tags = true ∧ Memory.wf k.mram = true) ∧
  k.pending = o.pending ∧ k.part.variant = o.part.variant ∧ k.part.stepping = o.part.stepping ∧ o.free ≤ k.free ∧ o.out <:+ k.out

def Evolves (o s : State) : Prop := EvK o s.keep

theorem Evolves.same {o s t : State} (h : Evolves o s) (e : t.keep = s.keep) : Evolves o t := by
  unfold Evolves; rw [e]; exact h


theorem ev_mk {σ₀ : State} {part : Part} {dt : BitVec 64} {dtRun : Bool} {mem : List Host.Cell} {tags : List Host.Cell} {mram : List Host.Cell} {planted : Table (List (Nat × Nat))} {barns : Table BarnCache} {llc : Table LlcLine} {hourCe : Table Nat} {scrubPos : Nat} {ctl : Table (BitVec 64)} {posted : List Posted} {sysregs : Table (BitVec 64)} {cores : Table Core} {slots : Table Slot} {ctxs : Table SwCtx} {fillNo : Nat} {rings : List Nat} {wdogFrom : Table Nat} {tlbis : List TlbiJob} {patch : PatchUnit} {jtagUnlocked : Bool} {bins : Table Bin} {gl : Table GlHall} {gal : Table GalRec} {galSeq : Nat} {axes : Table AxRec} {cams : Table (List CamAct)} {camEdge : Table Nat} {netCams : List NetCam} {marks : Table Nat} {msLevel : Table Bool} {ms : Table (List MsSample)} {objs : Table Nat} {vfEnable : Bool} {numVfs : Nat} {d3hot : List Nat} {fns : Table FnCfg} {xe : List XeOp} {xeTurns : Table XeTurn} {evenPass : List Nat} {hallRst : Table HallRst} {pdActive : Table (BitVec 64)} {dict : Table PathSt} {eni : List Byte} {params : Option (List Staged)} {line : LineSt} {plant : PlantSt} {lineSnap : Table (BitVec 64)} {camNets : Table CamNet} {casc : Casc} {service : Service} {life : Life} {recorder : Recorder} {emcy : Emcy} {mgrEvents : List MgrEvent} {out : List Out} {pending : List Instr} {free : Nat} :
    Evolves σ₀ ⟨part, dt, dtRun, mem, tags, mram, planted, barns, llc, hourCe, scrubPos, ctl, posted, sysregs, cores, slots, ctxs, fillNo, rings, wdogFrom, tlbis, patch, jtagUnlocked, bins, gl, gal, galSeq, axes, cams, camEdge, netCams, marks, msLevel, ms, objs, vfEnable, numVfs, d3hot, fns, xe, xeTurns, evenPass, hallRst, pdActive, dict, eni, params, line, plant, lineSnap, camNets, casc, service, life, recorder, emcy, mgrEvents, out, pending, free⟩ ↔ EvK σ₀ ⟨part, mem, tags, mram, pending, out, free⟩ := ⟨id, id⟩
theorem evk_eta {σ₀ s : State} : EvK σ₀ ⟨s.part, s.mem, s.tags, s.mram, s.pending, s.out, s.free⟩ ↔ Evolves σ₀ s := ⟨id, id⟩

theorem wf_setBytes8 {t : List Host.Cell} {a : Nat} {v : BitVec 64} (h : Memory.wf t = true) :
    Memory.wf (setBytes8 t a v) = true := by
  unfold setBytes8
  exact Laws.canon_put _ _ (Laws.canon_put _ _ (Laws.canon_put _ _ (Laws.canon_put _ _ (Laws.canon_put _ _
    (Laws.canon_put _ _ (Laws.canon_put _ _ (Laws.canon_put _ _ h)))))))

theorem Evolves.refl (s : State) : Evolves s s :=
  ⟨id, rfl, rfl, rfl, Nat.le_refl _, List.suffix_refl _⟩

theorem Evolves.trans {a b c : State} (h : Evolves a b) (k : Evolves b c) : Evolves a c :=
  ⟨fun x => k.1 (h.1 x), k.2.1.trans h.2.1, k.2.2.1.trans h.2.2.1, k.2.2.2.1.trans h.2.2.2.1,
   Nat.le_trans h.2.2.2.2.1 k.2.2.2.2.1, h.2.2.2.2.2.trans k.2.2.2.2.2⟩

def Res.Ev {α : Type} (o : State) : Res α → Prop
  | .ok _ s => Evolves o s
  | .trap _ s => Evolves o s
  | .hold s => Evolves o s
  | .stop s => Evolves o s

theorem Res.ev_ok {α : Type} {σ₀ s : State} {a : α} (h : Evolves σ₀ s) : (Res.ok a s).Ev σ₀ := h
theorem Res.ev_trap {α : Type} {σ₀ s : State} {a : Trap} (h : Evolves σ₀ s) : (Res.trap a s : Res α).Ev σ₀ := h
theorem Res.ev_hold {α : Type} {σ₀ s : State} (h : Evolves σ₀ s) : (Res.hold s : Res α).Ev σ₀ := h
theorem Res.ev_stop {α : Type} {σ₀ s : State} (h : Evolves σ₀ s) : (Res.stop s : Res α).Ev σ₀ := h

def OptEv (o : State) : Option State → Prop
  | none => True
  | some s => Evolves o s
theorem ev_none {σ₀ : State} : OptEv σ₀ none := trivial
theorem ev_some {σ₀ s : State} (h : Evolves σ₀ s) : OptEv σ₀ (some s) := h

def OutEv (o : State) : Host.Outcome State Fault Refusal → Prop
  | .next s => Evolves o s
  | _ => True
theorem ev_next {σ₀ s : State} (h : Evolves σ₀ s) : OutEv σ₀ (.next s) := h

theorem ev_ite {o a b : State} {c : Prop} [Decidable c] :
    Evolves o (if c then a else b) ↔ (c → Evolves o a) ∧ (¬c → Evolves o b) := by
  split <;> simp_all
theorem ev_ite2 {α : Type} {σ₀ : State} {a b : α × State} {c : Prop} [Decidable c] :
    Evolves σ₀ (if c then a else b).2 ↔ (c → Evolves σ₀ a.2) ∧ (¬c → Evolves σ₀ b.2) := by
  split <;> simp_all
theorem Res.Ev_ite {α : Type} {σ₀ : State} {a b : Res α} {c : Prop} [Decidable c] :
    (if c then a else b).Ev σ₀ ↔ (c → a.Ev σ₀) ∧ (¬c → b.Ev σ₀) := by
  split <;> simp_all
theorem ev_ite3 {α β : Type} {σ₀ : State} {a b : α × β × State} {c : Prop} [Decidable c] :
    Evolves σ₀ (if c then a else b).2.2 ↔ (c → Evolves σ₀ a.2.2) ∧ (¬c → Evolves σ₀ b.2.2) := by
  split <;> simp_all
theorem ev_foldl {α : Type} {o : State} (f : State → α → State) (hf : ∀ s x, Evolves o s → Evolves o (f s x)) :
    ∀ (l : List α) (s : State), Evolves o s → Evolves o (l.foldl f s)
  | [], _, h => h
  | x :: l, s, h => ev_foldl f hf l (f s x) (hf s x h)
theorem ev_foldl' {α : Type} {o s : State} (f : State → α → State) (l : List α) (h : Evolves o s)
   (hf : ∀ s x, Evolves o s → Evolves o (f s x)) : Evolves o (l.foldl f s) := ev_foldl f hf l s h

theorem ev_foldl2 {α β : Type} {σ₀ : State} (f : β × State → α → β × State)
    (hf : ∀ x a, Evolves σ₀ x.2 → Evolves σ₀ (f x a).2) :
    ∀ (l : List α) (x : β × State), Evolves σ₀ x.2 → Evolves σ₀ (l.foldl f x).2
  | [], _, h => h
  | a :: l, x, h => ev_foldl2 f hf l (f x a) (hf x a h)

theorem OptEv.of {σ₀ t : State} {x : Option State} (h : OptEv σ₀ x) (e : x = some t) : Evolves σ₀ t := by
  rw [e] at h; exact h

/-- The state a routine of the control store ends in. -/
def MicroEnd.state : MicroEnd → State
  | .done t | .trap _ t | .stop _ t | .hold t | .failed t => t

/-- The state a segment of a routine ends in. -/
def SegmentEnd.state : SegmentEnd → State
  | .yields _ _ t => t
  | .ends e _ => e.state

theorem Res.Ev_bind {α β : Type} {o : State} (x : Res α) (f : α → State → Res β) (h : x.Ev o)
    (hf : ∀ a s, Evolves o s → (f a s).Ev o) : (x.bind f).Ev o := by
  cases x with
  | ok a s => exact hf a s h
  | trap t s => exact h
  | hold s => exact h
  | stop s => exact h

end Sys2Proof.Machine
end

