-- ==== Sys2Proof/Laws/EvCore.lean ====
section
/-! SUPPORT. Evolves (Laws/Evolves.lean) for the register files, reports, memory, the caches, contexts, the read barrier and microcode. -/

namespace Sys2Proof.Machine

/-! Regs. -/

theorem State.setCore_ev {σ₀ s : State} (hev : Evolves σ₀ s) (p : Nat) (c : Core) :
    Evolves σ₀ (State.setCore s p c) := by
  unfold State.setCore
  repeat' (first | with_reducible assumption | simp only [↓ev_mk, evk_eta])

theorem State.setSlot_ev {σ₀ s : State} (hev : Evolves σ₀ s) (n : Nat) (c : Slot) :
    Evolves σ₀ (State.setSlot s n c) := by
  unfold State.setSlot
  repeat' (first | with_reducible assumption | simp only [↓ev_mk, evk_eta])

theorem State.setCtx_ev {σ₀ s : State} (hev : Evolves σ₀ s) (n : Nat) (c : SwCtx) :
    Evolves σ₀ (State.setCtx s n c) := by
  unfold State.setCtx
  repeat' (first | with_reducible assumption | simp only [↓ev_mk, evk_eta])

theorem State.setBin_ev {σ₀ s : State} (hev : Evolves σ₀ s) (n : Nat) (b : Bin) :
    Evolves σ₀ (State.setBin s n b) := by
  unfold State.setBin
  repeat' (first | with_reducible assumption | simp only [↓ev_mk, evk_eta])

theorem State.setGl_ev {σ₀ s : State} (hev : Evolves σ₀ s) (h : Nat) (g : GlHall) :
    Evolves σ₀ (State.setGl s h g) := by
  unfold State.setGl
  repeat' (first | with_reducible assumption | simp only [↓ev_mk, evk_eta])

theorem State.setGal_ev {σ₀ s : State} (hev : Evolves σ₀ s) (i : Nat) (g : GalRec) :
    Evolves σ₀ (State.setGal s i g) := by
  unfold State.setGal
  repeat' (first | with_reducible assumption | simp only [↓ev_mk, evk_eta])

theorem State.mapCores_ev {σ₀ s : State} (hev : Evolves σ₀ s) (f : Core → Core) :
    Evolves σ₀ (State.mapCores s f) := by
  unfold State.mapCores
  repeat' (first | with_reducible assumption | simp only [↓ev_mk, evk_eta])

theorem State.mapBins_ev {σ₀ s : State} (hev : Evolves σ₀ s) (f : Bin → Bin) :
    Evolves σ₀ (State.mapBins s f) := by
  unfold State.mapBins
  repeat' (first | with_reducible assumption | simp only [↓ev_mk, evk_eta])

theorem State.mapCtxs_ev {σ₀ s : State} (hev : Evolves σ₀ s) (f : SwCtx → SwCtx) :
    Evolves σ₀ (State.mapCtxs s f) := by
  unfold State.mapCtxs
  repeat' (first | with_reducible assumption | simp only [↓ev_mk, evk_eta])

theorem State.freeNat_ev {σ₀ s : State} (hev : Evolves σ₀ s) :
    Evolves σ₀ (State.freeNat s).2 := by
  obtain ⟨h1,h2,h3,h4,h5,h6⟩ := hev; exact ⟨h1,h2,h3,h4,Nat.le_succ_of_le h5,h6⟩

theorem State.freeAt_ev {σ₀ s : State} (hev : Evolves σ₀ s) (a : Nat) :
    Evolves σ₀ (State.freeAt s a).2 := by
  obtain ⟨h1,h2,h3,h4,h5,h6⟩ := hev; exact ⟨h1,h2,h3,h4,Nat.le_succ_of_le h5,h6⟩

theorem State.setReg_ev {σ₀ s : State} (hev : Evolves σ₀ s) (off : Nat) (v : BitVec 64) :
    Evolves σ₀ (State.setReg s off v) := by
  unfold State.setReg
  repeat' (first | with_reducible assumption | simp only [↓ev_mk, evk_eta])

theorem State.setRf_ev {σ₀ s : State} (hev : Evolves σ₀ s) (off : Nat) (hi : Nat) (lo : Nat) (x : Nat) :
    Evolves σ₀ (State.setRf s off hi lo x) := by
  unfold State.setRf
  repeat' (first | with_reducible assumption | with_reducible apply State.setReg_ev)

theorem State.bumpRf_ev {σ₀ s : State} (hev : Evolves σ₀ s) (off : Nat) (hi : Nat) (lo : Nat) (n : Nat) :
    Evolves σ₀ (State.bumpRf s off hi lo n) := by
  unfold State.bumpRf
  repeat' (first | with_reducible assumption | with_reducible apply State.setReg_ev)

theorem State.setSys_ev {σ₀ s : State} (hev : Evolves σ₀ s) (h : Nat) (sel : Nat) (v : BitVec 64) :
    Evolves σ₀ (State.setSys s h sel v) := by
  unfold State.setSys
  repeat' (first | with_reducible assumption | simp only [↓ev_mk, evk_eta])

theorem State.setAxr_ev {σ₀ s : State} (hev : Evolves σ₀ s) (x : Nat) (r : AxRec) :
    Evolves σ₀ (State.setAxr s x r) := by
  unfold State.setAxr
  repeat' (first | with_reducible assumption | simp only [↓ev_mk, evk_eta])

theorem State.setObj_ev {σ₀ s : State} (hev : Evolves σ₀ s) (index : Nat) (sub : Nat) (v : Nat) :
    Evolves σ₀ (State.setObj s index sub v) := by
  unfold State.setObj
  repeat' (first | with_reducible assumption | simp only [↓ev_mk, evk_eta])

/-! Pcie. -/

theorem State.send_ev {σ₀ s : State} (hev : Evolves σ₀ s) (o : Out) :
    Evolves σ₀ (State.send s o) := by
  obtain ⟨h1,h2,h3,h4,h5,h6⟩ := hev; exact ⟨h1,h2,h3,h4,h5,h6.trans (List.suffix_cons _ _)⟩

theorem State.setFn_ev {σ₀ s : State} (hev : Evolves σ₀ s) (f : Nat) (c : FnCfg) :
    Evolves σ₀ (State.setFn s f c) := by
  unfold State.setFn
  repeat' (first | with_reducible assumption | simp only [↓ev_mk, evk_eta])

theorem State.request_ev {σ₀ s : State} (hev : Evolves σ₀ s) (f : Nat) (o : Out) :
    Evolves σ₀ (State.request s f o) := by
  unfold State.request
  repeat' (first | with_reducible assumption | with_reducible apply State.send_ev | with_reducible refine ev_ite.mpr ⟨fun _ => ?_, fun _ => ?_⟩ | with_reducible refine ev_ite3.mpr ⟨fun _ => ?_, fun _ => ?_⟩)

theorem State.msix_ev {σ₀ s : State} (hev : Evolves σ₀ s) (f : Nat) (vec : Nat) :
    Evolves σ₀ (State.msix s f vec) := by
  unfold State.msix
  repeat' (first | with_reducible assumption | with_reducible apply State.setFn_ev | with_reducible apply State.send_ev | with_reducible refine ev_ite.mpr ⟨fun _ => ?_, fun _ => ?_⟩ | with_reducible refine ev_ite3.mpr ⟨fun _ => ?_, fun _ => ?_⟩)

theorem State.releaseMsix_ev {σ₀ s : State} (hev : Evolves σ₀ s) (f : Nat) :
    Evolves σ₀ (State.releaseMsix s f) := by
  unfold State.releaseMsix
  repeat' (first | with_reducible assumption | with_reducible apply State.setFn_ev | with_reducible apply State.send_ev | with_reducible apply State.msix_ev | with_reducible refine ev_foldl' _ _ ?_ (fun _ _ _ => ?_) | with_reducible refine ev_ite.mpr ⟨fun _ => ?_, fun _ => ?_⟩ | with_reducible refine ev_ite3.mpr ⟨fun _ => ?_, fun _ => ?_⟩)

theorem State.setFeature_ev {σ₀ s : State} (hev : Evolves σ₀ s) (f : Nat) (k : PcieFeature) (on : Bool) :
    Evolves σ₀ (State.setFeature s f k on) := by
  unfold State.setFeature
  repeat' (first | with_reducible assumption | with_reducible apply State.setFn_ev | with_reducible refine ev_ite.mpr ⟨fun _ => ?_, fun _ => ?_⟩ | with_reducible refine ev_ite3.mpr ⟨fun _ => ?_, fun _ => ?_⟩)

theorem State.setD3_ev {σ₀ s : State} (hev : Evolves σ₀ s) (f : Nat) (on : Bool) :
    Evolves σ₀ (State.setD3 s f on) := by
  unfold State.setD3
  repeat' (first | with_reducible assumption | with_reducible refine ev_ite3.mpr ⟨fun _ => ?_, fun _ => ?_⟩ | simp only [↓ev_mk, evk_eta])

theorem State.logAer_ev {σ₀ s : State} (hev : Evolves σ₀ s) (f : Nat) (status : Nat) :
    Evolves σ₀ (State.logAer s f status) := by
  unfold State.logAer
  repeat' (first | with_reducible assumption | with_reducible apply State.setFn_ev | simp only [↓ev_mk, evk_eta] | dsimp -iota only | with_reducible trivial)

theorem State.cfgRequest_ev {σ₀ s : State} (hev : Evolves σ₀ s) (f : Nat) (q : CfgReq) :
    Evolves σ₀ (State.cfgRequest s f q) := by
  unfold State.cfgRequest
  repeat' (first | with_reducible assumption | with_reducible apply State.setD3_ev | with_reducible apply State.setFn_ev | with_reducible apply State.releaseMsix_ev | with_reducible apply State.setFeature_ev | with_reducible apply State.send_ev | with_reducible refine ev_ite3.mpr ⟨fun _ => ?_, fun _ => ?_⟩ | split | with_reducible apply State.vector_ev)

theorem State.resetFn_ev {σ₀ s : State} (hev : Evolves σ₀ s) (f : Nat) :
    Evolves σ₀ (State.resetFn s f) := by
  unfold State.resetFn
  repeat' (first | with_reducible assumption | with_reducible apply State.setFn_ev | with_reducible apply State.setD3_ev)

/-! Report. -/

theorem State.event_ev {σ₀ s : State} (hev : Evolves σ₀ s) (h : Nat) (name : String) (arg : Nat) :
    Evolves σ₀ (State.event s h name arg) := by
  unfold State.event
  repeat' (first | with_reducible assumption | with_reducible apply State.send_ev)

theorem State.mgrMsix_ev {σ₀ s : State} (hev : Evolves σ₀ s) (vec : Nat) (hall : Nat) (code : Nat) (index : Nat) :
    Evolves σ₀ (State.mgrMsix s vec hall code index) := by
  unfold State.mgrMsix
  repeat' (first | with_reducible assumption | with_reducible apply State.msix_ev | simp only [↓ev_mk, evk_eta] | dsimp -iota only | with_reducible trivial)

theorem State.recordEvent_ev {σ₀ s : State} (hev : Evolves σ₀ s) (code : Nat) (index : Nat) :
    Evolves σ₀ (State.recordEvent s code index) := by
  unfold State.recordEvent
  repeat' (first | with_reducible assumption | with_reducible apply State.event_ev | dsimp -iota only | with_reducible trivial)

theorem State.setMram_ev {σ₀ s : State} (hev : Evolves σ₀ s) (a : Nat) (b : Byte) :
    Evolves σ₀ (State.setMram s a b) := by
  obtain ⟨h1, h2⟩ := hev
  exact ⟨fun x => ⟨(h1 x).1, (h1 x).2.1, Laws.canon_put _ _ (h1 x).2.2⟩, h2⟩

theorem State.setMramN_ev {σ₀ s : State} (hev : Evolves σ₀ s) (a : Nat) (a0 : Nat) (a1 : Nat) :
    Evolves σ₀ (State.setMramN s a a0 a1) := by
  induction a0 generalizing s a a1 <;> unfold State.setMramN <;> repeat' (first | with_reducible assumption | with_reducible apply State.setMram_ev | with_reducible apply_assumption)

theorem State.setDrained_ev {σ₀ s : State} (hev : Evolves σ₀ s) (b : Bool) :
    Evolves σ₀ (State.setDrained s b) := by
  unfold State.setDrained
  repeat' (first | with_reducible assumption | with_reducible apply State.setMram_ev | with_reducible refine ev_ite3.mpr ⟨fun _ => ?_, fun _ => ?_⟩)

theorem State.emergencyRaw_ev {σ₀ s : State} (hev : Evolves σ₀ s) (code : Nat) (cls : Nat) (index : Nat) (hall : Nat) (inst : Nat) :
    Evolves σ₀ (State.emergencyRaw s code cls index hall inst) := by
  unfold State.emergencyRaw
  repeat' (first | with_reducible assumption | with_reducible apply State.send_ev | with_reducible apply State.bumpRf_ev | with_reducible refine ev_ite.mpr ⟨fun _ => ?_, fun _ => ?_⟩ | with_reducible refine ev_ite3.mpr ⟨fun _ => ?_, fun _ => ?_⟩ | simp only [↓ev_mk, evk_eta])

theorem State.emergency_ev {σ₀ s : State} (hev : Evolves σ₀ s) (code : Nat) (cls : Nat) (index : Nat) (hall : Nat) (inst : Nat) :
    Evolves σ₀ (State.emergency s code cls index hall inst) := by
  unfold State.emergency
  repeat' (first | with_reducible assumption | with_reducible apply State.emergencyRaw_ev | with_reducible refine ev_ite3.mpr ⟨fun _ => ?_, fun _ => ?_⟩ | simp only [↓ev_mk, evk_eta])

theorem State.storeRing_ev {σ₀ s : State} (hev : Evolves σ₀ s) :
    Evolves σ₀ (State.storeRing s) := by
  unfold State.storeRing
  repeat' (first | with_reducible assumption | with_reducible apply State.setMramN_ev)

theorem State.allocRecord_ev {σ₀ s : State} (hev : Evolves σ₀ s) (n : Note) :
    Evolves σ₀ (State.allocRecord s n).2 := by
  unfold State.allocRecord
  repeat' (first | with_reducible assumption | with_reducible apply State.setDrained_ev | with_reducible apply State.storeRing_ev | split | simp only [↓ev_mk, evk_eta])

theorem State.errsum_ev {σ₀ s : State} (hev : Evolves σ₀ s) (c : Class) (index : Nat) :
    Evolves σ₀ (State.errsum s c index) := by
  unfold State.errsum
  repeat' (first | with_reducible assumption | with_reducible apply State.setReg_ev)

theorem State.reportMsix_ev {σ₀ s : State} (hev : Evolves σ₀ s) (n : Note) (i : Nat) :
    Evolves σ₀ (State.reportMsix s n i) := by
  unfold State.reportMsix
  repeat' (first | with_reducible assumption | with_reducible apply State.event_ev | with_reducible apply State.mgrMsix_ev | split | dsimp -iota only)

theorem State.report_ev {σ₀ s : State} (hev : Evolves σ₀ s) (n : Note) :
    Evolves σ₀ (State.report s n).2 := by
  unfold State.report
  repeat' (first | with_reducible assumption | with_reducible apply State.errsum_ev | with_reducible apply State.recordEvent_ev | with_reducible apply State.reportMsix_ev | with_reducible apply State.emergency_ev | with_reducible apply State.setRf_ev | (split <;> (try dsimp -iota only) <;> try (rename_i hq; obtain ⟨hq1, hq2⟩ := Prod.ext_iff.mp hq; dsimp only at hq2; subst hq2)) | with_reducible apply State.allocRecord_ev)

theorem State.note_ev {σ₀ s : State} (hev : Evolves σ₀ s) (n : Note) :
    Evolves σ₀ (State.note s n) := by
  unfold State.note
  repeat' (first | with_reducible assumption | with_reducible apply State.report_ev)

theorem State.shareChanged_ev {σ₀ s : State} (hev : Evolves σ₀ s) (h : Nat) (id : Nat) (value : Nat) :
    Evolves σ₀ (State.shareChanged s h id value) := by
  unfold State.shareChanged
  repeat' (first | with_reducible assumption | with_reducible apply State.event_ev | with_reducible apply State.mgrMsix_ev | with_reducible refine ev_ite.mpr ⟨fun _ => ?_, fun _ => ?_⟩ | with_reducible apply State.report_ev)

theorem State.setShare_ev {σ₀ s : State} (hev : Evolves σ₀ s) (h : Nat) (id : Nat) (off : Nat) (hi : Nat) (lo : Nat) (v : Nat) :
    Evolves σ₀ (State.setShare s h id off hi lo v) := by
  unfold State.setShare
  repeat' (first | with_reducible assumption | with_reducible apply State.setRf_ev | with_reducible apply State.shareChanged_ev | with_reducible refine ev_ite.mpr ⟨fun _ => ?_, fun _ => ?_⟩ | with_reducible refine ev_ite3.mpr ⟨fun _ => ?_, fun _ => ?_⟩)

/-! Ageing. -/

theorem State.setAge_ev {σ₀ s : State} (hev : Evolves σ₀ s) (k : Nat) (a : AgeRec) :
    Evolves σ₀ (State.setAge s k a) := by
  unfold State.setAge
  repeat' (first | with_reducible assumption | simp only [↓ev_mk, evk_eta] | dsimp -iota only | with_reducible trivial)

theorem State.wear_ev {σ₀ s : State} (hev : Evolves σ₀ s) (m : Monitor) (bad : Bool) (v : Nat) (est : Option Nat) :
    Evolves σ₀ (State.wear s m bad v est) := by
  unfold State.wear
  repeat' (first | with_reducible assumption | with_reducible apply State.setRf_ev | with_reducible apply State.setAge_ev | with_reducible apply State.note_ev | split | dsimp -iota only)

theorem State.addSample_ev {σ₀ s : State} (hev : Evolves σ₀ s) (k : Nat) (v : Nat) :
    Evolves σ₀ (State.addSample s k v) := by
  unfold State.addSample
  repeat' (first | with_reducible assumption | with_reducible apply State.setAge_ev | simp only [↓ev_mk, evk_eta] | dsimp -iota only | with_reducible trivial)

theorem State.judgeTracker_ev {σ₀ s : State} (hev : Evolves σ₀ s) (m : Monitor) (i : Nat) (ue : Bool) :
    Evolves σ₀ (State.judgeTracker s m i ue) := by
  unfold State.judgeTracker
  repeat' (first | with_reducible assumption | with_reducible apply State.wear_ev)

theorem State.trackSample_ev {σ₀ s : State} (hev : Evolves σ₀ s) (m : Monitor) (i : Nat) (v : Nat) (ue : Bool) :
    Evolves σ₀ (State.trackSample s m i v ue) := by
  unfold State.trackSample
  repeat' (first | with_reducible assumption | with_reducible apply State.addSample_ev | with_reducible apply State.judgeTracker_ev | dsimp -iota only | with_reducible trivial)

/-! Mem. -/

theorem State.setMemWord_ev {σ₀ s : State} (hev : Evolves σ₀ s) (pa : Nat) (w : Word) :
    Evolves σ₀ (State.setMemWord s pa w) := by
  obtain ⟨h1, h2⟩ := hev
  exact ⟨fun x => ⟨wf_setBytes8 (h1 x).1, Laws.canon_put _ _ (h1 x).2.1, (h1 x).2.2⟩, h2⟩

theorem State.setWords_ev {σ₀ s : State} (hev : Evolves σ₀ s) (pa : Nat) (a0 : List Word) :
    Evolves σ₀ (State.setWords s pa a0) := by
  induction a0 generalizing s pa <;> unfold State.setWords <;> repeat' (first | with_reducible assumption | with_reducible apply State.setMemWord_ev | with_reducible apply_assumption)

theorem State.countHour_ev {σ₀ s : State} (hev : Evolves σ₀ s) (unit : Nat) :
    Evolves σ₀ (State.countHour s unit) := by
  unfold State.countHour
  repeat' (first | with_reducible assumption | simp only [↓ev_mk, evk_eta])

theorem State.memWrite_ev {σ₀ s : State} (hev : Evolves σ₀ s) (pa : Nat) :
    Evolves σ₀ (State.memWrite s pa) := by
  unfold State.memWrite
  repeat' (first | with_reducible assumption | with_reducible apply State.setReg_ev | with_reducible refine ev_ite.mpr ⟨fun _ => ?_, fun _ => ?_⟩ | with_reducible refine ev_ite3.mpr ⟨fun _ => ?_, fun _ => ?_⟩ | simp only [↓ev_mk, evk_eta])

theorem State.eccRead_ev {σ₀ s : State} (hev : Evolves σ₀ s) (pa : Nat) :
    Evolves σ₀ (State.eccRead s pa).2 := by
  unfold State.eccRead
  repeat' (first | with_reducible assumption | with_reducible apply State.bumpRf_ev | with_reducible apply State.countHour_ev | with_reducible apply State.setReg_ev | with_reducible apply State.memWrite_ev | with_reducible apply State.setRf_ev | with_reducible apply State.judgeTracker_ev | split | dsimp -iota only | with_reducible apply State.report_ev)

theorem State.poisonSector_ev {σ₀ s : State} (hev : Evolves σ₀ s) (pa : Nat) (i : Nat) :
    Evolves σ₀ (State.poisonSector s pa i) := by
  unfold State.poisonSector
  repeat' (first | with_reducible assumption | with_reducible apply State.setWords_ev)

/-! Cache. -/

theorem State.snoop_ev {σ₀ s : State} (hev : Evolves σ₀ s) (sel : Nat → Bool) (pa : Nat) (f : Sector → Sector) :
    Evolves σ₀ (State.snoop s sel pa f) := by
  unfold State.snoop
  repeat' (first | with_reducible assumption | with_reducible apply State.setSector_ev | with_reducible refine ev_ite3.mpr ⟨fun _ => ?_, fun _ => ?_⟩ | simp only [↓ev_mk, evk_eta])

theorem State.setLlcSec_ev {σ₀ s : State} (hev : Evolves σ₀ s) (pa : Nat) (f : LlcSector → LlcSector) :
    Evolves σ₀ (State.setLlcSec s pa f) := by
  unfold State.setLlcSec
  repeat' (first | with_reducible assumption | split | simp only [↓ev_mk, evk_eta])

theorem State.llcDirty_ev {σ₀ s : State} (hev : Evolves σ₀ s) (pa : Nat) :
    Evolves σ₀ (State.llcDirty s pa) := by
  unfold State.llcDirty
  repeat' (first | with_reducible assumption | with_reducible apply State.setLlcSec_ev)

theorem State.setBarn_ev {σ₀ s : State} (hev : Evolves σ₀ s) (b : Nat) (x : BarnCache) :
    Evolves σ₀ (State.setBarn s b x) := by
  unfold State.setBarn
  repeat' (first | with_reducible assumption | simp only [↓ev_mk, evk_eta])

theorem State.setBarnSec_ev {σ₀ s : State} (hev : Evolves σ₀ s) (b : Nat) (pa : Nat) (f : BarnSector → BarnSector) :
    Evolves σ₀ (State.setBarnSec s b pa f) := by
  unfold State.setBarnSec
  repeat' (first | with_reducible assumption | with_reducible apply State.setBarn_ev | split | dsimp -iota only)

theorem State.barnEvict_ev {σ₀ s : State} (hev : Evolves σ₀ s) (b : Nat) (line : Nat) :
    Evolves σ₀ (State.barnEvict s b line) := by
  unfold State.barnEvict
  repeat' (first | with_reducible assumption | with_reducible apply State.llcDirty_ev | with_reducible apply State.snoop_ev | with_reducible apply State.setLlcSec_ev | with_reducible apply State.setBarn_ev | with_reducible refine ev_foldl' _ _ ?_ (fun _ _ _ => ?_) | with_reducible refine ev_ite3.mpr ⟨fun _ => ?_, fun _ => ?_⟩ | split)

theorem State.llcEvict_ev {σ₀ s : State} (hev : Evolves σ₀ s) (line : Nat) :
    Evolves σ₀ (State.llcEvict s line) := by
  unfold State.llcEvict
  repeat' (first | with_reducible assumption | with_reducible apply State.barnEvict_ev | with_reducible apply State.memWrite_ev | with_reducible refine ev_foldl' _ _ ?_ (fun _ _ _ => ?_) | with_reducible refine ev_ite.mpr ⟨fun _ => ?_, fun _ => ?_⟩ | with_reducible refine ev_ite3.mpr ⟨fun _ => ?_, fun _ => ?_⟩ | simp only [↓ev_mk, evk_eta])

theorem State.llcPlace_ev {σ₀ s : State} (hev : Evolves σ₀ s) (line : Nat) :
    Evolves σ₀ (State.llcPlace s line) := by
  unfold State.llcPlace
  repeat' (first | with_reducible assumption | with_reducible apply State.llcEvict_ev | (split <;> (try dsimp -iota only) <;> try (rename_i hq; obtain ⟨hq1, hq2⟩ := Prod.ext_iff.mp hq; dsimp only at hq2; subst hq2)) | simp only [↓ev_mk, evk_eta] | with_reducible apply State.freeNat_ev)

theorem State.llcTake_ev {σ₀ s : State} (hev : Evolves σ₀ s) (pa : Nat) :
    Evolves σ₀ (State.llcTake s pa) := by
  unfold State.llcTake
  repeat' (first | with_reducible assumption | with_reducible apply State.llcPlace_ev | with_reducible apply State.poisonSector_ev | with_reducible apply State.setLlcSec_ev | with_reducible refine ev_foldl' _ _ ?_ (fun _ _ _ => ?_) | with_reducible refine ev_ite3.mpr ⟨fun _ => ?_, fun _ => ?_⟩ | split | dsimp -iota only | with_reducible apply State.eccRead_ev)

theorem State.shareBarns_ev {σ₀ s : State} (hev : Evolves σ₀ s) (but : Option Nat) (pa : Nat) :
    Evolves σ₀ (State.shareBarns s but pa) := by
  unfold State.shareBarns
  repeat' (first | with_reducible assumption | with_reducible apply State.llcDirty_ev | with_reducible apply State.snoop_ev | with_reducible apply State.setBarnSec_ev | with_reducible refine ev_foldl' _ _ ?_ (fun _ _ _ => ?_) | with_reducible refine ev_ite.mpr ⟨fun _ => ?_, fun _ => ?_⟩ | with_reducible refine ev_ite3.mpr ⟨fun _ => ?_, fun _ => ?_⟩)

theorem State.clearBarns_ev {σ₀ s : State} (hev : Evolves σ₀ s) (but : Option Nat) (pa : Nat) :
    Evolves σ₀ (State.clearBarns s but pa) := by
  unfold State.clearBarns
  repeat' (first | with_reducible assumption | with_reducible apply State.llcDirty_ev | with_reducible apply State.snoop_ev | with_reducible apply State.setBarnSec_ev | with_reducible apply State.setLlcSec_ev | with_reducible refine ev_foldl' _ _ ?_ (fun _ _ _ => ?_) | with_reducible refine ev_ite.mpr ⟨fun _ => ?_, fun _ => ?_⟩ | with_reducible refine ev_ite3.mpr ⟨fun _ => ?_, fun _ => ?_⟩)

theorem State.barnBring_ev {σ₀ s : State} (hev : Evolves σ₀ s) (b : Nat) (line : Nat) :
    Evolves σ₀ (State.barnBring s b line).2 := by
  unfold State.barnBring
  repeat' (first | with_reducible assumption | with_reducible apply State.setBarn_ev | with_reducible apply State.barnEvict_ev | split)

theorem State.barnTake_ev {σ₀ s : State} (hev : Evolves σ₀ s) (b : Nat) (pa : Nat) :
    Evolves σ₀ (State.barnTake s b pa) := by
  unfold State.barnTake
  repeat' (first | with_reducible assumption | with_reducible apply State.llcTake_ev | with_reducible apply State.shareBarns_ev | with_reducible apply State.setBarnSec_ev | with_reducible apply State.setLlcSec_ev | with_reducible refine ev_ite.mpr ⟨fun _ => ?_, fun _ => ?_⟩ | with_reducible refine ev_ite3.mpr ⟨fun _ => ?_, fun _ => ?_⟩)

theorem State.shareCribs_ev {σ₀ s : State} (hev : Evolves σ₀ s) (b : Nat) (sel : Nat → Bool) (pa : Nat) :
    Evolves σ₀ (State.shareCribs s b sel pa) := by
  unfold State.shareCribs
  repeat' (first | with_reducible assumption | with_reducible apply State.setBarnSec_ev | with_reducible apply State.snoop_ev | with_reducible refine ev_ite.mpr ⟨fun _ => ?_, fun _ => ?_⟩ | with_reducible refine ev_ite3.mpr ⟨fun _ => ?_, fun _ => ?_⟩)

theorem State.barnShow_ev {σ₀ s : State} (hev : Evolves σ₀ s) (b : Nat) (pa : Nat) :
    Evolves σ₀ (State.barnShow s b pa) := by
  unfold State.barnShow
  repeat' (first | with_reducible assumption | with_reducible apply State.setWords_ev | with_reducible apply State.setBarnSec_ev | with_reducible refine ev_ite.mpr ⟨fun _ => ?_, fun _ => ?_⟩)

theorem State.barnOwn_ev {σ₀ s : State} (hev : Evolves σ₀ s) (b : Nat) (pa : Nat) (keeps : Nat → Bool) (sharers : BitVec 9) :
    Evolves σ₀ (State.barnOwn s b pa keeps sharers) := by
  unfold State.barnOwn
  repeat' (first | with_reducible assumption | with_reducible apply State.barnTake_ev | with_reducible apply State.clearBarns_ev | with_reducible apply State.barnShow_ev | with_reducible apply State.snoop_ev | with_reducible apply State.setBarnSec_ev)

theorem State.fillSector_ev {σ₀ s : State} (hev : Evolves σ₀ s) (p : Nat) (e : Nat) (pa : Nat) :
    Evolves σ₀ (State.fillSector s p e pa) := by
  unfold State.fillSector
  repeat' (first | with_reducible assumption | with_reducible apply State.barnTake_ev | with_reducible apply State.shareCribs_ev | with_reducible apply State.setBarnSec_ev | with_reducible apply State.setCore_ev | with_reducible apply State.setSector_ev | with_reducible refine ev_ite3.mpr ⟨fun _ => ?_, fun _ => ?_⟩)

theorem State.fillLine_ev {σ₀ s : State} (hev : Evolves σ₀ s) (p : Nat) (e : Nat) (pa : Nat) :
    Evolves σ₀ (State.fillLine s p e pa) := by
  unfold State.fillLine
  repeat' (first | with_reducible assumption | with_reducible apply State.fillSector_ev | with_reducible refine ev_foldl' _ _ ?_ (fun _ _ _ => ?_) | with_reducible refine ev_ite.mpr ⟨fun _ => ?_, fun _ => ?_⟩ | with_reducible refine ev_ite3.mpr ⟨fun _ => ?_, fun _ => ?_⟩)

theorem State.cribEvict_ev {σ₀ s : State} (hev : Evolves σ₀ s) (p : Nat) (e : Nat) :
    Evolves σ₀ (State.cribEvict s p e) := by
  unfold State.cribEvict
  repeat' (first | with_reducible assumption | with_reducible apply State.setBarnSec_ev | with_reducible apply State.setCore_ev | with_reducible refine ev_foldl' _ _ ?_ (fun _ _ _ => ?_) | with_reducible refine ev_ite3.mpr ⟨fun _ => ?_, fun _ => ?_⟩)

theorem State.allocEntry_ev {σ₀ s : State} (hev : Evolves σ₀ s) (p : Nat) (e : Nat) (line : Nat) :
    Evolves σ₀ (State.allocEntry s p e line) := by
  unfold State.allocEntry
  repeat' (first | with_reducible assumption | with_reducible apply State.cribEvict_ev | with_reducible apply State.setCore_ev | with_reducible refine ev_ite.mpr ⟨fun _ => ?_, fun _ => ?_⟩ | with_reducible refine ev_ite3.mpr ⟨fun _ => ?_, fun _ => ?_⟩)

theorem State.nextLine_ev {σ₀ s : State} (hev : Evolves σ₀ s) (p : Nat) (but : Option Nat) (pa : Nat) :
    Evolves σ₀ (State.nextLine s p but pa) := by
  unfold State.nextLine
  repeat' (first | with_reducible assumption | with_reducible apply State.allocEntry_ev | with_reducible apply State.fillLine_ev | with_reducible refine ev_ite3.mpr ⟨fun _ => ?_, fun _ => ?_⟩ | (split <;> (try dsimp -iota only) <;> try (rename_i hq; obtain ⟨hq1, hq2⟩ := Prod.ext_iff.mp hq; dsimp only at hq2; subst hq2)) | with_reducible apply State.barnBring_ev)

theorem State.noAlloc_ev {σ₀ s : State} (hev : Evolves σ₀ s) (p : Nat) :
    Evolves σ₀ (State.noAlloc s p) := by
  unfold State.noAlloc
  repeat' (first | with_reducible assumption | with_reducible apply State.bumpRf_ev)

theorem State.cribBring_ev {σ₀ s : State} (hev : Evolves σ₀ s) (p : Nat) (r : CribReq) (pa : Nat) :
    Evolves σ₀ (State.cribBring s p r pa).2 := by
  unfold State.cribBring
  repeat' (first | with_reducible assumption | with_reducible apply State.setCore_ev | with_reducible apply State.noAlloc_ev | with_reducible apply State.nextLine_ev | with_reducible apply State.fillLine_ev | with_reducible apply State.allocEntry_ev | with_reducible refine ev_ite3.mpr ⟨fun _ => ?_, fun _ => ?_⟩ | (split <;> (try dsimp -iota only) <;> try (rename_i hq; obtain ⟨hq1, hq2⟩ := Prod.ext_iff.mp hq; dsimp only at hq2; subst hq2)) | with_reducible apply State.barnBring_ev)

theorem State.agentLoad_ev {σ₀ s : State} (hev : Evolves σ₀ s) (pa : Nat) :
    Evolves σ₀ (State.agentLoad s pa).2 := by
  unfold State.agentLoad
  repeat' (first | with_reducible assumption | with_reducible apply State.llcTake_ev | with_reducible apply State.shareBarns_ev)

theorem State.loadBeyond_ev {σ₀ s : State} (hev : Evolves σ₀ s) (p : Nat) (pa : Nat) (first : Bool) :
    Evolves σ₀ (State.loadBeyond s p pa first).2 := by
  unfold State.loadBeyond
  repeat' (first | with_reducible assumption | with_reducible apply State.noAlloc_ev | with_reducible apply State.barnTake_ev | with_reducible apply State.shareCribs_ev | (split <;> (try dsimp -iota only) <;> try (rename_i hq; obtain ⟨hq1, hq2⟩ := Prod.ext_iff.mp hq; dsimp only at hq2; subst hq2)) | with_reducible apply State.barnBring_ev | with_reducible apply State.agentLoad_ev)

theorem State.coreLoad_ev {σ₀ s : State} (hev : Evolves σ₀ s) (p : Nat) (r : CribReq) (pa : Nat) :
    Evolves σ₀ (State.coreLoad s p r pa).2 := by
  unfold State.coreLoad
  repeat' (first | with_reducible assumption | with_reducible refine ev_ite3.mpr ⟨fun _ => ?_, fun _ => ?_⟩ | (split <;> (try dsimp -iota only) <;> try (rename_i hq; obtain ⟨hq1, hq2⟩ := Prod.ext_iff.mp hq; dsimp only at hq2; subst hq2)) | with_reducible apply State.cribBring_ev | with_reducible apply State.loadBeyond_ev)

theorem State.cribTouch_ev {σ₀ s : State} (hev : Evolves σ₀ s) (p : Nat) (pa : Nat) :
    Evolves σ₀ (State.cribTouch s p pa) := by
  unfold State.cribTouch
  repeat' (first | with_reducible assumption | with_reducible apply State.setCore_ev | split | dsimp -iota only)

theorem State.heldLoad_ev {σ₀ s : State} (hev : Evolves σ₀ s) (p : Nat) (pa : Nat) :
    Evolves σ₀ (State.heldLoad s p pa).2 := by
  unfold State.heldLoad
  repeat' (first | with_reducible assumption | with_reducible apply State.cribTouch_ev | with_reducible refine ev_ite2.mpr ⟨fun _ => ?_, fun _ => ?_⟩ | with_reducible apply State.loadBeyond_ev)

theorem State.conflict_ev {σ₀ s : State} (hev : Evolves σ₀ s) (pa : Nat) (but : Option Nat) :
    Evolves σ₀ (State.conflict s pa but) := by
  unfold State.conflict
  repeat' (first | with_reducible assumption | with_reducible refine ev_ite3.mpr ⟨fun _ => ?_, fun _ => ?_⟩ | simp only [↓ev_mk, evk_eta])

theorem State.cribOwn_ev {σ₀ s : State} (hev : Evolves σ₀ s) (p : Nat) (e : Nat) (pa : Nat) :
    Evolves σ₀ (State.cribOwn s p e pa) := by
  unfold State.cribOwn
  repeat' (first | with_reducible assumption | with_reducible apply State.barnOwn_ev | with_reducible apply State.setWords_ev | with_reducible apply State.setCore_ev | with_reducible apply State.setSector_ev | with_reducible refine ev_ite.mpr ⟨fun _ => ?_, fun _ => ?_⟩ | with_reducible refine ev_ite3.mpr ⟨fun _ => ?_, fun _ => ?_⟩)

theorem State.agentOwn_ev {σ₀ s : State} (hev : Evolves σ₀ s) (pa : Nat) :
    Evolves σ₀ (State.agentOwn s pa) := by
  unfold State.agentOwn
  repeat' (first | with_reducible assumption | with_reducible apply State.llcTake_ev | with_reducible apply State.clearBarns_ev | with_reducible apply State.llcDirty_ev)

theorem State.ownBeyond_ev {σ₀ s : State} (hev : Evolves σ₀ s) (p : Nat) (pa : Nat) (first : Bool) :
    Evolves σ₀ (State.ownBeyond s p pa first) := by
  unfold State.ownBeyond
  repeat' (first | with_reducible assumption | with_reducible apply State.noAlloc_ev | with_reducible apply State.agentOwn_ev | with_reducible apply State.barnOwn_ev | (split <;> (try dsimp -iota only) <;> try (rename_i hq; obtain ⟨hq1, hq2⟩ := Prod.ext_iff.mp hq; dsimp only at hq2; subst hq2)) | with_reducible apply State.barnBring_ev)

theorem State.heldOwn_ev {σ₀ s : State} (hev : Evolves σ₀ s) (p : Nat) (pa : Nat) :
    Evolves σ₀ (State.heldOwn s p pa) := by
  unfold State.heldOwn
  repeat' (first | with_reducible assumption | with_reducible apply State.noAlloc_ev | with_reducible apply State.llcTake_ev | with_reducible apply State.clearBarns_ev | with_reducible apply State.barnTake_ev | with_reducible apply State.barnShow_ev | with_reducible apply State.cribTouch_ev | with_reducible apply State.snoop_ev | with_reducible apply State.setBarnSec_ev | (split <;> (try dsimp -iota only) <;> try (rename_i hq; obtain ⟨hq1, hq2⟩ := Prod.ext_iff.mp hq; dsimp only at hq2; subst hq2)) | dsimp -iota only | with_reducible apply State.barnBring_ev)

theorem State.coreOwn_ev {σ₀ s : State} (hev : Evolves σ₀ s) (p : Nat) (r : CribReq) (pa : Nat) :
    Evolves σ₀ (State.coreOwn s p r pa) := by
  unfold State.coreOwn
  repeat' (first | with_reducible assumption | with_reducible apply State.cribOwn_ev | with_reducible apply State.ownBeyond_ev | with_reducible refine ev_ite3.mpr ⟨fun _ => ?_, fun _ => ?_⟩ | (split <;> (try dsimp -iota only) <;> try (rename_i hq; obtain ⟨hq1, hq2⟩ := Prod.ext_iff.mp hq; dsimp only at hq2; subst hq2)) | with_reducible apply State.cribBring_ev)

theorem State.coreStore_ev {σ₀ s : State} (hev : Evolves σ₀ s) (p : Nat) (r : CribReq) (pa : Nat) (w : Word) :
    Evolves σ₀ (State.coreStore s p r pa w) := by
  unfold State.coreStore
  repeat' (first | with_reducible assumption | with_reducible apply State.coreOwn_ev | with_reducible apply State.conflict_ev | with_reducible apply State.setMemWord_ev)

theorem State.coreHeal_ev {σ₀ s : State} (hev : Evolves σ₀ s) (p : Nat) (pa : Nat) (w : Word) :
    Evolves σ₀ (State.coreHeal s p pa w) := by
  unfold State.coreHeal
  repeat' (first | with_reducible assumption | with_reducible apply State.coreOwn_ev | with_reducible apply State.setMemWord_ev)

theorem State.agentStore_ev {σ₀ s : State} (hev : Evolves σ₀ s) (pa : Nat) (w : Word) :
    Evolves σ₀ (State.agentStore s pa w) := by
  unfold State.agentStore
  repeat' (first | with_reducible assumption | with_reducible apply State.agentOwn_ev | with_reducible apply State.conflict_ev | with_reducible apply State.setMemWord_ev)

theorem State.agentHeal_ev {σ₀ s : State} (hev : Evolves σ₀ s) (pa : Nat) (w : Word) :
    Evolves σ₀ (State.agentHeal s pa w) := by
  unfold State.agentHeal
  repeat' (first | with_reducible assumption | with_reducible apply State.agentOwn_ev | with_reducible apply State.setMemWord_ev)

theorem State.atomicOr_ev {σ₀ s : State} (hev : Evolves σ₀ s) (pa : Nat) (v : BitVec 64) :
    Evolves σ₀ (State.atomicOr s pa v) := by
  unfold State.atomicOr
  repeat' (first | with_reducible assumption | with_reducible apply State.agentOwn_ev | with_reducible apply State.conflict_ev | with_reducible apply State.setMemWord_ev | with_reducible refine ev_ite.mpr ⟨fun _ => ?_, fun _ => ?_⟩ | with_reducible refine ev_ite3.mpr ⟨fun _ => ?_, fun _ => ?_⟩)

/-! Ctx. -/

theorem State.setRegs_ev {σ₀ s : State} (hev : Evolves σ₀ s) (r : Run) (x : Regs) (groups : BitVec 7) :
    Evolves σ₀ (State.setRegs s r x groups) := by
  unfold State.setRegs
  repeat' (first | with_reducible assumption | with_reducible apply State.setSlot_ev)

theorem State.setW_ev {σ₀ s : State} (hev : Evolves σ₀ s) (r : Run) (n : Nat) (v : Word) :
    Evolves σ₀ (State.setW s r n v) := by
  unfold State.setW
  repeat' (first | with_reducible assumption | with_reducible apply State.setRegs_ev)

theorem State.setStatus_ev {σ₀ s : State} (hev : Evolves σ₀ s) (r : Run) (v : BitVec 64) :
    Evolves σ₀ (State.setStatus s r v) := by
  unfold State.setStatus
  repeat' (first | with_reducible assumption | with_reducible apply State.setRegs_ev)

theorem State.setPc_ev {σ₀ s : State} (hev : Evolves σ₀ s) (r : Run) (v : BitVec 44) :
    Evolves σ₀ (State.setPc s r v) := by
  unfold State.setPc
  repeat' (first | with_reducible assumption | with_reducible apply State.setRegs_ev)

theorem State.fillBlocked_ev {σ₀ s : State} (hev : Evolves σ₀ s) (scn : Nat) :
    Evolves σ₀ (State.fillBlocked s scn) := by
  unfold State.fillBlocked
  repeat' (first | with_reducible assumption | with_reducible apply State.setCtx_ev | with_reducible apply State.event_ev | with_reducible refine ev_ite.mpr ⟨fun _ => ?_, fun _ => ?_⟩ | with_reducible refine ev_ite3.mpr ⟨fun _ => ?_, fun _ => ?_⟩ | simp only [↓ev_mk, evk_eta])

theorem State.demand_ev {σ₀ s : State} (hev : Evolves σ₀ s) (scn : Nat) :
    Evolves σ₀ (State.demand s scn) := by
  unfold State.demand
  repeat' (first | with_reducible assumption | with_reducible apply State.fillBlocked_ev | with_reducible refine ev_ite.mpr ⟨fun _ => ?_, fun _ => ?_⟩ | with_reducible refine ev_ite3.mpr ⟨fun _ => ?_, fun _ => ?_⟩)

theorem State.raiseVt_ev {σ₀ s : State} (hev : Evolves σ₀ s) (p : Nat) (level : Nat) (h : Nat) :
    Evolves σ₀ (State.raiseVt s p level h) := by
  unfold State.raiseVt
  repeat' (first | with_reducible assumption | with_reducible apply State.setCore_ev | with_reducible refine ev_ite3.mpr ⟨fun _ => ?_, fun _ => ?_⟩ | split | dsimp -iota only)

theorem State.writeControl_ev {σ₀ s : State} (hev : Evolves σ₀ s) (scn : Nat) :
    Evolves σ₀ (State.writeControl s scn) := by
  unfold State.writeControl
  repeat' (first | with_reducible assumption | with_reducible apply State.agentStore_ev)

theorem State.makeReady_ev {σ₀ s : State} (hev : Evolves σ₀ s) (scn : Nat) :
    Evolves σ₀ (State.makeReady s scn) := by
  unfold State.makeReady
  repeat' (first | with_reducible assumption | with_reducible apply State.setCtx_ev | with_reducible apply State.writeControl_ev | with_reducible apply State.demand_ev | with_reducible apply State.raiseVt_ev | with_reducible refine ev_ite.mpr ⟨fun _ => ?_, fun _ => ?_⟩ | with_reducible refine ev_ite3.mpr ⟨fun _ => ?_, fun _ => ?_⟩)

theorem State.chargeVt_ev {σ₀ s : State} (hev : Evolves σ₀ s) (p : Nat) (level : Nat) (h : Nat) :
    Evolves σ₀ (State.chargeVt s p level h) := by
  unfold State.chargeVt
  repeat' (first | with_reducible assumption | with_reducible apply State.setCore_ev | with_reducible refine ev_ite.mpr ⟨fun _ => ?_, fun _ => ?_⟩ | with_reducible refine ev_ite3.mpr ⟨fun _ => ?_, fun _ => ?_⟩ | with_reducible apply State.freeNat_ev)

theorem State.leaveCore_ev {σ₀ s : State} (hev : Evolves σ₀ s) (p : Nat) :
    Evolves σ₀ (State.leaveCore s p) := by
  unfold State.leaveCore
  repeat' (first | with_reducible assumption | with_reducible apply State.chargeVt_ev | with_reducible apply State.setCore_ev | split | simp only [↓ev_mk, evk_eta])

theorem State.haltSlot_ev {σ₀ s : State} (hev : Evolves σ₀ s) (p : Nat) (hall : Nat) (scn : Nat) (reason : Nat) :
    Evolves σ₀ (State.haltSlot s p hall scn reason) := by
  unfold State.haltSlot
  repeat' (first | with_reducible assumption | with_reducible apply State.setCore_ev | with_reducible apply State.note_ev)

theorem State.coreFails_ev {σ₀ s : State} (hev : Evolves σ₀ s) (p : Nat) :
    Evolves σ₀ (State.coreFails s p) := by
  unfold State.coreFails
  repeat' (first | with_reducible assumption | with_reducible apply State.haltSlot_ev | with_reducible refine ev_ite3.mpr ⟨fun _ => ?_, fun _ => ?_⟩ | split)

theorem State.alertMask_ev {σ₀ s : State} (hev : Evolves σ₀ s) (scn : Nat) :
    Evolves σ₀ (State.alertMask s scn).2 := by
  unfold State.alertMask
  repeat' (first | with_reducible assumption | (split <;> (try dsimp -iota only) <;> try (rename_i hq; obtain ⟨hq1, hq2⟩ := Prod.ext_iff.mp hq; dsimp only at hq2; subst hq2)) | dsimp -iota only | with_reducible apply State.agentLoad_ev)

theorem State.dropSpec_ev {σ₀ s : State} (hev : Evolves σ₀ s) (i : Nat) (reason : Nat) :
    Evolves σ₀ (State.dropSpec s i reason) := by
  unfold State.dropSpec
  repeat' (first | with_reducible assumption | with_reducible apply State.setReg_ev | with_reducible apply State.setGal_ev)

theorem State.noteDiscard_ev {σ₀ s : State} (hev : Evolves σ₀ s) (g : GalRec) (i : Nat) (reason : Nat) :
    Evolves σ₀ (State.noteDiscard s g i reason) := by
  unfold State.noteDiscard
  repeat' (first | with_reducible assumption | with_reducible apply State.note_ev | with_reducible apply State.event_ev | with_reducible refine ev_ite.mpr ⟨fun _ => ?_, fun _ => ?_⟩ | with_reducible refine ev_ite3.mpr ⟨fun _ => ?_, fun _ => ?_⟩)

theorem State.restoreSpec_ev {σ₀ s : State} (hev : Evolves σ₀ s) (i : Nat) (reason : Nat) :
    Evolves σ₀ (State.restoreSpec s i reason) := by
  unfold State.restoreSpec
  repeat' (first | with_reducible assumption | with_reducible apply State.dropSpec_ev | with_reducible apply State.setSlot_ev | with_reducible apply State.setCtx_ev | with_reducible apply State.noteDiscard_ev)

theorem State.alertActs_ev {σ₀ s : State} (hev : Evolves σ₀ s) (scn : Nat) :
    Evolves σ₀ (State.alertActs s scn) := by
  unfold State.alertActs
  repeat' (first | with_reducible assumption | with_reducible apply State.restoreSpec_ev | with_reducible apply State.makeReady_ev | with_reducible refine ev_ite3.mpr ⟨fun _ => ?_, fun _ => ?_⟩ | split | dsimp -iota only)

theorem State.alertCore_ev {σ₀ s : State} (hev : Evolves σ₀ s) (scn : Nat) (code : Nat) (w : Word) :
    Evolves σ₀ (State.alertCore s scn code w) := by
  unfold State.alertCore
  repeat' (first | with_reducible assumption | with_reducible apply State.note_ev | with_reducible apply State.setCtx_ev | with_reducible apply State.alertActs_ev | with_reducible refine ev_ite.mpr ⟨fun _ => ?_, fun _ => ?_⟩ | with_reducible apply State.alertMask_ev)

theorem State.refuseWrite_ev {σ₀ s : State} (hev : Evolves σ₀ s) (who : Initiator) (off : Nat) :
    Evolves σ₀ (State.refuseWrite s who off) := by
  unfold State.refuseWrite
  repeat' (first | with_reducible assumption | with_reducible apply State.note_ev)

theorem State.countRsv_ev {σ₀ s : State} (hev : Evolves σ₀ s) (source : Nat) (last : Nat) :
    Evolves σ₀ (State.countRsv s source last) := by
  unfold State.countRsv
  repeat' (first | with_reducible assumption | with_reducible apply State.setReg_ev)

/-! Barrier. -/

theorem State.gread_ev {σ₀ s : State} (hev : Evolves σ₀ s) (a : Agent) (pa : Nat) :
    Evolves σ₀ (State.gread s a pa).2 := by
  unfold State.gread
  repeat' (first | with_reducible assumption | split | with_reducible apply State.heldLoad_ev | with_reducible apply State.agentLoad_ev)

theorem State.gwrite_ev {σ₀ s : State} (hev : Evolves σ₀ s) (a : Agent) (pa : Nat) (w : Word) :
    Evolves σ₀ (State.gwrite s a pa w) := by
  unfold State.gwrite
  repeat' (first | with_reducible assumption | with_reducible apply State.coreHeal_ev | with_reducible apply State.agentHeal_ev | split)

theorem State.giveBin_ev {σ₀ s : State} (hev : Evolves σ₀ s) (n : Nat) (h : Nat) (k : BinKind) (st : BinState) (age : Nat) :
    Evolves σ₀ (State.giveBin s n h k st age) := by
  unfold State.giveBin
  repeat' (first | with_reducible assumption | with_reducible apply State.setBin_ev | with_reducible apply State.note_ev | with_reducible apply State.event_ev | with_reducible refine ev_ite.mpr ⟨fun _ => ?_, fun _ => ?_⟩ | with_reducible refine ev_ite3.mpr ⟨fun _ => ?_, fun _ => ?_⟩)

theorem State.freeBin_ev {σ₀ s : State} (hev : Evolves σ₀ s) (n : Nat) :
    Evolves σ₀ (State.freeBin s n) := by
  unfold State.freeBin
  repeat' (first | with_reducible assumption | with_reducible apply State.setBin_ev | with_reducible apply State.note_ev | with_reducible apply State.event_ev | with_reducible refine ev_ite.mpr ⟨fun _ => ?_, fun _ => ?_⟩ | with_reducible refine ev_ite3.mpr ⟨fun _ => ?_, fun _ => ?_⟩)

theorem State.takeBin_ev {σ₀ s : State} (hev : Evolves σ₀ s) (h : Nat) (k : BinKind) (st : BinState) (age : Nat) :
    Evolves σ₀ (State.takeBin s h k st age).2 := by
  unfold State.takeBin
  repeat' (first | with_reducible assumption | with_reducible apply State.giveBin_ev | (split <;> (try dsimp -iota only) <;> try (rename_i hq; obtain ⟨hq1, hq2⟩ := Prod.ext_iff.mp hq; dsimp only at hq2; subst hq2)) | with_reducible apply State.freeNat_ev)

theorem State.startObj_ev {σ₀ s : State} (hev : Evolves σ₀ s) (pa : Nat) (ty : Nat) :
    Evolves σ₀ (State.startObj s pa ty) := by
  unfold State.startObj
  repeat' (first | with_reducible assumption | with_reducible apply State.setBin_ev | simp only [↓ev_mk, evk_eta] | dsimp -iota only | with_reducible trivial)

theorem State.markObj_ev {σ₀ s : State} (hev : Evolves σ₀ s) (a : Agent) (h : Nat) (pa : Nat) (ty : Nat) :
    Evolves σ₀ (State.markObj s a h pa ty).2 := by
  unfold State.markObj
  repeat' (first | with_reducible assumption | with_reducible apply State.setGl_ev | with_reducible apply State.gwrite_ev | with_reducible refine ev_ite3.mpr ⟨fun _ => ?_, fun _ => ?_⟩ | (split <;> (try dsimp -iota only) <;> try (rename_i hq; obtain ⟨hq1, hq2⟩ := Prod.ext_iff.mp hq; dsimp only at hq2; subst hq2)) | with_reducible apply State.gread_ev)

theorem State.makeStay_ev {σ₀ s : State} (hev : Evolves σ₀ s) (h : Nat) (pa : Nat) :
    Evolves σ₀ (State.makeStay s h pa) := by
  unfold State.makeStay
  repeat' (first | with_reducible assumption | with_reducible apply State.setGl_ev | with_reducible apply State.setBin_ev)

theorem State.copyDest_ev {σ₀ s : State} (hev : Evolves σ₀ s) (h : Nat) (k : BinKind) (age : Nat) (size : Nat) :
    Evolves σ₀ (State.copyDest s h k age size).2 := by
  unfold State.copyDest
  repeat' (first | with_reducible assumption | with_reducible apply State.setBin_ev | with_reducible refine ev_ite3.mpr ⟨fun _ => ?_, fun _ => ?_⟩ | (split <;> (try dsimp -iota only) <;> try (rename_i hq; obtain ⟨hq1, hq2⟩ := Prod.ext_iff.mp hq; dsimp only at hq2; subst hq2)) | with_reducible apply State.takeBin_ev)

theorem State.copyWords_ev {σ₀ s : State} (hev : Evolves σ₀ s) (a : Agent) (src : Nat) (dst : Nat) (a0 : Nat) :
    Evolves σ₀ (State.copyWords s a src dst a0) := by
  induction a0 generalizing s a src dst <;> unfold State.copyWords <;> repeat' (first | with_reducible assumption | with_reducible apply State.gwrite_ev | (split <;> (try dsimp -iota only) <;> try (rename_i hq; obtain ⟨hq1, hq2⟩ := Prod.ext_iff.mp hq; dsimp only at hq2; subst hq2)) | with_reducible apply State.gread_ev | with_reducible apply_assumption)

theorem State.cacheReloc_ev {σ₀ s : State} (hev : Evolves σ₀ s) (a : Agent) (h : Nat) (old : Nat) (dest : Nat) :
    Evolves σ₀ (State.cacheReloc s a h old dest) := by
  unfold State.cacheReloc
  repeat' (first | with_reducible assumption | with_reducible apply State.setCore_ev | with_reducible apply State.take_ev | split)

theorem State.finishCopy_ev {σ₀ s : State} (hev : Evolves σ₀ s) (a : Agent) (h : Nat) (pa : Nat) (dest : Nat) (ty : Nat) (hdr : Word) :
    Evolves σ₀ (State.finishCopy s a h pa dest ty hdr) := by
  unfold State.finishCopy
  repeat' (first | with_reducible assumption | with_reducible apply State.copyWords_ev | with_reducible apply State.gwrite_ev | with_reducible apply State.setGl_ev | with_reducible apply State.startObj_ev | with_reducible apply State.cacheReloc_ev | with_reducible refine ev_ite.mpr ⟨fun _ => ?_, fun _ => ?_⟩)

theorem State.resolve_ev {σ₀ s : State} (hev : Evolves σ₀ s) (a : Agent) (h : Nat) (pa : Nat) (ty : Nat) (copying : Bool) :
    Evolves σ₀ (State.resolve s a h pa ty copying).2 := by
  unfold State.resolve
  repeat' (first | with_reducible assumption | with_reducible apply State.cacheReloc_ev | with_reducible apply State.finishCopy_ev | with_reducible apply State.makeStay_ev | with_reducible apply State.promote_ev | with_reducible refine ev_ite3.mpr ⟨fun _ => ?_, fun _ => ?_⟩ | (split <;> (try dsimp -iota only) <;> try (rename_i hq; obtain ⟨hq1, hq2⟩ := Prod.ext_iff.mp hq; dsimp only at hq2; subst hq2)) | with_reducible apply State.gread_ev | with_reducible apply State.copyDest_ev)

theorem State.partCopy_ev {σ₀ s : State} (hev : Evolves σ₀ s) (a : Agent) (h : Nat) (pa : Nat) (dest : Nat) (n : Nat) :
    Evolves σ₀ (State.partCopy s a h pa dest n) := by
  unfold State.partCopy
  repeat' (first | with_reducible assumption | with_reducible apply State.copyWords_ev | with_reducible apply State.setGl_ev | simp only [↓ev_mk, evk_eta] | dsimp -iota only | with_reducible trivial)

theorem State.restamp_ev {σ₀ s : State} (hev : Evolves σ₀ s) (a : Agent) (h : Nat) (p : Word) (q : Nat) :
    Evolves σ₀ (State.restamp s a h p q).2 := by
  unfold State.restamp
  repeat' (first | with_reducible assumption | (split <;> (try dsimp -iota only) <;> try (rename_i hq; obtain ⟨hq1, hq2⟩ := Prod.ext_iff.mp hq; dsimp only at hq2; subst hq2)) | with_reducible apply State.markObj_ev)

theorem State.repair_ev {σ₀ s : State} (hev : Evolves σ₀ s) (a : Agent) (h : Nat) (p : Word) (copying : Bool) :
    Evolves σ₀ (State.repair s a h p copying).2 := by
  unfold State.repair
  repeat' (first | with_reducible assumption | with_reducible apply State.finishCopy_ev | (split <;> (try dsimp -iota only) <;> try (rename_i hq; obtain ⟨hq1, hq2⟩ := Prod.ext_iff.mp hq; dsimp only at hq2; subst hq2)) | with_reducible apply State.resolve_ev | with_reducible apply State.restamp_ev)

theorem State.checkPtr_ev {σ₀ s : State} (hev : Evolves σ₀ s) (a : Agent) (h : Nat) (w : Word) (copying : Bool) :
    Evolves σ₀ (State.checkPtr s a h w copying).2 := by
  unfold State.checkPtr
  repeat' (first | with_reducible assumption | with_reducible refine ev_ite3.mpr ⟨fun _ => ?_, fun _ => ?_⟩ | (split <;> (try dsimp -iota only) <;> try (rename_i hq; obtain ⟨hq1, hq2⟩ := Prod.ext_iff.mp hq; dsimp only at hq2; subst hq2)) | with_reducible apply State.repair_ev)

theorem State.poisonStale_ev {σ₀ s : State} (hev : Evolves σ₀ s) (h : Nat) (scn : Nat) (addr : Nat) (reason : Nat) :
    Evolves σ₀ (State.poisonStale s h scn addr reason).2 := by
  unfold State.poisonStale
  repeat' (first | with_reducible assumption | (split <;> (try dsimp -iota only) <;> try (rename_i hq; obtain ⟨hq1, hq2⟩ := Prod.ext_iff.mp hq; dsimp only at hq2; subst hq2)) | with_reducible apply State.report_ev)

theorem State.takeIn_ev {σ₀ s : State} (hev : Evolves σ₀ s) (a : Agent) (h : Nat) (scn : Nat) (pa : Nat) (w : Word) (heal : Bool) :
    Evolves σ₀ (State.takeIn s a h scn pa w heal).2.2 := by
  unfold State.takeIn
  repeat' (first | with_reducible assumption | with_reducible apply State.gwrite_ev | with_reducible refine ev_ite3.mpr ⟨fun _ => ?_, fun _ => ?_⟩ | (split <;> (try dsimp -iota only) <;> try (rename_i hq; obtain ⟨hq1, hq2⟩ := Prod.ext_iff.mp hq; dsimp only at hq2; subst hq2)) | with_reducible apply State.checkPtr_ev | with_reducible apply State.poisonStale_ev)

theorem State.convert_ev {σ₀ s : State} (hev : Evolves σ₀ s) (a : Agent) (h : Nat) (v : Word) :
    Evolves σ₀ (State.convert s a h v).2 := by
  unfold State.convert
  repeat' (first | with_reducible assumption | with_reducible refine ev_ite2.mpr ⟨fun _ => ?_, fun _ => ?_⟩ | with_reducible refine ev_ite3.mpr ⟨fun _ => ?_, fun _ => ?_⟩ | with_reducible apply State.repair_ev)

theorem State.logSpace_ev {σ₀ s : State} (hev : Evolves σ₀ s) (h : Nat) :
    Evolves σ₀ (State.logSpace s h).2 := by
  unfold State.logSpace
  repeat' (first | with_reducible assumption | with_reducible apply State.snapshot_ev | with_reducible apply State.setGl_ev | with_reducible refine ev_ite3.mpr ⟨fun _ => ?_, fun _ => ?_⟩ | (split <;> (try dsimp -iota only) <;> try (rename_i hq; obtain ⟨hq1, hq2⟩ := Prod.ext_iff.mp hq; dsimp only at hq2; subst hq2)) | with_reducible apply State.takeBin_ev)

theorem State.drainBuf_ev {σ₀ s : State} (hev : Evolves σ₀ s) (a0 : List (Nat × LogEntry)) :
    Evolves σ₀ (State.drainBuf s a0).2 := by
  induction a0 generalizing s with
  | nil => exact hev
  | cons e l ih =>
    obtain ⟨h, e⟩ := e
    have hl := State.logSpace_ev hev h
    unfold State.drainBuf
    generalize s.logSpace h = q at hl ⊢
    obtain ⟨b, t⟩ := q
    cases b with
    | true => exact ih (State.setGl_ev hl _ _)
    | false => exact hl

theorem State.emptyLog_ev {σ₀ s : State} (hev : Evolves σ₀ s) (p : Nat) :
    Evolves σ₀ (State.emptyLog s p) := by
  unfold State.emptyLog
  repeat' (first | with_reducible assumption | with_reducible apply State.setCore_ev | with_reducible refine ev_ite.mpr ⟨fun _ => ?_, fun _ => ?_⟩ | with_reducible refine ev_ite3.mpr ⟨fun _ => ?_, fun _ => ?_⟩ | with_reducible apply State.drainBuf_ev)

theorem State.emptyLogs_ev {σ₀ s : State} (hev : Evolves σ₀ s) :
    Evolves σ₀ (State.emptyLogs s) := by
  unfold State.emptyLogs
  repeat' (first | with_reducible assumption | with_reducible apply State.emptyLog_ev | with_reducible refine ev_foldl' _ _ ?_ (fun _ _ _ => ?_))

theorem State.logStore_ev {σ₀ s : State} (hev : Evolves σ₀ s) (a : Agent) (h : Nat) (pa : Nat) (v : Word) (o : Word) :
    Evolves σ₀ (State.logStore s a h pa v o) := by
  unfold State.logStore
  repeat' (first | with_reducible assumption | with_reducible apply State.setGl_ev | with_reducible apply State.setCore_ev | with_reducible apply State.emptyLog_ev | with_reducible refine ev_ite3.mpr ⟨fun _ => ?_, fun _ => ?_⟩ | split | dsimp -iota only)

theorem State.storeLogged_ev {σ₀ s : State} (hev : Evolves σ₀ s) (a : Agent) (req : CribReq) (h : Nat) (pa : Nat) (v : Word) (w : Word) (bar : Bool) :
    Evolves σ₀ (State.storeLogged s a req h pa v w bar) := by
  unfold State.storeLogged
  repeat' (first | with_reducible assumption | with_reducible apply State.coreOwn_ev | with_reducible apply State.agentOwn_ev | with_reducible apply State.logStore_ev | with_reducible apply State.conflict_ev | with_reducible apply State.setMemWord_ev | with_reducible refine ev_ite3.mpr ⟨fun _ => ?_, fun _ => ?_⟩ | split)

theorem State.storeAs_ev {σ₀ s : State} (hev : Evolves σ₀ s) (a : Agent) (req : CribReq) (h : Nat) (pa : Nat) (v : Word) (bar : Bool) :
    Evolves σ₀ (State.storeAs s a req h pa v bar) := by
  unfold State.storeAs
  repeat' (first | with_reducible assumption | with_reducible apply State.storeLogged_ev)

/-! Spec. -/

theorem State.hiwater_ev {σ₀ s : State} (hev : Evolves σ₀ s) (b : Nat) :
    Evolves σ₀ (State.hiwater s b) := by
  unfold State.hiwater
  repeat' (first | with_reducible assumption | with_reducible apply State.setRf_ev | with_reducible refine ev_ite.mpr ⟨fun _ => ?_, fun _ => ?_⟩ | with_reducible refine ev_ite3.mpr ⟨fun _ => ?_, fun _ => ?_⟩)

theorem State.takeLine_ev {σ₀ s : State} (hev : Evolves σ₀ s) (i : Nat) (pa : Nat) :
    OptEv σ₀ (State.takeLine s i pa) := by
  unfold State.takeLine
  repeat' (first | with_reducible assumption | with_reducible apply State.setGal_ev | with_reducible apply State.hiwater_ev | with_reducible exact ev_none | with_reducible refine ev_some ?_ | with_reducible refine ev_ite3.mpr ⟨fun _ => ?_, fun _ => ?_⟩ | split | dsimp -iota only)

theorem State.countStall_ev {σ₀ s : State} (hev : Evolves σ₀ s) (h : Nat) :
    Evolves σ₀ (State.countStall s h) := by
  unfold State.countStall
  repeat' (first | with_reducible assumption | with_reducible apply State.bumpRf_ev)

theorem State.setR_ev {σ₀ s : State} (hev : Evolves σ₀ s) (i : Nat) (pa : Nat) :
    Evolves σ₀ (State.setR s i pa) := by
  unfold State.setR
  repeat' (first | with_reducible assumption | with_reducible apply State.setGal_ev | split | dsimp -iota only)

theorem State.setTentative_ev {σ₀ s : State} (hev : Evolves σ₀ s) (i : Nat) (pa : Nat) (w : Word) :
    Evolves σ₀ (State.setTentative s i pa w) := by
  unfold State.setTentative
  repeat' (first | with_reducible assumption | with_reducible apply State.setGal_ev | split | dsimp -iota only)

theorem State.clearSpeck_ev {σ₀ s : State} (hev : Evolves σ₀ s) (scn : Nat) :
    Evolves σ₀ (State.clearSpeck s scn) := by
  unfold State.clearSpeck
  repeat' (first | with_reducible assumption | with_reducible apply State.setSlot_ev)

theorem State.retireWait_ev {σ₀ s : State} (hev : Evolves σ₀ s) (scn : Nat) (width : Nat) :
    Evolves σ₀ (State.retireWait s scn width) := by
  unfold State.retireWait
  repeat' (first | with_reducible assumption | with_reducible apply State.setSlot_ev | with_reducible apply State.alertCore_ev | with_reducible refine ev_ite.mpr ⟨fun _ => ?_, fun _ => ?_⟩ | with_reducible refine ev_ite3.mpr ⟨fun _ => ?_, fun _ => ?_⟩)

theorem State.commitCtx_ev {σ₀ s : State} (hev : Evolves σ₀ s) (scn : Nat) :
    Evolves σ₀ (State.commitCtx s scn) := by
  unfold State.commitCtx
  repeat' (first | with_reducible assumption | with_reducible apply State.clearSpeck_ev | with_reducible apply State.makeReady_ev | with_reducible apply State.retireWait_ev | with_reducible refine ev_ite3.mpr ⟨fun _ => ?_, fun _ => ?_⟩ | split | dsimp -iota only)

theorem State.publishWords_ev {σ₀ s : State} (hev : Evolves σ₀ s) (i : Nat) (h : Nat) (scn : Nat) (a0 : List (Nat × Word)) :
    Evolves σ₀ (State.publishWords s i h scn a0) := by
  induction a0 generalizing s with
  | nil => exact hev
  | cons e l ih =>
    obtain ⟨pa, w⟩ := e
    unfold State.publishWords
    have key : Evolves σ₀ (if w.isPtr then
        (s.agentOwn pa).logStore .engine h pa w ((s.agentOwn pa).memWord pa) else s.agentOwn pa) := by
      split
      · exact State.logStore_ev (State.agentOwn_ev hev _) _ _ _ _ _
      · exact State.agentOwn_ev hev _
    extract_lets u v
    have hc := State.checkPtr_ev (s := v) key .engine h w true
    clear_value v
    generalize v.checkPtr .engine h w true = q at hc ⊢
    obtain ⟨x, t⟩ := q
    rcases x with - | y | k
    · exact ih (State.setMemWord_ev (State.conflict_ev (State.agentOwn_ev hc _) _ _) _ _)
    · exact ih (State.setMemWord_ev (State.conflict_ev (State.agentOwn_ev hc _) _ _) _ _)
    · exact ih (State.setMemWord_ev (State.conflict_ev (State.agentOwn_ev
        (State.poisonStale_ev hc h scn pa k) _) _ _) _ _)

theorem State.commitSpec_ev {σ₀ s : State} (hev : Evolves σ₀ s) (i : Nat) :
    Evolves σ₀ (State.commitSpec s i) := by
  unfold State.commitSpec
  repeat' (first | with_reducible assumption | with_reducible apply State.setGal_ev | with_reducible apply State.publishWords_ev | with_reducible apply State.atomicOr_ev | with_reducible apply State.bumpRf_ev | with_reducible apply State.commitCtx_ev | with_reducible refine ev_ite3.mpr ⟨fun _ => ?_, fun _ => ?_⟩ | split)

theorem State.discardSpec_ev {σ₀ s : State} (hev : Evolves σ₀ s) (i : Nat) (reason : Nat) :
    Evolves σ₀ (State.discardSpec s i reason) := by
  unfold State.discardSpec
  repeat' (first | with_reducible assumption | with_reducible apply State.restoreSpec_ev | with_reducible apply State.leaveCore_ev | with_reducible apply State.makeReady_ev | with_reducible refine ev_ite.mpr ⟨fun _ => ?_, fun _ => ?_⟩ | with_reducible refine ev_ite3.mpr ⟨fun _ => ?_, fun _ => ?_⟩)

theorem State.cutSpec_ev {σ₀ s : State} (hev : Evolves σ₀ s) (i : Nat) (reason : Nat) :
    Evolves σ₀ (State.cutSpec s i reason) := by
  unfold State.cutSpec
  repeat' (first | with_reducible assumption | with_reducible apply State.dropSpec_ev | with_reducible apply State.noteDiscard_ev)

theorem State.checkSpec_ev {σ₀ s : State} (hev : Evolves σ₀ s) (i : Nat) :
    Evolves σ₀ (State.checkSpec s i) := by
  unfold State.checkSpec
  repeat' (first | with_reducible assumption | with_reducible apply State.agentOwn_ev | with_reducible apply State.conflict_ev | with_reducible apply State.discardSpec_ev | with_reducible apply State.commitSpec_ev | with_reducible refine ev_foldl' _ _ ?_ (fun _ _ _ => ?_) | with_reducible refine ev_ite.mpr ⟨fun _ => ?_, fun _ => ?_⟩ | with_reducible refine ev_ite3.mpr ⟨fun _ => ?_, fun _ => ?_⟩)

/-! Translate. -/

theorem Res.bind_ev {α β : Type} {σ₀  : State} (x : Res α) (f : α → State → Res β) (hx0 : (x).Ev σ₀) (hx1 : ∀ x0 x1, Evolves σ₀ x1 → (f x0 x1).Ev σ₀) :
    (Res.bind x f).Ev σ₀ := by
  unfold Res.bind
  repeat' (first | with_reducible assumption | with_reducible refine Res.ev_ok ?_ | with_reducible refine Res.ev_trap ?_ | with_reducible refine Res.ev_hold ?_ | with_reducible refine Res.ev_stop ?_ | split | with_reducible apply_assumption)

/-! Flags. -/

theorem State.setCc_ev {σ₀ s : State} (hev : Evolves σ₀ s) (r : Run) (cc : Nat) :
    Evolves σ₀ (State.setCc s r cc) := by
  unfold State.setCc
  repeat' (first | with_reducible assumption | with_reducible apply State.setStatus_ev)

theorem State.setRes_ev {σ₀ s : State} (hev : Evolves σ₀ s) (r : Run) (b : Bool) :
    Evolves σ₀ (State.setRes s r b) := by
  unfold State.setRes
  repeat' (first | with_reducible assumption | with_reducible apply State.setStatus_ev)

/-! Micro. -/

theorem State.freeWord_ev {σ₀ s : State} (hev : Evolves σ₀ s) :
    Evolves σ₀ (State.freeWord s).2 := by
  unfold State.freeWord
  repeat' (first | with_reducible assumption | (split <;> (try dsimp -iota only) <;> try (rename_i hq; obtain ⟨hq1, hq2⟩ := Prod.ext_iff.mp hq; dsimp only at hq2; subst hq2)) | with_reducible apply State.freeNat_ev)

theorem State.newSegment_ev {σ₀ s : State} (hev : Evolves σ₀ s) (m : Sequencer) :
    Evolves σ₀ (State.newSegment s m).2 := by
  unfold State.newSegment
  repeat' (first | with_reducible assumption | (split <;> (try dsimp -iota only) <;> try (rename_i hq; obtain ⟨hq1, hq2⟩ := Prod.ext_iff.mp hq; dsimp only at hq2; subst hq2)) | with_reducible apply State.freeNat_ev)

theorem State.microFetch_ev {σ₀ s : State} (hev : Evolves σ₀ s) (p : Nat) (m : Sequencer) (a : Nat) :
    Evolves σ₀ (State.microFetch s p m a).2.2 := by
  unfold State.microFetch
  repeat' (first | with_reducible assumption | with_reducible apply State.note_ev | with_reducible refine ev_ite3.mpr ⟨fun _ => ?_, fun _ => ?_⟩ | split)

theorem State.setMicroLw_ev {σ₀ s : State} (hev : Evolves σ₀ s) (r : Run) (k : Nat) (j : Nat) (w : Word) :
    Evolves σ₀ (State.setMicroLw s r k j w) := by
  unfold State.setMicroLw
  repeat' (first | with_reducible assumption | with_reducible apply State.setCore_ev | with_reducible apply State.setRegs_ev | with_reducible refine ev_ite.mpr ⟨fun _ => ?_, fun _ => ?_⟩ | with_reducible refine ev_ite3.mpr ⟨fun _ => ?_, fun _ => ?_⟩)

theorem State.microRead_ev {σ₀ s : State} (hev : Evolves σ₀ s) (r : Run) (m : Sequencer) (n : Nat) :
    Evolves σ₀ (State.microRead s r m n).2.2 := by
  unfold State.microRead
  repeat' (first | with_reducible assumption | with_reducible refine ev_ite3.mpr ⟨fun _ => ?_, fun _ => ?_⟩ | (split <;> (try dsimp -iota only) <;> try (rename_i hq; obtain ⟨hq1, hq2⟩ := Prod.ext_iff.mp hq; dsimp only at hq2; subst hq2)) | with_reducible apply State.freeWord_ev)

theorem State.microWrite_ev {σ₀ s : State} (hev : Evolves σ₀ s) (r : Run) (m : Sequencer) (n : Nat) (w : Word) :
    Evolves σ₀ (State.microWrite s r m n w).2 := by
  unfold State.microWrite
  repeat' (first | with_reducible assumption | with_reducible apply State.setRegs_ev | with_reducible apply State.setMicroLw_ev | with_reducible apply State.setPc_ev | with_reducible apply State.setStatus_ev | with_reducible refine ev_ite2.mpr ⟨fun _ => ?_, fun _ => ?_⟩ | with_reducible refine ev_ite3.mpr ⟨fun _ => ?_, fun _ => ?_⟩)

theorem State.microStore_ev {σ₀ s : State} (hev : Evolves σ₀ s) (r : Run) (k : Routine) (pa : Nat) (w : Word) :
    Evolves σ₀ (State.microStore s r k pa w) := by
  unfold State.microStore
  repeat' (first | with_reducible assumption | with_reducible apply State.plain_ev | with_reducible apply State.coreHeal_ev | with_reducible apply State.coreStore_ev | with_reducible apply State.setTentative_ev | split)

theorem State.microLoad_ev {σ₀ s : State} (hev : Evolves σ₀ s) (r : Run) (k : Routine) (pa : Nat) :
    Evolves σ₀ (State.microLoad s r k pa).2 := by
  unfold State.microLoad
  repeat' (first | with_reducible assumption | with_reducible apply State.setR_ev | with_reducible refine ev_ite.mpr ⟨fun _ => ?_, fun _ => ?_⟩ | split | with_reducible apply State.heldLoad_ev)

theorem State.microLine_ev {σ₀ s : State} (hev : Evolves σ₀ s) (r : Run) (k : Routine) (pa : Nat) :
    OptEv σ₀ (State.microLine s r k pa) := by
  unfold State.microLine
  repeat' (first | with_reducible assumption | with_reducible apply State.takeLine_ev | with_reducible refine ev_some ?_ | split)

theorem State.microHold_ev {σ₀ s : State} (hev : Evolves σ₀ s) (r : Run) (k : Routine) (m : Sequencer) (addr : BitVec 64)
    (store : Bool) (next : Nat) : Evolves σ₀ (State.microHold s r k m addr store next).2.2 := by
  unfold State.microHold
  dsimp only
  refine ev_ite3.mpr ⟨fun _ => hev, fun _ => ev_ite3.mpr ⟨fun _ => hev, fun _ => ev_ite3.mpr
    ⟨fun _ => State.freeNat_ev hev, fun _ => ?_⟩⟩⟩
  split
  · exact hev
  · refine ev_ite3.mpr ⟨fun _ => hev, fun _ => ?_⟩
    split
    · exact State.countStall_ev hev _
    · rename_i h
      have h1 := (State.microLine_ev hev r k _).of h
      exact ev_ite.mpr ⟨fun _ => State.heldOwn_ev h1 _ _, fun _ => State.heldLoad_ev h1 _ _⟩

theorem State.microHeld_ev {σ₀ s : State} (hev : Evolves σ₀ s) (r : Run) (k : Routine) (m : Sequencer) (w : Microword) (addr : Nat) (x : Word) :
    Evolves σ₀ (State.microHeld s r k m w addr x).2.2 := by
  unfold State.microHeld
  repeat' (first | with_reducible assumption | with_reducible apply State.microStore_ev | with_reducible refine ev_ite3.mpr ⟨fun _ => ?_, fun _ => ?_⟩ | (split <;> (try dsimp -iota only) <;> try (rename_i hq; obtain ⟨hq1, hq2⟩ := Prod.ext_iff.mp hq; dsimp only at hq2; subst hq2)) | with_reducible apply State.microLoad_ev | with_reducible apply State.microWrite_ev)

theorem State.microWalk_ev {σ₀ s : State} (hev : Evolves σ₀ s) (r : Run) (m : Sequencer) (a : BitVec 64) :
    Evolves σ₀ (State.microWalk s r m a).2 := by
  unfold State.microWalk
  repeat' (first | with_reducible assumption | with_reducible refine ev_ite3.mpr ⟨fun _ => ?_, fun _ => ?_⟩ | (split <;> (try dsimp -iota only) <;> try (rename_i hq; obtain ⟨hq1, hq2⟩ := Prod.ext_iff.mp hq; dsimp only at hq2; subst hq2)) | with_reducible apply State.freeWord_ev | with_reducible apply State.coreLoad_ev)

theorem State.microEvent_ev {σ₀ s : State} (hev : Evolves σ₀ s) (r : Run) (kind : Nat) :
    Evolves σ₀ (State.microEvent s r kind) := by
  unfold State.microEvent
  repeat' (first | with_reducible assumption | with_reducible apply State.event_ev | dsimp -iota only | with_reducible trivial)

theorem State.microStep_ev {σ₀ s : State} (hev : Evolves σ₀ s) (r : Run) (k : Routine) (m : Sequencer) (w : Microword) :
    Evolves σ₀ (State.microStep s r k m w).2.2 := by
  unfold State.microStep
  repeat' (first | with_reducible assumption | with_reducible apply State.setMicroLw_ev | with_reducible apply State.microEvent_ev | with_reducible refine ev_ite3.mpr ⟨fun _ => ?_, fun _ => ?_⟩ | (split <;> (try dsimp -iota only) <;> try (rename_i hq; obtain ⟨hq1, hq2⟩ := Prod.ext_iff.mp hq; dsimp only at hq2; first | subst hq2 | (obtain ⟨hq3, hq4⟩ := Prod.ext_iff.mp hq2; dsimp only at hq4; first | subst hq4 | (obtain ⟨hq5, hq6⟩ := Prod.ext_iff.mp hq4; dsimp only at hq6; first | subst hq6 | (obtain ⟨hq7, hq8⟩ := Prod.ext_iff.mp hq6; dsimp only at hq8; subst hq8))))) | with_reducible apply State.microRead_ev | with_reducible apply State.freeNat_ev | with_reducible apply State.microWrite_ev | with_reducible apply State.microHold_ev | with_reducible apply State.microHeld_ev | with_reducible apply State.microWalk_ev)

theorem State.microOne_ev {σ₀ s : State} (hev : Evolves σ₀ s) (r : Run) (k : Routine) (m : Sequencer) (a : Nat) :
    Evolves σ₀ (State.microOne s r k m a).2.2.2 := by
  unfold State.microOne
  repeat' (first | with_reducible assumption | with_reducible refine ev_ite3.mpr ⟨fun _ => ?_, fun _ => ?_⟩ | (split <;> (try dsimp -iota only) <;> try (rename_i hq; obtain ⟨hq1, hq2⟩ := Prod.ext_iff.mp hq; dsimp only at hq2; first | subst hq2 | (obtain ⟨hq3, hq4⟩ := Prod.ext_iff.mp hq2; dsimp only at hq4; first | subst hq4 | (obtain ⟨hq5, hq6⟩ := Prod.ext_iff.mp hq4; dsimp only at hq6; first | subst hq6 | (obtain ⟨hq7, hq8⟩ := Prod.ext_iff.mp hq6; dsimp only at hq8; subst hq8))))) | with_reducible apply State.microFetch_ev | with_reducible apply State.microStep_ev)

theorem State.segmentRun_ev {σ₀ : State} (r : Run) (k : Routine) (n : Nat) : ∀ (s : State) (m : Sequencer) (a : Nat),
    Evolves σ₀ s → Evolves σ₀ (State.segmentRun r k n s m a).state := by
  induction n with
  | zero => exact fun s m a hs => hs
  | succ n ih =>
    intro s m a hs
    unfold State.segmentRun
    split
    · exact hs
    · have h1 := State.microOne_ev hs r k m a
      generalize State.microOne s r k m a = q at h1 ⊢
      obtain ⟨f, y, m1, t⟩ := q
      cases f with
      | breach => exact State.coreFails_ev h1 _
      | next a => cases y with
        | true => exact h1
        | false => exact ih t m1 a h1
      | raise | stall | discard | finish => exact h1

theorem State.microRun_ev {σ₀ : State} (r : Run) (k : Routine) (n : Nat) : ∀ (s : State) (m : Sequencer) (a : Nat)
    (stop : Option Nat), Evolves σ₀ s → Evolves σ₀ (State.microRun r k n s m a stop).1.state := by
  induction n with
  | zero => exact fun s m a stop hs => hs
  | succ n ih =>
    intro s m a stop hs
    have h1 := State.segmentRun_ev r k segmentFuel s m a hs
    unfold State.microRun
    generalize State.segmentRun r k segmentFuel s m a = q at h1 ⊢
    cases q with
    | ends e b => exact h1
    | yields a m1 t =>
      dsimp only
      split
      · exact h1
      · exact ih _ _ a _ (State.newSegment_ev h1 m1)

theorem State.microcode_ev {σ₀ s : State} (hev : Evolves σ₀ s) {r : Run} {k : Routine} {l : Nat} {va : BitVec 64} {c : Nat}
    {stop : Option Nat} {e : MicroEnd} (h : s.microcode r k l va c stop = some e) : Evolves σ₀ e.state := by
  unfold State.microcode at h
  dsimp only at h
  split at h
  · cases h
  · split at h
    · rename_i e' hq
      cases h
      have h1 := State.microRun_ev (σ₀ := σ₀) r k (2 ^ 64) s ⟨[], [], none, l, va, c, false⟩
        (Config.routineEntry s.part.stepping.toNat k.code % 0x1800) stop hev
      rw [hq] at h1
      exact h1
    · cases h

theorem State.routine_ev {σ₀ s : State} (hev : Evolves σ₀ s) {r : Run} {k : Routine} {va : BitVec 64} {stop : Option Nat}
    {e : MicroEnd} (h : s.routine r k va stop = some e) : Evolves σ₀ e.state := State.microcode_ev hev h

theorem State.routineEnd_ev {σ₀ s : State} {r : Run} {k : Routine} {va : BitVec 64} {stop : Option Nat} {e : MicroEnd}
    {t : State} (h : s.routine r k va stop = some e) (ht : e.state = t) (hev : Evolves σ₀ s) : Evolves σ₀ t :=
  ht ▸ State.routine_ev hev h

theorem State.microEnd_ev {σ₀ s : State} {r : Run} {k : Routine} {l : Nat} {va : BitVec 64} {c : Nat} {stop : Option Nat}
    {e : MicroEnd} {t : State} (h : s.microcode r k l va c stop = some e) (ht : e.state = t) (hev : Evolves σ₀ s) :
    Evolves σ₀ t := ht ▸ State.microcode_ev hev h

theorem MicroEnd.part_ev {σ₀ : State} {e : MicroEnd} (h : Evolves σ₀ e.state) : e.part.Ev σ₀ := by
  cases e <;> exact h

theorem State.asRoutine_ev {σ₀ s : State} (r : Run) (k : Routine) (pc : BitVec 44) (long : Bool) (stop : Option Nat) (rom : Res (BitVec 44)) (hev : Evolves σ₀ s) (hx0 : (rom).Ev σ₀) :
    (State.asRoutine s r k pc long stop rom).Ev σ₀ := by
  unfold State.asRoutine
  split
  · exact hx0
  all_goals
    rename_i h
    have h1 := State.routine_ev hev h
    first
      | exact h1
      | (dsimp only [Res.Ev]
         split
         · exact State.setRes_ev h1 _ _
         · exact h1)

theorem State.asSlice_ev {σ₀ s rom : State} (hev : Evolves σ₀ s) (hev1 : Evolves σ₀ rom) (r : Run) (k : Routine) :
    Evolves σ₀ (State.asSlice s r k rom).2 := by
  unfold State.asSlice
  split
  · exact hev1
  all_goals
    rename_i h
    have h1 := State.routine_ev hev h
    first | exact h1 | exact State.coreFails_ev h1 _

end Sys2Proof.Machine
end

