-- ==== Sys2Proof/Laws/EvRouter.lean ====
section
/-! SUPPORT. Evolves (Laws/Evolves.lean) for the event router, the Gleaner, register writes and the Granary. -/

namespace Sys2Proof.Machine

/-! Router. -/

theorem State.slotShare_ev {σ₀ s : State} (hev : Evolves σ₀ s) (h : Nat) (lcn : Nat) :
    Evolves σ₀ (State.slotShare s h lcn) := by
  unfold State.slotShare
  repeat' (first | with_reducible assumption | with_reducible apply State.shareChanged_ev | with_reducible refine ev_ite.mpr ⟨fun _ => ?_, fun _ => ?_⟩ | with_reducible refine ev_ite3.mpr ⟨fun _ => ?_, fun _ => ?_⟩)

theorem State.freeSlot_ev {σ₀ s : State} (hev : Evolves σ₀ s) (n : Nat) :
    Evolves σ₀ (State.freeSlot s n) := by
  unfold State.freeSlot
  repeat' (first | with_reducible assumption | with_reducible apply State.setSlot_ev | with_reducible apply State.slotShare_ev | with_reducible refine ev_ite3.mpr ⟨fun _ => ?_, fun _ => ?_⟩ | split | dsimp -iota only)

theorem State.spillWord_ev {σ₀ s : State} (hev : Evolves σ₀ s) (p : Nat) (h : Nat) (scn : Nat) (pa : Nat) (w : Word) :
    Evolves σ₀ (State.spillWord s p h scn pa w) := by
  unfold State.spillWord
  repeat' (first | with_reducible assumption | with_reducible apply State.storeAs_ev | with_reducible apply State.storeLogged_ev | with_reducible refine ev_ite3.mpr ⟨fun _ => ?_, fun _ => ?_⟩ | (split <;> (try dsimp -iota only) <;> try (rename_i hq; obtain ⟨hq1, hq2⟩ := Prod.ext_iff.mp hq; dsimp only at hq2; subst hq2)) | with_reducible apply State.convert_ev | with_reducible apply State.poisonStale_ev)

theorem State.spillSlots_ev {σ₀ s : State} (hev : Evolves σ₀ s) (p : Nat) (h : Nat) (scn : Nat) (desc : Nat) (x : Regs) (dirty : BitVec 7) (a0 : List Nat) :
    Evolves σ₀ (State.spillSlots s p h scn desc x dirty a0) := by
  induction a0 generalizing s p h scn desc x dirty <;> unfold State.spillSlots <;> repeat' (first | with_reducible assumption | with_reducible apply State.spillWord_ev | with_reducible refine ev_ite.mpr ⟨fun _ => ?_, fun _ => ?_⟩ | with_reducible refine ev_ite3.mpr ⟨fun _ => ?_, fun _ => ?_⟩ | with_reducible apply_assumption)

theorem State.spill_ev {σ₀ s : State} (hev : Evolves σ₀ s) (scn : Nat) :
    Evolves σ₀ (State.spill s scn) := by
  unfold State.spill
  repeat' (first | with_reducible assumption | with_reducible apply State.asSlice_ev | with_reducible apply State.spillSlots_ev | with_reducible apply State.setCtx_ev | with_reducible apply State.storeAs_ev | with_reducible apply State.freeSlot_ev | with_reducible apply State.demand_ev | with_reducible refine ev_ite.mpr ⟨fun _ => ?_, fun _ => ?_⟩ | with_reducible refine ev_ite3.mpr ⟨fun _ => ?_, fun _ => ?_⟩)

theorem State.fillSlots_ev {σ₀ s : State} (hev : Evolves σ₀ s) (p : Nat) (h : Nat) (scn : Nat) (desc : Nat) (x : Regs) (refused : Option Nat) (mchk : Option Nat) (a0 : List Nat) :
    Evolves σ₀ (State.fillSlots s p h scn desc x refused mchk a0).2.2.2 := by
  induction a0 generalizing s p h scn desc x refused mchk <;> unfold State.fillSlots <;> repeat' (first | with_reducible assumption | (split <;> (try dsimp -iota only) <;> try (rename_i hq; obtain ⟨hq1, hq2⟩ := Prod.ext_iff.mp hq; dsimp only at hq2; first | subst hq2 | (obtain ⟨hq3, hq4⟩ := Prod.ext_iff.mp hq2; dsimp only at hq4; first | subst hq4 | (obtain ⟨hq5, hq6⟩ := Prod.ext_iff.mp hq4; dsimp only at hq6; first | subst hq6 | (obtain ⟨hq7, hq8⟩ := Prod.ext_iff.mp hq6; dsimp only at hq8; subst hq8))))) | dsimp -iota only | with_reducible apply State.heldLoad_ev | with_reducible apply State.takeIn_ev | with_reducible apply_assumption)

theorem State.readControl_ev {σ₀ s : State} (hev : Evolves σ₀ s) (p : Nat) (scn : Nat) :
    Evolves σ₀ (State.readControl s p scn).2 := by
  unfold State.readControl
  repeat' (first | with_reducible assumption | with_reducible apply State.setCtx_ev | with_reducible refine ev_ite3.mpr ⟨fun _ => ?_, fun _ => ?_⟩ | with_reducible apply State.heldLoad_ev)

theorem State.fillRegs_ev {σ₀ s : State} (hev : Evolves σ₀ s) (p : Nat) (n : Nat) (scn : Nat) (c : SwCtx) (lost : Option Nat) :
    Evolves σ₀ (State.fillRegs s p n scn c lost).2 := by
  unfold State.fillRegs
  dsimp -iota only
  have h1 : ∀ y, Evolves σ₀ (s.setSlot n y) := fun y => State.setSlot_ev hev n y
  split
  · have h2 := State.fillSlots_ev hev p c.hall scn c.desc Regs.zero none lost ((List.range 86).map (· + 1))
    generalize State.fillSlots s p c.hall scn c.desc Regs.zero none lost ((List.range 86).map (· + 1)) = q at h2 ⊢
    exact h2
  all_goals
    rename_i h
    have h2 := State.routineEnd_ev h rfl (h1 _)
    first
      | exact h2
      | exact State.freeSlot_ev h2 _
      | exact State.freeSlot_ev (State.coreFails_ev h2 _) _

theorem State.fillDone_ev {σ₀ s : State} (hev : Evolves σ₀ s) (scn : Nat) (n : Nat) (l : Loaded) :
    Evolves σ₀ (State.fillDone s scn n l) := by
  unfold State.fillDone
  repeat' (first | with_reducible assumption | with_reducible apply State.countRsv_ev | with_reducible apply State.setSlot_ev | with_reducible apply State.setCtx_ev | with_reducible apply State.makeReady_ev | with_reducible apply State.alertCore_ev | split | dsimp -iota only)

theorem State.fill_ev {σ₀ s : State} (hev : Evolves σ₀ s) (scn : Nat) (n : Nat) :
    Evolves σ₀ (State.fill s scn n) := by
  unfold State.fill
  dsimp -iota only
  have h1 := State.readControl_ev hev (s.pcnOf n) scn
  generalize State.readControl s (s.pcnOf n) scn = q at h1 ⊢
  obtain ⟨lost, t⟩ := q
  dsimp only at h1 ⊢
  have h2 := State.fillRegs_ev h1 (s.pcnOf n) n scn (t.ctx scn) lost
  split
  · rename_i h
    rw [h] at h2
    exact State.fillDone_ev h2 _ _ _
  · rename_i h
    rw [h] at h2
    exact State.setCtx_ev h2 _ _

theorem State.putSel_ev {σ₀ s : State} (hev : Evolves σ₀ s) (scn : Nat) (sel : Nat) (w : Word) :
    Evolves σ₀ (State.putSel s scn sel w) := by
  unfold State.putSel
  repeat' (first | with_reducible assumption | with_reducible apply State.agentStore_ev | with_reducible apply State.setSlot_ev | with_reducible refine ev_ite.mpr ⟨fun _ => ?_, fun _ => ?_⟩ | with_reducible refine ev_ite3.mpr ⟨fun _ => ?_, fun _ => ?_⟩)

theorem State.getSel_ev {σ₀ s : State} (hev : Evolves σ₀ s) (scn : Nat) (sel : Nat) :
    Evolves σ₀ (State.getSel s scn sel).2 := by
  unfold State.getSel
  repeat' (first | with_reducible assumption | with_reducible refine ev_ite3.mpr ⟨fun _ => ?_, fun _ => ?_⟩ | (split <;> (try dsimp -iota only) <;> try (rename_i hq; obtain ⟨hq1, hq2⟩ := Prod.ext_iff.mp hq; dsimp only at hq2; subst hq2)) | dsimp -iota only | with_reducible apply State.agentLoad_ev)

theorem State.updateSel_ev {σ₀ s : State} (hev : Evolves σ₀ s) (scn : Nat) (sel : Nat) (f : BitVec 64 → BitVec 64) :
    Evolves σ₀ (State.updateSel s scn sel f) := by
  unfold State.updateSel
  repeat' (first | with_reducible assumption | with_reducible apply State.putSel_ev | (split <;> (try dsimp -iota only) <;> try (rename_i hq; obtain ⟨hq1, hq2⟩ := Prod.ext_iff.mp hq; dsimp only at hq2; subst hq2)) | with_reducible apply State.getSel_ev)

theorem State.completeWait_ev {σ₀ s : State} (hev : Evolves σ₀ s) (scn : Nat) :
    Evolves σ₀ (State.completeWait s scn) := by
  unfold State.completeWait
  repeat' (first | with_reducible assumption | with_reducible apply State.updateSel_ev | with_reducible apply State.makeReady_ev | with_reducible apply State.alertCore_ev | with_reducible refine ev_ite.mpr ⟨fun _ => ?_, fun _ => ?_⟩ | with_reducible refine ev_ite3.mpr ⟨fun _ => ?_, fun _ => ?_⟩ | with_reducible apply State.getSel_ev)

theorem State.deliverMessage_ev {σ₀ s : State} (hev : Evolves σ₀ s) (scn : Nat) (mask : BitVec 32) :
    Evolves σ₀ (State.deliverMessage s scn mask) := by
  unfold State.deliverMessage
  repeat' (first | with_reducible assumption | with_reducible apply State.putSel_ev | (split <;> (try dsimp -iota only) <;> try (rename_i hq; obtain ⟨hq1, hq2⟩ := Prod.ext_iff.mp hq; dsimp only at hq2; subst hq2)) | with_reducible apply State.getSel_ev)

theorem State.wake_ev {σ₀ s : State} (hev : Evolves σ₀ s) (scn : Nat) (dt : Nat) :
    Evolves σ₀ (State.wake s scn dt) := by
  unfold State.wake
  repeat' (first | with_reducible assumption | with_reducible apply State.deliverMessage_ev | with_reducible apply State.completeWait_ev | with_reducible apply State.putSel_ev | split)

theorem State.wakeAll_ev {σ₀ s : State} (hev : Evolves σ₀ s) (f : SwCtx → Wait → Bool) :
    Evolves σ₀ (State.wakeAll s f) := by
  unfold State.wakeAll
  repeat' (first | with_reducible assumption | with_reducible apply State.wake_ev | with_reducible refine ev_foldl' _ _ ?_ (fun _ _ _ => ?_))

theorem State.ring_ev {σ₀ s : State} (hev : Evolves σ₀ s) (h : Nat) (q : Nat) :
    Evolves σ₀ (State.ring s h q) := by
  unfold State.ring
  repeat' (first | with_reducible assumption | with_reducible apply State.doorbell_ev | with_reducible apply State.wakeAll_ev | with_reducible refine ev_ite.mpr ⟨fun _ => ?_, fun _ => ?_⟩ | with_reducible refine ev_ite3.mpr ⟨fun _ => ?_, fun _ => ?_⟩ | simp only [↓ev_mk, evk_eta])

theorem State.setResult_ev {σ₀ s : State} (hev : Evolves σ₀ s) (scn : Nat) (code : Nat) :
    Evolves σ₀ (State.setResult s scn code) := by
  unfold State.setResult
  repeat' (first | with_reducible assumption | with_reducible apply State.setCtx_ev)

theorem State.preempt_ev {σ₀ s : State} (hev : Evolves σ₀ s) (scn : Nat) :
    Evolves σ₀ (State.preempt s scn) := by
  unfold State.preempt
  repeat' (first | with_reducible assumption | with_reducible apply State.leaveCore_ev | with_reducible apply State.makeReady_ev | with_reducible refine ev_ite.mpr ⟨fun _ => ?_, fun _ => ?_⟩ | with_reducible refine ev_ite3.mpr ⟨fun _ => ?_, fun _ => ?_⟩)

theorem State.cmdSpill_ev {σ₀ s : State} (hev : Evolves σ₀ s) (scn : Nat) :
    Evolves σ₀ (State.cmdSpill s scn) := by
  unfold State.cmdSpill
  repeat' (first | with_reducible assumption | with_reducible apply State.setResult_ev | with_reducible apply State.setCtx_ev | with_reducible apply State.spill_ev | with_reducible apply State.preempt_ev | with_reducible refine ev_ite.mpr ⟨fun _ => ?_, fun _ => ?_⟩ | with_reducible refine ev_ite3.mpr ⟨fun _ => ?_, fun _ => ?_⟩)

theorem State.cmdPark_ev {σ₀ s : State} (hev : Evolves σ₀ s) (scn : Nat) :
    Evolves σ₀ (State.cmdPark s scn) := by
  unfold State.cmdPark
  repeat' (first | with_reducible assumption | with_reducible apply State.setResult_ev | with_reducible apply State.setCtx_ev | with_reducible apply State.preempt_ev | with_reducible refine ev_ite3.mpr ⟨fun _ => ?_, fun _ => ?_⟩ | split | dsimp -iota only)

theorem State.cmdFill_ev {σ₀ s : State} (hev : Evolves σ₀ s) (scn : Nat) (arg : Nat) :
    Evolves σ₀ (State.cmdFill s scn arg) := by
  unfold State.cmdFill
  repeat' (first | with_reducible assumption | with_reducible apply State.setResult_ev | with_reducible apply State.fill_ev | with_reducible apply State.setCtx_ev | with_reducible apply State.fillBlocked_ev | split | dsimp -iota only)

theorem State.cmdResume_ev {σ₀ s : State} (hev : Evolves σ₀ s) (scn : Nat) :
    Evolves σ₀ (State.cmdResume s scn) := by
  unfold State.cmdResume
  repeat' (first | with_reducible assumption | with_reducible apply State.makeReady_ev | with_reducible apply State.setResult_ev | with_reducible refine ev_ite.mpr ⟨fun _ => ?_, fun _ => ?_⟩ | with_reducible refine ev_ite3.mpr ⟨fun _ => ?_, fun _ => ?_⟩)

theorem State.cmdSetprio_ev {σ₀ s : State} (hev : Evolves σ₀ s) (scn : Nat) (arg : Nat) :
    Evolves σ₀ (State.cmdSetprio s scn arg) := by
  unfold State.cmdSetprio
  repeat' (first | with_reducible assumption | with_reducible apply State.setCtx_ev | with_reducible apply State.raiseVt_ev | with_reducible apply State.writeControl_ev | with_reducible refine ev_ite.mpr ⟨fun _ => ?_, fun _ => ?_⟩ | with_reducible refine ev_ite3.mpr ⟨fun _ => ?_, fun _ => ?_⟩)

theorem State.cmdPost_ev {σ₀ s : State} (hev : Evolves σ₀ s) (scn : Nat) (arg : Nat) :
    Evolves σ₀ (State.cmdPost s scn arg) := by
  unfold State.cmdPost
  repeat' (first | with_reducible assumption | with_reducible apply State.atomicOr_ev | with_reducible apply State.updateSel_ev | with_reducible apply State.setResult_ev | with_reducible apply State.wake_ev | with_reducible refine ev_ite.mpr ⟨fun _ => ?_, fun _ => ?_⟩ | with_reducible refine ev_ite3.mpr ⟨fun _ => ?_, fun _ => ?_⟩ | split | dsimp -iota only | with_reducible apply State.getSel_ev)

theorem State.cmdCancel_ev {σ₀ s : State} (hev : Evolves σ₀ s) (scn : Nat) :
    Evolves σ₀ (State.cmdCancel s scn) := by
  unfold State.cmdCancel
  repeat' (first | with_reducible assumption | with_reducible apply State.setResult_ev | with_reducible apply State.putSel_ev | with_reducible apply State.completeWait_ev | with_reducible apply State.doorbell_ev | with_reducible refine ev_ite3.mpr ⟨fun _ => ?_, fun _ => ?_⟩ | split | dsimp -iota only)

theorem State.cmdCreate_ev {σ₀ s : State} (hev : Evolves σ₀ s) (who : Initiator) (scn : Nat) :
    Evolves σ₀ (State.cmdCreate s who scn) := by
  unfold State.cmdCreate
  repeat' (first | with_reducible assumption | with_reducible apply State.setResult_ev | with_reducible apply State.note_ev | with_reducible apply State.setCtx_ev | with_reducible apply State.demand_ev | with_reducible refine ev_ite3.mpr ⟨fun _ => ?_, fun _ => ?_⟩ | (split <;> (try dsimp -iota only) <;> try (rename_i hq; obtain ⟨hq1, hq2⟩ := Prod.ext_iff.mp hq; dsimp only at hq2; subst hq2)) | with_reducible apply State.agentLoad_ev)

theorem State.cmdRetire_ev {σ₀ s : State} (hev : Evolves σ₀ s) (scn : Nat) :
    Evolves σ₀ (State.cmdRetire s scn) := by
  unfold State.cmdRetire
  repeat' (first | with_reducible assumption | with_reducible apply State.setCtx_ev | with_reducible apply State.setResult_ev | with_reducible refine ev_ite.mpr ⟨fun _ => ?_, fun _ => ?_⟩ | with_reducible refine ev_ite3.mpr ⟨fun _ => ?_, fun _ => ?_⟩)

theorem State.ctxApply_ev {σ₀ s : State} (hev : Evolves σ₀ s) (who : Initiator) (op : CtxOp) (scn : Nat) (arg : Nat) :
    Evolves σ₀ (State.ctxApply s who op scn arg) := by
  unfold State.ctxApply
  repeat' (first | with_reducible assumption | with_reducible apply State.setResult_ev | with_reducible apply State.fill_ev | with_reducible apply State.cmdFill_ev | with_reducible apply State.spill_ev | with_reducible apply State.cmdSpill_ev | with_reducible apply State.cmdPark_ev | with_reducible apply State.cmdResume_ev | with_reducible apply State.cmdSetprio_ev | with_reducible apply State.cmdPost_ev | with_reducible apply State.cmdCancel_ev | with_reducible apply State.cmdCreate_ev | with_reducible apply State.retire_ev | with_reducible apply State.cmdRetire_ev | with_reducible refine ev_ite3.mpr ⟨fun _ => ?_, fun _ => ?_⟩ | split)

theorem State.ctxCommand_ev {σ₀ s : State} (hev : Evolves σ₀ s) (who : Initiator) (op : CtxOp) (scn : Nat) (arg : Nat) :
    Evolves σ₀ (State.ctxCommand s who op scn arg) := by
  unfold State.ctxCommand
  repeat' (first | with_reducible assumption | with_reducible apply State.ctxApply_ev | with_reducible apply State.refuseWrite_ev | with_reducible refine ev_ite.mpr ⟨fun _ => ?_, fun _ => ?_⟩ | with_reducible refine ev_ite3.mpr ⟨fun _ => ?_, fun _ => ?_⟩)

theorem State.applyDeferred_ev {σ₀ s : State} (hev : Evolves σ₀ s) (scn : Nat) :
    Evolves σ₀ (State.applyDeferred s scn) := by
  unfold State.applyDeferred
  repeat' (first | with_reducible assumption | with_reducible apply State.ctxApply_ev | with_reducible apply State.setCtx_ev | with_reducible refine ev_foldl' _ _ ?_ (fun _ _ _ => ?_))

theorem State.applyBusy_ev {σ₀ s : State} (hev : Evolves σ₀ s) (scn : Nat) :
    Evolves σ₀ (State.applyBusy s scn) := by
  unfold State.applyBusy
  repeat' (first | with_reducible assumption | with_reducible apply State.ctxApply_ev | with_reducible apply State.setCtx_ev | with_reducible refine ev_foldl' _ _ ?_ (fun _ _ _ => ?_))

theorem State.applyDue_ev {σ₀ s : State} (hev : Evolves σ₀ s) (scn : Nat) :
    Evolves σ₀ (State.applyDue s scn) := by
  unfold State.applyDue
  repeat' (first | with_reducible assumption | with_reducible apply State.applyDeferred_ev | with_reducible refine ev_ite.mpr ⟨fun _ => ?_, fun _ => ?_⟩ | with_reducible refine ev_ite3.mpr ⟨fun _ => ?_, fun _ => ?_⟩)

theorem State.alertCtx_ev {σ₀ s : State} (hev : Evolves σ₀ s) (scn : Nat) (code : Nat) (w : Word) :
    Evolves σ₀ (State.alertCtx s scn code w) := by
  unfold State.alertCtx
  repeat' (first | with_reducible assumption | with_reducible apply State.alertCore_ev | with_reducible apply State.applyDue_ev)

theorem State.alertHall0_ev {σ₀ s : State} (hev : Evolves σ₀ s) (code : Nat) (w : Word) :
    Evolves σ₀ (State.alertHall0 s code w) := by
  unfold State.alertHall0
  repeat' (first | with_reducible assumption | with_reducible apply State.alertCtx_ev | with_reducible apply State.note_ev | with_reducible apply State.setRf_ev | split)

theorem State.alertHall_ev {σ₀ s : State} (hev : Evolves σ₀ s) (h : Nat) (code : Nat) (w : Word) :
    Evolves σ₀ (State.alertHall s h code w) := by
  unfold State.alertHall
  repeat' (first | with_reducible assumption | with_reducible apply State.alertHall0_ev | with_reducible apply State.alertCtx_ev | with_reducible refine ev_ite3.mpr ⟨fun _ => ?_, fun _ => ?_⟩ | split)

theorem State.alertsDue_ev {σ₀ s : State} (hev : Evolves σ₀ s) (scn : Nat) :
    Evolves σ₀ (State.alertsDue s scn) := by
  unfold State.alertsDue
  repeat' (first | with_reducible assumption | with_reducible apply State.alertActs_ev | with_reducible apply State.applyDue_ev | with_reducible refine ev_ite.mpr ⟨fun _ => ?_, fun _ => ?_⟩ | with_reducible apply State.alertMask_ev)

theorem State.await_ev {σ₀ s : State} (hev : Evolves σ₀ s) (r : Run) (w : Wait) :
    Evolves σ₀ (State.await s r w) := by
  unfold State.await
  repeat' (first | with_reducible assumption | with_reducible apply State.setCtx_ev | with_reducible apply State.leaveCore_ev | with_reducible apply State.alertsDue_ev)

theorem State.allocDone_ev {σ₀ s : State} (hev : Evolves σ₀ s) (scn : Nat) :
    Evolves σ₀ (State.allocDone s scn) := by
  unfold State.allocDone
  repeat' (first | with_reducible assumption | with_reducible apply State.putSel_ev | with_reducible apply State.completeWait_ev | with_reducible apply State.applyDeferred_ev | with_reducible apply State.makeReady_ev | split)

theorem State.startOn_ev {σ₀ s : State} (hev : Evolves σ₀ s) (p : Nat) (scn : Nat) :
    Evolves σ₀ (State.startOn s p scn) := by
  unfold State.startOn
  repeat' (first | with_reducible assumption | with_reducible apply State.setCore_ev | with_reducible apply State.setCtx_ev | with_reducible refine ev_ite3.mpr ⟨fun _ => ?_, fun _ => ?_⟩)

/-! Gleaner. -/

theorem State.removeOn_ev {σ₀ s : State} (hev : Evolves σ₀ s) (p : Nat) (f : TlbEntry → Bool) :
    Evolves σ₀ (State.removeOn s p f) := by
  unfold State.removeOn
  repeat' (first | with_reducible assumption | with_reducible apply State.setCore_ev | with_reducible apply State.bumpRf_ev | with_reducible apply State.event_ev | with_reducible refine ev_ite.mpr ⟨fun _ => ?_, fun _ => ?_⟩ | with_reducible refine ev_ite3.mpr ⟨fun _ => ?_, fun _ => ?_⟩ | with_reducible apply State.stage_ev)

theorem State.removeAll_ev {σ₀ s : State} (hev : Evolves σ₀ s) (f : TlbEntry → Bool) :
    Evolves σ₀ (State.removeAll s f) := by
  unfold State.removeAll
  repeat' (first | with_reducible assumption | with_reducible apply State.removeOn_ev | with_reducible refine ev_foldl' _ _ ?_ (fun _ _ _ => ?_))

theorem State.unmapBin_ev {σ₀ s : State} (hev : Evolves σ₀ s) (h : Nat) (n : Nat) :
    Evolves σ₀ (State.unmapBin s h n) := by
  unfold State.unmapBin
  repeat' (first | with_reducible assumption | with_reducible apply State.removeAll_ev)

theorem State.arm_ev {σ₀ s : State} (hev : Evolves σ₀ s) (h : Nat) (full : Bool) (metas : List Nat) :
    Evolves σ₀ (State.arm s h full metas) := by
  unfold State.arm
  repeat' (first | with_reducible assumption | with_reducible apply State.mapBins_ev | with_reducible apply State.mapCores_ev | with_reducible apply State.setGl_ev | with_reducible apply State.snapshot_ev | with_reducible refine ev_ite3.mpr ⟨fun _ => ?_, fun _ => ?_⟩)

theorem State.startCycle_ev {σ₀ s : State} (hev : Evolves σ₀ s) (h : Nat) (full : Bool) :
    Evolves σ₀ (State.startCycle s h full).2 := by
  unfold State.startCycle
  repeat' (first | with_reducible assumption | with_reducible apply State.note_ev | with_reducible apply State.arm_ev | with_reducible refine ev_ite3.mpr ⟨fun _ => ?_, fun _ => ?_⟩ | (split <;> (try dsimp -iota only) <;> try (rename_i hq; obtain ⟨hq1, hq2⟩ := Prod.ext_iff.mp hq; dsimp only at hq2; subst hq2)) | with_reducible apply State.takeBin_ev)

theorem State.cyclePolicy_ev {σ₀ s : State} (hev : Evolves σ₀ s) (h : Nat) :
    Evolves σ₀ (State.cyclePolicy s h) := by
  unfold State.cyclePolicy
  repeat' (first | with_reducible assumption | with_reducible refine ev_ite.mpr ⟨fun _ => ?_, fun _ => ?_⟩ | with_reducible refine ev_ite3.mpr ⟨fun _ => ?_, fun _ => ?_⟩ | with_reducible apply State.startCycle_ev)

theorem State.requestCycle_ev {σ₀ s : State} (hev : Evolves σ₀ s) (h : Nat) (full : Bool) :
    Evolves σ₀ (State.requestCycle s h full).2 := by
  unfold State.requestCycle
  repeat' (first | with_reducible assumption | with_reducible apply State.setGl_ev | with_reducible refine ev_ite2.mpr ⟨fun _ => ?_, fun _ => ?_⟩ | with_reducible refine ev_ite3.mpr ⟨fun _ => ?_, fun _ => ?_⟩ | with_reducible apply State.startCycle_ev)

theorem State.ackArm_ev {σ₀ s : State} (hev : Evolves σ₀ s) (p : Nat) (h : Nat) :
    Evolves σ₀ (State.ackArm s p h) := by
  unfold State.ackArm
  repeat' (first | with_reducible assumption | with_reducible apply State.arm_ev | with_reducible apply State.setCore_ev | with_reducible apply State.setGl_ev | with_reducible refine ev_ite.mpr ⟨fun _ => ?_, fun _ => ?_⟩ | with_reducible refine ev_ite3.mpr ⟨fun _ => ?_, fun _ => ?_⟩)

theorem State.scanWord_ev {σ₀ s : State} (hev : Evolves σ₀ s) (p : Nat) (h : Nat) (scn : Nat) (frozen : Bool) (w : Word) :
    Evolves σ₀ (State.scanWord s p h scn frozen w).2 := by
  unfold State.scanWord
  repeat' (first | with_reducible assumption | with_reducible refine ev_ite3.mpr ⟨fun _ => ?_, fun _ => ?_⟩ | (split <;> (try dsimp -iota only) <;> try (rename_i hq; obtain ⟨hq1, hq2⟩ := Prod.ext_iff.mp hq; dsimp only at hq2; subst hq2)) | with_reducible apply State.checkPtr_ev | with_reducible apply State.repair_ev | with_reducible apply State.poisonStale_ev)

theorem State.scanTable_ev {σ₀ s : State} (hev : Evolves σ₀ s) (p : Nat) (h : Nat) (scn : Nat) (frozen : Bool) (a0 : Table Word) :
    Evolves σ₀ (State.scanTable s p h scn frozen a0).2.2 := by
  induction a0 generalizing s with
  | nil => exact hev
  | cons e l ih => exact ih (State.scanWord_ev hev _ _ _ _ _)

theorem State.scanSlot_ev {σ₀ s : State} (hev : Evolves σ₀ s) (p : Nat) (hcn : Nat) :
    Evolves σ₀ (State.scanSlot s p hcn) := by
  unfold State.scanSlot
  repeat' (first | with_reducible assumption | with_reducible apply State.setSlot_ev | with_reducible apply State.setGal_ev | with_reducible apply State.setCore_ev | with_reducible apply State.alertCtx_ev | with_reducible refine ev_foldl' _ _ ?_ (fun _ _ _ => ?_) | with_reducible refine ev_ite3.mpr ⟨fun _ => ?_, fun _ => ?_⟩ | split | simp only [↓ev_mk, evk_eta] | with_reducible apply State.scanTable_ev)

theorem State.scanAs_ev {σ₀ s : State} (hev : Evolves σ₀ s) (p : Nat) (hcn : Nat) :
    Evolves σ₀ (State.scanAs s p hcn) := by
  unfold State.scanAs
  repeat' (first | with_reducible assumption | with_reducible apply State.setSlot_ev | with_reducible apply State.scanSlot_ev | split | simp only [↓ev_mk, evk_eta] | with_reducible apply State.asSlice_ev)

theorem State.flipDone_ev {σ₀ s : State} (hev : Evolves σ₀ s) (h : Nat) :
    Evolves σ₀ (State.flipDone s h) := by
  unfold State.flipDone
  repeat' (first | with_reducible assumption | with_reducible apply State.setGl_ev | with_reducible apply State.mapCores_ev | with_reducible refine ev_ite3.mpr ⟨fun _ => ?_, fun _ => ?_⟩)

theorem State.ackFlip_ev {σ₀ s : State} (hev : Evolves σ₀ s) (p : Nat) (h : Nat) :
    Evolves σ₀ (State.ackFlip s p h) := by
  unfold State.ackFlip
  repeat' (first | with_reducible assumption | with_reducible apply State.setGl_ev | with_reducible apply State.flipDone_ev | with_reducible refine ev_ite.mpr ⟨fun _ => ?_, fun _ => ?_⟩ | with_reducible refine ev_ite3.mpr ⟨fun _ => ?_, fun _ => ?_⟩)

theorem State.adopt_ev {σ₀ s : State} (hev : Evolves σ₀ s) (p : Nat) (h : Nat) :
    Evolves σ₀ (State.adopt s p h) := by
  unfold State.adopt
  repeat' (first | with_reducible assumption | with_reducible apply State.setCore_ev | with_reducible apply State.setSlot_ev | with_reducible apply State.scanAs_ev | with_reducible apply State.ackFlip_ev | with_reducible refine ev_foldl' _ _ ?_ (fun _ _ _ => ?_) | with_reducible refine ev_ite.mpr ⟨fun _ => ?_, fun _ => ?_⟩)

theorem State.flipCore_ev {σ₀ s : State} (hev : Evolves σ₀ s) (p : Nat) (h : Nat) :
    Evolves σ₀ (State.flipCore s p h) := by
  unfold State.flipCore
  repeat' (first | with_reducible assumption | with_reducible apply State.ackFlip_ev | with_reducible apply State.adopt_ev | with_reducible refine ev_ite.mpr ⟨fun _ => ?_, fun _ => ?_⟩ | with_reducible refine ev_ite3.mpr ⟨fun _ => ?_, fun _ => ?_⟩)

theorem State.scanNow_ev {σ₀ s : State} (hev : Evolves σ₀ s) (hcn : Nat) :
    Evolves σ₀ (State.scanNow s hcn) := by
  unfold State.scanNow
  repeat' (first | with_reducible assumption | with_reducible apply State.scanAs_ev | with_reducible apply State.ackFlip_ev | split)

theorem State.spoilBin_ev {σ₀ s : State} (hev : Evolves σ₀ s) (h : Nat) (n : Nat) :
    Evolves σ₀ (State.spoilBin s h n) := by
  unfold State.spoilBin
  repeat' (first | with_reducible assumption | with_reducible apply State.note_ev | with_reducible apply State.setGl_ev | with_reducible apply State.setBin_ev | with_reducible refine ev_ite.mpr ⟨fun _ => ?_, fun _ => ?_⟩ | with_reducible refine ev_ite3.mpr ⟨fun _ => ?_, fun _ => ?_⟩)

theorem State.healWord_ev {σ₀ s : State} (hev : Evolves σ₀ s) (h : Nat) (w : Word) (pa : Nat) :
    Evolves σ₀ (State.healWord s h w pa).2 := by
  unfold State.healWord
  repeat' (first | with_reducible assumption | with_reducible apply State.spoilBin_ev | with_reducible refine ev_ite3.mpr ⟨fun _ => ?_, fun _ => ?_⟩ | (split <;> (try dsimp -iota only) <;> try (rename_i hq; obtain ⟨hq1, hq2⟩ := Prod.ext_iff.mp hq; dsimp only at hq2; subst hq2)) | with_reducible apply State.repair_ev | with_reducible apply State.poisonStale_ev)

theorem State.healSlot_ev {σ₀ s : State} (hev : Evolves σ₀ s) (h : Nat) (pa : Nat) :
    Evolves σ₀ (State.healSlot s h pa) := by
  unfold State.healSlot
  repeat' (first | with_reducible assumption | with_reducible apply State.agentHeal_ev | with_reducible refine ev_ite.mpr ⟨fun _ => ?_, fun _ => ?_⟩ | with_reducible refine ev_ite3.mpr ⟨fun _ => ?_, fun _ => ?_⟩ | with_reducible apply State.healWord_ev)

theorem State.traceObject_ev {σ₀ s : State} (hev : Evolves σ₀ s) (h : Nat) (pa : Nat) (ty : Nat) :
    Evolves σ₀ (State.traceObject s h pa ty) := by
  unfold State.traceObject
  repeat' (first | with_reducible assumption | with_reducible apply State.healSlot_ev | with_reducible refine ev_foldl' _ _ ?_ (fun _ _ _ => ?_) | with_reducible refine ev_ite.mpr ⟨fun _ => ?_, fun _ => ?_⟩ | with_reducible refine ev_ite3.mpr ⟨fun _ => ?_, fun _ => ?_⟩)

theorem State.metaError_ev {σ₀ s : State} (hev : Evolves σ₀ s) (h : Nat) (n : Nat) :
    Evolves σ₀ (State.metaError s h n) := by
  unfold State.metaError
  repeat' (first | with_reducible assumption | with_reducible apply State.spoilBin_ev | (split <;> (try dsimp -iota only) <;> try (rename_i hq; obtain ⟨hq1, hq2⟩ := Prod.ext_iff.mp hq; dsimp only at hq2; subst hq2)) | simp only [↓ev_mk, evk_eta] | with_reducible apply State.freeNat_ev)

theorem State.takeEntry_ev {σ₀ s : State} (hev : Evolves σ₀ s) (h : Nat) (w : Word) :
    Evolves σ₀ (State.takeEntry s h w) := by
  unfold State.takeEntry
  repeat' (first | with_reducible assumption | with_reducible apply State.spoilBin_ev | with_reducible refine ev_ite3.mpr ⟨fun _ => ?_, fun _ => ?_⟩ | (split <;> (try dsimp -iota only) <;> try (rename_i hq; obtain ⟨hq1, hq2⟩ := Prod.ext_iff.mp hq; dsimp only at hq2; subst hq2)) | with_reducible apply State.repair_ev)

theorem State.traceStep_ev {σ₀ s : State} (hev : Evolves σ₀ s) (h : Nat) :
    Evolves σ₀ (State.traceStep s h) := by
  unfold State.traceStep
  repeat' (first | with_reducible assumption | with_reducible apply State.metaError_ev | with_reducible apply State.healSlot_ev | with_reducible apply State.snapshot_ev | with_reducible apply State.setGl_ev | with_reducible apply State.takeEntry_ev | with_reducible apply State.emptyLogs_ev | with_reducible apply State.setTentative_ev | with_reducible apply State.traceObject_ev | with_reducible refine ev_ite.mpr ⟨fun _ => ?_, fun _ => ?_⟩ | with_reducible refine ev_ite3.mpr ⟨fun _ => ?_, fun _ => ?_⟩ | split | with_reducible apply State.healWord_ev)

theorem State.reclaim_ev {σ₀ s : State} (hev : Evolves σ₀ s) (h : Nat) (n : Nat) :
    Evolves σ₀ (State.reclaim s h n) := by
  unfold State.reclaim
  repeat' (first | with_reducible assumption | with_reducible apply State.unmapBin_ev | with_reducible apply State.freeBin_ev)

theorem State.measure_ev {σ₀ s : State} (hev : Evolves σ₀ s) (h : Nat) (full : Bool) (n : Nat) :
    Evolves σ₀ (State.measure s h full n) := by
  unfold State.measure
  repeat' (first | with_reducible assumption | with_reducible apply State.setBin_ev | with_reducible apply State.freeNat_ev)

theorem State.keepBin_ev {σ₀ s : State} (hev : Evolves σ₀ s) (n : Nat) :
    Evolves σ₀ (State.keepBin s n) := by
  unfold State.keepBin
  repeat' (first | with_reducible assumption | with_reducible apply State.setBin_ev | with_reducible refine ev_ite3.mpr ⟨fun _ => ?_, fun _ => ?_⟩)

theorem State.heldStay_ev {σ₀ s : State} (hev : Evolves σ₀ s) (h : Nat) :
    Evolves σ₀ (State.heldStay s h) := by
  unfold State.heldStay
  repeat' (first | with_reducible assumption | with_reducible apply State.makeStay_ev | with_reducible refine ev_foldl' _ _ ?_ (fun _ _ _ => ?_) | dsimp -iota only | intro _ | with_reducible trivial)

theorem State.finishFull_ev {σ₀ s : State} (hev : Evolves σ₀ s) (h : Nat) :
    Evolves σ₀ (State.finishFull s h) := by
  unfold State.finishFull
  repeat' (first | with_reducible assumption | with_reducible apply State.reclaim_ev | with_reducible apply State.setGl_ev | with_reducible refine ev_foldl' _ _ ?_ (fun _ _ _ => ?_))

theorem State.unmark_ev {σ₀ s : State} (hev : Evolves σ₀ s) (o : Nat × BitVec 6) :
    Evolves σ₀ (State.unmark s o) := by
  unfold State.unmark
  repeat' (first | with_reducible assumption | with_reducible apply State.agentHeal_ev | with_reducible refine ev_ite.mpr ⟨fun _ => ?_, fun _ => ?_⟩)

theorem State.wakeAlloc_ev {σ₀ s : State} (hev : Evolves σ₀ s) (h : Nat) :
    Evolves σ₀ (State.wakeAlloc s h) := by
  unfold State.wakeAlloc
  repeat' (first | with_reducible assumption | with_reducible apply State.setCtx_ev | with_reducible apply State.allocDone_ev | with_reducible refine ev_foldl' _ _ ?_ (fun _ _ _ => ?_))

theorem State.finishYoung_ev {σ₀ s : State} (hev : Evolves σ₀ s) (h : Nat) (kept : List Nat) :
    Evolves σ₀ (State.finishYoung s h kept) := by
  unfold State.finishYoung
  repeat' (first | with_reducible assumption | with_reducible apply State.setGl_ev)

theorem State.finishCycle_ev {σ₀ s : State} (hev : Evolves σ₀ s) (h : Nat) :
    Evolves σ₀ (State.finishCycle s h) := by
  unfold State.finishCycle
  repeat' (first | with_reducible assumption | with_reducible apply State.emptyLogs_ev | with_reducible apply State.heldStay_ev | with_reducible apply State.measure_ev | with_reducible apply State.unmark_ev | with_reducible apply State.reclaim_ev | with_reducible apply State.keepBin_ev | with_reducible apply State.finishFull_ev | with_reducible apply State.finishYoung_ev | with_reducible apply State.freeBin_ev | with_reducible apply State.setGl_ev | with_reducible apply State.mapCores_ev | with_reducible apply State.note_ev | with_reducible apply State.event_ev | with_reducible apply State.wakeAlloc_ev | with_reducible apply State.cyclePolicy_ev | with_reducible refine ev_foldl' _ _ ?_ (fun _ _ _ => ?_) | split | dsimp -iota only | with_reducible apply State.startCycle_ev)

/-! Write. -/

theorem State.countReg_ev {σ₀ s : State} (hev : Evolves σ₀ s) (off : Nat) :
    Evolves σ₀ (State.countReg s off) := by
  unfold State.countReg
  repeat' (first | with_reducible assumption | with_reducible apply State.countRsv_ev)

theorem State.store64_ev {σ₀ s : State} (hev : Evolves σ₀ s) (off : Nat) (mask : BitVec 64) (v : BitVec 64) :
    Evolves σ₀ (State.store64 s off mask v).2 := by
  unfold State.store64
  repeat' (first | with_reducible assumption | with_reducible apply State.countReg_ev | with_reducible apply State.setReg_ev | with_reducible refine ev_ite3.mpr ⟨fun _ => ?_, fun _ => ?_⟩ | split | dsimp -iota only)

theorem State.plain_ev {σ₀ s : State} (hev : Evolves σ₀ s) (off : Nat) (mask : BitVec 64) (v : BitVec 64) :
    Evolves σ₀ (State.plain s off mask v) := by
  unfold State.plain
  repeat' (first | with_reducible assumption | with_reducible apply State.store64_ev)

theorem State.plainAlso_ev {σ₀ s : State} (hev : Evolves σ₀ s) (off : Nat) (mask : BitVec 64) (v : BitVec 64) (refused : Bool) :
    Evolves σ₀ (State.plainAlso s off mask v refused) := by
  unfold State.plainAlso
  repeat' (first | with_reducible assumption | with_reducible apply State.countReg_ev | with_reducible apply State.setReg_ev | with_reducible refine ev_ite3.mpr ⟨fun _ => ?_, fun _ => ?_⟩ | split | dsimp -iota only)

theorem State.gate_ev {σ₀ s f : State} (hev : Evolves σ₀ s) (hev1 : Evolves σ₀ f) (ok : Bool) (who : Initiator) (off : Nat) :
    Evolves σ₀ (State.gate s ok who off f) := by
  unfold State.gate
  repeat' (first | with_reducible assumption | with_reducible apply State.refuseWrite_ev | with_reducible refine ev_ite.mpr ⟨fun _ => ?_, fun _ => ?_⟩ | with_reducible refine ev_ite3.mpr ⟨fun _ => ?_, fun _ => ?_⟩)

theorem State.clearFields_ev {σ₀ s : State} (hev : Evolves σ₀ s) (off : Nat) (a0 : List (Nat × Nat)) :
    Evolves σ₀ (State.clearFields s off a0) := by
  induction a0 generalizing s with
  | nil => exact hev
  | cons e l ih => exact ih (State.setRf_ev hev _ _ _ _)

/-! Granary. -/

theorem State.glResult_ev {σ₀ s : State} (hev : Evolves σ₀ s) (n : Nat) :
    Evolves σ₀ (State.glResult s n) := by
  unfold State.glResult
  repeat' (first | with_reducible assumption | with_reducible apply State.setRf_ev)

theorem State.zeroRange_ev {σ₀ s : State} (hev : Evolves σ₀ s) (lo : Nat) (hi : Nat) :
    Evolves σ₀ (State.zeroRange s lo hi) := by
  unfold State.zeroRange
  dsimp only
  generalize hf : (fun c : Core => _) = f
  have h1 := State.mapCores_ev hev f
  obtain ⟨m, rest⟩ := h1
  exact ⟨fun x => ⟨Laws.canon_filter _ (m x).1, Laws.canon_filter _ (m x).2.1, (m x).2.2⟩, rest⟩

theorem State.assign_ev {σ₀ s : State} (hev : Evolves σ₀ s) (h : Nat) (k : BinKind) (any : Bool) (n : Nat) (count : Nat) :
    Evolves σ₀ (State.assign s h k any n count) := by
  unfold State.assign
  repeat' (first | with_reducible assumption | with_reducible apply State.glResult_ev | with_reducible apply State.zeroRange_ev | with_reducible apply State.giveBin_ev | with_reducible apply State.setRf_ev | with_reducible refine ev_foldl' _ _ ?_ (fun _ _ _ => ?_) | with_reducible refine ev_ite3.mpr ⟨fun _ => ?_, fun _ => ?_⟩ | split)

theorem State.releaseBins_ev {σ₀ s : State} (hev : Evolves σ₀ s) (h : Nat) (l : List Nat) :
    Evolves σ₀ (State.releaseBins s h l) := by
  unfold State.releaseBins
  repeat' (first | with_reducible assumption | with_reducible apply State.reclaim_ev | with_reducible apply State.cyclePolicy_ev | with_reducible refine ev_foldl' _ _ ?_ (fun _ _ _ => ?_))

theorem State.release_ev {σ₀ s : State} (hev : Evolves σ₀ s) (h : Nat) (n : Nat) (count : Nat) :
    Evolves σ₀ (State.release s h n count) := by
  unfold State.release
  repeat' (first | with_reducible assumption | with_reducible apply State.glResult_ev | with_reducible apply State.releaseBins_ev | with_reducible refine ev_ite.mpr ⟨fun _ => ?_, fun _ => ?_⟩ | with_reducible refine ev_ite3.mpr ⟨fun _ => ?_, fun _ => ?_⟩)

theorem State.cycleCmd_ev {σ₀ s : State} (hev : Evolves σ₀ s) (h : Nat) (full : Bool) :
    Evolves σ₀ (State.cycleCmd s h full) := by
  unfold State.cycleCmd
  repeat' (first | with_reducible assumption | with_reducible apply State.glResult_ev | with_reducible refine ev_ite.mpr ⟨fun _ => ?_, fun _ => ?_⟩ | with_reducible refine ev_ite3.mpr ⟨fun _ => ?_, fun _ => ?_⟩ | with_reducible apply State.requestCycle_ev)

theorem State.glCmdWrite_ev {σ₀ s : State} (hev : Evolves σ₀ s) (who : Initiator) (mask : BitVec 64) (v : BitVec 64) :
    Evolves σ₀ (State.glCmdWrite s who mask v) := by
  unfold State.glCmdWrite
  repeat' (first | with_reducible assumption | with_reducible apply State.gate_ev | with_reducible apply State.assign_ev | with_reducible apply State.plain_ev | with_reducible apply State.release_ev | with_reducible apply State.cycleCmd_ev | (split <;> (try dsimp -iota only) <;> try (rename_i hq; obtain ⟨hq1, hq2⟩ := Prod.ext_iff.mp hq; dsimp only at hq2; subst hq2)) | with_reducible apply State.store64_ev)

theorem State.glHallWrite_ev {σ₀ s : State} (hev : Evolves σ₀ s) (who : Initiator) (h : Nat) (mask : BitVec 64) (v : BitVec 64) :
    Evolves σ₀ (State.glHallWrite s who h mask v) := by
  unfold State.glHallWrite
  repeat' (first | with_reducible assumption | with_reducible apply State.gate_ev | with_reducible apply State.countReg_ev | with_reducible apply State.plainAlso_ev | with_reducible apply State.shareChanged_ev | with_reducible refine ev_ite.mpr ⟨fun _ => ?_, fun _ => ?_⟩ | with_reducible refine ev_ite3.mpr ⟨fun _ => ?_, fun _ => ?_⟩)

theorem State.glWrite_ev {σ₀ s : State} (hev : Evolves σ₀ s) (who : Initiator) (off : Nat) (mask : BitVec 64) (v : BitVec 64) :
    Evolves σ₀ (State.glWrite s who off mask v) := by
  unfold State.glWrite
  repeat' (first | with_reducible assumption | with_reducible apply State.glCmdWrite_ev | with_reducible apply State.glHallWrite_ev | with_reducible apply State.gate_ev | with_reducible apply State.countReg_ev | with_reducible apply State.setGl_ev | with_reducible apply State.plain_ev | with_reducible refine ev_ite.mpr ⟨fun _ => ?_, fun _ => ?_⟩ | with_reducible refine ev_ite3.mpr ⟨fun _ => ?_, fun _ => ?_⟩ | with_reducible apply State.store64_ev)

end Sys2Proof.Machine
end

