-- ==== Sys2Proof/Laws/EvHalls.lean ====
section
/-! SUPPORT. Evolves (Laws/Evolves.lean) for the transfer engines, mailboxes, halls and pages. -/

namespace Sys2Proof.Machine

/-! Engine. -/

theorem State.xeHeader_ev {σ₀ s : State} (hev : Evolves σ₀ s) (h : Nat) (pa : Nat) :
    Evolves σ₀ (State.xeHeader s h pa).2.2 := by
  unfold State.xeHeader
  repeat' (first | with_reducible assumption | with_reducible refine ev_ite3.mpr ⟨fun _ => ?_, fun _ => ?_⟩ | (split <;> (try dsimp -iota only) <;> try (rename_i hq; obtain ⟨hq1, hq2⟩ := Prod.ext_iff.mp hq; dsimp only at hq2; subst hq2)) | with_reducible apply State.agentLoad_ev)

theorem State.xeBuffer_ev {σ₀ s : State} (hev : Evolves σ₀ s) (o : XeOp) :
    Evolves σ₀ (State.xeBuffer s o).2.2.2 := by
  unfold State.xeBuffer
  dsimp -iota only
  split
  · split <;> exact hev
  · split
    · exact hev
    · rename_i pa _
      have h1 := State.xeHeader_ev hev o.hall pa
      generalize State.xeHeader s o.hall pa = q at h1 ⊢
      obtain ⟨q, hdr, t⟩ := q
      dsimp only at h1 ⊢
      split
      · exact h1
      · split
        · exact h1
        · have h2 := State.agentLoad_ev h1 (q + 8)
          generalize State.agentLoad t (q + 8) = y at h2 ⊢
          obtain ⟨b, u⟩ := y
          dsimp only at h2 ⊢
          split <;> exact h2

theorem State.xeOutcome_ev {σ₀ s : State} (hev : Evolves σ₀ s) (o : XeOp) :
    Evolves σ₀ (State.xeOutcome s o).2.2.2.2 := by
  unfold State.xeOutcome
  have h1 := State.xeBuffer_ev hev o
  generalize State.xeBuffer s o = q at h1 ⊢
  obtain ⟨a, b, c, t⟩ := q
  dsimp only at h1 ⊢
  repeat' split
  all_goals first | exact hev | exact h1

theorem State.stopQueue_ev {σ₀ s : State} (hev : Evolves σ₀ s) (h : Nat) (q : Nat) (tag : Nat) :
    Evolves σ₀ (State.stopQueue s h q tag) := by
  unfold State.stopQueue
  repeat' (first | with_reducible assumption | with_reducible apply State.setRf_ev | with_reducible apply State.note_ev | with_reducible apply State.event_ev)

theorem State.passTurn_ev {σ₀ s : State} (hev : Evolves σ₀ s) (h : Nat) (e : Nat) (q : Nat) (n : Nat) :
    Evolves σ₀ (State.passTurn s h e q n) := by
  unfold State.passTurn
  repeat' (first | with_reducible assumption | simp only [↓ev_mk, evk_eta])

theorem State.fetchDescriptor_ev {σ₀ s : State} (hev : Evolves σ₀ s) (h : Nat) (q : Nat) (reply : Option (List (BitVec 64))) :
    Evolves σ₀ (State.fetchDescriptor s h q reply) := by
  unfold State.fetchDescriptor
  repeat' (first | with_reducible assumption | with_reducible apply State.passTurn_ev | with_reducible apply State.request_ev | with_reducible apply State.stopQueue_ev | with_reducible apply State.setRf_ev | with_reducible refine ev_ite3.mpr ⟨fun _ => ?_, fun _ => ?_⟩ | split | simp only [↓ev_mk, evk_eta] | with_reducible apply State.xeOutcome_ev)

theorem State.wireOut_ev {σ₀ s : State} (hev : Evolves σ₀ s) (h : Nat) (pa : Nat) :
    Evolves σ₀ (State.wireOut s h pa).2 := by
  unfold State.wireOut
  have h1 := State.agentLoad_ev hev pa
  generalize State.agentLoad s pa = q at h1 ⊢
  obtain ⟨w, t⟩ := q
  dsimp only at h1 ⊢
  repeat' (first | with_reducible assumption | with_reducible refine ev_ite2.mpr ⟨fun _ => ?_, fun _ => ?_⟩ | with_reducible refine ev_ite3.mpr ⟨fun _ => ?_, fun _ => ?_⟩ | with_reducible apply State.agentLoad_ev | with_reducible apply State.takeIn_ev)

theorem State.wireOutAll_ev {σ₀ s : State} (hev : Evolves σ₀ s) (h : Nat) (pa : Nat) (a0 : Nat) :
    Evolves σ₀ (State.wireOutAll s h pa a0).2 := by
  induction a0 generalizing s pa with
  | zero => exact hev
  | succ n ih =>
    unfold State.wireOutAll
    have h1 := State.wireOut_ev hev h pa
    generalize State.wireOut s h pa = q at h1 ⊢
    obtain ⟨w, t⟩ := q
    dsimp only at h1 ⊢
    exact ih h1 (pa + 8)

theorem State.bytesOutAll_ev {σ₀ s : State} (hev : Evolves σ₀ s) (pa : Nat) (a0 : Nat) :
    Evolves σ₀ (State.bytesOutAll s pa a0).2 := by
  induction a0 generalizing s pa <;> unfold State.bytesOutAll <;> repeat' (first | with_reducible assumption | (split <;> (try dsimp -iota only) <;> try (rename_i hq; obtain ⟨hq1, hq2⟩ := Prod.ext_iff.mp hq; dsimp only at hq2; subst hq2)) | with_reducible apply State.agentLoad_ev | with_reducible apply_assumption)

theorem State.wireReject_ev {σ₀ s : State} (hev : Evolves σ₀ s) (o : XeOp) (pa : Nat) :
    Evolves σ₀ (State.wireReject s o pa).2 := by
  unfold State.wireReject
  repeat' (first | with_reducible assumption | (split <;> (try dsimp -iota only) <;> try (rename_i hq; obtain ⟨hq1, hq2⟩ := Prod.ext_iff.mp hq; dsimp only at hq2; subst hq2)) | with_reducible apply State.report_ev)

theorem State.wireStore_ev {σ₀ s : State} (hev : Evolves σ₀ s) (h : Nat) (pa : Nat) (w : Word) :
    Evolves σ₀ (State.wireStore s h pa w) := by
  unfold State.wireStore
  repeat' (first | with_reducible assumption | with_reducible apply State.storeAs_ev | with_reducible apply State.storeLogged_ev | (split <;> (try dsimp -iota only) <;> try (rename_i hq; obtain ⟨hq1, hq2⟩ := Prod.ext_iff.mp hq; dsimp only at hq2; first | subst hq2 | (obtain ⟨hq3, hq4⟩ := Prod.ext_iff.mp hq2; dsimp only at hq4; first | subst hq4 | (obtain ⟨hq5, hq6⟩ := Prod.ext_iff.mp hq4; dsimp only at hq6; first | subst hq6 | (obtain ⟨hq7, hq8⟩ := Prod.ext_iff.mp hq6; dsimp only at hq8; subst hq8))))) | with_reducible apply State.takeIn_ev | with_reducible apply State.convert_ev | with_reducible apply State.poisonStale_ev)

theorem State.wireInAll_ev {σ₀ s : State} (hev : Evolves σ₀ s) (o : XeOp) (bad : List Nat) (pa : Nat) (i : Nat) (l : List Byte) (a0 : Nat) :
    Evolves σ₀ (State.wireInAll s o bad pa i l a0).2 := by
  induction a0 generalizing s o bad pa i l <;> unfold State.wireInAll <;> repeat' (first | with_reducible assumption | with_reducible apply State.wireStore_ev | with_reducible refine ev_ite3.mpr ⟨fun _ => ?_, fun _ => ?_⟩ | (split <;> (try dsimp -iota only) <;> try (rename_i hq; obtain ⟨hq1, hq2⟩ := Prod.ext_iff.mp hq; dsimp only at hq2; subst hq2)) | with_reducible apply State.wireReject_ev | with_reducible apply_assumption)

theorem State.rawStore_ev {σ₀ s : State} (hev : Evolves σ₀ s) (h : Nat) (pa : Nat) (lo : Nat) (hi : Nat) (l : List Byte) :
    Evolves σ₀ (State.rawStore s h pa lo hi l) := by
  unfold State.rawStore
  repeat' (first | with_reducible assumption | with_reducible apply State.storeAs_ev | with_reducible apply State.take_ev | with_reducible refine ev_ite.mpr ⟨fun _ => ?_, fun _ => ?_⟩ | with_reducible refine ev_ite3.mpr ⟨fun _ => ?_, fun _ => ?_⟩ | with_reducible apply State.agentLoad_ev)

theorem State.bytesInAll_ev {σ₀ s : State} (hev : Evolves σ₀ s) (o : XeOp) (bad : List Nat) (body : Nat) (b : Nat) (n : Nat) (i : Nat) (l : List Byte) (a0 : Nat) :
    Evolves σ₀ (State.bytesInAll s o bad body b n i l a0).2 := by
  induction a0 generalizing s o bad body b n i l <;> unfold State.bytesInAll <;> repeat' (first | with_reducible assumption | with_reducible apply State.storeAs_ev | with_reducible apply State.rawStore_ev | with_reducible refine ev_ite3.mpr ⟨fun _ => ?_, fun _ => ?_⟩ | (split <;> (try dsimp -iota only) <;> try (rename_i hq; obtain ⟨hq1, hq2⟩ := Prod.ext_iff.mp hq; dsimp only at hq2; subst hq2)) | with_reducible apply State.wireReject_ev | with_reducible apply_assumption)

theorem State.sendSome_ev {σ₀ s : State} (hev : Evolves σ₀ s) (o : XeOp) (f : Nat) (i : Nat) (a0 : List Byte) :
    Evolves σ₀ (State.sendSome s o f i a0) := by
  induction a0 generalizing s o f i <;> unfold State.sendSome <;> repeat' (first | with_reducible assumption | with_reducible apply State.request_ev | with_reducible refine ev_ite.mpr ⟨fun _ => ?_, fun _ => ?_⟩ | with_reducible refine ev_ite3.mpr ⟨fun _ => ?_, fun _ => ?_⟩ | with_reducible apply_assumption)

theorem State.xeSend_ev {σ₀ s : State} (hev : Evolves σ₀ s) (o : XeOp) (fail : Bool) (l : List Byte) :
    Evolves σ₀ (State.xeSend s o fail l) := by
  unfold State.xeSend
  split
  · exact State.sendSome_ev (State.freeNat_ev hev) _ _ _ _
  · exact State.request_ev hev _ _

theorem State.xeMove_ev {σ₀ s : State} (hev : Evolves σ₀ s) (o : XeOp) (x : XeHost) :
    Evolves σ₀ (State.xeMove s o x).2 := by
  unfold State.xeMove
  repeat' (first | with_reducible assumption | with_reducible apply State.request_ev | with_reducible apply State.xeSend_ev | with_reducible refine ev_ite3.mpr ⟨fun _ => ?_, fun _ => ?_⟩ | (split <;> (try dsimp -iota only) <;> try (rename_i hq; obtain ⟨hq1, hq2⟩ := Prod.ext_iff.mp hq; dsimp only at hq2; subst hq2)) | with_reducible apply State.bytesInAll_ev | with_reducible apply State.wireInAll_ev | with_reducible apply State.bytesOutAll_ev | with_reducible apply State.wireOutAll_ev)

theorem State.setDone_ev {σ₀ s : State} (hev : Evolves σ₀ s) (h : Nat) (e : Nat) (n : Nat) :
    Evolves σ₀ (State.setDone s h e n) := by
  unfold State.setDone
  repeat' (first | with_reducible assumption | with_reducible apply State.setRf_ev | with_reducible apply State.wakeAll_ev)

theorem State.xeComplete_ev {σ₀ s : State} (hev : Evolves σ₀ s) (o : XeOp) (status : Nat) (moved : Nat) (cplFail : Bool) :
    Evolves σ₀ (State.xeComplete s o status moved cplFail) := by
  unfold State.xeComplete
  repeat' (first | with_reducible assumption | with_reducible apply State.stopQueue_ev | with_reducible apply State.request_ev | with_reducible apply State.setDone_ev | with_reducible apply State.msix_ev | with_reducible refine ev_ite.mpr ⟨fun _ => ?_, fun _ => ?_⟩ | with_reducible refine ev_ite3.mpr ⟨fun _ => ?_, fun _ => ?_⟩ | simp only [↓ev_mk, evk_eta])

theorem State.xeStart_ev {σ₀ s : State} (hev : Evolves σ₀ s) (o : XeOp) :
    Evolves σ₀ (State.xeStart s o).2 := by
  unfold State.xeStart
  repeat' (first | with_reducible assumption | (split <;> (try dsimp -iota only) <;> try (rename_i hq; obtain ⟨hq1, hq2⟩ := Prod.ext_iff.mp hq; dsimp only at hq2; first | subst hq2 | (obtain ⟨hq3, hq4⟩ := Prod.ext_iff.mp hq2; dsimp only at hq4; first | subst hq4 | (obtain ⟨hq5, hq6⟩ := Prod.ext_iff.mp hq4; dsimp only at hq6; first | subst hq6 | (obtain ⟨hq7, hq8⟩ := Prod.ext_iff.mp hq6; dsimp only at hq8; subst hq8))))) | with_reducible apply State.xeBuffer_ev)

theorem State.completeDescriptor_ev {σ₀ s : State} (hev : Evolves σ₀ s) (h : Nat) (e : Nat) (x : XeHost) :
    Evolves σ₀ (State.completeDescriptor s h e x) := by
  unfold State.completeDescriptor
  repeat' (first | with_reducible assumption | with_reducible apply State.xeComplete_ev | with_reducible apply State.logAer_ev | with_reducible apply State.note_ev | with_reducible refine ev_ite.mpr ⟨fun _ => ?_, fun _ => ?_⟩ | split | with_reducible apply State.xeStart_ev | with_reducible apply State.xeMove_ev)

theorem State.storeSome_ev {σ₀ s : State} (hev : Evolves σ₀ s) (o : XeOp) (f : Nat) (a0 : Nat) :
    Evolves σ₀ (State.storeSome s o f a0) := by
  induction a0 generalizing s o f <;> unfold State.storeSome <;> repeat' (first | with_reducible assumption | with_reducible refine ev_ite3.mpr ⟨fun _ => ?_, fun _ => ?_⟩ | (split <;> (try dsimp -iota only) <;> try (rename_i hq; obtain ⟨hq1, hq2⟩ := Prod.ext_iff.mp hq; dsimp only at hq2; subst hq2)) | with_reducible apply State.freeNat_ev | with_reducible apply State.bytesInAll_ev | with_reducible apply State.wireInAll_ev | with_reducible apply_assumption)

theorem State.squashMove_ev {σ₀ s : State} (hev : Evolves σ₀ s) (o : XeOp) :
    Evolves σ₀ (State.squashMove s o) := by
  unfold State.squashMove
  repeat' (first | with_reducible assumption | with_reducible apply State.storeSome_ev | with_reducible apply State.sendSome_ev | with_reducible apply State.take_ev | with_reducible refine ev_ite3.mpr ⟨fun _ => ?_, fun _ => ?_⟩ | (split <;> (try dsimp -iota only) <;> try (rename_i hq; obtain ⟨hq1, hq2⟩ := Prod.ext_iff.mp hq; dsimp only at hq2; subst hq2)) | with_reducible apply State.freeNat_ev | with_reducible apply State.bytesOutAll_ev | with_reducible apply State.wireOutAll_ev)

theorem State.squashXe_ev {σ₀ s : State} (hev : Evolves σ₀ s) (h : Nat) (flr : Bool) :
    Evolves σ₀ (State.squashXe s h flr) := by
  unfold State.squashXe
  repeat' (first | with_reducible assumption | with_reducible apply State.squashMove_ev | with_reducible apply State.flr_ev | with_reducible apply State.xeComplete_ev | with_reducible refine ev_foldl' _ _ ?_ (fun _ _ _ => ?_) | with_reducible refine ev_ite.mpr ⟨fun _ => ?_, fun _ => ?_⟩ | with_reducible refine ev_ite3.mpr ⟨fun _ => ?_, fun _ => ?_⟩ | simp only [↓ev_mk, evk_eta])

/-! Mailbox. -/

theorem State.putRsp_ev {σ₀ s : State} (hev : Evolves σ₀ s) (b : Option Nat) (i : Nat) (a0 : List (BitVec 64)) :
    Evolves σ₀ (State.putRsp s b i a0) := by
  induction a0 generalizing s b i <;> unfold State.putRsp <;> repeat' (first | with_reducible assumption | with_reducible apply State.setReg_ev | with_reducible refine ev_ite.mpr ⟨fun _ => ?_, fun _ => ?_⟩ | with_reducible refine ev_ite3.mpr ⟨fun _ => ?_, fun _ => ?_⟩ | with_reducible apply_assumption)

theorem State.boxAbandon_ev {σ₀ s : State} (hev : Evolves σ₀ s) (b : Option Nat) :
    Evolves σ₀ (State.boxAbandon s b) := by
  unfold State.boxAbandon
  repeat' (first | with_reducible assumption | with_reducible apply State.setRf_ev)

theorem State.boxSignal_ev {σ₀ s : State} (hev : Evolves σ₀ s) (b : Option Nat) :
    Evolves σ₀ (State.boxSignal s b) := by
  unfold State.boxSignal
  repeat' (first | with_reducible assumption | with_reducible apply State.msix_ev | split)

theorem State.respond_ev {σ₀ s : State} (hev : Evolves σ₀ s) (b : Option Nat) (result : Nat) (len : Nat) (data : List (BitVec 64)) :
    Evolves σ₀ (State.respond s b result len data) := by
  unfold State.respond
  repeat' (first | with_reducible assumption | with_reducible apply State.setReg_ev | with_reducible apply State.putRsp_ev | with_reducible apply State.boxAbandon_ev | with_reducible apply State.boxSignal_ev)

theorem State.respondWords_ev {σ₀ s : State} (hev : Evolves σ₀ s) (b : Option Nat) (result : Nat) (data : List (BitVec 64)) :
    Evolves σ₀ (State.respondWords s b result data) := by
  unfold State.respondWords
  repeat' (first | with_reducible assumption | with_reducible apply State.respond_ev)

theorem State.respondAbort_ev {σ₀ s : State} (hev : Evolves σ₀ s) (b : Option Nat) (code : Nat) :
    Evolves σ₀ (State.respondAbort s b code) := by
  unfold State.respondAbort
  repeat' (first | with_reducible assumption | with_reducible apply State.respondWords_ev)

theorem State.serve_ev {σ₀ s : State} (b : Option Nat) (code : Nat) (f : State → State) (hev : Evolves σ₀ s) (hx0 : ∀ x0, Evolves σ₀ x0 → Evolves σ₀ (f x0)) :
    Evolves σ₀ (State.serve s b code f) := by
  unfold State.serve
  repeat' (first | with_reducible assumption | with_reducible refine ev_ite.mpr ⟨fun _ => ?_, fun _ => ?_⟩ | with_reducible refine ev_ite3.mpr ⟨fun _ => ?_, fun _ => ?_⟩ | with_reducible apply_assumption)

theorem State.boxRing_ev {σ₀ s : State} (hev : Evolves σ₀ s) (b : Option Nat) :
    Evolves σ₀ (State.boxRing s b) := by
  unfold State.boxRing
  repeat' (first | with_reducible assumption | with_reducible apply State.respondWords_ev | with_reducible apply State.event_ev | with_reducible refine ev_ite3.mpr ⟨fun _ => ?_, fun _ => ?_⟩ | split)

theorem State.setOdWait_ev {σ₀ s : State} (hev : Evolves σ₀ s) (l : List Nat) :
    Evolves σ₀ (State.setOdWait s l) := by
  unfold State.setOdWait
  repeat' (first | with_reducible assumption | simp only [↓ev_mk, evk_eta] | dsimp -iota only | with_reducible trivial)

theorem State.boxStart_ev {σ₀ s : State} (hev : Evolves σ₀ s) (b : Option Nat) :
    Evolves σ₀ (State.boxStart s b) := by
  unfold State.boxStart
  repeat' (first | with_reducible assumption | with_reducible apply State.boxRing_ev | with_reducible apply State.setOdWait_ev | split)

theorem State.odPump_ev {σ₀ s : State} (hev : Evolves σ₀ s) (a0 : List Nat) :
    Evolves σ₀ (State.odPump s a0) := by
  induction a0 generalizing s <;> unfold State.odPump <;> repeat' (first | with_reducible assumption | with_reducible apply State.setOdWait_ev | with_reducible apply State.boxRing_ev | with_reducible refine ev_ite.mpr ⟨fun _ => ?_, fun _ => ?_⟩ | with_reducible apply_assumption)

theorem State.boxCtrlWrite_ev {σ₀ s : State} (hev : Evolves σ₀ s) (b : Option Nat) (req : Bool) (rsp : Bool) (mask : BitVec 64) (v : BitVec 64) :
    Evolves σ₀ (State.boxCtrlWrite s b req rsp mask v) := by
  unfold State.boxCtrlWrite
  repeat' (first | with_reducible assumption | with_reducible apply State.plain_ev | with_reducible apply State.setRf_ev | with_reducible apply State.boxSignal_ev | with_reducible apply State.boxStart_ev | with_reducible refine ev_ite.mpr ⟨fun _ => ?_, fun _ => ?_⟩)

/-! Halls. -/

theorem State.setHstate_ev {σ₀ s : State} (hev : Evolves σ₀ s) (h : Nat) (n : Nat) :
    Evolves σ₀ (State.setHstate s h n) := by
  unfold State.setHstate
  repeat' (first | with_reducible assumption | with_reducible apply State.setRf_ev | with_reducible apply State.msix_ev)

theorem State.giveSlot_ev {σ₀ s : State} (hev : Evolves σ₀ s) (n : Nat) (h : Nat) :
    Evolves σ₀ (State.giveSlot s n h) := by
  unfold State.giveSlot
  repeat' (first | with_reducible assumption | with_reducible apply State.setSlot_ev | with_reducible refine ev_ite.mpr ⟨fun _ => ?_, fun _ => ?_⟩ | with_reducible refine ev_ite3.mpr ⟨fun _ => ?_, fun _ => ?_⟩)

theorem State.giveSlots_ev {σ₀ s : State} (hev : Evolves σ₀ s) (lcn : Nat) (h : Nat) (slots : List Nat) :
    Evolves σ₀ (State.giveSlots s lcn h slots) := by
  unfold State.giveSlots
  repeat' (first | with_reducible assumption | with_reducible apply State.giveSlot_ev | with_reducible apply State.slotShare_ev | with_reducible refine ev_foldl' _ _ ?_ (fun _ _ _ => ?_) | with_reducible refine ev_ite.mpr ⟨fun _ => ?_, fun _ => ?_⟩ | with_reducible refine ev_ite3.mpr ⟨fun _ => ?_, fun _ => ?_⟩)

theorem State.slotCmd_ev {σ₀ s : State} (hev : Evolves σ₀ s) (lcn : Nat) (first : Nat) (count : Nat) (h : Nat) :
    Evolves σ₀ (State.slotCmd s lcn first count h) := by
  unfold State.slotCmd
  repeat' (first | with_reducible assumption | with_reducible apply State.setRf_ev | with_reducible apply State.giveSlots_ev | with_reducible refine ev_ite.mpr ⟨fun _ => ?_, fun _ => ?_⟩ | with_reducible refine ev_ite3.mpr ⟨fun _ => ?_, fun _ => ?_⟩)

theorem State.hallResult_ev {σ₀ s : State} (hev : Evolves σ₀ s) (h : Nat) (n : Nat) :
    Evolves σ₀ (State.hallResult s h n) := by
  unfold State.hallResult
  repeat' (first | with_reducible assumption | with_reducible apply State.setRf_ev)

theorem State.hallCreate_ev {σ₀ s : State} (hev : Evolves σ₀ s) (h : Nat) :
    Evolves σ₀ (State.hallCreate s h) := by
  unfold State.hallCreate
  repeat' (first | with_reducible assumption | with_reducible apply State.hallResult_ev | with_reducible apply State.setHstate_ev | with_reducible refine ev_ite.mpr ⟨fun _ => ?_, fun _ => ?_⟩ | with_reducible refine ev_ite3.mpr ⟨fun _ => ?_, fun _ => ?_⟩)

theorem State.endCycle_ev {σ₀ s : State} (hev : Evolves σ₀ s) (h : Nat) :
    Evolves σ₀ (State.endCycle s h) := by
  unfold State.endCycle
  repeat' (first | with_reducible assumption | with_reducible apply State.freeBin_ev | with_reducible apply State.setGl_ev | with_reducible apply State.snapshot_ev | with_reducible apply State.setSlot_ev | with_reducible apply State.mapCores_ev | with_reducible refine ev_foldl' _ _ ?_ (fun _ _ _ => ?_))

theorem State.leaveGleaner_ev {σ₀ s : State} (hev : Evolves σ₀ s) (h : Nat) :
    Evolves σ₀ (State.leaveGleaner s h) := by
  unfold State.leaveGleaner
  repeat' (first | with_reducible assumption | with_reducible apply State.mapBins_ev | with_reducible apply State.endCycle_ev | with_reducible refine ev_ite.mpr ⟨fun _ => ?_, fun _ => ?_⟩ | with_reducible refine ev_ite3.mpr ⟨fun _ => ?_, fun _ => ?_⟩)

theorem State.hallStart_ev {σ₀ s : State} (hev : Evolves σ₀ s) (h : Nat) :
    Evolves σ₀ (State.hallStart s h) := by
  unfold State.hallStart
  repeat' (first | with_reducible assumption | with_reducible apply State.hallResult_ev | with_reducible apply State.leaveGleaner_ev | with_reducible apply State.setRf_ev | with_reducible apply State.setHstate_ev | with_reducible refine ev_ite.mpr ⟨fun _ => ?_, fun _ => ?_⟩ | with_reducible refine ev_ite3.mpr ⟨fun _ => ?_, fun _ => ?_⟩)

theorem State.unmapHall_ev {σ₀ s : State} (hev : Evolves σ₀ s) (h : Nat) :
    Evolves σ₀ (State.unmapHall s h) := by
  unfold State.unmapHall
  repeat' (first | with_reducible assumption | with_reducible apply State.removeAll_ev)

theorem State.dropCams_ev {σ₀ s : State} (hev : Evolves σ₀ s) (h : Nat) (g : Nat) (owner : Nat) :
    Evolves σ₀ (State.dropCams s h g owner) := by
  unfold State.dropCams
  repeat' (first | with_reducible assumption | with_reducible apply State.setRf_ev | with_reducible apply State.unmapHall_ev | with_reducible apply State.shareChanged_ev | with_reducible refine ev_foldl' _ _ ?_ (fun _ _ _ => ?_) | with_reducible refine ev_ite.mpr ⟨fun _ => ?_, fun _ => ?_⟩ | with_reducible refine ev_ite3.mpr ⟨fun _ => ?_, fun _ => ?_⟩)

theorem State.resetShares_ev {σ₀ s : State} (hev : Evolves σ₀ s) (h : Nat) :
    Evolves σ₀ (State.resetShares s h) := by
  unfold State.resetShares
  repeat' (first | with_reducible assumption | with_reducible apply State.giveSlots_ev | with_reducible apply State.dropCams_ev | with_reducible apply State.setShare_ev | with_reducible refine ev_foldl' _ _ ?_ (fun _ _ _ => ?_))

theorem State.hallRemove_ev {σ₀ s : State} (hev : Evolves σ₀ s) (h : Nat) :
    Evolves σ₀ (State.hallRemove s h) := by
  unfold State.hallRemove
  repeat' (first | with_reducible assumption | with_reducible apply State.hallResult_ev | with_reducible apply State.releaseBins_ev | with_reducible apply State.plain_ev | with_reducible apply State.resetShares_ev | with_reducible apply State.setReg_ev | with_reducible apply State.unmapHall_ev | with_reducible apply State.setHstate_ev | with_reducible refine ev_foldl' _ _ ?_ (fun _ _ _ => ?_) | with_reducible refine ev_ite.mpr ⟨fun _ => ?_, fun _ => ?_⟩ | with_reducible refine ev_ite3.mpr ⟨fun _ => ?_, fun _ => ?_⟩)

theorem State.cutHall_ev {σ₀ s : State} (hev : Evolves σ₀ s) (h : Nat) :
    Evolves σ₀ (State.cutHall s h) := by
  unfold State.cutHall
  repeat' (first | with_reducible assumption | with_reducible apply State.cutSpec_ev | with_reducible refine ev_foldl' _ _ ?_ (fun _ _ _ => ?_))

theorem State.haltHall_ev {σ₀ s : State} (hev : Evolves σ₀ s) (h : Nat) :
    Evolves σ₀ (State.haltHall s h) := by
  unfold State.haltHall
  repeat' (first | with_reducible assumption | with_reducible apply State.preempt_ev | with_reducible refine ev_foldl' _ _ ?_ (fun _ _ _ => ?_) | with_reducible refine ev_ite.mpr ⟨fun _ => ?_, fun _ => ?_⟩ | with_reducible refine ev_ite3.mpr ⟨fun _ => ?_, fun _ => ?_⟩)

theorem State.squashHall_ev {σ₀ s : State} (hev : Evolves σ₀ s) (h : Nat) :
    Evolves σ₀ (State.squashHall s h) := by
  unfold State.squashHall
  repeat' (first | with_reducible assumption | with_reducible apply State.flr_ev | with_reducible apply State.squashXe_ev | with_reducible apply State.boxAbandon_ev | with_reducible apply State.respondAbort_ev | with_reducible apply State.setOdWait_ev | with_reducible apply State.setRf_ev | with_reducible refine ev_ite.mpr ⟨fun _ => ?_, fun _ => ?_⟩ | simp only [↓ev_mk, evk_eta])

theorem State.stopHall_ev {σ₀ s : State} (hev : Evolves σ₀ s) (h : Nat) (squash : Bool) :
    Evolves σ₀ (State.stopHall s h squash) := by
  unfold State.stopHall
  repeat' (first | with_reducible assumption | with_reducible apply State.setRf_ev | with_reducible apply State.haltHall_ev | with_reducible apply State.cutHall_ev | with_reducible apply State.endCycle_ev | with_reducible apply State.squashHall_ev | with_reducible refine ev_ite.mpr ⟨fun _ => ?_, fun _ => ?_⟩ | with_reducible refine ev_ite3.mpr ⟨fun _ => ?_, fun _ => ?_⟩ | simp only [↓ev_mk, evk_eta])

theorem State.resetReq_ev {σ₀ s : State} (hev : Evolves σ₀ s) (h : Nat) (mode : Nat) :
    Evolves σ₀ (State.resetReq s h mode) := by
  unfold State.resetReq
  repeat' (first | with_reducible assumption | with_reducible apply State.note_ev | with_reducible apply State.event_ev)

theorem State.beginReset_ev {σ₀ s : State} (hev : Evolves σ₀ s) (h : Nat) (squash : Bool) (flr : Bool) :
    Evolves σ₀ (State.beginReset s h squash flr) := by
  unfold State.beginReset
  repeat' (first | with_reducible assumption | with_reducible apply State.setRf_ev | with_reducible apply State.flr_ev | with_reducible apply State.setHstate_ev | with_reducible apply State.stopHall_ev | with_reducible apply State.alertHall_ev | with_reducible refine ev_ite.mpr ⟨fun _ => ?_, fun _ => ?_⟩ | with_reducible refine ev_ite3.mpr ⟨fun _ => ?_, fun _ => ?_⟩ | simp only [↓ev_mk, evk_eta])

theorem State.resetGo_ev {σ₀ s : State} (hev : Evolves σ₀ s) (h : Nat) (squash : Bool) :
    Evolves σ₀ (State.resetGo s h squash) := by
  unfold State.resetGo
  repeat' (first | with_reducible assumption | with_reducible apply State.setRf_ev | with_reducible apply State.resetReq_ev | with_reducible apply State.beginReset_ev | with_reducible apply State.stopHall_ev | with_reducible apply State.squashHall_ev | with_reducible refine ev_ite.mpr ⟨fun _ => ?_, fun _ => ?_⟩ | with_reducible refine ev_ite3.mpr ⟨fun _ => ?_, fun _ => ?_⟩)

theorem State.resetFlr_ev {σ₀ s : State} (hev : Evolves σ₀ s) (h : Nat) :
    Evolves σ₀ (State.resetFlr s h) := by
  unfold State.resetFlr
  repeat' (first | with_reducible assumption | with_reducible apply State.resetReq_ev | with_reducible apply State.beginReset_ev | with_reducible apply State.setRf_ev | with_reducible apply State.stopHall_ev | with_reducible apply State.squashHall_ev | with_reducible refine ev_ite.mpr ⟨fun _ => ?_, fun _ => ?_⟩ | with_reducible refine ev_ite3.mpr ⟨fun _ => ?_, fun _ => ?_⟩)

theorem State.drainAck_ev {σ₀ s : State} (hev : Evolves σ₀ s) (h : Nat) :
    Evolves σ₀ (State.drainAck s h) := by
  unfold State.drainAck
  repeat' (first | with_reducible assumption | with_reducible apply State.stopHall_ev | with_reducible refine ev_ite.mpr ⟨fun _ => ?_, fun _ => ?_⟩ | with_reducible refine ev_ite3.mpr ⟨fun _ => ?_, fun _ => ?_⟩)

theorem State.graceEnd_ev {σ₀ s : State} (hev : Evolves σ₀ s) (h : Nat) :
    Evolves σ₀ (State.graceEnd s h) := by
  unfold State.graceEnd
  repeat' (first | with_reducible assumption | with_reducible apply State.drainAck_ev | with_reducible refine ev_ite.mpr ⟨fun _ => ?_, fun _ => ?_⟩ | with_reducible refine ev_ite3.mpr ⟨fun _ => ?_, fun _ => ?_⟩)

theorem State.drainLimitEnd_ev {σ₀ s : State} (hev : Evolves σ₀ s) (h : Nat) :
    Evolves σ₀ (State.drainLimitEnd s h) := by
  unfold State.drainLimitEnd
  repeat' (first | with_reducible assumption | with_reducible apply State.squashHall_ev | with_reducible refine ev_ite.mpr ⟨fun _ => ?_, fun _ => ?_⟩ | with_reducible refine ev_ite3.mpr ⟨fun _ => ?_, fun _ => ?_⟩)

theorem State.clearSlot_ev {σ₀ s : State} (hev : Evolves σ₀ s) (n : Nat) (scn : Nat) :
    Evolves σ₀ (State.clearSlot s n scn) := by
  unfold State.clearSlot
  repeat' (first | with_reducible assumption | with_reducible apply State.setSlot_ev | with_reducible apply State.freeSlot_ev | with_reducible refine ev_ite.mpr ⟨fun _ => ?_, fun _ => ?_⟩ | with_reducible refine ev_ite3.mpr ⟨fun _ => ?_, fun _ => ?_⟩)

theorem State.clearCtxs_ev {σ₀ s : State} (hev : Evolves σ₀ s) (h : Nat) :
    Evolves σ₀ (State.clearCtxs s h) := by
  unfold State.clearCtxs
  repeat' (first | with_reducible assumption | with_reducible apply State.clearSlot_ev | with_reducible apply State.setCtx_ev | with_reducible refine ev_foldl' _ _ ?_ (fun _ _ _ => ?_) | with_reducible refine ev_ite.mpr ⟨fun _ => ?_, fun _ => ?_⟩ | with_reducible refine ev_ite3.mpr ⟨fun _ => ?_, fun _ => ?_⟩ | simp only [↓ev_mk, evk_eta])

theorem State.cleanup_ev {σ₀ s : State} (hev : Evolves σ₀ s) (h : Nat) :
    Evolves σ₀ (State.cleanup s h) := by
  unfold State.cleanup
  repeat' (first | with_reducible assumption | with_reducible apply State.clearCtxs_ev | with_reducible apply State.unmapHall_ev | with_reducible apply State.setShare_ev | with_reducible apply State.reclaim_ev | with_reducible apply State.setRf_ev | with_reducible apply State.setGl_ev | with_reducible refine ev_foldl' _ _ ?_ (fun _ _ _ => ?_) | with_reducible refine ev_ite.mpr ⟨fun _ => ?_, fun _ => ?_⟩ | with_reducible refine ev_ite3.mpr ⟨fun _ => ?_, fun _ => ?_⟩ | simp only [↓ev_mk, evk_eta])

theorem State.resetDone_ev {σ₀ s : State} (hev : Evolves σ₀ s) (h : Nat) :
    Evolves σ₀ (State.resetDone s h) := by
  unfold State.resetDone
  repeat' (first | with_reducible assumption | with_reducible apply State.setReg_ev | with_reducible apply State.setHstate_ev | with_reducible apply State.event_ev | with_reducible apply State.mgrMsix_ev | simp only [↓ev_mk, evk_eta] | with_reducible apply State.report_ev)

theorem State.hallResetDone_ev {σ₀ s : State} (hev : Evolves σ₀ s) (h : Nat) :
    Evolves σ₀ (State.hallResetDone s h) := by
  unfold State.hallResetDone
  repeat' (first | with_reducible assumption | with_reducible apply State.cleanup_ev | with_reducible apply State.resetDone_ev | with_reducible refine ev_ite.mpr ⟨fun _ => ?_, fun _ => ?_⟩ | with_reducible refine ev_ite3.mpr ⟨fun _ => ?_, fun _ => ?_⟩)

theorem State.flr_ev {σ₀ s : State} (hev : Evolves σ₀ s) (h : Nat) :
    Evolves σ₀ (State.flr s h) := by
  unfold State.flr
  repeat' (first | with_reducible assumption | with_reducible apply State.squashXe_ev | with_reducible apply State.resetFn_ev | with_reducible apply State.resetFlr_ev | with_reducible refine ev_ite.mpr ⟨fun _ => ?_, fun _ => ?_⟩ | with_reducible refine ev_ite3.mpr ⟨fun _ => ?_, fun _ => ?_⟩)

theorem State.vfWrite_ev {σ₀ s : State} (hev : Evolves σ₀ s) (enable : Bool) (num : Nat) :
    Evolves σ₀ (State.vfWrite s enable num) := by
  unfold State.vfWrite
  repeat' (first | with_reducible assumption | with_reducible apply State.squashXe_ev | with_reducible apply State.resetFn_ev | with_reducible apply State.resetFlr_ev | with_reducible refine ev_foldl' _ _ ?_ (fun _ _ _ => ?_) | with_reducible refine ev_ite3.mpr ⟨fun _ => ?_, fun _ => ?_⟩ | simp only [↓ev_mk, evk_eta])

theorem State.pfFlr_ev {σ₀ s : State} (hev : Evolves σ₀ s) :
    Evolves σ₀ (State.pfFlr s) := by
  unfold State.pfFlr
  repeat' (first | with_reducible assumption | with_reducible apply State.boxAbandon_ev | with_reducible apply State.vfWrite_ev | simp only [↓ev_mk, evk_eta])

theorem State.perstRise_ev {σ₀ s : State} (hev : Evolves σ₀ s) :
    Evolves σ₀ (State.perstRise s) := by
  unfold State.perstRise
  repeat' (first | with_reducible assumption | with_reducible apply State.pfFlr_ev | simp only [↓ev_mk, evk_eta] | dsimp -iota only | with_reducible trivial)

theorem State.pdwinWrite_ev {σ₀ s : State} (hev : Evolves σ₀ s) (h : Nat) (mask : BitVec 64) (v : BitVec 64) :
    Evolves σ₀ (State.pdwinWrite s h mask v) := by
  unfold State.pdwinWrite
  repeat' (first | with_reducible assumption | with_reducible apply State.countReg_ev | with_reducible apply State.setReg_ev | with_reducible apply State.shareChanged_ev | with_reducible refine ev_ite.mpr ⟨fun _ => ?_, fun _ => ?_⟩ | with_reducible refine ev_ite3.mpr ⟨fun _ => ?_, fun _ => ?_⟩)

theorem State.weightRaised_ev {σ₀ s : State} (hev : Evolves σ₀ s) (h : Nat) :
    Evolves σ₀ (State.weightRaised s h) := by
  unfold State.weightRaised
  repeat' (first | with_reducible assumption | with_reducible apply State.raiseVt_ev | with_reducible refine ev_foldl' _ _ ?_ (fun _ _ _ => ?_) | with_reducible refine ev_ite.mpr ⟨fun _ => ?_, fun _ => ?_⟩ | with_reducible refine ev_ite3.mpr ⟨fun _ => ?_, fun _ => ?_⟩)

theorem State.shareWrite_ev {σ₀ s : State} (hev : Evolves σ₀ s) (h : Nat) (mask : BitVec 64) (v : BitVec 64) :
    Evolves σ₀ (State.shareWrite s h mask v) := by
  unfold State.shareWrite
  repeat' (first | with_reducible assumption | with_reducible apply State.plain_ev | with_reducible apply State.shareChanged_ev | with_reducible apply State.weightRaised_ev | with_reducible refine ev_ite.mpr ⟨fun _ => ?_, fun _ => ?_⟩ | with_reducible refine ev_ite3.mpr ⟨fun _ => ?_, fun _ => ?_⟩)

theorem State.devmapWrite_ev {σ₀ s : State} (hev : Evolves σ₀ s) (h : Nat) (j : Nat) (mask : BitVec 64) (v : BitVec 64) :
    Evolves σ₀ (State.devmapWrite s h j mask v) := by
  unfold State.devmapWrite
  repeat' (first | with_reducible assumption | with_reducible apply State.countReg_ev | with_reducible apply State.plain_ev | with_reducible apply State.unmapHall_ev | with_reducible refine ev_ite.mpr ⟨fun _ => ?_, fun _ => ?_⟩ | with_reducible refine ev_ite3.mpr ⟨fun _ => ?_, fun _ => ?_⟩)

theorem State.hallCtrlWrite_ev {σ₀ s : State} (hev : Evolves σ₀ s) (h : Nat) (mask : BitVec 64) (v : BitVec 64) :
    Evolves σ₀ (State.hallCtrlWrite s h mask v) := by
  unfold State.hallCtrlWrite
  repeat' (first | with_reducible assumption | with_reducible apply State.hallCreate_ev | with_reducible apply State.hallStart_ev | with_reducible apply State.hallRemove_ev | (split <;> (try dsimp -iota only) <;> try (rename_i hq; obtain ⟨hq1, hq2⟩ := Prod.ext_iff.mp hq; dsimp only at hq2; subst hq2)) | with_reducible apply State.store64_ev)

theorem State.hallResetWrite_ev {σ₀ s : State} (hev : Evolves σ₀ s) (h : Nat) (mask : BitVec 64) (v : BitVec 64) :
    Evolves σ₀ (State.hallResetWrite s h mask v) := by
  unfold State.hallResetWrite
  repeat' (first | with_reducible assumption | with_reducible apply State.resetGo_ev | with_reducible refine ev_ite.mpr ⟨fun _ => ?_, fun _ => ?_⟩ | with_reducible refine ev_ite3.mpr ⟨fun _ => ?_, fun _ => ?_⟩ | with_reducible apply State.store64_ev)

theorem State.slotCmdWrite_ev {σ₀ s : State} (hev : Evolves σ₀ s) (mask : BitVec 64) (v : BitVec 64) :
    Evolves σ₀ (State.slotCmdWrite s mask v) := by
  unfold State.slotCmdWrite
  repeat' (first | with_reducible assumption | with_reducible apply State.slotCmd_ev | with_reducible apply State.store64_ev)

theorem State.hallCfgWrite_ev {σ₀ s : State} (hev : Evolves σ₀ s) (h : Nat) (mask : BitVec 64) (v : BitVec 64) :
    Evolves σ₀ (State.hallCfgWrite s h mask v) := by
  unfold State.hallCfgWrite
  repeat' (first | with_reducible assumption | with_reducible apply State.plain_ev | with_reducible apply State.shareChanged_ev | with_reducible refine ev_ite.mpr ⟨fun _ => ?_, fun _ => ?_⟩ | with_reducible refine ev_ite3.mpr ⟨fun _ => ?_, fun _ => ?_⟩)

theorem State.drainAckWrite_ev {σ₀ s : State} (hev : Evolves σ₀ s) (who : Initiator) (h : Nat) (mask : BitVec 64) (v : BitVec 64) :
    Evolves σ₀ (State.drainAckWrite s who h mask v) := by
  unfold State.drainAckWrite
  repeat' (first | with_reducible assumption | with_reducible apply State.gate_ev | with_reducible apply State.drainAck_ev | with_reducible refine ev_ite.mpr ⟨fun _ => ?_, fun _ => ?_⟩ | with_reducible refine ev_ite3.mpr ⟨fun _ => ?_, fun _ => ?_⟩ | with_reducible apply State.store64_ev)

theorem State.hallWrite_ev {σ₀ s : State} (hev : Evolves σ₀ s) (who : Initiator) (off : Nat) (mask : BitVec 64) (v : BitVec 64) :
    Evolves σ₀ (State.hallWrite s who off mask v) := by
  unfold State.hallWrite
  repeat' (first | with_reducible assumption | with_reducible apply State.drainAckWrite_ev | with_reducible apply State.gate_ev | with_reducible apply State.hallCfgWrite_ev | with_reducible apply State.hallCtrlWrite_ev | with_reducible apply State.hallResetWrite_ev | with_reducible apply State.shareWrite_ev | with_reducible apply State.pdwinWrite_ev | with_reducible apply State.slotCmdWrite_ev | with_reducible apply State.devmapWrite_ev | with_reducible apply State.plain_ev | with_reducible refine ev_ite.mpr ⟨fun _ => ?_, fun _ => ?_⟩ | with_reducible refine ev_ite3.mpr ⟨fun _ => ?_, fun _ => ?_⟩)

/-! Pages. -/

theorem State.notifyWrite_ev {σ₀ s : State} (hev : Evolves σ₀ s) (who : Initiator) (h : Nat) (mask : BitVec 64) (v : BitVec 64) :
    Evolves σ₀ (State.notifyWrite s who h mask v) := by
  unfold State.notifyWrite
  repeat' (first | with_reducible assumption | with_reducible apply State.gate_ev | with_reducible apply State.setRf_ev | with_reducible apply State.msix_ev | with_reducible refine ev_foldl' _ _ ?_ (fun _ _ _ => ?_) | with_reducible refine ev_ite.mpr ⟨fun _ => ?_, fun _ => ?_⟩ | with_reducible refine ev_ite3.mpr ⟨fun _ => ?_, fun _ => ?_⟩ | with_reducible apply State.store64_ev)

theorem State.queuePlain_ev {σ₀ s : State} (hev : Evolves σ₀ s) (on : Bool) (off : Nat) (mask : BitVec 64) (v : BitVec 64) (keep : BitVec 64) :
    Evolves σ₀ (State.queuePlain s on off mask v keep) := by
  unfold State.queuePlain
  repeat' (first | with_reducible assumption | with_reducible apply State.plainAlso_ev | with_reducible apply State.plain_ev | with_reducible refine ev_ite.mpr ⟨fun _ => ?_, fun _ => ?_⟩ | with_reducible refine ev_ite3.mpr ⟨fun _ => ?_, fun _ => ?_⟩)

theorem State.qCfgSet_ev {σ₀ s : State} (hev : Evolves σ₀ s) (who : Initiator) (h : Nat) (q : Nat) (mask : BitVec 64) (v : BitVec 64) :
    Evolves σ₀ (State.qCfgSet s who h q mask v) := by
  unfold State.qCfgSet
  repeat' (first | with_reducible assumption | with_reducible apply State.queuePlain_ev | with_reducible apply State.setReg_ev | with_reducible refine ev_ite.mpr ⟨fun _ => ?_, fun _ => ?_⟩ | with_reducible refine ev_ite3.mpr ⟨fun _ => ?_, fun _ => ?_⟩ | simp only [↓ev_mk, evk_eta])

theorem State.qBaseSet_ev {σ₀ s : State} (hev : Evolves σ₀ s) (h : Nat) (q : Nat) (off : Nat) (mask : BitVec 64) (v : BitVec 64) :
    Evolves σ₀ (State.qBaseSet s h q off mask v) := by
  unfold State.qBaseSet
  repeat' (first | with_reducible assumption | with_reducible apply State.queuePlain_ev)

theorem State.doorbell_ev {σ₀ s : State} (hev : Evolves σ₀ s) (h : Nat) (q : Nat) (mask : BitVec 64) (v : BitVec 64) :
    Evolves σ₀ (State.doorbell s h q mask v) := by
  unfold State.doorbell
  repeat' (first | with_reducible assumption | with_reducible apply State.plain_ev | with_reducible apply State.plainAlso_ev | with_reducible apply State.ring_ev | with_reducible apply State.setRf_ev | with_reducible refine ev_ite.mpr ⟨fun _ => ?_, fun _ => ?_⟩ | with_reducible refine ev_ite3.mpr ⟨fun _ => ?_, fun _ => ?_⟩)

theorem State.queueWrite_ev {σ₀ s : State} (hev : Evolves σ₀ s) (who : Initiator) (h : Nat) (q : Nat) (r : Nat) (off : Nat) (mask : BitVec 64) (v : BitVec 64) :
    Evolves σ₀ (State.queueWrite s who h q r off mask v) := by
  unfold State.queueWrite
  repeat' (first | with_reducible assumption | with_reducible apply State.gate_ev | with_reducible apply State.qCfgSet_ev | with_reducible apply State.doorbell_ev | with_reducible apply State.qBaseSet_ev | with_reducible refine ev_ite.mpr ⟨fun _ => ?_, fun _ => ?_⟩ | with_reducible refine ev_ite3.mpr ⟨fun _ => ?_, fun _ => ?_⟩)

theorem State.boxWrite_ev {σ₀ s : State} (hev : Evolves σ₀ s) (who : Initiator) (b : Option Nat) (off : Nat) (mask : BitVec 64) (v : BitVec 64) :
    Evolves σ₀ (State.boxWrite s who b off mask v) := by
  unfold State.boxWrite
  repeat' (first | with_reducible assumption | with_reducible apply State.gate_ev | with_reducible apply State.boxCtrlWrite_ev | with_reducible apply State.plain_ev | with_reducible refine ev_ite.mpr ⟨fun _ => ?_, fun _ => ?_⟩ | with_reducible refine ev_ite3.mpr ⟨fun _ => ?_, fun _ => ?_⟩)

theorem State.pageReg_ev {σ₀ s : State} (hev : Evolves σ₀ s) (who : Initiator) (h : Nat) (o : Nat) (off : Nat) (mask : BitVec 64) (v : BitVec 64) :
    Evolves σ₀ (State.pageReg s who h o off mask v) := by
  unfold State.pageReg
  repeat' (first | with_reducible assumption | with_reducible apply State.notifyWrite_ev | with_reducible apply State.queueWrite_ev | with_reducible apply State.boxWrite_ev | with_reducible apply State.refuseWrite_ev | with_reducible refine ev_ite.mpr ⟨fun _ => ?_, fun _ => ?_⟩ | with_reducible refine ev_ite3.mpr ⟨fun _ => ?_, fun _ => ?_⟩)

theorem State.pageWrite_ev {σ₀ s : State} (hev : Evolves σ₀ s) (who : Initiator) (off : Nat) (mask : BitVec 64) (v : BitVec 64) :
    Evolves σ₀ (State.pageWrite s who off mask v) := by
  unfold State.pageWrite
  repeat' (first | with_reducible assumption | with_reducible apply State.gate_ev | with_reducible apply State.plain_ev | with_reducible apply State.bumpRf_ev | with_reducible apply State.countReg_ev | with_reducible apply State.pageReg_ev | with_reducible refine ev_ite.mpr ⟨fun _ => ?_, fun _ => ?_⟩ | with_reducible refine ev_ite3.mpr ⟨fun _ => ?_, fun _ => ?_⟩)

end Sys2Proof.Machine
end

