-- ==== Sys2Proof/Laws/EvWeb.lean ====
section
/-! SUPPORT. Evolves (Laws/Evolves.lean) for the web position unit, the networks and the Gallery unit. -/

namespace Sys2Proof.Machine

/-! WebAxis. -/

theorem State.pushTrack_ev {σ₀ s : State} (hev : Evolves σ₀ s) (x : Nat) :
    Evolves σ₀ (State.pushTrack s x) := by
  unfold State.pushTrack
  repeat' (first | with_reducible assumption | with_reducible apply State.setAxr_ev)

theorem State.storeSector_ev {σ₀ s : State} (hev : Evolves σ₀ s) (all : Bool) (pa : Nat) (ws : List Word) :
    Evolves σ₀ (State.storeSector s all pa ws) := by
  unfold State.storeSector
  repeat' (first | with_reducible assumption | with_reducible apply State.agentOwn_ev | with_reducible apply State.conflict_ev | with_reducible apply State.setWords_ev | with_reducible refine ev_ite.mpr ⟨fun _ => ?_, fun _ => ?_⟩ | with_reducible refine ev_ite3.mpr ⟨fun _ => ?_, fun _ => ?_⟩)

theorem State.mirrorMark_ev {σ₀ s : State} (hev : Evolves σ₀ s) (all : Bool) (h : Nat) (m : Nat) :
    Evolves σ₀ (State.mirrorMark s all h m) := by
  unfold State.mirrorMark
  repeat' (first | with_reducible assumption | with_reducible apply State.storeSector_ev)

theorem State.mirrorMs_ev {σ₀ s : State} (hev : Evolves σ₀ s) (all : Bool) (h : Nat) (c : Nat) :
    Evolves σ₀ (State.mirrorMs s all h c) := by
  unfold State.mirrorMs
  repeat' (first | with_reducible assumption | with_reducible apply State.storeSector_ev | with_reducible refine ev_ite3.mpr ⟨fun _ => ?_, fun _ => ?_⟩)

theorem State.mirrorMarks_ev {σ₀ s : State} (hev : Evolves σ₀ s) (m : Nat) :
    Evolves σ₀ (State.mirrorMarks s m) := by
  unfold State.mirrorMarks
  repeat' (first | with_reducible assumption | with_reducible apply State.mirrorMark_ev | with_reducible refine ev_foldl' _ _ ?_ (fun _ _ _ => ?_))

theorem State.mirrorSnaps_ev {σ₀ s : State} (hev : Evolves σ₀ s) (c : Nat) :
    Evolves σ₀ (State.mirrorSnaps s c) := by
  unfold State.mirrorSnaps
  repeat' (first | with_reducible assumption | with_reducible apply State.mirrorMs_ev | with_reducible refine ev_foldl' _ _ ?_ (fun _ _ _ => ?_))

theorem State.snapshot_ev {σ₀ s : State} (hev : Evolves σ₀ s) (x : Nat) (i : Nat) (t : Nat) :
    Evolves σ₀ (State.snapshot s x i t) := by
  unfold State.snapshot
  repeat' (first | with_reducible assumption | with_reducible apply State.setReg_ev | with_reducible apply State.mirrorSnaps_ev | with_reducible refine ev_ite.mpr ⟨fun _ => ?_, fun _ => ?_⟩ | with_reducible refine ev_ite3.mpr ⟨fun _ => ?_, fun _ => ?_⟩ | simp only [↓ev_mk, evk_eta])

theorem State.exchangePtab_ev {σ₀ s : State} (hev : Evolves σ₀ s) (x : Nat) :
    Evolves σ₀ (State.exchangePtab s x) := by
  unfold State.exchangePtab
  repeat' (first | with_reducible assumption | simp only [↓ev_mk, evk_eta])

theorem State.swapPitch_ev {σ₀ s : State} (hev : Evolves σ₀ s) (x : Nat) (b : BitVec 64) :
    Evolves σ₀ (State.swapPitch s x b).2 := by
  unfold State.swapPitch
  repeat' (first | with_reducible assumption | with_reducible apply State.setRf_ev | with_reducible apply State.exchangePtab_ev | with_reducible apply State.setReg_ev | with_reducible apply State.setAxr_ev | with_reducible refine ev_ite2.mpr ⟨fun _ => ?_, fun _ => ?_⟩ | with_reducible refine ev_ite3.mpr ⟨fun _ => ?_, fun _ => ?_⟩)

theorem State.nextPitch_ev {σ₀ s : State} (hev : Evolves σ₀ s) (x : Nat) :
    Evolves σ₀ (State.nextPitch s x) := by
  unfold State.nextPitch
  repeat' (first | with_reducible assumption | with_reducible apply State.setReg_ev | with_reducible apply State.setAxr_ev)

theorem State.pitchBoundary_ev {σ₀ s : State} (hev : Evolves σ₀ s) (x : Nat) :
    Evolves σ₀ (State.pitchBoundary s x).2 := by
  unfold State.pitchBoundary
  repeat' (first | with_reducible assumption | with_reducible apply State.nextPitch_ev | with_reducible refine ev_ite2.mpr ⟨fun _ => ?_, fun _ => ?_⟩ | with_reducible refine ev_ite3.mpr ⟨fun _ => ?_, fun _ => ?_⟩ | with_reducible apply State.swapPitch_ev)

theorem State.pitchRun_ev {σ₀ s : State} (hev : Evolves σ₀ s) (x : Nat) (pos : BitVec 64) (dtOf : BitVec 64 → Nat) (a0 : Nat) :
    Evolves σ₀ (State.pitchRun s x pos dtOf a0) := by
  induction a0 generalizing s x pos dtOf <;> unfold State.pitchRun <;> repeat' (first | with_reducible assumption | with_reducible apply State.snapshot_ev | with_reducible apply State.setRf_ev | with_reducible apply State.setAxr_ev | with_reducible refine ev_ite3.mpr ⟨fun _ => ?_, fun _ => ?_⟩ | (split <;> (try dsimp -iota only) <;> try (rename_i hq; obtain ⟨hq1, hq2⟩ := Prod.ext_iff.mp hq; dsimp only at hq2; subst hq2)) | dsimp -iota only | with_reducible apply State.pitchBoundary_ev | with_reducible apply_assumption)

theorem State.leaveBoundary_ev {σ₀ s : State} (hev : Evolves σ₀ s) (x : Nat) (swapped : Bool) :
    Evolves σ₀ (State.leaveBoundary s x swapped) := by
  unfold State.leaveBoundary
  repeat' (first | with_reducible assumption | with_reducible apply State.setAxr_ev | with_reducible apply State.pitchRun_ev | with_reducible refine ev_ite3.mpr ⟨fun _ => ?_, fun _ => ?_⟩ | (split <;> (try dsimp -iota only) <;> try (rename_i hq; obtain ⟨hq1, hq2⟩ := Prod.ext_iff.mp hq; dsimp only at hq2; subst hq2)) | with_reducible apply State.pitchBoundary_ev)

theorem State.requestSwap_ev {σ₀ s : State} (hev : Evolves σ₀ s) (x : Nat) :
    Evolves σ₀ (State.requestSwap s x) := by
  unfold State.requestSwap
  repeat' (first | with_reducible assumption | with_reducible apply State.setRf_ev | with_reducible apply State.pitchRun_ev | with_reducible refine ev_ite3.mpr ⟨fun _ => ?_, fun _ => ?_⟩ | (split <;> (try dsimp -iota only) <;> try (rename_i hq; obtain ⟨hq1, hq2⟩ := Prod.ext_iff.mp hq; dsimp only at hq2; subst hq2)) | dsimp -iota only | with_reducible apply State.swapPitch_ev)

theorem State.itemSkip_ev {σ₀ s : State} (hev : Evolves σ₀ s) (x : Nat) (i : Nat) :
    Evolves σ₀ (State.itemSkip s x i) := by
  unfold State.itemSkip
  repeat' (first | with_reducible assumption | with_reducible apply State.bumpRf_ev | with_reducible apply State.note_ev)

theorem State.ringItem_ev {σ₀ s : State} (hev : Evolves σ₀ s) (x : Nat) (i : Nat) (w : Word) :
    Evolves σ₀ (State.ringItem s x i w).2 := by
  unfold State.ringItem
  repeat' (first | with_reducible assumption | with_reducible apply State.agentHeal_ev | with_reducible refine ev_ite3.mpr ⟨fun _ => ?_, fun _ => ?_⟩ | (split <;> (try dsimp -iota only) <;> try (rename_i hq; obtain ⟨hq1, hq2⟩ := Prod.ext_iff.mp hq; dsimp only at hq2; subst hq2)) | dsimp -iota only | with_reducible apply State.poisonStale_ev | with_reducible apply State.checkPtr_ev)

theorem State.unitLoad_ev {σ₀ s : State} (hev : Evolves σ₀ s) (h : Nat) (pa : Nat) :
    Evolves σ₀ (State.unitLoad s h pa).2 := by
  unfold State.unitLoad
  repeat' (first | with_reducible assumption | (split <;> (try dsimp -iota only) <;> try (rename_i hq; obtain ⟨hq1, hq2⟩ := Prod.ext_iff.mp hq; dsimp only at hq2; subst hq2)) | with_reducible apply State.agentLoad_ev)

theorem State.itemOk_ev {σ₀ s : State} (hev : Evolves σ₀ s) (h : Nat) (pa : Nat) :
    Evolves σ₀ (State.itemOk s h pa).2 := by
  unfold State.itemOk
  repeat' (first | with_reducible assumption | (split <;> (try dsimp -iota only) <;> try (rename_i hq; obtain ⟨hq1, hq2⟩ := Prod.ext_iff.mp hq; dsimp only at hq2; subst hq2)) | with_reducible apply State.unitLoad_ev)

theorem State.markItem_ev {σ₀ s : State} (hev : Evolves σ₀ s) (x : Nat) (i : Nat) (w : Word) :
    Evolves σ₀ (State.markItem s x i w) := by
  unfold State.markItem
  repeat' (first | with_reducible assumption | with_reducible apply State.itemSkip_ev | with_reducible apply State.atomicOr_ev | with_reducible refine ev_ite3.mpr ⟨fun _ => ?_, fun _ => ?_⟩ | (split <;> (try dsimp -iota only) <;> try (rename_i hq; obtain ⟨hq1, hq2⟩ := Prod.ext_iff.mp hq; dsimp only at hq2; subst hq2)) | with_reducible apply State.ringItem_ev | with_reducible apply State.itemOk_ev)

theorem State.passing_ev {σ₀ s : State} (hev : Evolves σ₀ s) (x : Nat) (i : Nat) (dist : Nat) (pos : BitVec 64) :
    Evolves σ₀ (State.passing s x i dist pos).2 := by
  unfold State.passing
  repeat' (first | with_reducible assumption | with_reducible refine ev_ite3.mpr ⟨fun _ => ?_, fun _ => ?_⟩ | (split <;> (try dsimp -iota only) <;> try (rename_i hq; obtain ⟨hq1, hq2⟩ := Prod.ext_iff.mp hq; dsimp only at hq2; subst hq2)) | with_reducible apply State.agentLoad_ev)

theorem State.cursorAt_ev {σ₀ s : State} (hev : Evolves σ₀ s) (x : Nat) (dist : Nat) (pos : BitVec 64) (i : Nat) :
    Evolves σ₀ (State.cursorAt s x dist pos i).2 := by
  unfold State.cursorAt
  split
  · exact hev
  · have h1 := State.passing_ev hev x i dist pos
    generalize State.passing s x i dist pos = q at h1 ⊢
    obtain ⟨y, t⟩ := q
    cases y with
    | ahead => exact h1
    | bad => exact State.itemSkip_ev h1 x i
    | passed w => exact ev_ite.mpr ⟨fun _ => h1, fun _ => State.markItem_ev h1 x i w⟩

theorem State.runCursor_ev {σ₀ s : State} (hev : Evolves σ₀ s) (x : Nat) (dist : Nat) (pos : BitVec 64) (i : Nat) (a0 : Nat) :
    Evolves σ₀ (State.runCursor s x dist pos i a0).2 := by
  induction a0 generalizing s i with
  | zero => exact hev
  | succ n ih =>
    unfold State.runCursor
    have h1 := State.cursorAt_ev hev x dist pos i
    dsimp only
    split
    · exact ih h1 _
    · exact h1

theorem State.setCursor_ev {σ₀ s : State} (hev : Evolves σ₀ s) (x : Nat) (k : Nat) (i : Nat) :
    Evolves σ₀ (State.setCursor s x k i) := by
  unfold State.setCursor
  repeat' (first | with_reducible assumption | with_reducible apply State.setAxr_ev)

theorem State.ringHead_ev {σ₀ s : State} (hev : Evolves σ₀ s) (x : Nat) :
    Evolves σ₀ (State.ringHead s x) := by
  unfold State.ringHead
  repeat' (first | with_reducible assumption | with_reducible apply State.setRf_ev)

theorem State.runStations_ev {σ₀ s : State} (hev : Evolves σ₀ s) (x : Nat) (pos : BitVec 64) :
    Evolves σ₀ (State.runStations s x pos) := by
  unfold State.runStations
  repeat' (first | with_reducible assumption | with_reducible apply State.setCursor_ev | with_reducible apply State.ringHead_ev | with_reducible refine ev_foldl' _ _ ?_ (fun _ _ _ => ?_) | with_reducible refine ev_ite.mpr ⟨fun _ => ?_, fun _ => ?_⟩ | with_reducible refine ev_ite3.mpr ⟨fun _ => ?_, fun _ => ?_⟩ | with_reducible apply State.runCursor_ev)

theorem State.crossKeys_ev {σ₀ s : State} (hev : Evolves σ₀ s) (x : Nat) (pos : BitVec 64) (dtOf : BitVec 64 → Nat) :
    Evolves σ₀ (State.crossKeys s x pos dtOf) := by
  unfold State.crossKeys
  repeat' (first | with_reducible assumption | with_reducible apply State.cutSpec_ev | with_reducible apply State.setGal_ev | with_reducible refine ev_foldl' _ _ ?_ (fun _ _ _ => ?_) | with_reducible refine ev_ite.mpr ⟨fun _ => ?_, fun _ => ?_⟩ | with_reducible refine ev_ite3.mpr ⟨fun _ => ?_, fun _ => ?_⟩)

theorem State.moveAxisBy_ev {σ₀ s : State} (hev : Evolves σ₀ s) (x : Nat) (pos : BitVec 64) (dtOf : BitVec 64 → Nat) :
    Evolves σ₀ (State.moveAxisBy s x pos dtOf) := by
  unfold State.moveAxisBy
  repeat' (first | with_reducible assumption | with_reducible apply State.setReg_ev | with_reducible apply State.setAxr_ev | with_reducible apply State.runStations_ev | with_reducible apply State.leaveBoundary_ev | with_reducible apply State.pitchRun_ev | with_reducible apply State.crossKeys_ev | with_reducible apply State.wake_ev | with_reducible refine ev_foldl' _ _ ?_ (fun _ _ _ => ?_) | with_reducible refine ev_ite.mpr ⟨fun _ => ?_, fun _ => ?_⟩)

theorem State.moveAxis_ev {σ₀ s : State} (hev : Evolves σ₀ s) (x : Nat) (pos : BitVec 64) :
    Evolves σ₀ (State.moveAxis s x pos) := by
  unfold State.moveAxis
  repeat' (first | with_reducible assumption | with_reducible apply State.moveAxisBy_ev | dsimp -iota only | with_reducible trivial)

theorem State.countBy_ev {σ₀ s : State} (hev : Evolves σ₀ s) (x : Nat) (d : Int) (t : Nat) :
    Evolves σ₀ (State.countBy s x d t) := by
  unfold State.countBy
  repeat' (first | with_reducible assumption | with_reducible apply State.pushTrack_ev | with_reducible apply State.moveAxis_ev | with_reducible apply State.setRf_ev | with_reducible apply State.setAxr_ev | with_reducible refine ev_ite.mpr ⟨fun _ => ?_, fun _ => ?_⟩)

theorem State.declareLoss_ev {σ₀ s : State} (hev : Evolves σ₀ s) (x : Nat) (why : Option Nat) :
    Evolves σ₀ (State.declareLoss s x why) := by
  unfold State.declareLoss
  repeat' (first | with_reducible assumption | with_reducible apply State.pushTrack_ev | with_reducible apply State.setRf_ev | with_reducible apply State.setAxr_ev | with_reducible apply State.setReg_ev | with_reducible apply State.note_ev | with_reducible refine ev_ite3.mpr ⟨fun _ => ?_, fun _ => ?_⟩ | split)

theorem State.endLoss_ev {σ₀ s : State} (hev : Evolves σ₀ s) (x : Nat) :
    Evolves σ₀ (State.endLoss s x) := by
  unfold State.endLoss
  repeat' (first | with_reducible assumption | with_reducible apply State.pushTrack_ev | with_reducible apply State.setRf_ev | with_reducible apply State.setAxr_ev)

theorem State.quadEdge_ev {σ₀ s : State} (hev : Evolves σ₀ s) (x : Nat) (step : Option Bool) (b : Bool) :
    Evolves σ₀ (State.quadEdge s x step b) := by
  unfold State.quadEdge
  repeat' (first | with_reducible assumption | with_reducible apply step_ev | with_reducible apply State.countBy_ev | with_reducible apply State.setAxr_ev | with_reducible apply State.declareLoss_ev | split | dsimp -iota only)

theorem State.encoderPins_ev {σ₀ s : State} (hev : Evolves σ₀ s) (x : Nat) (e : PinEdge) :
    Evolves σ₀ (State.encoderPins s x e) := by
  unfold State.encoderPins
  repeat' (first | with_reducible assumption | with_reducible apply State.setAxr_ev | with_reducible apply State.quadEdge_ev | with_reducible refine ev_ite.mpr ⟨fun _ => ?_, fun _ => ?_⟩)

theorem State.zEdge_ev {σ₀ s : State} (hev : Evolves σ₀ s) (x : Nat) :
    Evolves σ₀ (State.zEdge s x) := by
  unfold State.zEdge
  repeat' (first | with_reducible assumption | with_reducible apply State.setAxr_ev | with_reducible apply State.bumpRf_ev | with_reducible apply State.event_ev | with_reducible refine ev_ite3.mpr ⟨fun _ => ?_, fun _ => ?_⟩ | split | dsimp -iota only)

theorem State.ssiStart_ev {σ₀ s : State} (hev : Evolves σ₀ s) (x : Nat) :
    Evolves σ₀ (State.ssiStart s x) := by
  unfold State.ssiStart
  repeat' (first | with_reducible assumption | with_reducible apply State.setAxr_ev | with_reducible refine ev_ite.mpr ⟨fun _ => ?_, fun _ => ?_⟩ | with_reducible refine ev_ite3.mpr ⟨fun _ => ?_, fun _ => ?_⟩)

theorem State.ssiGood_ev {σ₀ s : State} (hev : Evolves σ₀ s) (x : Nat) (v : Nat) (d : Int) :
    Evolves σ₀ (State.ssiGood s x v d) := by
  unfold State.ssiGood
  repeat' (first | with_reducible assumption | with_reducible apply State.endLoss_ev | with_reducible apply State.setAxr_ev | with_reducible apply State.countBy_ev | with_reducible apply State.moveAxis_ev | with_reducible refine ev_ite.mpr ⟨fun _ => ?_, fun _ => ?_⟩ | with_reducible refine ev_ite3.mpr ⟨fun _ => ?_, fun _ => ?_⟩)

theorem State.ssiBad_ev {σ₀ s : State} (hev : Evolves σ₀ s) (x : Nat) (why : Nat) :
    Evolves σ₀ (State.ssiBad s x why) := by
  unfold State.ssiBad
  repeat' (first | with_reducible assumption | with_reducible apply State.setAxr_ev | with_reducible apply State.declareLoss_ev | with_reducible refine ev_ite.mpr ⟨fun _ => ?_, fun _ => ?_⟩ | with_reducible refine ev_ite3.mpr ⟨fun _ => ?_, fun _ => ?_⟩)

theorem State.ssiFrame_ev {σ₀ s : State} (hev : Evolves σ₀ s) (x : Nat) (bits : Nat) (before : Bool) (after : Bool) :
    Evolves σ₀ (State.ssiFrame s x bits before after) := by
  unfold State.ssiFrame
  repeat' (first | with_reducible assumption | with_reducible apply State.ssiStart_ev | with_reducible apply State.setAxr_ev | with_reducible apply State.ssiBad_ev | with_reducible apply State.ssiGood_ev | with_reducible refine ev_ite3.mpr ⟨fun _ => ?_, fun _ => ?_⟩ | split | dsimp -iota only)

theorem State.extrapEnd_ev {σ₀ s : State} (hev : Evolves σ₀ s) (x : Nat) :
    Evolves σ₀ (State.extrapEnd s x) := by
  unfold State.extrapEnd
  repeat' (first | with_reducible assumption | with_reducible apply State.moveAxis_ev | with_reducible apply State.pushTrack_ev | with_reducible apply State.setRf_ev | with_reducible apply State.setReg_ev | with_reducible refine ev_ite.mpr ⟨fun _ => ?_, fun _ => ?_⟩ | with_reducible refine ev_ite3.mpr ⟨fun _ => ?_, fun _ => ?_⟩)

theorem State.recoverAxis_ev {σ₀ s : State} (hev : Evolves σ₀ s) (x : Nat) :
    Evolves σ₀ (State.recoverAxis s x) := by
  unfold State.recoverAxis
  repeat' (first | with_reducible assumption | with_reducible apply State.setRf_ev | with_reducible apply State.setAxr_ev | with_reducible apply State.endLoss_ev | with_reducible refine ev_ite.mpr ⟨fun _ => ?_, fun _ => ?_⟩ | with_reducible refine ev_ite3.mpr ⟨fun _ => ?_, fun _ => ?_⟩)

/-! WebCam. -/

theorem State.setCamQ_ev {σ₀ s : State} (hev : Evolves σ₀ s) (k : Nat) (q : List CamAct) :
    Evolves σ₀ (State.setCamQ s k q) := by
  unfold State.setCamQ
  repeat' (first | with_reducible assumption | with_reducible apply State.setRf_ev | simp only [↓ev_mk, evk_eta])

theorem State.camEvent_ev {σ₀ s : State} (hev : Evolves σ₀ s) (k : Nat) (name : String) :
    Evolves σ₀ (State.camEvent s k name) := by
  unfold State.camEvent
  repeat' (first | with_reducible assumption | with_reducible apply State.event_ev)

theorem State.camLevels_ev {σ₀ s : State} (hev : Evolves σ₀ s) (k : Nat) (t : Nat) (l : List Bool) :
    Evolves σ₀ (State.camLevels s k t l) := by
  unfold State.camLevels
  repeat' (first | with_reducible assumption | with_reducible apply State.bumpRf_ev | with_reducible apply State.setRf_ev | with_reducible refine ev_ite.mpr ⟨fun _ => ?_, fun _ => ?_⟩ | with_reducible refine ev_ite3.mpr ⟨fun _ => ?_, fun _ => ?_⟩ | simp only [↓ev_mk, evk_eta])

theorem State.netLate_ev {σ₀ s : State} (hev : Evolves σ₀ s) (k : Nat) :
    Evolves σ₀ (State.netLate s k) := by
  unfold State.netLate
  repeat' (first | with_reducible assumption | with_reducible apply State.bumpRf_ev | with_reducible apply State.camEvent_ev)

theorem State.camToNet_ev {σ₀ s : State} (hev : Evolves σ₀ s) (k : Nat) (level : Bool) (t : Nat) :
    Evolves σ₀ (State.camToNet s k level t) := by
  unfold State.camToNet
  repeat' (first | with_reducible assumption | with_reducible apply State.send_ev | with_reducible apply State.netLate_ev | with_reducible refine ev_ite.mpr ⟨fun _ => ?_, fun _ => ?_⟩ | with_reducible refine ev_ite3.mpr ⟨fun _ => ?_, fun _ => ?_⟩ | simp only [↓ev_mk, evk_eta])

theorem State.camLate_ev {σ₀ s : State} (hev : Evolves σ₀ s) (k : Nat) (level : Bool) (t : Nat) :
    Evolves σ₀ (State.camLate s k level t) := by
  unfold State.camLate
  repeat' (first | with_reducible assumption | with_reducible apply State.bumpRf_ev | with_reducible apply State.camEvent_ev | with_reducible apply State.note_ev | with_reducible apply State.camToNet_ev | with_reducible apply State.camLevels_ev | with_reducible refine ev_ite.mpr ⟨fun _ => ?_, fun _ => ?_⟩ | with_reducible refine ev_ite3.mpr ⟨fun _ => ?_, fun _ => ?_⟩)

theorem State.camRefused_ev {σ₀ s : State} (hev : Evolves σ₀ s) (k : Nat) :
    Evolves σ₀ (State.camRefused s k) := by
  unfold State.camRefused
  repeat' (first | with_reducible assumption | with_reducible apply State.bumpRf_ev | with_reducible apply State.camEvent_ev)

theorem State.camAt_ev {σ₀ s : State} (hev : Evolves σ₀ s) (k : Nat) (level : Bool) (p : BitVec 64) :
    Evolves σ₀ (State.camAt s k level p) := by
  unfold State.camAt
  repeat' (first | with_reducible assumption | with_reducible apply State.camRefused_ev | with_reducible apply State.setCamQ_ev | with_reducible refine ev_ite.mpr ⟨fun _ => ?_, fun _ => ?_⟩ | with_reducible refine ev_ite3.mpr ⟨fun _ => ?_, fun _ => ?_⟩)

theorem State.camDt_ev {σ₀ s : State} (hev : Evolves σ₀ s) (k : Nat) (level : Bool) (t : Nat) :
    Evolves σ₀ (State.camDt s k level t) := by
  unfold State.camDt
  repeat' (first | with_reducible assumption | with_reducible apply State.camRefused_ev | with_reducible apply State.camLate_ev | with_reducible apply State.setCamQ_ev | with_reducible apply State.camToNet_ev | with_reducible refine ev_ite.mpr ⟨fun _ => ?_, fun _ => ?_⟩ | with_reducible refine ev_ite3.mpr ⟨fun _ => ?_, fun _ => ?_⟩)

theorem State.projectAll_ev {σ₀ s : State} (hev : Evolves σ₀ s) (k : Nat) (a0 : List CamAct) :
    Evolves σ₀ (State.projectAll s k a0).2 := by
  induction a0 generalizing s k <;> unfold State.projectAll <;> repeat' (first | with_reducible assumption | with_reducible apply State.camToNet_ev | with_reducible apply State.camLate_ev | (split <;> (try dsimp -iota only) <;> try (rename_i hq; obtain ⟨hq1, hq2⟩ := Prod.ext_iff.mp hq; dsimp only at hq2; subst hq2)) | with_reducible apply_assumption)

theorem State.projectCam_ev {σ₀ s : State} (hev : Evolves σ₀ s) (k : Nat) :
    Evolves σ₀ (State.projectCam s k) := by
  unfold State.projectCam
  repeat' (first | with_reducible assumption | with_reducible apply State.setCamQ_ev | with_reducible apply State.projectAll_ev)

theorem State.camFire_ev {σ₀ s : State} (hev : Evolves σ₀ s) (k : Nat) :
    Evolves σ₀ (State.camFire s k) := by
  unfold State.camFire
  repeat' (first | with_reducible assumption | with_reducible apply State.setCamQ_ev | with_reducible apply State.camLevels_ev | with_reducible refine ev_ite3.mpr ⟨fun _ => ?_, fun _ => ?_⟩ | split)

theorem State.camCtrl_ev {σ₀ s : State} (hev : Evolves σ₀ s) (k : Nat) (act : BitVec 64) :
    Evolves σ₀ (State.camCtrl s k act) := by
  unfold State.camCtrl
  repeat' (first | with_reducible assumption | with_reducible apply State.setCamQ_ev | with_reducible apply State.camToNet_ev | with_reducible apply State.camLevels_ev | with_reducible refine ev_ite3.mpr ⟨fun _ => ?_, fun _ => ?_⟩ | split | dsimp -iota only)

theorem State.camWrite_ev {σ₀ s : State} (hev : Evolves σ₀ s) (who : Initiator) (off : Nat) (mask : BitVec 64) (v : BitVec 64) :
    Evolves σ₀ (State.camWrite s who off mask v) := by
  unfold State.camWrite
  repeat' (first | with_reducible assumption | with_reducible apply State.gate_ev | with_reducible apply State.plain_ev | with_reducible apply State.shareChanged_ev | with_reducible apply State.clearFields_ev | with_reducible apply State.camCtrl_ev | with_reducible apply State.camRefused_ev | with_reducible apply State.camAt_ev | with_reducible apply State.camDt_ev | with_reducible refine ev_ite.mpr ⟨fun _ => ?_, fun _ => ?_⟩ | with_reducible refine ev_ite3.mpr ⟨fun _ => ?_, fun _ => ?_⟩ | with_reducible apply State.store64_ev)

/-! Net. -/

theorem State.eclCycWrite_ev {σ₀ s : State} (hev : Evolves σ₀ s) (mask : BitVec 64) (v : BitVec 64) :
    Evolves σ₀ (State.eclCycWrite s mask v) := by
  unfold State.eclCycWrite
  repeat' (first | with_reducible assumption | with_reducible apply State.plain_ev | simp only [↓ev_mk, evk_eta])

theorem State.closeCycle_ev {σ₀ s : State} (hev : Evolves σ₀ s) :
    Evolves σ₀ (State.closeCycle s) := by
  unfold State.closeCycle
  repeat' (first | with_reducible assumption | simp only [↓ev_mk, evk_eta] | dsimp -iota only | with_reducible trivial)

theorem State.eclCfgWrite_ev {σ₀ s : State} (hev : Evolves σ₀ s) (mask : BitVec 64) (v : BitVec 64) :
    Evolves σ₀ (State.eclCfgWrite s mask v) := by
  unfold State.eclCfgWrite
  repeat' (first | with_reducible assumption | with_reducible apply State.countReg_ev | with_reducible apply State.setRf_ev | with_reducible apply State.plain_ev | with_reducible apply State.closeCycle_ev | with_reducible refine ev_ite.mpr ⟨fun _ => ?_, fun _ => ?_⟩)

theorem State.pdViolation_ev {σ₀ s : State} (hev : Evolves σ₀ s) (h : Nat) :
    Evolves σ₀ (State.pdViolation s h) := by
  unfold State.pdViolation
  repeat' (first | with_reducible assumption | with_reducible apply State.bumpRf_ev | with_reducible apply State.setRf_ev)

theorem State.pdWrite_ev {σ₀ s : State} (hev : Evolves σ₀ s) (who : Initiator) (off : Nat) (mask : BitVec 64) (v : BitVec 64) :
    Evolves σ₀ (State.pdWrite s who off mask v) := by
  unfold State.pdWrite
  repeat' (first | with_reducible assumption | with_reducible apply State.plain_ev | with_reducible apply State.pdViolation_ev | with_reducible refine ev_ite.mpr ⟨fun _ => ?_, fun _ => ?_⟩ | with_reducible refine ev_ite3.mpr ⟨fun _ => ?_, fun _ => ?_⟩ | split)

theorem State.eclWrite_ev {σ₀ s : State} (hev : Evolves σ₀ s) (who : Initiator) (off : Nat) (mask : BitVec 64) (v : BitVec 64) :
    Evolves σ₀ (State.eclWrite s who off mask v) := by
  unfold State.eclWrite
  repeat' (first | with_reducible assumption | with_reducible apply State.pdWrite_ev | with_reducible apply State.gate_ev | with_reducible apply State.plain_ev | with_reducible apply State.eclCfgWrite_ev | with_reducible apply State.eclCycWrite_ev | with_reducible apply State.countReg_ev | with_reducible apply State.setRf_ev | with_reducible refine ev_ite.mpr ⟨fun _ => ?_, fun _ => ?_⟩ | with_reducible apply State.store64_ev)

theorem State.placeCam_ev {σ₀ s : State} (hev : Evolves σ₀ s) (c : Nat) (k : Nat) :
    Evolves σ₀ (State.placeCam s c k) := by
  unfold State.placeCam
  repeat' (first | with_reducible assumption | with_reducible apply State.netLate_ev | with_reducible refine ev_ite3.mpr ⟨fun _ => ?_, fun _ => ?_⟩ | split | simp only [↓ev_mk, evk_eta])

theorem State.outputSnapshot_ev {σ₀ s : State} (hev : Evolves σ₀ s) :
    Evolves σ₀ (State.outputSnapshot s) := by
  unfold State.outputSnapshot
  repeat' (first | with_reducible assumption | with_reducible apply State.placeCam_ev | with_reducible refine ev_foldl' _ _ ?_ (fun _ _ _ => ?_) | with_reducible refine ev_ite.mpr ⟨fun _ => ?_, fun _ => ?_⟩ | with_reducible refine ev_ite3.mpr ⟨fun _ => ?_, fun _ => ?_⟩ | simp only [↓ev_mk, evk_eta])

theorem State.setInByte_ev {σ₀ s : State} (hev : Evolves σ₀ s) (b : Nat) (v : Byte) :
    Evolves σ₀ (State.setInByte s b v) := by
  unfold State.setInByte
  repeat' (first | with_reducible assumption | with_reducible apply State.setReg_ev | with_reducible refine ev_ite.mpr ⟨fun _ => ?_, fun _ => ?_⟩ | with_reducible refine ev_ite3.mpr ⟨fun _ => ?_, fun _ => ?_⟩)

theorem State.setInBytes_ev {σ₀ s : State} (hev : Evolves σ₀ s) (b : Nat) (a0 : List Byte) :
    Evolves σ₀ (State.setInBytes s b a0) := by
  induction a0 generalizing s b <;> unfold State.setInBytes <;> repeat' (first | with_reducible assumption | with_reducible apply State.setInByte_ev | with_reducible apply_assumption)

theorem State.gramResult_ev {σ₀ s : State} (hev : Evolves σ₀ s) (back : List Gram) (i : Nat) :
    Evolves σ₀ (State.gramResult s back i).2 := by
  unfold State.gramResult
  repeat' (first | with_reducible assumption | with_reducible apply State.setInBytes_ev | with_reducible apply State.take_ev | with_reducible refine ev_ite3.mpr ⟨fun _ => ?_, fun _ => ?_⟩ | split)

theorem State.lineResult_ev {σ₀ s : State} (hev : Evolves σ₀ s) (back : List Gram) :
    Evolves σ₀ (State.lineResult s back) := by
  unfold State.lineResult
  have h1 := ev_foldl2 (fun (x : BitVec 64 × State) i =>
      (if (x.2.gramResult back i).1 then setBit x.1 i true else x.1, (x.2.gramResult back i).2))
    (fun x a h => State.gramResult_ev h back a) ((List.range 16).flatMap s.gramsOf) (0, s) hev
  dsimp only
  generalize List.foldl (fun (x : BitVec 64 × State) i =>
      (if (x.2.gramResult back i).1 then setBit x.1 i true else x.1, (x.2.gramResult back i).2)) (0, s)
      ((List.range 16).flatMap s.gramsOf) = q at h1 ⊢
  repeat' (first | with_reducible assumption | with_reducible apply State.setReg_ev | with_reducible apply State.closeCycle_ev | with_reducible apply State.setRf_ev | with_reducible apply State.event_ev | with_reducible apply State.bumpRf_ev | with_reducible apply State.note_ev | with_reducible refine ev_ite.mpr ⟨fun _ => ?_, fun _ => ?_⟩ | with_reducible apply State.gramResult_ev)

theorem State.sendFrames_ev {σ₀ s : State} (hev : Evolves σ₀ s) :
    Evolves σ₀ (State.sendFrames s) := by
  unfold State.sendFrames
  repeat' (first | with_reducible assumption | with_reducible apply State.send_ev | with_reducible refine ev_foldl' _ _ ?_ (fun _ _ _ => ?_) | with_reducible refine ev_ite.mpr ⟨fun _ => ?_, fun _ => ?_⟩ | with_reducible refine ev_ite3.mpr ⟨fun _ => ?_, fun _ => ?_⟩)

theorem State.lineCycle_ev {σ₀ s : State} (hev : Evolves σ₀ s) :
    Evolves σ₀ (State.lineCycle s) := by
  unfold State.lineCycle
  repeat' (first | with_reducible assumption | with_reducible apply State.lineResult_ev | with_reducible apply State.sendFrames_ev | with_reducible refine ev_ite.mpr ⟨fun _ => ?_, fun _ => ?_⟩ | with_reducible refine ev_ite3.mpr ⟨fun _ => ?_, fun _ => ?_⟩ | simp only [↓ev_mk, evk_eta])

theorem State.ringState_ev {σ₀ s : State} (hev : Evolves σ₀ s) (brk : Option Nat) :
    Evolves σ₀ (State.ringState s brk) := by
  unfold State.ringState
  repeat' (first | with_reducible assumption | with_reducible apply State.setRf_ev | with_reducible apply State.bumpRf_ev | with_reducible apply State.note_ev | with_reducible apply State.event_ev | with_reducible refine ev_ite.mpr ⟨fun _ => ?_, fun _ => ?_⟩ | with_reducible refine ev_ite3.mpr ⟨fun _ => ?_, fun _ => ?_⟩ | split)

theorem State.lineNews_ev {σ₀ s : State} (hev : Evolves σ₀ s) (t : Nat) (n : LineNews) :
    Evolves σ₀ (State.lineNews s t n) := by
  unfold State.lineNews
  repeat' (first | with_reducible assumption | with_reducible apply State.setRf_ev | split | simp only [↓ev_mk, evk_eta])

theorem State.frameReturn_ev {σ₀ s : State} (hev : Evolves σ₀ s) (back : List Gram) (brk : Option Nat) (n : LineNews) :
    Evolves σ₀ (State.frameReturn s back brk n) := by
  unfold State.frameReturn
  repeat' (first | with_reducible assumption | with_reducible apply State.lineResult_ev | with_reducible apply State.setRf_ev | with_reducible apply State.ringState_ev | with_reducible apply State.lineNews_ev | split)

theorem State.flushEmcy_ev {σ₀ s : State} (hev : Evolves σ₀ s) :
    Evolves σ₀ (State.flushEmcy s) := by
  unfold State.flushEmcy
  split
  · exact hev
  · have h1 : Evolves σ₀ { s with out := s.emcy.queue.reverse ++ s.out, emcy := { s.emcy with queue := [] } } := by
      obtain ⟨h1, h2, h3, h4, h5, h6⟩ := hev
      exact ⟨h1, h2, h3, h4, h5, h6.trans (List.suffix_append _ _)⟩
    dsimp only
    split
    · exact h1
    · refine State.note_ev ?_ _
      exact h1

theorem State.alRequest_ev {σ₀ s : State} (hev : Evolves σ₀ s) (st : Nat) :
    Evolves σ₀ (State.alRequest s st) := by
  unfold State.alRequest
  repeat' (first | with_reducible assumption | with_reducible apply State.setRf_ev | with_reducible apply State.flushEmcy_ev | with_reducible refine ev_ite.mpr ⟨fun _ => ?_, fun _ => ?_⟩ | with_reducible refine ev_ite3.mpr ⟨fun _ => ?_, fun _ => ?_⟩)

theorem State.plantRequest_ev {σ₀ s : State} (hev : Evolves σ₀ s) (q : PlantReq) :
    Evolves σ₀ (State.plantRequest s q) := by
  unfold State.plantRequest
  repeat' (first | with_reducible assumption | with_reducible apply State.alRequest_ev | split | simp only [↓ev_mk, evk_eta])

theorem State.sync0_ev {σ₀ s : State} (hev : Evolves σ₀ s) (t : BitVec 64) :
    Evolves σ₀ (State.sync0 s t) := by
  unfold State.sync0
  repeat' (first | with_reducible assumption | with_reducible apply State.setReg_ev)

theorem State.sm2Watchdog_ev {σ₀ s : State} (hev : Evolves σ₀ s) :
    Evolves σ₀ (State.sm2Watchdog s) := by
  unfold State.sm2Watchdog
  repeat' (first | with_reducible assumption | with_reducible apply State.setRf_ev | with_reducible refine ev_ite.mpr ⟨fun _ => ?_, fun _ => ?_⟩ | with_reducible refine ev_ite3.mpr ⟨fun _ => ?_, fun _ => ?_⟩)

theorem State.pdoWrite_ev {σ₀ s : State} (hev : Evolves σ₀ s) (index : Nat) (sub : Nat) (v : Nat) :
    Evolves σ₀ (State.pdoWrite s index sub v).2 := by
  unfold State.pdoWrite
  repeat' (first | with_reducible assumption | with_reducible apply State.setObj_ev | with_reducible refine ev_ite2.mpr ⟨fun _ => ?_, fun _ => ?_⟩ | with_reducible refine ev_ite3.mpr ⟨fun _ => ?_, fun _ => ?_⟩)

theorem State.takeRx_ev {σ₀ s : State} (hev : Evolves σ₀ s) (l : List Byte) (a0 : List Nat) :
    Evolves σ₀ (State.takeRx s l a0) := by
  induction a0 generalizing s l <;> unfold State.takeRx <;> repeat' (first | with_reducible assumption | with_reducible apply State.setReg_ev | with_reducible apply State.take_ev | with_reducible refine ev_ite.mpr ⟨fun _ => ?_, fun _ => ?_⟩ | with_reducible refine ev_ite3.mpr ⟨fun _ => ?_, fun _ => ?_⟩ | with_reducible apply_assumption)

theorem State.plantFrame_ev {σ₀ s : State} (hev : Evolves σ₀ s) (rx : List Byte) :
    Evolves σ₀ (State.plantFrame s rx) := by
  unfold State.plantFrame
  repeat' (first | with_reducible assumption | with_reducible apply State.takeRx_ev | with_reducible apply State.send_ev | with_reducible refine ev_ite.mpr ⟨fun _ => ?_, fun _ => ?_⟩ | with_reducible refine ev_ite3.mpr ⟨fun _ => ?_, fun _ => ?_⟩)

/-! WebMark. -/

theorem State.markEdge_ev {σ₀ s : State} (hev : Evolves σ₀ s) (m : Nat) (t : Nat) (rising : Bool) :
    Evolves σ₀ (State.markEdge s m t rising) := by
  unfold State.markEdge
  repeat' (first | with_reducible assumption | with_reducible apply State.setRf_ev | with_reducible apply State.bumpRf_ev | with_reducible apply State.setReg_ev | with_reducible apply State.mirrorMarks_ev | with_reducible refine ev_ite.mpr ⟨fun _ => ?_, fun _ => ?_⟩ | with_reducible refine ev_ite3.mpr ⟨fun _ => ?_, fun _ => ?_⟩ | simp only [↓ev_mk, evk_eta])

theorem State.markPin_ev {σ₀ s : State} (hev : Evolves σ₀ s) (m : Nat) (ns : Nat) (rising : Bool) :
    Evolves σ₀ (State.markPin s m ns rising) := by
  unfold State.markPin
  repeat' (first | with_reducible assumption | with_reducible apply State.markEdge_ev | with_reducible refine ev_ite.mpr ⟨fun _ => ?_, fun _ => ?_⟩ | with_reducible refine ev_ite3.mpr ⟨fun _ => ?_, fun _ => ?_⟩)

theorem State.msSample_ev {σ₀ s : State} (hev : Evolves σ₀ s) (c : Nat) (value : Nat) :
    Evolves σ₀ (State.msSample s c value) := by
  unfold State.msSample
  repeat' (first | with_reducible assumption | with_reducible apply State.take_ev | with_reducible apply State.setRf_ev | with_reducible apply State.markEdge_ev | with_reducible refine ev_ite.mpr ⟨fun _ => ?_, fun _ => ?_⟩ | with_reducible refine ev_ite3.mpr ⟨fun _ => ?_, fun _ => ?_⟩ | simp only [↓ev_mk, evk_eta])

theorem State.estimate_ev {σ₀ s : State} (hev : Evolves σ₀ s) (x : Nat) :
    Evolves σ₀ (State.estimate s x).2.2 := by
  unfold State.estimate
  repeat' (first | with_reducible assumption | with_reducible refine ev_ite3.mpr ⟨fun _ => ?_, fun _ => ?_⟩ | (split <;> (try dsimp -iota only) <;> try (rename_i hq; obtain ⟨hq1, hq2⟩ := Prod.ext_iff.mp hq; dsimp only at hq2; subst hq2)) | with_reducible apply State.freeNat_ev)

theorem State.coastSample_ev {σ₀ s : State} (hev : Evolves σ₀ s) (x : Nat) :
    Evolves σ₀ (State.coastSample s x) := by
  unfold State.coastSample
  repeat' (first | with_reducible assumption | with_reducible apply State.setRf_ev | with_reducible apply State.note_ev | with_reducible apply State.event_ev | with_reducible refine ev_ite.mpr ⟨fun _ => ?_, fun _ => ?_⟩ | with_reducible refine ev_ite3.mpr ⟨fun _ => ?_, fun _ => ?_⟩)

theorem State.rebase_ev {σ₀ s : State} (hev : Evolves σ₀ s) (x : Nat) :
    Evolves σ₀ (State.rebase s x) := by
  unfold State.rebase
  repeat' (first | with_reducible assumption | with_reducible apply State.pushTrack_ev | with_reducible apply State.setAxr_ev | with_reducible refine ev_ite.mpr ⟨fun _ => ?_, fun _ => ?_⟩ | with_reducible refine ev_ite3.mpr ⟨fun _ => ?_, fun _ => ?_⟩)

theorem State.takeProfile_ev {σ₀ s : State} (hev : Evolves σ₀ s) (x : Nat) :
    Evolves σ₀ (State.takeProfile s x) := by
  unfold State.takeProfile
  repeat' (first | with_reducible assumption | with_reducible apply State.pushTrack_ev | with_reducible apply State.rebase_ev | with_reducible apply State.setAxr_ev | with_reducible refine ev_ite.mpr ⟨fun _ => ?_, fun _ => ?_⟩ | with_reducible refine ev_ite3.mpr ⟨fun _ => ?_, fun _ => ?_⟩)

theorem State.sampleAxis_ev {σ₀ s : State} (hev : Evolves σ₀ s) (x : Nat) :
    Evolves σ₀ (State.sampleAxis s x) := by
  unfold State.sampleAxis
  have h1 : Evolves σ₀ (if s.axActive x then s.moveAxis x (s.axAt x s.dt.toNat) else s) := by
    split
    · exact State.moveAxis_ev hev _ _
    · exact hev
  have h0 := State.takeProfile_ev h1 x
  have h2 := State.estimate_ev h0 x
  dsimp -iota only
  generalize State.estimate (State.takeProfile (if s.axActive x then s.moveAxis x (s.axAt x s.dt.toNat) else s) x) x = q at h2 ⊢
  obtain ⟨v, a, t⟩ := q
  dsimp only at h2 ⊢
  exact State.coastSample_ev (State.setAxr_ev (State.setRf_ev (State.setReg_ev (State.setReg_ev (State.setReg_ev
    (State.setReg_ev h2 _ _) _ _) _ _) _ _) _ _ _ _) _ _) _

theorem State.estimatorSample_ev {σ₀ s : State} (hev : Evolves σ₀ s) :
    Evolves σ₀ (State.estimatorSample s) := by
  unfold State.estimatorSample
  exact ev_foldl _ (fun t k h => State.projectCam_ev h k) _ _ (ev_foldl _ (fun t x h => State.sampleAxis_ev h x) _ _ hev)

theorem State.setStop_ev {σ₀ s : State} (hev : Evolves σ₀ s) (new : Nat) :
    Evolves σ₀ (State.setStop s new) := by
  unfold State.setStop
  repeat' (first | with_reducible assumption | with_reducible apply State.rebase_ev | with_reducible apply State.setRf_ev | with_reducible apply State.setReg_ev | with_reducible apply State.setAxr_ev | with_reducible apply State.event_ev | with_reducible apply State.mgrMsix_ev | with_reducible refine ev_foldl' _ _ ?_ (fun _ _ _ => ?_) | with_reducible refine ev_ite.mpr ⟨fun _ => ?_, fun _ => ?_⟩ | with_reducible apply State.report_ev)

theorem State.stopRequest_ev {σ₀ s : State} (hev : Evolves σ₀ s) :
    Evolves σ₀ (State.stopRequest s) := by
  unfold State.stopRequest
  repeat' (first | with_reducible assumption | with_reducible apply State.setStop_ev | with_reducible refine ev_ite.mpr ⟨fun _ => ?_, fun _ => ?_⟩ | with_reducible refine ev_ite3.mpr ⟨fun _ => ?_, fun _ => ?_⟩)

theorem State.setStopHigh_ev {σ₀ s : State} (hev : Evolves σ₀ s) (t : Option Nat) :
    Evolves σ₀ (State.setStopHigh s t) := by
  unfold State.setStopHigh
  repeat' (first | with_reducible assumption | simp only [↓ev_mk, evk_eta] | dsimp -iota only | with_reducible trivial)

theorem State.stopPinLow_ev {σ₀ s : State} (hev : Evolves σ₀ s) (ns : Nat) :
    Evolves σ₀ (State.stopPinLow s ns) := by
  unfold State.stopPinLow
  repeat' (first | with_reducible assumption | with_reducible apply State.setStopHigh_ev | with_reducible apply State.setRf_ev | with_reducible apply State.stopRequest_ev | with_reducible refine ev_ite.mpr ⟨fun _ => ?_, fun _ => ?_⟩)

theorem State.stopPinHigh_ev {σ₀ s : State} (hev : Evolves σ₀ s) :
    Evolves σ₀ (State.stopPinHigh s) := by
  unfold State.stopPinHigh
  repeat' (first | with_reducible assumption | with_reducible apply State.setStopHigh_ev | with_reducible refine ev_ite.mpr ⟨fun _ => ?_, fun _ => ?_⟩)

theorem State.stopFilter_ev {σ₀ s : State} (hev : Evolves σ₀ s) :
    Evolves σ₀ (State.stopFilter s) := by
  unfold State.stopFilter
  repeat' (first | with_reducible assumption | with_reducible apply State.setStopHigh_ev | with_reducible apply State.setRf_ev | split)

theorem State.stopRelease_ev {σ₀ s : State} (hev : Evolves σ₀ s) :
    Evolves σ₀ (State.stopRelease s) := by
  unfold State.stopRelease
  repeat' (first | with_reducible assumption | with_reducible apply State.setStop_ev | with_reducible apply State.setRf_ev | with_reducible refine ev_ite.mpr ⟨fun _ => ?_, fun _ => ?_⟩ | with_reducible refine ev_ite3.mpr ⟨fun _ => ?_, fun _ => ?_⟩)

theorem State.stopDone_ev {σ₀ s : State} (hev : Evolves σ₀ s) :
    Evolves σ₀ (State.stopDone s) := by
  unfold State.stopDone
  repeat' (first | with_reducible assumption | with_reducible apply State.setStop_ev | with_reducible refine ev_ite.mpr ⟨fun _ => ?_, fun _ => ?_⟩ | with_reducible refine ev_ite3.mpr ⟨fun _ => ?_, fun _ => ?_⟩)

theorem State.ringRefused_ev {σ₀ s : State} (hev : Evolves σ₀ s) (x : Nat) :
    Evolves σ₀ (State.ringRefused s x) := by
  unfold State.ringRefused
  repeat' (first | with_reducible assumption | with_reducible apply State.setRf_ev)

theorem State.firstAhead_ev {σ₀ s : State} (hev : Evolves σ₀ s) (x : Nat) (dist : Nat) (i : Nat) (a0 : Nat) :
    Evolves σ₀ (State.firstAhead s x dist i a0).2 := by
  induction a0 generalizing s x dist i <;> unfold State.firstAhead <;> repeat' (first | with_reducible assumption | with_reducible refine ev_ite2.mpr ⟨fun _ => ?_, fun _ => ?_⟩ | with_reducible refine ev_ite3.mpr ⟨fun _ => ?_, fun _ => ?_⟩ | with_reducible apply State.agentLoad_ev | with_reducible apply_assumption)

theorem State.startCursor_ev {σ₀ s : State} (hev : Evolves σ₀ s) (x : Nat) (k : Nat) :
    Evolves σ₀ (State.startCursor s x k) := by
  unfold State.startCursor
  repeat' (first | with_reducible assumption | with_reducible apply State.setCursor_ev | with_reducible apply State.firstAhead_ev)

theorem State.iringWrite_ev {σ₀ s : State} (hev : Evolves σ₀ s) (x : Nat) (mask : BitVec 64) (v : BitVec 64) :
    Evolves σ₀ (State.iringWrite s x mask v) := by
  unfold State.iringWrite
  repeat' (first | with_reducible assumption | with_reducible apply State.countReg_ev | with_reducible apply State.ringRefused_ev | with_reducible apply State.setReg_ev | with_reducible apply State.setRf_ev | with_reducible apply State.setAxr_ev | with_reducible apply State.setCursor_ev | with_reducible refine ev_foldl' _ _ ?_ (fun _ _ _ => ?_) | with_reducible refine ev_ite3.mpr ⟨fun _ => ?_, fun _ => ?_⟩ | split | dsimp -iota only)

theorem State.tailWrite_ev {σ₀ s : State} (hev : Evolves σ₀ s) (x : Nat) (tail : Nat) :
    Evolves σ₀ (State.tailWrite s x tail) := by
  unfold State.tailWrite
  repeat' (first | with_reducible assumption | with_reducible apply State.ringRefused_ev | with_reducible apply State.setRf_ev | with_reducible apply State.ringHead_ev | with_reducible refine ev_ite.mpr ⟨fun _ => ?_, fun _ => ?_⟩ | with_reducible refine ev_ite3.mpr ⟨fun _ => ?_, fun _ => ?_⟩)

theorem State.iptrWrite_ev {σ₀ s : State} (hev : Evolves σ₀ s) (x : Nat) (mask : BitVec 64) (v : BitVec 64) :
    Evolves σ₀ (State.iptrWrite s x mask v) := by
  unfold State.iptrWrite
  repeat' (first | with_reducible assumption | with_reducible apply State.plain_ev | with_reducible apply State.tailWrite_ev | with_reducible refine ev_ite.mpr ⟨fun _ => ?_, fun _ => ?_⟩ | with_reducible refine ev_ite3.mpr ⟨fun _ => ?_, fun _ => ?_⟩)

theorem State.stationWrite_ev {σ₀ s : State} (hev : Evolves σ₀ s) (x : Nat) (k : Nat) (mask : BitVec 64) (v : BitVec 64) :
    Evolves σ₀ (State.stationWrite s x k mask v) := by
  unfold State.stationWrite
  repeat' (first | with_reducible assumption | with_reducible apply State.plain_ev | with_reducible apply State.startCursor_ev | with_reducible apply State.ringHead_ev | with_reducible apply State.setAxr_ev | with_reducible refine ev_ite.mpr ⟨fun _ => ?_, fun _ => ?_⟩ | with_reducible refine ev_ite3.mpr ⟨fun _ => ?_, fun _ => ?_⟩)

theorem State.axCfgWrite_ev {σ₀ s : State} (hev : Evolves σ₀ s) (x : Nat) (mask : BitVec 64) (v : BitVec 64) :
    Evolves σ₀ (State.axCfgWrite s x mask v) := by
  unfold State.axCfgWrite
  repeat' (first | with_reducible assumption | with_reducible apply State.plain_ev | with_reducible apply State.setRf_ev | with_reducible apply State.pushTrack_ev | with_reducible apply State.setAxr_ev | with_reducible apply State.ssiStart_ev | with_reducible apply State.recoverAxis_ev | with_reducible refine ev_ite.mpr ⟨fun _ => ?_, fun _ => ?_⟩ | with_reducible refine ev_ite3.mpr ⟨fun _ => ?_, fun _ => ?_⟩)

theorem State.axStopWrite_ev {σ₀ s : State} (hev : Evolves σ₀ s) (mask : BitVec 64) (v : BitVec 64) :
    Evolves σ₀ (State.axStopWrite s mask v) := by
  unfold State.axStopWrite
  repeat' (first | with_reducible assumption | with_reducible apply State.stopRequest_ev | with_reducible apply State.stopRelease_ev | with_reducible refine ev_ite.mpr ⟨fun _ => ?_, fun _ => ?_⟩ | with_reducible refine ev_ite3.mpr ⟨fun _ => ?_, fun _ => ?_⟩ | with_reducible apply State.store64_ev)

theorem State.msCfgWrite_ev {σ₀ s : State} (hev : Evolves σ₀ s) (off : Nat) (mask : BitVec 64) (v : BitVec 64) :
    Evolves σ₀ (State.msCfgWrite s off mask v) := by
  unfold State.msCfgWrite
  repeat' (first | with_reducible assumption | with_reducible apply State.countReg_ev | with_reducible apply State.plain_ev | with_reducible refine ev_ite.mpr ⟨fun _ => ?_, fun _ => ?_⟩ | with_reducible refine ev_ite3.mpr ⟨fun _ => ?_, fun _ => ?_⟩)

theorem State.markCfgWrite_ev {σ₀ s : State} (hev : Evolves σ₀ s) (off : Nat) (mask : BitVec 64) (v : BitVec 64) :
    Evolves σ₀ (State.markCfgWrite s off mask v) := by
  unfold State.markCfgWrite
  repeat' (first | with_reducible assumption | with_reducible apply State.plain_ev | with_reducible apply State.countReg_ev | with_reducible refine ev_ite.mpr ⟨fun _ => ?_, fun _ => ?_⟩ | with_reducible refine ev_ite3.mpr ⟨fun _ => ?_, fun _ => ?_⟩)

theorem State.webApply_ev {σ₀ s : State} (hev : Evolves σ₀ s) (off : Nat) (mask : BitVec 64) (v : BitVec 64) :
    Evolves σ₀ (State.webApply s off mask v) := by
  unfold State.webApply
  repeat' (first | with_reducible assumption | with_reducible apply State.axStopWrite_ev | with_reducible apply State.markCfgWrite_ev | with_reducible apply State.setRf_ev | with_reducible apply State.msCfgWrite_ev | with_reducible apply State.plain_ev | with_reducible apply State.stationWrite_ev | with_reducible apply State.axCfgWrite_ev | with_reducible apply State.iringWrite_ev | with_reducible apply State.iptrWrite_ev | with_reducible apply State.recoverAxis_ev | with_reducible apply State.requestSwap_ev | with_reducible refine ev_ite.mpr ⟨fun _ => ?_, fun _ => ?_⟩ | with_reducible refine ev_ite3.mpr ⟨fun _ => ?_, fun _ => ?_⟩ | with_reducible apply State.store64_ev)

theorem State.webWrite_ev {σ₀ s : State} (hev : Evolves σ₀ s) (who : Initiator) (off : Nat) (mask : BitVec 64) (v : BitVec 64) :
    Evolves σ₀ (State.webWrite s who off mask v) := by
  unfold State.webWrite
  repeat' (first | with_reducible assumption | with_reducible apply State.camWrite_ev | with_reducible apply State.gate_ev | with_reducible apply State.webApply_ev | with_reducible refine ev_ite.mpr ⟨fun _ => ?_, fun _ => ?_⟩ | with_reducible refine ev_ite3.mpr ⟨fun _ => ?_, fun _ => ?_⟩)

/-! GalleryUnit. -/

theorem State.specCheck_ev {σ₀ s : State} (hev : Evolves σ₀ s) :
    Evolves σ₀ (State.specCheck s) := by
  unfold State.specCheck
  repeat' (first | with_reducible assumption | with_reducible apply State.cutSpec_ev | with_reducible apply State.checkSpec_ev | with_reducible apply State.applyDeferred_ev | with_reducible refine ev_ite3.mpr ⟨fun _ => ?_, fun _ => ?_⟩ | split | dsimp -iota only)

theorem State.endSpec_ev {σ₀ s : State} (hev : Evolves σ₀ s) (i : Nat) (reason : Nat) :
    Evolves σ₀ (State.endSpec s i reason) := by
  unfold State.endSpec
  repeat' (first | with_reducible assumption | with_reducible apply State.cutSpec_ev | with_reducible apply State.discardSpec_ev | with_reducible apply State.applyDeferred_ev | with_reducible refine ev_ite.mpr ⟨fun _ => ?_, fun _ => ?_⟩ | with_reducible refine ev_ite3.mpr ⟨fun _ => ?_, fun _ => ?_⟩)

theorem State.galCmdWrite_ev {σ₀ s : State} (hev : Evolves σ₀ s) (who : Initiator) (mask : BitVec 64) (v : BitVec 64) :
    Evolves σ₀ (State.galCmdWrite s who mask v) := by
  unfold State.galCmdWrite
  repeat' (first | with_reducible assumption | with_reducible apply State.gate_ev | with_reducible apply State.endSpec_ev | with_reducible refine ev_ite3.mpr ⟨fun _ => ?_, fun _ => ?_⟩ | (split <;> (try dsimp -iota only) <;> try (rename_i hq; obtain ⟨hq1, hq2⟩ := Prod.ext_iff.mp hq; dsimp only at hq2; subst hq2)) | with_reducible apply State.store64_ev)

theorem State.remoteTimeout_ev {σ₀ s : State} (hev : Evolves σ₀ s) :
    Evolves σ₀ (State.remoteTimeout s) := by
  unfold State.remoteTimeout
  repeat' (first | with_reducible assumption | with_reducible apply State.endSpec_ev | split | dsimp -iota only)

theorem State.mirrorAll_ev {σ₀ s : State} (hev : Evolves σ₀ s) (h : Nat) :
    Evolves σ₀ (State.mirrorAll s h) := by
  unfold State.mirrorAll
  repeat' (first | with_reducible assumption | with_reducible apply State.mirrorMark_ev | with_reducible apply State.mirrorMs_ev | with_reducible refine ev_foldl' _ _ ?_ (fun _ _ _ => ?_))

theorem State.mirrorWrite_ev {σ₀ s : State} (hev : Evolves σ₀ s) (h : Nat) (mask : BitVec 64) (v : BitVec 64) :
    Evolves σ₀ (State.mirrorWrite s h mask v) := by
  unfold State.mirrorWrite
  repeat' (first | with_reducible assumption | with_reducible apply State.countReg_ev | with_reducible apply State.plain_ev | with_reducible apply State.mirrorAll_ev | with_reducible refine ev_ite.mpr ⟨fun _ => ?_, fun _ => ?_⟩ | with_reducible refine ev_ite3.mpr ⟨fun _ => ?_, fun _ => ?_⟩)

theorem State.galWrite_ev {σ₀ s : State} (hev : Evolves σ₀ s) (who : Initiator) (off : Nat) (mask : BitVec 64) (v : BitVec 64) :
    Evolves σ₀ (State.galWrite s who off mask v) := by
  unfold State.galWrite
  repeat' (first | with_reducible assumption | with_reducible apply State.galCmdWrite_ev | with_reducible apply State.gate_ev | with_reducible apply State.countReg_ev | with_reducible apply State.clearFields_ev | with_reducible apply State.mirrorWrite_ev | with_reducible apply State.plain_ev | with_reducible apply State.shareChanged_ev | with_reducible refine ev_ite.mpr ⟨fun _ => ?_, fun _ => ?_⟩ | with_reducible refine ev_ite3.mpr ⟨fun _ => ?_, fun _ => ?_⟩ | with_reducible apply State.store64_ev)

end Sys2Proof.Machine
end

