-- ==== Sys2Proof/Laws/EvDict.lean ====
section
/-! SUPPORT. Evolves (Laws/Evolves.lean) for patches, the dictionary and the cascade. -/

namespace Sys2Proof.Machine

/-! Patch. -/

theorem State.patchErr_ev {σ₀ s : State} (hev : Evolves σ₀ s) (e : Nat) :
    Evolves σ₀ (State.patchErr s e) := by
  unfold State.patchErr
  repeat' (first | with_reducible assumption | with_reducible apply State.setRf_ev)

theorem State.patchDone_ev {σ₀ s : State} (hev : Evolves σ₀ s) :
    Evolves σ₀ (State.patchDone s) := by
  unfold State.patchDone
  repeat' (first | with_reducible assumption | with_reducible apply State.setReg_ev | with_reducible apply State.setRf_ev | with_reducible apply State.note_ev | with_reducible apply State.event_ev | with_reducible refine ev_foldl' _ _ ?_ (fun _ _ _ => ?_) | simp only [↓ev_mk, evk_eta])

theorem State.patchSwitch_ev {σ₀ s : State} (hev : Evolves σ₀ s) (p : Nat) :
    Evolves σ₀ (State.patchSwitch s p) := by
  unfold State.patchSwitch
  repeat' (first | with_reducible assumption | with_reducible apply State.setCore_ev | with_reducible apply State.bumpRf_ev | with_reducible apply State.patchDone_ev | with_reducible refine ev_ite.mpr ⟨fun _ => ?_, fun _ => ?_⟩ | with_reducible refine ev_ite3.mpr ⟨fun _ => ?_, fun _ => ?_⟩ | simp only [↓ev_mk, evk_eta])

theorem State.patchRun_ev {σ₀ s : State} (hev : Evolves σ₀ s) (a0 : List Nat) :
    Evolves σ₀ (State.patchRun s a0) := by
  induction a0 generalizing s <;> unfold State.patchRun <;> repeat' (first | with_reducible assumption | with_reducible apply State.patchSwitch_ev | with_reducible refine ev_ite.mpr ⟨fun _ => ?_, fun _ => ?_⟩ | with_reducible refine ev_ite3.mpr ⟨fun _ => ?_, fun _ => ?_⟩ | with_reducible apply_assumption)

theorem State.patchBegin_ev {σ₀ s : State} (hev : Evolves σ₀ s) :
    Evolves σ₀ (State.patchBegin s) := by
  unfold State.patchBegin
  repeat' (first | with_reducible assumption | with_reducible apply State.patchErr_ev | with_reducible apply State.setRf_ev | simp only [↓ev_mk, evk_eta])

theorem State.patchData_ev {σ₀ s : State} (hev : Evolves σ₀ s) (v : BitVec 64) :
    Evolves σ₀ (State.patchData s v) := by
  unfold State.patchData
  repeat' (first | with_reducible assumption | with_reducible apply State.patchErr_ev | with_reducible apply State.setRf_ev | with_reducible refine ev_ite.mpr ⟨fun _ => ?_, fun _ => ?_⟩ | with_reducible refine ev_ite3.mpr ⟨fun _ => ?_, fun _ => ?_⟩ | simp only [↓ev_mk, evk_eta])

theorem State.patchCheck_ev {σ₀ s : State} (hev : Evolves σ₀ s) :
    Evolves σ₀ (State.patchCheck s) := by
  unfold State.patchCheck
  repeat' (first | with_reducible assumption | with_reducible apply State.setRf_ev | with_reducible apply State.patchErr_ev | split)

theorem State.patchApply_ev {σ₀ s : State} (hev : Evolves σ₀ s) :
    Evolves σ₀ (State.patchApply s) := by
  unfold State.patchApply
  repeat' (first | with_reducible assumption | with_reducible apply State.patchErr_ev | with_reducible apply State.setRf_ev | with_reducible apply State.patchRun_ev | with_reducible refine ev_ite.mpr ⟨fun _ => ?_, fun _ => ?_⟩ | with_reducible refine ev_ite3.mpr ⟨fun _ => ?_, fun _ => ?_⟩ | simp only [↓ev_mk, evk_eta])

theorem State.patchCore_ev {σ₀ s : State} (hev : Evolves σ₀ s) (p : Nat) :
    Evolves σ₀ (State.patchCore s p) := by
  unfold State.patchCore
  repeat' (first | with_reducible assumption | with_reducible apply State.patchSwitch_ev | with_reducible apply State.patchRun_ev | with_reducible refine ev_ite3.mpr ⟨fun _ => ?_, fun _ => ?_⟩ | split | dsimp -iota only)

theorem State.patchWrite_ev {σ₀ s : State} (hev : Evolves σ₀ s) (who : Initiator) (off : Nat) (mask : BitVec 64) (v : BitVec 64) :
    Evolves σ₀ (State.patchWrite s who off mask v) := by
  unfold State.patchWrite
  repeat' (first | with_reducible assumption | with_reducible apply State.gate_ev | with_reducible apply State.plain_ev | with_reducible apply State.patchErr_ev | with_reducible apply State.patchData_ev | with_reducible apply State.patchBegin_ev | with_reducible apply State.patchCheck_ev | with_reducible apply State.patchApply_ev | with_reducible refine ev_ite3.mpr ⟨fun _ => ?_, fun _ => ?_⟩ | (split <;> (try dsimp -iota only) <;> try (rename_i hq; obtain ⟨hq1, hq2⟩ := Prod.ext_iff.mp hq; dsimp only at hq2; subst hq2)) | with_reducible apply State.store64_ev)

theorem State.setPatchWe_ev {σ₀ s : State} (hev : Evolves σ₀ s) (b : Bool) :
    Evolves σ₀ (State.setPatchWe s b) := hev

/-! Objects. -/

theorem State.override_ev {σ₀ s : State} (hev : Evolves σ₀ s) (who : Initiator) (off : Nat) (mask : BitVec 64) :
    Evolves σ₀ (State.override s who off mask) := by
  unfold State.override
  repeat' (first | with_reducible assumption | with_reducible apply State.setRf_ev | with_reducible apply State.note_ev | with_reducible apply State.event_ev | with_reducible refine ev_ite3.mpr ⟨fun _ => ?_, fun _ => ?_⟩ | split | dsimp -iota only)

theorem State.setPath_ev {σ₀ s : State} (hev : Evolves σ₀ s) (p : Nat) (x : PathSt) :
    Evolves σ₀ (State.setPath s p x) := by
  unfold State.setPath
  repeat' (first | with_reducible assumption | simp only [↓ev_mk, evk_eta])

theorem State.odValue_ev {σ₀ s : State} (hev : Evolves σ₀ s) (p : Nat) (i : Nat) (sub : Nat) :
    Evolves σ₀ (State.odValue s p i sub).2 := by
  unfold State.odValue
  repeat' (first | with_reducible assumption | with_reducible apply State.plain_ev | with_reducible refine ev_ite2.mpr ⟨fun _ => ?_, fun _ => ?_⟩ | with_reducible refine ev_ite3.mpr ⟨fun _ => ?_, fun _ => ?_⟩ | split | with_reducible apply State.freeAt_ev)

/-! Dict. -/

theorem State.stage_ev {σ₀ s : State} (hev : Evolves σ₀ s) (p : Nat) (e : Staged) :
    Evolves σ₀ (State.stage s p e).2 := by
  unfold State.stage
  repeat' (first | with_reducible assumption | with_reducible apply State.setPath_ev | with_reducible refine ev_ite2.mpr ⟨fun _ => ?_, fun _ => ?_⟩ | with_reducible refine ev_ite3.mpr ⟨fun _ => ?_, fun _ => ?_⟩)

theorem State.commitWrite_ev {σ₀ s : State} (hev : Evolves σ₀ s) (off : Nat) (mask : BitVec 64) (v : BitVec 64) :
    Evolves σ₀ (State.commitWrite s off mask v) := by
  unfold State.commitWrite
  repeat' (first | with_reducible assumption | with_reducible apply State.eclCfgWrite_ev | with_reducible apply State.eclCycWrite_ev | with_reducible apply State.webWrite_ev | with_reducible apply State.mirrorWrite_ev | with_reducible apply State.shareWrite_ev | with_reducible apply State.setReg_ev | with_reducible apply State.shareChanged_ev | with_reducible apply State.plain_ev | with_reducible refine ev_ite.mpr ⟨fun _ => ?_, fun _ => ?_⟩)

theorem State.applyRegs_ev {σ₀ s : State} (hev : Evolves σ₀ s) (g : List Staged) :
    Evolves σ₀ (State.applyRegs s g) := by
  unfold State.applyRegs
  repeat' (first | with_reducible assumption | with_reducible apply State.commitWrite_ev | with_reducible refine ev_foldl' _ _ ?_ (fun _ _ _ => ?_))

theorem State.loadBank_ev {σ₀ s : State} (hev : Evolves σ₀ s) (x : Nat) (i : Nat) (e : Staged) :
    Evolves σ₀ (State.loadBank s x i e) := by
  unfold State.loadBank
  repeat' (first | with_reducible assumption | with_reducible apply State.setReg_ev | with_reducible refine ev_foldl' _ _ ?_ (fun _ _ _ => ?_) | with_reducible refine ev_ite.mpr ⟨fun _ => ?_, fun _ => ?_⟩ | with_reducible refine ev_ite3.mpr ⟨fun _ => ?_, fun _ => ?_⟩)

theorem State.commitTable_ev {σ₀ s : State} (hev : Evolves σ₀ s) (x : Nat) (e : Staged) :
    Evolves σ₀ (State.commitTable s x e) := by
  unfold State.commitTable
  repeat' (first | with_reducible assumption | with_reducible apply State.loadBank_ev | with_reducible apply State.setRf_ev | with_reducible apply State.requestSwap_ev | with_reducible apply State.leaveBoundary_ev | with_reducible apply State.pitchRun_ev | with_reducible refine ev_ite.mpr ⟨fun _ => ?_, fun _ => ?_⟩ | with_reducible refine ev_ite3.mpr ⟨fun _ => ?_, fun _ => ?_⟩ | with_reducible apply State.swapPitch_ev)

theorem State.applyCal_ev {σ₀ s : State} (hev : Evolves σ₀ s) (l : List Byte) :
    Evolves σ₀ (State.applyCal s l) := by
  unfold State.applyCal
  repeat' (first | with_reducible assumption | with_reducible apply State.take_ev | with_reducible apply State.setReg_ev | with_reducible apply State.setRf_ev | with_reducible refine ev_foldl' _ _ ?_ (fun _ _ _ => ?_))

theorem State.setMrams_ev {σ₀ s : State} (hev : Evolves σ₀ s) (a : Nat) (a0 : List Byte) :
    Evolves σ₀ (State.setMrams s a a0) := by
  induction a0 generalizing s a <;> unfold State.setMrams <;> repeat' (first | with_reducible assumption | with_reducible apply State.setMram_ev | with_reducible apply_assumption)

theorem State.storeCal_ev {σ₀ s : State} (hev : Evolves σ₀ s) (l : List Byte) :
    Evolves σ₀ (State.storeCal s l) := by
  unfold State.storeCal
  repeat' (first | with_reducible assumption | with_reducible apply State.setMrams_ev | with_reducible apply State.applyCal_ev)

theorem State.applyEntry_ev {σ₀ s : State} (hev : Evolves σ₀ s) (e : Staged) :
    Evolves σ₀ (State.applyEntry s e) := by
  unfold State.applyEntry
  repeat' (first | with_reducible assumption | with_reducible apply State.setObj_ev | with_reducible apply State.storeCal_ev | with_reducible apply State.commitTable_ev | with_reducible refine ev_ite3.mpr ⟨fun _ => ?_, fun _ => ?_⟩ | split | simp only [↓ev_mk, evk_eta])

theorem State.applyGroup_ev {σ₀ s : State} (hev : Evolves σ₀ s) (g : List Staged) :
    Evolves σ₀ (State.applyGroup s g) := by
  unfold State.applyGroup
  repeat' (first | with_reducible assumption | with_reducible apply State.applyEntry_ev | with_reducible apply State.applyRegs_ev | with_reducible refine ev_foldl' _ _ ?_ (fun _ _ _ => ?_))

theorem State.answerCommit_ev {σ₀ s : State} (hev : Evolves σ₀ s) (p : Nat) (abort : Nat) :
    Evolves σ₀ (State.answerCommit s p abort) := by
  unfold State.answerCommit
  repeat' (first | with_reducible assumption | with_reducible apply State.send_ev | with_reducible apply State.respondWords_ev | with_reducible apply State.respondAbort_ev | with_reducible refine ev_ite3.mpr ⟨fun _ => ?_, fun _ => ?_⟩ | split)

theorem State.refuseCommit_ev {σ₀ s : State} (hev : Evolves σ₀ s) (p : Nat) (r : Refused) :
    Evolves σ₀ (State.refuseCommit s p r) := by
  unfold State.refuseCommit
  repeat' (first | with_reducible assumption | with_reducible apply State.setPath_ev | with_reducible apply State.note_ev | with_reducible apply State.event_ev | with_reducible apply State.answerCommit_ev | with_reducible refine ev_ite.mpr ⟨fun _ => ?_, fun _ => ?_⟩)

theorem State.refuseSwap_ev {σ₀ s : State} (hev : Evolves σ₀ s) (r : Refused) (g : List Staged) :
    Evolves σ₀ (State.refuseSwap s r g) := by
  unfold State.refuseSwap
  repeat' (first | with_reducible assumption | with_reducible apply State.loadBank_ev | with_reducible apply State.setRf_ev | split)

theorem State.leaveTable_ev {σ₀ s : State} (hev : Evolves σ₀ s) (c : Commit) :
    Evolves σ₀ (State.leaveTable s c) := by
  unfold State.leaveTable
  repeat' (first | with_reducible assumption | with_reducible apply State.leaveBoundary_ev | with_reducible refine ev_ite.mpr ⟨fun _ => ?_, fun _ => ?_⟩ | with_reducible refine ev_ite3.mpr ⟨fun _ => ?_, fun _ => ?_⟩)

theorem State.applyCommit_ev {σ₀ s : State} (hev : Evolves σ₀ s) (p : Nat) (c : Commit) :
    Evolves σ₀ (State.applyCommit s p c) := by
  unfold State.applyCommit
  repeat' (first | with_reducible assumption | with_reducible apply State.refuseSwap_ev | with_reducible apply State.refuseCommit_ev | with_reducible apply State.leaveTable_ev | with_reducible apply State.setPath_ev | with_reducible apply State.applyGroup_ev | with_reducible apply State.note_ev | with_reducible apply State.event_ev | with_reducible apply State.answerCommit_ev | split)

theorem State.armCommit_ev {σ₀ s : State} (hev : Evolves σ₀ s) (p : Nat) (c : Commit) :
    Evolves σ₀ (State.armCommit s p c) := by
  unfold State.armCommit
  repeat' (first | with_reducible assumption | with_reducible apply State.applyCommit_ev | with_reducible apply State.setPath_ev | with_reducible refine ev_ite.mpr ⟨fun _ => ?_, fun _ => ?_⟩ | with_reducible refine ev_ite3.mpr ⟨fun _ => ?_, fun _ => ?_⟩)

theorem State.startCommit_ev {σ₀ s : State} (hev : Evolves σ₀ s) (p : Nat) (boundary : Nat) :
    Evolves σ₀ (State.startCommit s p boundary) := by
  unfold State.startCommit
  repeat' (first | with_reducible assumption | with_reducible apply State.refuseCommit_ev | with_reducible apply State.setPath_ev | with_reducible apply State.answerCommit_ev | with_reducible apply State.armCommit_ev | with_reducible refine ev_ite3.mpr ⟨fun _ => ?_, fun _ => ?_⟩ | (split <;> (try dsimp -iota only) <;> try (rename_i hq; obtain ⟨hq1, hq2⟩ := Prod.ext_iff.mp hq; dsimp only at hq2; subst hq2)) | with_reducible apply State.freeNat_ev)

theorem State.commitCmd_ev {σ₀ s : State} (hev : Evolves σ₀ s) (p : Nat) (v : Nat) :
    Evolves σ₀ (State.commitCmd s p v).2 := by
  unfold State.commitCmd
  repeat' (first | with_reducible assumption | with_reducible apply State.setPath_ev | with_reducible apply State.startCommit_ev | with_reducible refine ev_ite2.mpr ⟨fun _ => ?_, fun _ => ?_⟩ | with_reducible refine ev_ite3.mpr ⟨fun _ => ?_, fun _ => ?_⟩)

theorem State.commitBoundary_ev {σ₀ s : State} (hev : Evolves σ₀ s) :
    Evolves σ₀ (State.commitBoundary s) := by
  unfold State.commitBoundary
  repeat' (first | with_reducible assumption | with_reducible apply State.applyCommit_ev | split)

theorem State.commitTimeout_ev {σ₀ s : State} (hev : Evolves σ₀ s) (p : Nat) :
    Evolves σ₀ (State.commitTimeout s p) := by
  unfold State.commitTimeout
  repeat' (first | with_reducible assumption | with_reducible apply State.refuseCommit_ev | with_reducible refine ev_ite3.mpr ⟨fun _ => ?_, fun _ => ?_⟩ | split)

theorem State.removeHall_ev {σ₀ s : State} (hev : Evolves σ₀ s) (h : Nat) :
    Evolves σ₀ (State.removeHall s h) := by
  unfold State.removeHall
  repeat' (first | with_reducible assumption | with_reducible apply State.resetGo_ev | with_reducible apply State.hallResetDone_ev | with_reducible apply State.hallRemove_ev)

theorem State.runStep_ev {σ₀ s : State} (hev : Evolves σ₀ s) (g : List Staged) (a0 : TrStep) :
    Evolves σ₀ (State.runStep s g a0).2 := by
  unfold State.runStep
  repeat' (first | with_reducible assumption | with_reducible apply State.loadBank_ev | with_reducible apply State.assign_ev | with_reducible apply State.plain_ev | with_reducible apply State.release_ev | with_reducible apply State.hallCreate_ev | with_reducible apply State.removeHall_ev | with_reducible refine ev_ite3.mpr ⟨fun _ => ?_, fun _ => ?_⟩ | (split <;> (try dsimp -iota only) <;> try (rename_i hq; obtain ⟨hq1, hq2⟩ := Prod.ext_iff.mp hq; dsimp only at hq2; subst hq2)) | with_reducible apply State.freeNat_ev)

theorem State.failTransition_ev {σ₀ s : State} (hev : Evolves σ₀ s) (p : Nat) :
    Evolves σ₀ (State.failTransition s p) := by
  unfold State.failTransition
  repeat' (first | with_reducible assumption | with_reducible apply State.setPath_ev | with_reducible apply State.note_ev | with_reducible apply State.event_ev)

theorem State.transitionStep_ev {σ₀ s : State} (hev : Evolves σ₀ s) (p : Nat) :
    Evolves σ₀ (State.transitionStep s p) := by
  unfold State.transitionStep
  repeat' (first | with_reducible assumption | with_reducible apply State.failTransition_ev | with_reducible apply State.setPath_ev | with_reducible apply State.armCommit_ev | with_reducible refine ev_ite.mpr ⟨fun _ => ?_, fun _ => ?_⟩ | with_reducible refine ev_ite3.mpr ⟨fun _ => ?_, fun _ => ?_⟩ | split | with_reducible apply State.runStep_ev)

theorem State.storeParams_ev {σ₀ s : State} (hev : Evolves σ₀ s) (sig : Nat) :
    Evolves σ₀ (State.storeParams s sig).2 := by
  unfold State.storeParams
  repeat' (first | with_reducible assumption | with_reducible refine ev_ite2.mpr ⟨fun _ => ?_, fun _ => ?_⟩ | with_reducible refine ev_ite3.mpr ⟨fun _ => ?_, fun _ => ?_⟩ | simp only [↓ev_mk, evk_eta])

theorem State.dropParams_ev {σ₀ s : State} (hev : Evolves σ₀ s) (sig : Nat) :
    Evolves σ₀ (State.dropParams s sig).2 := by
  unfold State.dropParams
  repeat' (first | with_reducible assumption | with_reducible refine ev_ite2.mpr ⟨fun _ => ?_, fun _ => ?_⟩ | with_reducible refine ev_ite3.mpr ⟨fun _ => ?_, fun _ => ?_⟩ | simp only [↓ev_mk, evk_eta])

theorem State.applyParams_ev {σ₀ s : State} (hev : Evolves σ₀ s) :
    Evolves σ₀ (State.applyParams s) := by
  unfold State.applyParams
  repeat' (first | with_reducible assumption | with_reducible apply State.applyGroup_ev | with_reducible refine ev_foldl' _ _ ?_ (fun _ _ _ => ?_) | split | with_reducible apply State.runStep_ev)

theorem State.restoreCal_ev {σ₀ s : State} (hev : Evolves σ₀ s) (p : Nat) (sig : Nat) :
    Evolves σ₀ (State.restoreCal s p sig).2 := by
  unfold State.restoreCal
  repeat' (first | with_reducible assumption | with_reducible apply State.storeCal_ev | with_reducible apply State.setPath_ev | with_reducible apply State.note_ev | with_reducible apply State.event_ev | with_reducible refine ev_ite2.mpr ⟨fun _ => ?_, fun _ => ?_⟩ | with_reducible refine ev_ite3.mpr ⟨fun _ => ?_, fun _ => ?_⟩)

/-! Casc. -/

theorem State.setCasc_ev {σ₀ s : State} (hev : Evolves σ₀ s) (c : Casc) :
    Evolves σ₀ (State.setCasc s c) := by
  unfold State.setCasc
  repeat' (first | with_reducible assumption | simp only [↓ev_mk, evk_eta])

theorem State.hear_ev {σ₀ s : State} (hev : Evolves σ₀ s) (p : Nat) :
    Evolves σ₀ (State.hear s p) := by
  unfold State.hear
  repeat' (first | with_reducible assumption | with_reducible apply State.setCasc_ev)

theorem State.cascMove_ev {σ₀ s : State} (hev : Evolves σ₀ s) (st : Nat) (reason : Nat) :
    Evolves σ₀ (State.cascMove s st reason) := by
  unfold State.cascMove
  repeat' (first | with_reducible assumption | with_reducible apply State.setRf_ev | with_reducible apply State.event_ev | with_reducible apply State.mgrMsix_ev | with_reducible refine ev_ite.mpr ⟨fun _ => ?_, fun _ => ?_⟩ | with_reducible apply State.report_ev)

theorem State.cascSuspect_ev {σ₀ s : State} (hev : Evolves σ₀ s) :
    Evolves σ₀ (State.cascSuspect s) := by
  unfold State.cascSuspect
  repeat' (first | with_reducible assumption | with_reducible apply State.setRf_ev | with_reducible apply State.setCasc_ev | with_reducible apply State.retime_ev | with_reducible apply State.note_ev | with_reducible refine ev_ite.mpr ⟨fun _ => ?_, fun _ => ?_⟩ | simp only [↓ev_mk, evk_eta])

theorem State.cascTrust_ev {σ₀ s : State} (hev : Evolves σ₀ s) :
    Evolves σ₀ (State.cascTrust s) := by
  unfold State.cascTrust
  repeat' (first | with_reducible assumption | with_reducible apply State.setRf_ev | with_reducible apply State.setCasc_ev | with_reducible apply State.retime_ev)

theorem State.cascJoining_ev {σ₀ s : State} (hev : Evolves σ₀ s) :
    Evolves σ₀ (State.cascJoining s) := by
  unfold State.cascJoining
  repeat' (first | with_reducible assumption | with_reducible apply State.setRf_ev | with_reducible apply State.setCasc_ev | with_reducible apply State.cascMove_ev)

theorem State.linkTrained_ev {σ₀ s : State} (hev : Evolves σ₀ s) (closed : Bool) :
    Evolves σ₀ (State.linkTrained s closed) := by
  unfold State.linkTrained
  repeat' (first | with_reducible assumption | with_reducible apply State.setCasc_ev | with_reducible apply State.setRf_ev | with_reducible apply State.event_ev | with_reducible refine ev_ite.mpr ⟨fun _ => ?_, fun _ => ?_⟩ | with_reducible refine ev_ite3.mpr ⟨fun _ => ?_, fun _ => ?_⟩)

theorem State.cascBreak_ev {σ₀ s : State} (hev : Evolves σ₀ s) (port : Nat) :
    Evolves σ₀ (State.cascBreak s port) := by
  unfold State.cascBreak
  repeat' (first | with_reducible assumption | with_reducible apply State.setCasc_ev | with_reducible apply State.setRf_ev | with_reducible apply State.bumpRf_ev | with_reducible apply State.note_ev | with_reducible refine ev_ite.mpr ⟨fun _ => ?_, fun _ => ?_⟩ | with_reducible refine ev_ite3.mpr ⟨fun _ => ?_, fun _ => ?_⟩)

theorem State.sendCell_ev {σ₀ s : State} (hev : Evolves σ₀ s) (kind : String) (dest : Nat) (data : List (BitVec 64)) :
    Evolves σ₀ (State.sendCell s kind dest data) := by
  unfold State.sendCell
  repeat' (first | with_reducible assumption | with_reducible apply State.send_ev | with_reducible apply State.cell_ev | dsimp -iota only | with_reducible trivial)

theorem State.relay_ev {σ₀ s : State} (hev : Evolves σ₀ s) (kind : String) (src : Nat) (dest : Nat) (port : Nat) (data : List (BitVec 64)) :
    Evolves σ₀ (State.relay s kind src dest port data) := by
  unfold State.relay
  repeat' (first | with_reducible assumption | with_reducible apply State.send_ev | with_reducible apply State.cell_ev | dsimp -iota only | with_reducible trivial)

theorem State.resent_ev {σ₀ s : State} (hev : Evolves σ₀ s) (port : Nat) (n : Nat) :
    Evolves σ₀ (State.resent s port n) := by
  unfold State.resent
  repeat' (first | with_reducible assumption | with_reducible apply State.countHour_ev | with_reducible refine ev_foldl' _ _ ?_ (fun _ _ _ => ?_))

theorem State.linkDelay_ev {σ₀ s : State} (hev : Evolves σ₀ s) (port : Nat) (ns : Nat) :
    Evolves σ₀ (State.linkDelay s port ns) := by
  unfold State.linkDelay
  repeat' (first | with_reducible assumption | with_reducible apply State.setCasc_ev | with_reducible refine ev_ite.mpr ⟨fun _ => ?_, fun _ => ?_⟩ | with_reducible refine ev_ite3.mpr ⟨fun _ => ?_, fun _ => ?_⟩)

theorem State.joinCheck_ev {σ₀ s : State} (hev : Evolves σ₀ s) :
    Evolves σ₀ (State.joinCheck s) := by
  unfold State.joinCheck
  repeat' (first | with_reducible assumption | with_reducible apply State.cascMove_ev | with_reducible refine ev_ite.mpr ⟨fun _ => ?_, fun _ => ?_⟩ | with_reducible refine ev_ite3.mpr ⟨fun _ => ?_, fun _ => ?_⟩)

theorem State.masterVals_ev {σ₀ s : State} (hev : Evolves σ₀ s) (l : List Nat) :
    Evolves σ₀ (State.masterVals s l) := by
  unfold State.masterVals
  repeat' (first | with_reducible assumption | with_reducible apply State.setCasc_ev | with_reducible apply State.take_ev)

theorem State.dupId_ev {σ₀ s : State} (hev : Evolves σ₀ s) :
    Evolves σ₀ (State.dupId s) := by
  unfold State.dupId
  repeat' (first | with_reducible assumption | with_reducible apply State.setRf_ev | with_reducible apply State.setCasc_ev | with_reducible apply State.cascMove_ev | with_reducible refine ev_ite.mpr ⟨fun _ => ?_, fun _ => ?_⟩)

theorem State.joinAnnouncement_ev {σ₀ s : State} (hev : Evolves σ₀ s) (a : Arrival) (l : List Nat) :
    Evolves σ₀ (State.joinAnnouncement s a l) := by
  unfold State.joinAnnouncement
  repeat' (first | with_reducible assumption | with_reducible apply State.resent_ev | with_reducible apply State.dupId_ev | with_reducible apply State.relay_ev | with_reducible apply State.hear_ev | with_reducible apply State.masterVals_ev | with_reducible apply State.joinCheck_ev | with_reducible refine ev_ite.mpr ⟨fun _ => ?_, fun _ => ?_⟩)

theorem State.announce_ev {σ₀ s : State} (hev : Evolves σ₀ s) :
    Evolves σ₀ (State.announce s) := by
  unfold State.announce
  repeat' (first | with_reducible assumption | with_reducible apply State.sendCell_ev | with_reducible apply State.joinCheck_ev | with_reducible refine ev_ite.mpr ⟨fun _ => ?_, fun _ => ?_⟩)

theorem State.announceLevel_ev {σ₀ s s0 : State} (hev : Evolves σ₀ s) (hev1 : Evolves σ₀ s0) :
    Evolves σ₀ (State.announceLevel s s0) := by
  unfold State.announceLevel
  repeat' (first | with_reducible assumption | with_reducible apply State.announce_ev | with_reducible refine ev_ite.mpr ⟨fun _ => ?_, fun _ => ?_⟩ | with_reducible refine ev_ite3.mpr ⟨fun _ => ?_, fun _ => ?_⟩)

theorem State.retrim_ev {σ₀ s : State} (hev : Evolves σ₀ s) (d : Int) :
    Evolves σ₀ (State.retrim s d) := by
  unfold State.retrim
  repeat' (first | with_reducible assumption | with_reducible apply State.setCasc_ev | with_reducible refine ev_ite.mpr ⟨fun _ => ?_, fun _ => ?_⟩ | with_reducible refine ev_ite3.mpr ⟨fun _ => ?_, fun _ => ?_⟩ | with_reducible apply State.freeNat_ev)

theorem State.stepDt_ev {σ₀ s : State} (hev : Evolves σ₀ s) (n : Nat) :
    Evolves σ₀ (State.stepDt s n) := by
  unfold State.stepDt
  repeat' (first | with_reducible assumption | simp only [↓ev_mk, evk_eta] | dsimp -iota only | intro _ | with_reducible trivial)

theorem State.alignTime_ev {σ₀ s : State} (hev : Evolves σ₀ s) (d : Int) :
    Evolves σ₀ (State.alignTime s d) := by
  unfold State.alignTime
  repeat' (first | with_reducible assumption | with_reducible apply State.cascMove_ev | with_reducible apply State.stepDt_ev | with_reducible refine ev_ite.mpr ⟨fun _ => ?_, fun _ => ?_⟩)

theorem State.tolerance_ev {σ₀ s : State} (hev : Evolves σ₀ s) (d : Int) :
    Evolves σ₀ (State.tolerance s d) := by
  unfold State.tolerance
  repeat' (first | with_reducible assumption | with_reducible apply State.setCasc_ev | with_reducible refine ev_ite3.mpr ⟨fun _ => ?_, fun _ => ?_⟩)

theorem State.follow_ev {σ₀ s : State} (hev : Evolves σ₀ s) (t : Nat) (path : Nat) :
    Evolves σ₀ (State.follow s t path) := by
  unfold State.follow
  repeat' (first | with_reducible assumption | with_reducible apply State.setRf_ev | with_reducible apply State.setCasc_ev | with_reducible apply State.cascSuspect_ev | with_reducible apply State.retrim_ev | with_reducible apply State.tolerance_ev | with_reducible apply State.alignTime_ev | with_reducible apply State.retime_ev | with_reducible apply State.cascTrust_ev | with_reducible apply State.cascMove_ev | with_reducible refine ev_ite.mpr ⟨fun _ => ?_, fun _ => ?_⟩ | with_reducible refine ev_ite3.mpr ⟨fun _ => ?_, fun _ => ?_⟩)

theorem State.takeMaster_ev {σ₀ s : State} (hev : Evolves σ₀ s) (src : Nat) (epoch : Nat) (l : List Nat) :
    Evolves σ₀ (State.takeMaster s src epoch l) := by
  unfold State.takeMaster
  repeat' (first | with_reducible assumption | with_reducible apply State.setRf_ev | with_reducible apply State.masterVals_ev)

theorem State.syncCell_ev {σ₀ s : State} (hev : Evolves σ₀ s) (a : Arrival) (epoch : Nat) (t : Nat) (path : Nat) (l : List Nat) :
    Evolves σ₀ (State.syncCell s a epoch t path l) := by
  unfold State.syncCell
  repeat' (first | with_reducible assumption | with_reducible apply State.dupId_ev | with_reducible apply State.relay_ev | with_reducible apply State.hear_ev | with_reducible apply State.setCasc_ev | with_reducible apply State.takeMaster_ev | with_reducible apply State.cascJoining_ev | with_reducible apply State.follow_ev | with_reducible refine ev_ite.mpr ⟨fun _ => ?_, fun _ => ?_⟩)

theorem State.syncSend_ev {σ₀ s : State} (hev : Evolves σ₀ s) :
    Evolves σ₀ (State.syncSend s) := by
  unfold State.syncSend
  repeat' (first | with_reducible assumption | with_reducible apply State.sendCell_ev | with_reducible refine ev_ite.mpr ⟨fun _ => ?_, fun _ => ?_⟩)

theorem State.syncLoss_ev {σ₀ s : State} (hev : Evolves σ₀ s) :
    Evolves σ₀ (State.syncLoss s) := by
  unfold State.syncLoss
  repeat' (first | with_reducible assumption | with_reducible apply State.cascSuspect_ev | with_reducible apply State.cascMove_ev | with_reducible refine ev_ite.mpr ⟨fun _ => ?_, fun _ => ?_⟩ | with_reducible refine ev_ite3.mpr ⟨fun _ => ?_, fun _ => ?_⟩)

theorem State.joinComplete_ev {σ₀ s : State} (hev : Evolves σ₀ s) :
    Evolves σ₀ (State.joinComplete s) := by
  unfold State.joinComplete
  repeat' (first | with_reducible assumption | with_reducible apply State.cascTrust_ev | with_reducible apply State.cascMove_ev | with_reducible refine ev_ite3.mpr ⟨fun _ => ?_, fun _ => ?_⟩ | split)

theorem State.dtStep_ev {σ₀ s : State} (hev : Evolves σ₀ s) :
    Evolves σ₀ (State.dtStep s).2 := by
  unfold State.dtStep
  repeat' (first | with_reducible assumption | with_reducible apply State.setCasc_ev | with_reducible refine ev_ite3.mpr ⟨fun _ => ?_, fun _ => ?_⟩ | split)

theorem State.cascResult_ev {σ₀ s : State} (hev : Evolves σ₀ s) (n : Nat) :
    Evolves σ₀ (State.cascResult s n) := by
  unfold State.cascResult
  repeat' (first | with_reducible assumption | with_reducible apply State.setRf_ev)

theorem State.promote_ev {σ₀ s : State} (hev : Evolves σ₀ s) :
    Evolves σ₀ (State.promote s) := by
  unfold State.promote
  repeat' (first | with_reducible assumption | with_reducible apply State.cascResult_ev | with_reducible apply State.setRf_ev | with_reducible apply State.cascTrust_ev | with_reducible apply State.setCasc_ev | with_reducible apply State.cascMove_ev | with_reducible refine ev_ite.mpr ⟨fun _ => ?_, fun _ => ?_⟩ | with_reducible refine ev_ite3.mpr ⟨fun _ => ?_, fun _ => ?_⟩)

theorem State.retime_ev {σ₀ s : State} (hev : Evolves σ₀ s) :
    Evolves σ₀ (State.retime s) := by
  unfold State.retime
  repeat' (first | with_reducible assumption | with_reducible apply State.cascResult_ev | with_reducible apply State.setRf_ev | with_reducible apply State.setCasc_ev | with_reducible apply State.alignTime_ev | with_reducible refine ev_ite.mpr ⟨fun _ => ?_, fun _ => ?_⟩ | with_reducible refine ev_ite3.mpr ⟨fun _ => ?_, fun _ => ?_⟩)

theorem State.rejoin_ev {σ₀ s : State} (hev : Evolves σ₀ s) :
    Evolves σ₀ (State.rejoin s) := by
  unfold State.rejoin
  repeat' (first | with_reducible assumption | with_reducible apply State.cascJoining_ev | with_reducible apply State.cascResult_ev | with_reducible refine ev_ite.mpr ⟨fun _ => ?_, fun _ => ?_⟩ | with_reducible refine ev_ite3.mpr ⟨fun _ => ?_, fun _ => ?_⟩)

theorem State.broadcastSamples_ev {σ₀ s : State} (hev : Evolves σ₀ s) :
    Evolves σ₀ (State.broadcastSamples s) := by
  unfold State.broadcastSamples
  repeat' (first | with_reducible assumption | with_reducible apply State.sendCell_ev | with_reducible refine ev_foldl' _ _ ?_ (fun _ _ _ => ?_) | dsimp -iota only | intro _ | with_reducible trivial)

theorem State.remoteSample_ev {σ₀ s : State} (hev : Evolves σ₀ s) (x : Nat) (e : Sample) :
    Evolves σ₀ (State.remoteSample s x e) := by
  unfold State.remoteSample
  repeat' (first | with_reducible assumption | with_reducible apply State.setRf_ev | with_reducible apply State.setAxr_ev | with_reducible apply State.endLoss_ev | with_reducible apply State.pushTrack_ev | with_reducible apply State.moveAxisBy_ev | with_reducible apply State.setReg_ev | with_reducible refine ev_ite.mpr ⟨fun _ => ?_, fun _ => ?_⟩)

theorem State.axisSample_ev {σ₀ s : State} (hev : Evolves σ₀ s) (port : Nat) (n : Nat) (src : Nat) (a : Nat) (e : Sample) :
    Evolves σ₀ (State.axisSample s port n src a e) := by
  unfold State.axisSample
  repeat' (first | with_reducible assumption | with_reducible apply State.resent_ev | with_reducible apply State.dupId_ev | with_reducible apply State.relay_ev | with_reducible apply State.hear_ev | with_reducible apply State.remoteSample_ev | with_reducible refine ev_foldl' _ _ ?_ (fun _ _ _ => ?_) | with_reducible refine ev_ite.mpr ⟨fun _ => ?_, fun _ => ?_⟩)

theorem State.axisStale_ev {σ₀ s : State} (hev : Evolves σ₀ s) (x : Nat) :
    Evolves σ₀ (State.axisStale s x) := by
  unfold State.axisStale
  repeat' (first | with_reducible assumption | with_reducible apply State.setRf_ev | with_reducible apply State.declareLoss_ev | with_reducible refine ev_ite.mpr ⟨fun _ => ?_, fun _ => ?_⟩ | with_reducible refine ev_ite3.mpr ⟨fun _ => ?_, fun _ => ?_⟩)

theorem State.axmapWrite_ev {σ₀ s : State} (hev : Evolves σ₀ s) (x : Nat) (mask : BitVec 64) (v : BitVec 64) :
    Evolves σ₀ (State.axmapWrite s x mask v) := by
  unfold State.axmapWrite
  repeat' (first | with_reducible assumption | with_reducible apply State.countReg_ev | with_reducible apply State.pushTrack_ev | with_reducible apply State.plain_ev | with_reducible apply State.setRf_ev | with_reducible apply State.setAxr_ev | with_reducible refine ev_ite.mpr ⟨fun _ => ?_, fun _ => ?_⟩ | with_reducible refine ev_ite3.mpr ⟨fun _ => ?_, fun _ => ?_⟩)

theorem State.hoRefused_ev {σ₀ s : State} (hev : Evolves σ₀ s) (d : Nat) :
    Evolves σ₀ (State.hoRefused s d) := by
  unfold State.hoRefused
  repeat' (first | with_reducible assumption | with_reducible apply State.setRf_ev)

theorem State.horingWrite_ev {σ₀ s : State} (hev : Evolves σ₀ s) (d : Nat) (mask : BitVec 64) (v : BitVec 64) :
    Evolves σ₀ (State.horingWrite s d mask v) := by
  unfold State.horingWrite
  repeat' (first | with_reducible assumption | with_reducible apply State.countReg_ev | with_reducible apply State.plain_ev | with_reducible apply State.hoRefused_ev | with_reducible apply State.setReg_ev | with_reducible apply State.setCasc_ev | with_reducible refine ev_ite.mpr ⟨fun _ => ?_, fun _ => ?_⟩)

theorem State.hoHead_ev {σ₀ s : State} (hev : Evolves σ₀ s) :
    Evolves σ₀ (State.hoHead s) := by
  unfold State.hoHead
  repeat' (first | with_reducible assumption | with_reducible apply State.setRf_ev | split)

theorem State.hoPost_ev {σ₀ s : State} (hev : Evolves σ₀ s) (d : Nat) :
    Evolves σ₀ (State.hoPost s d) := by
  unfold State.hoPost
  repeat' (first | with_reducible assumption | with_reducible apply State.ctxApply_ev)

theorem State.hoStatus_ev {σ₀ s : State} (hev : Evolves σ₀ s) (i : Nat) (status : Nat) :
    Evolves σ₀ (State.hoStatus s i status) := by
  unfold State.hoStatus
  repeat' (first | with_reducible assumption | with_reducible apply State.agentOwn_ev | with_reducible apply State.conflict_ev | with_reducible apply State.setMemWord_ev | with_reducible apply State.hoPost_ev | with_reducible refine ev_ite.mpr ⟨fun _ => ?_, fun _ => ?_⟩ | with_reducible refine ev_ite3.mpr ⟨fun _ => ?_, fun _ => ?_⟩)

theorem State.hoLoad_ev {σ₀ s : State} (hev : Evolves σ₀ s) (pa : Nat) (a0 : Nat) :
    Evolves σ₀ (State.hoLoad s pa a0).2 := by
  induction a0 generalizing s pa <;> unfold State.hoLoad <;> repeat' (first | with_reducible assumption | (split <;> (try dsimp -iota only) <;> try (rename_i hq; obtain ⟨hq1, hq2⟩ := Prod.ext_iff.mp hq; dsimp only at hq2; subst hq2)) | with_reducible apply State.agentLoad_ev | with_reducible apply_assumption)

theorem State.hoSend_ev {σ₀ s : State} (hev : Evolves σ₀ s) (i : Nat) :
    Evolves σ₀ (State.hoSend s i) := by
  unfold State.hoSend
  repeat' (first | with_reducible assumption | with_reducible apply State.hoStatus_ev | with_reducible apply State.sendCell_ev | with_reducible apply State.setCasc_ev | with_reducible refine ev_ite.mpr ⟨fun _ => ?_, fun _ => ?_⟩ | with_reducible apply State.hoLoad_ev)

theorem State.hoPump_ev {σ₀ s : State} (hev : Evolves σ₀ s) (a0 : List Nat) :
    Evolves σ₀ (State.hoPump s a0) := by
  induction a0 generalizing s <;> unfold State.hoPump <;> repeat' (first | with_reducible assumption | with_reducible apply State.setCasc_ev | with_reducible apply State.hoSend_ev | with_reducible refine ev_ite.mpr ⟨fun _ => ?_, fun _ => ?_⟩ | with_reducible refine ev_ite3.mpr ⟨fun _ => ?_, fun _ => ?_⟩ | with_reducible apply_assumption)

theorem State.hoTail_ev {σ₀ s : State} (hev : Evolves σ₀ s) (tail : Nat) :
    Evolves σ₀ (State.hoTail s tail) := by
  unfold State.hoTail
  repeat' (first | with_reducible assumption | with_reducible apply State.hoRefused_ev | with_reducible apply State.setRf_ev | with_reducible apply State.hoPump_ev | with_reducible apply State.hoHead_ev | with_reducible refine ev_ite.mpr ⟨fun _ => ?_, fun _ => ?_⟩ | with_reducible refine ev_ite3.mpr ⟨fun _ => ?_, fun _ => ?_⟩)

theorem State.hoTake_ev {σ₀ s : State} (hev : Evolves σ₀ s) (head : Nat) :
    Evolves σ₀ (State.hoTake s head) := by
  unfold State.hoTake
  repeat' (first | with_reducible assumption | with_reducible apply State.hoRefused_ev | with_reducible apply State.setRf_ev | with_reducible refine ev_ite.mpr ⟨fun _ => ?_, fun _ => ?_⟩ | with_reducible refine ev_ite3.mpr ⟨fun _ => ?_, fun _ => ?_⟩)

theorem State.netPump_ev {σ₀ s : State} (hev : Evolves σ₀ s) :
    Evolves σ₀ (State.netPump s) := by
  unfold State.netPump
  repeat' (first | with_reducible assumption | with_reducible apply State.odPump_ev | with_reducible apply State.hoPump_ev | with_reducible apply State.hoHead_ev | with_reducible refine ev_ite.mpr ⟨fun _ => ?_, fun _ => ?_⟩)

theorem State.tick_ev {σ₀ s : State} (hev : Evolves σ₀ s) :
    Evolves σ₀ (State.tick s) := by
  unfold State.tick
  repeat' (first | with_reducible assumption | with_reducible apply State.stopFilter_ev | with_reducible apply State.netPump_ev | with_reducible refine ev_ite.mpr ⟨fun _ => ?_, fun _ => ?_⟩ | simp only [↓ev_mk, evk_eta] | with_reducible apply State.dtStep_ev)

theorem State.hoptrWrite_ev {σ₀ s : State} (hev : Evolves σ₀ s) (d : Nat) (mask : BitVec 64) (v : BitVec 64) :
    Evolves σ₀ (State.hoptrWrite s d mask v) := by
  unfold State.hoptrWrite
  repeat' (first | with_reducible assumption | with_reducible apply State.plain_ev | with_reducible apply State.hoTail_ev | with_reducible apply State.hoTake_ev | with_reducible refine ev_ite.mpr ⟨fun _ => ?_, fun _ => ?_⟩ | with_reducible refine ev_ite3.mpr ⟨fun _ => ?_, fun _ => ?_⟩)

theorem State.hoDeliver_ev {σ₀ s : State} (hev : Evolves σ₀ s) (l : List Word) :
    Evolves σ₀ (State.hoDeliver s l) := by
  unfold State.hoDeliver
  repeat' (first | with_reducible assumption | with_reducible apply State.agentStore_ev | with_reducible apply State.setRf_ev | with_reducible apply State.hoPost_ev | with_reducible refine ev_foldl' _ _ ?_ (fun _ _ _ => ?_))

theorem State.expects_ev {σ₀ s : State} (hev : Evolves σ₀ s) (l : List (Nat × Nat × Nat)) :
    Evolves σ₀ (State.expects s l) := by
  unfold State.expects
  repeat' (first | with_reducible assumption | with_reducible apply State.setCasc_ev)

theorem State.hoReceive_ev {σ₀ s : State} (hev : Evolves σ₀ s) (l : List Word) :
    Evolves σ₀ (State.hoReceive s l).2 := by
  unfold State.hoReceive
  repeat' (first | with_reducible assumption | with_reducible apply State.expects_ev | with_reducible apply State.hoDeliver_ev | with_reducible apply State.bumpRf_ev | with_reducible apply State.note_ev | with_reducible refine ev_ite2.mpr ⟨fun _ => ?_, fun _ => ?_⟩ | with_reducible refine ev_ite3.mpr ⟨fun _ => ?_, fun _ => ?_⟩)

theorem State.handoffReceive_ev {σ₀ s : State} (hev : Evolves σ₀ s) (port : Nat) (n : Nat) (l : List Word) :
    Evolves σ₀ (State.handoffReceive s port n l) := by
  unfold State.handoffReceive
  repeat' (first | with_reducible assumption | with_reducible apply State.resent_ev | with_reducible apply State.dupId_ev | with_reducible apply State.relay_ev | with_reducible apply State.hear_ev | with_reducible apply State.sendCell_ev | with_reducible refine ev_ite.mpr ⟨fun _ => ?_, fun _ => ?_⟩ | with_reducible apply State.hoReceive_ev)

theorem State.hoAnswer_ev {σ₀ s : State} (hev : Evolves σ₀ s) (o : HandOut) (a : HandAnswer) :
    Evolves σ₀ (State.hoAnswer s o a).2 := by
  unfold State.hoAnswer
  repeat' (first | with_reducible assumption | with_reducible apply State.resent_ev | with_reducible apply State.hear_ev | with_reducible refine ev_ite2.mpr ⟨fun _ => ?_, fun _ => ?_⟩)

theorem State.handoffStatus_ev {σ₀ s : State} (hev : Evolves σ₀ s) (i : Nat) (answer : Option HandAnswer) :
    Evolves σ₀ (State.handoffStatus s i answer) := by
  unfold State.handoffStatus
  repeat' (first | with_reducible assumption | with_reducible apply State.hoStatus_ev | with_reducible apply State.setCasc_ev | with_reducible apply State.hoPump_ev | with_reducible apply State.hoHead_ev | (split <;> (try dsimp -iota only) <;> try (rename_i hq; obtain ⟨hq1, hq2⟩ := Prod.ext_iff.mp hq; dsimp only at hq2; subst hq2)) | with_reducible apply State.hoAnswer_ev)

theorem State.cascCmdWrite_ev {σ₀ s : State} (hev : Evolves σ₀ s) (mask : BitVec 64) (v : BitVec 64) :
    Evolves σ₀ (State.cascCmdWrite s mask v) := by
  unfold State.cascCmdWrite
  repeat' (first | with_reducible assumption | with_reducible apply State.promote_ev | with_reducible apply State.retime_ev | with_reducible apply State.rejoin_ev | (split <;> (try dsimp -iota only) <;> try (rename_i hq; obtain ⟨hq1, hq2⟩ := Prod.ext_iff.mp hq; dsimp only at hq2; subst hq2)) | with_reducible apply State.store64_ev)

theorem State.joinWrite_ev {σ₀ s : State} (hev : Evolves σ₀ s) (mask : BitVec 64) (v : BitVec 64) :
    Evolves σ₀ (State.joinWrite s mask v) := by
  unfold State.joinWrite
  repeat' (first | with_reducible assumption | with_reducible apply State.plain_ev | with_reducible apply State.announce_ev)

theorem State.hoHallWrite_ev {σ₀ s : State} (hev : Evolves σ₀ s) (who : Initiator) (d : Nat) (mask : BitVec 64) (v : BitVec 64) :
    Evolves σ₀ (State.hoHallWrite s who d mask v) := by
  unfold State.hoHallWrite
  repeat' (first | with_reducible assumption | with_reducible apply State.hoptrWrite_ev | with_reducible apply State.refuseWrite_ev | with_reducible refine ev_ite.mpr ⟨fun _ => ?_, fun _ => ?_⟩)

theorem State.cascWrite_ev {σ₀ s : State} (hev : Evolves σ₀ s) (who : Initiator) (off : Nat) (mask : BitVec 64) (v : BitVec 64) :
    Evolves σ₀ (State.cascWrite s who off mask v) := by
  unfold State.cascWrite
  repeat' (first | with_reducible assumption | with_reducible apply State.hoHallWrite_ev | with_reducible apply State.gate_ev | with_reducible apply State.cascCmdWrite_ev | with_reducible apply State.joinWrite_ev | with_reducible apply State.axmapWrite_ev | with_reducible apply State.horingWrite_ev | with_reducible apply State.hoptrWrite_ev | with_reducible apply State.plain_ev | split)

end Sys2Proof.Machine
end

