-- ==== Sys2Proof/Laws/EvService.lean ====
section
/-! SUPPORT. Evolves (Laws/Evolves.lean) for maintenance, service life, startup, requests and register access. -/

namespace Sys2Proof.Machine

/-! Maint. -/

theorem State.setSector_ev {σ₀ s : State} (hev : Evolves σ₀ s) (p : Nat) (e : Nat) (k : Nat) (x : Sector) :
    Evolves σ₀ (State.setSector s p e k x) := by
  unfold State.setSector
  repeat' (first | with_reducible assumption | with_reducible apply State.setCore_ev)

theorem State.showHeld_ev {σ₀ s : State} (hev : Evolves σ₀ s) (p : Nat) :
    Evolves σ₀ (State.showHeld s p) := by
  unfold State.showHeld
  repeat' (first | with_reducible assumption | with_reducible apply State.setRf_ev | with_reducible refine ev_ite3.mpr ⟨fun _ => ?_, fun _ => ?_⟩)

theorem State.detach_ev {σ₀ s : State} (hev : Evolves σ₀ s) (p : Nat) (e : Nat) :
    Evolves σ₀ (State.detach s p e) := by
  unfold State.detach
  repeat' (first | with_reducible assumption | with_reducible apply State.setWords_ev | with_reducible apply State.setSector_ev | with_reducible refine ev_foldl' _ _ ?_ (fun _ _ _ => ?_) | with_reducible refine ev_ite3.mpr ⟨fun _ => ?_, fun _ => ?_⟩ | split | dsimp -iota only)

theorem State.unshare_ev {σ₀ s : State} (hev : Evolves σ₀ s) (p : Nat) :
    Evolves σ₀ (State.unshare s p) := by
  unfold State.unshare
  repeat' (first | with_reducible assumption | with_reducible apply State.setBarn_ev)

theorem State.cribDisable_ev {σ₀ s : State} (hev : Evolves σ₀ s) (p : Nat) :
    Evolves σ₀ (State.cribDisable s p) := by
  unfold State.cribDisable
  repeat' (first | with_reducible assumption | with_reducible apply State.setRf_ev | with_reducible apply State.detach_ev | with_reducible apply State.unshare_ev | with_reducible apply State.setCore_ev | with_reducible apply State.showHeld_ev | with_reducible apply State.note_ev | with_reducible apply State.event_ev | with_reducible refine ev_foldl' _ _ ?_ (fun _ _ _ => ?_) | with_reducible refine ev_ite.mpr ⟨fun _ => ?_, fun _ => ?_⟩ | with_reducible refine ev_ite3.mpr ⟨fun _ => ?_, fun _ => ?_⟩)

theorem State.register_ev {σ₀ s : State} (hev : Evolves σ₀ s) (p : Nat) (e : Nat) (line : Nat) (k : Nat) (x : Sector) :
    Evolves σ₀ (State.register s p e line k x) := by
  unfold State.register
  repeat' (first | with_reducible assumption | with_reducible apply State.setCore_ev | with_reducible apply State.setSector_ev | with_reducible apply State.barnTake_ev | with_reducible apply State.setBarnSec_ev | with_reducible apply State.barnOwn_ev | with_reducible apply State.setWords_ev | split)

theorem State.attach_ev {σ₀ s : State} (hev : Evolves σ₀ s) (p : Nat) (e : Nat) (x : CribEntry) :
    Evolves σ₀ (State.attach s p e x) := by
  unfold State.attach
  repeat' (first | with_reducible assumption | with_reducible apply State.register_ev | with_reducible apply State.agentOwn_ev | with_reducible apply State.setWords_ev | with_reducible apply State.noAlloc_ev | with_reducible refine ev_foldl' _ _ ?_ (fun _ _ _ => ?_) | (split <;> (try dsimp -iota only) <;> try (rename_i hq; obtain ⟨hq1, hq2⟩ := Prod.ext_iff.mp hq; dsimp only at hq2; subst hq2)) | with_reducible apply State.barnBring_ev)

theorem State.cribEnable_ev {σ₀ s : State} (hev : Evolves σ₀ s) (p : Nat) :
    Evolves σ₀ (State.cribEnable s p) := by
  unfold State.cribEnable
  repeat' (first | with_reducible assumption | with_reducible apply State.attach_ev | with_reducible apply State.setCore_ev | with_reducible apply State.showHeld_ev | with_reducible refine ev_foldl' _ _ ?_ (fun _ _ _ => ?_) | with_reducible refine ev_ite.mpr ⟨fun _ => ?_, fun _ => ?_⟩ | with_reducible refine ev_ite3.mpr ⟨fun _ => ?_, fun _ => ?_⟩)

theorem State.writeBack_ev {σ₀ s : State} (hev : Evolves σ₀ s) (p : Nat) (e : Nat) (k : Nat) (next : Mesi) :
    Evolves σ₀ (State.writeBack s p e k next) := by
  unfold State.writeBack
  repeat' (first | with_reducible assumption | with_reducible apply State.setBarnSec_ev | with_reducible apply State.setSector_ev | with_reducible apply State.ownBeyond_ev | with_reducible apply State.setWords_ev | with_reducible refine ev_ite.mpr ⟨fun _ => ?_, fun _ => ?_⟩ | with_reducible refine ev_ite3.mpr ⟨fun _ => ?_, fun _ => ?_⟩)

theorem State.dropSector_ev {σ₀ s : State} (hev : Evolves σ₀ s) (p : Nat) (e : Nat) (k : Nat) :
    Evolves σ₀ (State.dropSector s p e k) := by
  unfold State.dropSector
  repeat' (first | with_reducible assumption | with_reducible apply State.setWords_ev | with_reducible apply State.setSector_ev | with_reducible refine ev_ite.mpr ⟨fun _ => ?_, fun _ => ?_⟩ | with_reducible refine ev_ite3.mpr ⟨fun _ => ?_, fun _ => ?_⟩)

theorem State.maintSector_ev {σ₀ s : State} (hev : Evolves σ₀ s) (p : Nat) (e : Nat) (k : Nat) (op : Nat) (locked : Bool) :
    Evolves σ₀ (State.maintSector s p e k op locked).2 := by
  unfold State.maintSector
  repeat' (first | with_reducible assumption | with_reducible apply State.dropSector_ev | with_reducible apply State.writeBack_ev | with_reducible apply State.setSector_ev | with_reducible refine ev_ite2.mpr ⟨fun _ => ?_, fun _ => ?_⟩ | with_reducible refine ev_ite3.mpr ⟨fun _ => ?_, fun _ => ?_⟩)

theorem State.maintEntry_ev {σ₀ s : State} (hev : Evolves σ₀ s) (p : Nat) (m : Maint) (v : Visit) (e : Nat) :
    Evolves σ₀ (State.maintEntry s p m v e).2 := by
  unfold State.maintEntry
  dsimp -iota only
  split
  · exact hev
  · split
    · exact hev
    · exact ev_foldl2 _ (fun x a h => by dsimp only; exact State.maintSector_ev h _ _ _ _ _) _ _ hev

theorem State.maintDone_ev {σ₀ s : State} (hev : Evolves σ₀ s) (p : Nat) :
    Evolves σ₀ (State.maintDone s p) := by
  unfold State.maintDone
  split
  · exact hev
  · rename_i m _
    have h1 := ev_foldl2 (fun (x : Visit × State) e => x.2.maintEntry p m x.1 e)
      (fun x a h => State.maintEntry_ev h p m x.1 a) (List.range 48) (⟨0, 0, 0⟩, s) hev
    dsimp only
    generalize List.foldl (fun (x : Visit × State) e => x.2.maintEntry p m x.1 e) (⟨0, 0, 0⟩, s) (List.range 48) = q
      at h1 ⊢
    repeat' (first | with_reducible assumption | with_reducible apply State.event_ev | with_reducible apply State.showHeld_ev | with_reducible apply State.setRf_ev | with_reducible apply State.setReg_ev | with_reducible apply State.setCore_ev | split)

theorem State.maintRejected_ev {σ₀ s : State} (hev : Evolves σ₀ s) (p : Nat) :
    Evolves σ₀ (State.maintRejected s p) := by
  unfold State.maintRejected
  repeat' (first | with_reducible assumption | with_reducible apply State.setRf_ev)

theorem State.maintGo_ev {σ₀ s : State} (hev : Evolves σ₀ s) (p : Nat) :
    Evolves σ₀ (State.maintGo s p) := by
  unfold State.maintGo
  repeat' (first | with_reducible assumption | with_reducible apply State.maintRejected_ev | with_reducible apply State.setCore_ev | with_reducible apply State.setReg_ev | with_reducible apply State.setRf_ev | with_reducible refine ev_ite.mpr ⟨fun _ => ?_, fun _ => ?_⟩ | with_reducible refine ev_ite3.mpr ⟨fun _ => ?_, fun _ => ?_⟩)

theorem State.cribCtrlWrite_ev {σ₀ s : State} (hev : Evolves σ₀ s) (p : Nat) (mask : BitVec 64) (v : BitVec 64) :
    Evolves σ₀ (State.cribCtrlWrite s p mask v) := by
  unfold State.cribCtrlWrite
  repeat' (first | with_reducible assumption | with_reducible apply State.plain_ev | with_reducible apply State.setRf_ev | with_reducible refine ev_ite.mpr ⟨fun _ => ?_, fun _ => ?_⟩ | with_reducible refine ev_ite3.mpr ⟨fun _ => ?_, fun _ => ?_⟩)

theorem State.cribWrite_ev {σ₀ s : State} (hev : Evolves σ₀ s) (p : Nat) (off : Nat) (mask : BitVec 64) (v : BitVec 64) :
    Evolves σ₀ (State.cribWrite s p off mask v) := by
  unfold State.cribWrite
  repeat' (first | with_reducible assumption | with_reducible apply State.cribCtrlWrite_ev | with_reducible apply State.setRf_ev | with_reducible apply State.maintRejected_ev | with_reducible apply State.plain_ev | with_reducible apply State.maintGo_ev | with_reducible refine ev_ite.mpr ⟨fun _ => ?_, fun _ => ?_⟩ | with_reducible refine ev_ite3.mpr ⟨fun _ => ?_, fun _ => ?_⟩ | with_reducible apply State.store64_ev)

theorem State.arrayReport_ev {σ₀ s : State} (hev : Evolves σ₀ s) (a : CacheArray) (pa : Nat) (row : Nat) :
    Evolves σ₀ (State.arrayReport s a pa row).2 := by
  unfold State.arrayReport
  repeat' (first | with_reducible assumption | with_reducible apply State.report_ev)

theorem State.setKept_ev {σ₀ s : State} (hev : Evolves σ₀ s) (p : Nat) (pa : Nat) (w : Word) :
    Evolves σ₀ (State.setKept s p pa w) := by
  unfold State.setKept
  repeat' (first | with_reducible assumption | with_reducible apply State.setCore_ev | with_reducible apply State.setSector_ev | split | dsimp -iota only)

theorem State.keepCopies_ev {σ₀ s : State} (hev : Evolves σ₀ s) (sel : Nat → Bool) (barns : Bool) (pa : Nat) :
    Evolves σ₀ (State.keepCopies s sel barns pa) := by
  unfold State.keepCopies
  repeat' (first | with_reducible assumption | with_reducible apply State.snoop_ev | with_reducible apply State.setBarnSec_ev | with_reducible refine ev_foldl' _ _ ?_ (fun _ _ _ => ?_) | with_reducible refine ev_ite.mpr ⟨fun _ => ?_, fun _ => ?_⟩)

theorem State.arrayPut_ev {σ₀ s : State} (hev : Evolves σ₀ s) (a : CacheArray) (pa : Nat) (w : Word) :
    Evolves σ₀ (State.arrayPut s a pa w) := by
  unfold State.arrayPut
  repeat' (first | with_reducible assumption | with_reducible apply State.setMemWord_ev | with_reducible apply State.keepCopies_ev | split)

theorem State.arrayPoison_ev {σ₀ s : State} (hev : Evolves σ₀ s) (a : CacheArray) (pa : Nat) (i : Nat) :
    Evolves σ₀ (State.arrayPoison s a pa i) := by
  unfold State.arrayPoison
  repeat' (first | with_reducible assumption | with_reducible apply State.setMemWord_ev | with_reducible apply State.setKept_ev | with_reducible apply State.snoop_ev | with_reducible apply State.arrayPut_ev | split)

theorem State.refetch_ev {σ₀ s : State} (hev : Evolves σ₀ s) (a : CacheArray) (pa : Nat) :
    Evolves σ₀ (State.refetch s a pa) := by
  unfold State.refetch
  repeat' (first | with_reducible assumption | with_reducible apply State.setKept_ev | with_reducible apply State.setBarnSec_ev | with_reducible apply State.arrayPut_ev | (split <;> (try dsimp -iota only) <;> try (rename_i hq; obtain ⟨hq1, hq2⟩ := Prod.ext_iff.mp hq; dsimp only at hq2; subst hq2)) | with_reducible apply State.loadBeyond_ev | with_reducible apply State.eccRead_ev)

theorem State.wayNotice_ev {σ₀ s : State} (hev : Evolves σ₀ s) (a : CacheArray) (line : Nat) :
    Evolves σ₀ (State.wayNotice s a line) := by
  unfold State.wayNotice
  repeat' (first | with_reducible assumption | with_reducible apply State.judgeTracker_ev | split)

theorem State.arrayWord_ev {σ₀ s : State} (hev : Evolves σ₀ s) (a : CacheArray) (pa : Nat) (ue : Bool) :
    Evolves σ₀ (State.arrayWord s a pa ue) := by
  unfold State.arrayWord
  repeat' (first | with_reducible assumption | with_reducible apply State.countHour_ev | with_reducible apply State.refetch_ev | with_reducible apply State.arrayPoison_ev | with_reducible apply State.wayNotice_ev | with_reducible refine ev_ite.mpr ⟨fun _ => ?_, fun _ => ?_⟩ | with_reducible apply State.arrayReport_ev)

theorem State.arrayEntry_ev {σ₀ s : State} (hev : Evolves σ₀ s) (a : CacheArray) (line : Nat) (both : Bool) (lost : Nat) :
    Evolves σ₀ (State.arrayEntry s a line both lost) := by
  unfold State.arrayEntry
  repeat' (first | with_reducible assumption | with_reducible apply State.countHour_ev | with_reducible apply State.wayNotice_ev | with_reducible apply State.coreFails_ev | with_reducible apply State.cribEvict_ev | with_reducible apply State.poisonSector_ev | with_reducible apply State.barnEvict_ev | with_reducible apply State.llcEvict_ev | with_reducible refine ev_foldl' _ _ ?_ (fun _ _ _ => ?_) | split | dsimp -iota only | with_reducible apply State.arrayReport_ev)

theorem State.writeSector_ev {σ₀ s : State} (hev : Evolves σ₀ s) (pa : Nat) :
    Evolves σ₀ (State.writeSector s pa) := by
  unfold State.writeSector
  repeat' (first | with_reducible assumption | with_reducible apply State.shareBarns_ev | with_reducible apply State.memWrite_ev | with_reducible apply State.setLlcSec_ev)

theorem State.memInject_ev {σ₀ s : State} (hev : Evolves σ₀ s) :
    Evolves σ₀ (State.memInject s) := by
  unfold State.memInject
  repeat' (first | with_reducible assumption | with_reducible apply State.writeSector_ev | with_reducible refine ev_ite.mpr ⟨fun _ => ?_, fun _ => ?_⟩ | with_reducible refine ev_ite3.mpr ⟨fun _ => ?_, fun _ => ?_⟩)

theorem State.memRegWrite_ev {σ₀ s : State} (hev : Evolves σ₀ s) (off : Nat) (mask : BitVec 64) (v : BitVec 64) :
    Evolves σ₀ (State.memRegWrite s off mask v) := by
  unfold State.memRegWrite
  repeat' (first | with_reducible assumption | with_reducible apply State.setRf_ev | with_reducible apply State.clearFields_ev | with_reducible refine ev_ite.mpr ⟨fun _ => ?_, fun _ => ?_⟩ | with_reducible refine ev_ite3.mpr ⟨fun _ => ?_, fun _ => ?_⟩ | with_reducible apply State.store64_ev)

/-! Service. -/

theorem State.freezeAt_ev {σ₀ s : State} (hev : Evolves σ₀ s) (i : Nat) :
    Evolves σ₀ (State.freezeAt s i) := by
  unfold State.freezeAt
  repeat' (first | with_reducible assumption | simp only [↓ev_mk, evk_eta])

theorem State.flushOverflow_ev {σ₀ s : State} (hev : Evolves σ₀ s) :
    Evolves σ₀ (State.flushOverflow s) := by
  unfold State.flushOverflow
  repeat' (first | with_reducible assumption | with_reducible apply State.errsum_ev | with_reducible apply State.recordEvent_ev | with_reducible apply State.reportMsix_ev | split | simp only [↓ev_mk, evk_eta])

theorem State.trigger_ev {σ₀ s : State} (hev : Evolves σ₀ s) (r : Record) :
    Evolves σ₀ (State.trigger s r) := by
  unfold State.trigger
  repeat' (first | with_reducible assumption | with_reducible apply State.freezeAt_ev | with_reducible apply State.note_ev | with_reducible apply State.event_ev | with_reducible refine ev_ite3.mpr ⟨fun _ => ?_, fun _ => ?_⟩ | split)

theorem State.recordWrite_ev {σ₀ s : State} (hev : Evolves σ₀ s) :
    Evolves σ₀ (State.recordWrite s) := by
  unfold State.recordWrite
  repeat' (first | with_reducible assumption | with_reducible apply State.setMramN_ev | with_reducible apply State.trigger_ev | with_reducible apply State.flushOverflow_ev | with_reducible apply State.setDrained_ev | with_reducible apply State.storeRing_ev | with_reducible refine ev_ite3.mpr ⟨fun _ => ?_, fun _ => ?_⟩ | split | simp only [↓ev_mk, evk_eta])

theorem State.drainRecords_ev {σ₀ s : State} (hev : Evolves σ₀ s) (a0 : Nat) :
    Evolves σ₀ (State.drainRecords s a0) := by
  induction a0 generalizing s <;> unfold State.drainRecords <;> repeat' (first | with_reducible assumption | with_reducible apply State.recordWrite_ev | with_reducible refine ev_ite.mpr ⟨fun _ => ?_, fun _ => ?_⟩ | with_reducible refine ev_ite3.mpr ⟨fun _ => ?_, fun _ => ?_⟩ | with_reducible apply_assumption)

theorem State.freezeRing_ev {σ₀ s : State} (hev : Evolves σ₀ s) :
    Evolves σ₀ (State.freezeRing s) := by
  unfold State.freezeRing
  repeat' (first | with_reducible assumption | with_reducible apply State.note_ev | with_reducible apply State.event_ev)

theorem State.unfreezeRing_ev {σ₀ s : State} (hev : Evolves σ₀ s) :
    Evolves σ₀ (State.unfreezeRing s) := by
  unfold State.unfreezeRing
  repeat' (first | with_reducible assumption | with_reducible apply State.note_ev | with_reducible apply State.event_ev | with_reducible apply State.storeRing_ev | simp only [↓ev_mk, evk_eta])

theorem State.hourlySummary_ev {σ₀ s : State} (hev : Evolves σ₀ s) :
    Evolves σ₀ (State.hourlySummary s) := by
  unfold State.hourlySummary
  repeat' (first | with_reducible assumption | with_reducible apply State.note_ev | with_reducible refine ev_foldl' _ _ ?_ (fun _ _ _ => ?_) | simp only [↓ev_mk, evk_eta])

theorem State.powerFail_ev {σ₀ s : State} (hev : Evolves σ₀ s) :
    Evolves σ₀ (State.powerFail s) := by
  unfold State.powerFail
  repeat' (first | with_reducible assumption | with_reducible apply State.hourlySummary_ev | with_reducible apply State.note_ev | with_reducible apply State.drainRecords_ev | simp only [↓ev_mk, evk_eta])

theorem State.judged_ev {σ₀ s : State} (hev : Evolves σ₀ s) (m : Monitor) :
    Evolves σ₀ (State.judged s m) := by
  unfold State.judged
  repeat' (first | with_reducible assumption | with_reducible apply State.wear_ev)

theorem State.contextLost_ev {σ₀ s : State} (hev : Evolves σ₀ s) (p : Nat) (k : Nat) (word : Nat) :
    Evolves σ₀ (State.contextLost s p k word) := by
  unfold State.contextLost
  repeat' (first | with_reducible assumption | with_reducible apply State.setSlot_ev | with_reducible apply State.alertCtx_ev | with_reducible apply State.setGal_ev | (split <;> (try dsimp -iota only) <;> try (rename_i hq; obtain ⟨hq1, hq2⟩ := Prod.ext_iff.mp hq; dsimp only at hq2; subst hq2)) | with_reducible apply State.report_ev)

theorem State.linkPin_ev {σ₀ s : State} (hev : Evolves σ₀ s) (port : Nat) (up : Bool) :
    Evolves σ₀ (State.linkPin s port up) := by
  unfold State.linkPin
  dsimp only
  repeat' (first | apply State.setRf_ev hev | split)

theorem State.pciePin_ev {σ₀ s : State} (hev : Evolves σ₀ s) (gen : Nat) (width : Nat) :
    Evolves σ₀ (State.pciePin s gen width) := by
  unfold State.pciePin
  repeat' (first | with_reducible assumption | simp only [↓ev_mk, evk_eta])

theorem State.monitorSample_ev {σ₀ s : State} (hev : Evolves σ₀ s) (m : Monitor) (v : Nat) (w : Nat) (ue : Bool) :
    Evolves σ₀ (State.monitorSample s m v w ue) := by
  unfold State.monitorSample
  repeat' (first | with_reducible assumption | with_reducible apply State.setRf_ev | with_reducible apply State.addSample_ev | with_reducible apply State.judged_ev | with_reducible apply State.trackSample_ev | with_reducible apply State.contextLost_ev | with_reducible apply State.judgeTracker_ev | with_reducible apply State.countHour_ev | with_reducible apply State.arrayWord_ev | with_reducible apply State.arrayEntry_ev | with_reducible apply State.coreFails_ev | with_reducible apply State.pciePin_ev | with_reducible apply State.linkPin_ev | with_reducible apply State.setCore_ev | split)

theorem State.foldHour_ev {σ₀ s : State} (hev : Evolves σ₀ s) (k : Nat) :
    Evolves σ₀ (State.foldHour s k) := by
  unfold State.foldHour
  repeat' (first | with_reducible assumption | with_reducible apply State.setAge_ev | with_reducible apply State.take_ev | with_reducible refine ev_ite.mpr ⟨fun _ => ?_, fun _ => ?_⟩ | with_reducible refine ev_ite3.mpr ⟨fun _ => ?_, fun _ => ?_⟩)

theorem State.monitorHour_ev {σ₀ s : State} (hev : Evolves σ₀ s) (m : Monitor) :
    Evolves σ₀ (State.monitorHour s m) := by
  unfold State.monitorHour
  repeat' (first | with_reducible assumption | with_reducible apply State.foldHour_ev | with_reducible apply State.setRf_ev | with_reducible apply State.judged_ev | split)

theorem State.scrubSector_ev {σ₀ s : State} (hev : Evolves σ₀ s) (pa : Nat) :
    Evolves σ₀ (State.scrubSector s pa) := by
  unfold State.scrubSector
  repeat' (first | with_reducible assumption | with_reducible apply State.judgeTracker_ev | with_reducible apply State.clearBarns_ev | with_reducible apply State.setLlcSec_ev | with_reducible apply State.poisonSector_ev | with_reducible apply State.memWrite_ev | with_reducible refine ev_ite3.mpr ⟨fun _ => ?_, fun _ => ?_⟩ | (split <;> (try dsimp -iota only) <;> try (rename_i hq; obtain ⟨hq1, hq2⟩ := Prod.ext_iff.mp hq; dsimp only at hq2; subst hq2)) | with_reducible apply State.eccRead_ev)

theorem State.scrubRead_ev {σ₀ s : State} (hev : Evolves σ₀ s) :
    Evolves σ₀ (State.scrubRead s) := by
  unfold State.scrubRead
  repeat' (first | with_reducible assumption | with_reducible apply State.scrubSector_ev | with_reducible apply State.bumpRf_ev | with_reducible refine ev_ite.mpr ⟨fun _ => ?_, fun _ => ?_⟩ | with_reducible refine ev_ite3.mpr ⟨fun _ => ?_, fun _ => ?_⟩ | simp only [↓ev_mk, evk_eta])

theorem State.seedResult_ev {σ₀ s : State} (hev : Evolves σ₀ s) (n : Nat) :
    Evolves σ₀ (State.seedResult s n) := by
  unfold State.seedResult
  repeat' (first | with_reducible assumption | with_reducible apply State.setRf_ev)

theorem State.startRespare_ev {σ₀ s : State} (hev : Evolves σ₀ s) (c : Nat) :
    Evolves σ₀ (State.startRespare s c) := by
  unfold State.startRespare
  repeat' (first | with_reducible assumption | with_reducible apply State.setRf_ev | with_reducible apply State.setCore_ev)

theorem State.seedCmd_ev {σ₀ s : State} (hev : Evolves σ₀ s) (v : BitVec 64) :
    Evolves σ₀ (State.seedCmd s v) := by
  unfold State.seedCmd
  repeat' (first | with_reducible assumption | with_reducible apply State.setRf_ev | with_reducible apply State.seedResult_ev | with_reducible apply State.startRespare_ev | with_reducible refine ev_ite.mpr ⟨fun _ => ?_, fun _ => ?_⟩ | with_reducible refine ev_ite3.mpr ⟨fun _ => ?_, fun _ => ?_⟩ | simp only [↓ev_mk, evk_eta])

theorem State.leaveGroup_ev {σ₀ s : State} (hev : Evolves σ₀ s) (w : Nat) (c : Nat) (g : Nat) :
    Evolves σ₀ (State.leaveGroup s w c g) := by
  unfold State.leaveGroup
  repeat' (first | with_reducible assumption | with_reducible apply State.preempt_ev | with_reducible apply State.setCore_ev | with_reducible apply State.freeSlot_ev | with_reducible apply State.cutSpec_ev | with_reducible apply State.setCtx_ev | with_reducible refine ev_ite3.mpr ⟨fun _ => ?_, fun _ => ?_⟩ | split)

theorem State.scanMoved_ev {σ₀ s : State} (hev : Evolves σ₀ s) (w : Nat) (t : Nat) (n : Nat) :
    Evolves σ₀ (State.scanMoved s w t n) := by
  unfold State.scanMoved
  repeat' (first | with_reducible assumption | with_reducible apply State.setSlot_ev | split | dsimp -iota only)

theorem State.respareGroup_ev {σ₀ s : State} (hev : Evolves σ₀ s) :
    Evolves σ₀ (State.respareGroup s) := by
  unfold State.respareGroup
  repeat' (first | with_reducible assumption | with_reducible apply State.leaveGroup_ev | with_reducible apply State.setRf_ev | with_reducible apply State.scanMoved_ev | with_reducible refine ev_foldl' _ _ ?_ (fun _ _ _ => ?_) | split | dsimp -iota only)

theorem State.flushCrib_ev {σ₀ s : State} (hev : Evolves σ₀ s) (p : Nat) :
    Evolves σ₀ (State.flushCrib s p) := by
  unfold State.flushCrib
  repeat' (first | with_reducible assumption | with_reducible apply State.writeBack_ev | with_reducible refine ev_foldl' _ _ ?_ (fun _ _ _ => ?_))

theorem State.resetCrib_ev {σ₀ s : State} (hev : Evolves σ₀ s) (p : Nat) :
    Evolves σ₀ (State.resetCrib s p) := by
  unfold State.resetCrib
  repeat' (first | with_reducible assumption | with_reducible apply State.flushCrib_ev | with_reducible apply State.unshare_ev | with_reducible apply State.note_ev | with_reducible apply State.event_ev | with_reducible refine ev_ite.mpr ⟨fun _ => ?_, fun _ => ?_⟩ | with_reducible refine ev_ite3.mpr ⟨fun _ => ?_, fun _ => ?_⟩)

theorem State.degrade_ev {σ₀ s : State} (hev : Evolves σ₀ s) (b : Nat) :
    Evolves σ₀ (State.degrade s b) := by
  unfold State.degrade
  repeat' (first | with_reducible assumption | with_reducible apply State.setRf_ev | with_reducible apply State.event_ev | with_reducible apply State.mgrMsix_ev | with_reducible refine ev_ite.mpr ⟨fun _ => ?_, fun _ => ?_⟩ | with_reducible apply State.report_ev)

theorem State.resetCoreRegs_ev {σ₀ s : State} (hev : Evolves σ₀ s) (p : Nat) :
    Evolves σ₀ (State.resetCoreRegs s p) := by
  unfold State.resetCoreRegs
  repeat' (first | with_reducible assumption | simp only [↓ev_mk, evk_eta])

theorem State.resetSlot_ev {σ₀ s : State} (hev : Evolves σ₀ s) (p : Nat) :
    Evolves σ₀ (State.resetSlot s p) := by
  unfold State.resetSlot
  repeat' (first | with_reducible assumption | with_reducible apply State.emptyLog_ev | with_reducible apply State.setCore_ev | with_reducible apply State.resetCoreRegs_ev | simp only [↓ev_mk, evk_eta] | dsimp -iota only | with_reducible trivial)

theorem State.endRespare_ev {σ₀ s : State} (hev : Evolves σ₀ s) (c : Nat) :
    Evolves σ₀ (State.endRespare s c) := by
  unfold State.endRespare
  repeat' (first | with_reducible assumption | with_reducible apply State.setRf_ev | with_reducible apply State.flushCrib_ev | with_reducible apply State.unshare_ev | with_reducible apply State.resetSlot_ev | with_reducible apply State.degrade_ev | dsimp -iota only | with_reducible trivial)

theorem State.spareSector_ev {σ₀ s : State} (hev : Evolves σ₀ s) (pa : Nat) :
    Evolves σ₀ (State.spareSector s pa) := by
  unfold State.spareSector
  repeat' (first | with_reducible assumption | with_reducible apply State.memWrite_ev | with_reducible apply State.poisonSector_ev | with_reducible refine ev_ite3.mpr ⟨fun _ => ?_, fun _ => ?_⟩ | (split <;> (try dsimp -iota only) <;> try (rename_i hq; obtain ⟨hq1, hq2⟩ := Prod.ext_iff.mp hq; dsimp only at hq2; subst hq2)) | with_reducible apply State.eccRead_ev)

theorem State.endRowspare_ev {σ₀ s : State} (hev : Evolves σ₀ s) (pa : Nat) :
    Evolves σ₀ (State.endRowspare s pa) := by
  unfold State.endRowspare
  repeat' (first | with_reducible assumption | with_reducible apply State.spareSector_ev | with_reducible apply State.setRf_ev | with_reducible refine ev_foldl' _ _ ?_ (fun _ _ _ => ?_) | simp only [↓ev_mk, evk_eta] | with_reducible apply State.freeNat_ev)

theorem State.endPpr_ev {σ₀ s : State} (hev : Evolves σ₀ s) (ch : Nat) (e : Nat) :
    Evolves σ₀ (State.endPpr s ch e) := by
  unfold State.endPpr
  repeat' (first | with_reducible assumption | with_reducible apply State.setRf_ev | with_reducible apply State.bumpRf_ev | simp only [↓ev_mk, evk_eta])

theorem State.endWayspare_ev {σ₀ s : State} (hev : Evolves σ₀ s) (slice : Nat) (way : Nat) :
    Evolves σ₀ (State.endWayspare s slice way) := by
  unfold State.endWayspare
  repeat' (first | with_reducible assumption | with_reducible apply State.setRf_ev | with_reducible refine ev_ite3.mpr ⟨fun _ => ?_, fun _ => ?_⟩ | simp only [↓ev_mk, evk_eta])

theorem State.endCtxrow_ev {σ₀ s : State} (hev : Evolves σ₀ s) (p : Nat) (k : Nat) :
    Evolves σ₀ (State.endCtxrow s p k) := by
  unfold State.endCtxrow
  repeat' (first | with_reducible assumption | with_reducible apply State.setRf_ev | simp only [↓ev_mk, evk_eta])

theorem State.serviceDone_ev {σ₀ s : State} (hev : Evolves σ₀ s) :
    Evolves σ₀ (State.serviceDone s) := by
  unfold State.serviceDone
  repeat' (first | with_reducible assumption | with_reducible apply State.endRespare_ev | with_reducible apply State.endRowspare_ev | with_reducible apply State.endPpr_ev | with_reducible apply State.endWayspare_ev | with_reducible apply State.endCtxrow_ev | with_reducible apply State.setRf_ev | with_reducible apply State.seedResult_ev | with_reducible apply State.note_ev | with_reducible apply State.event_ev | with_reducible refine ev_ite3.mpr ⟨fun _ => ?_, fun _ => ?_⟩ | split | simp only [↓ev_mk, evk_eta])

theorem State.svcWrite_ev {σ₀ s : State} (hev : Evolves σ₀ s) (who : Initiator) (off : Nat) (mask : BitVec 64) (v : BitVec 64) :
    Evolves σ₀ (State.svcWrite s who off mask v) := by
  unfold State.svcWrite
  repeat' (first | with_reducible assumption | with_reducible apply State.gate_ev | with_reducible apply State.seedCmd_ev | with_reducible apply State.countReg_ev | with_reducible apply State.freezeRing_ev | with_reducible apply State.unfreezeRing_ev | with_reducible apply State.plain_ev | with_reducible refine ev_ite.mpr ⟨fun _ => ?_, fun _ => ?_⟩ | with_reducible refine ev_ite3.mpr ⟨fun _ => ?_, fun _ => ?_⟩ | with_reducible apply State.store64_ev)

/-! Startup. -/

theorem State.loadCal_ev {σ₀ s : State} (hev : Evolves σ₀ s) :
    Evolves σ₀ (State.loadCal s) := by
  unfold State.loadCal
  repeat' (first | with_reducible assumption | with_reducible apply State.applyCal_ev | with_reducible apply State.setRf_ev | with_reducible apply State.note_ev | with_reducible refine ev_ite.mpr ⟨fun _ => ?_, fun _ => ?_⟩ | with_reducible refine ev_ite3.mpr ⟨fun _ => ?_, fun _ => ?_⟩)

theorem State.loadPpr_ev {σ₀ s : State} (hev : Evolves σ₀ s) :
    Evolves σ₀ (State.loadPpr s) := by
  unfold State.loadPpr
  repeat' (first | with_reducible assumption | with_reducible apply State.bumpRf_ev | with_reducible refine ev_foldl' _ _ ?_ (fun _ _ _ => ?_))

theorem State.abandonedAs_ev {σ₀ s : State} (hev : Evolves σ₀ s) (code : Nat) (hall : Nat) (scn : Nat) (off : Nat) (write : Bool) :
    Evolves σ₀ (State.abandonedAs s code hall scn off write).2 := by
  unfold State.abandonedAs
  repeat' (first | with_reducible assumption | with_reducible apply State.setReg_ev | with_reducible apply State.report_ev)

theorem State.abandoned_ev {σ₀ s : State} (hev : Evolves σ₀ s) (who : Initiator) (off : Nat) (write : Bool) :
    Evolves σ₀ (State.abandoned s who off write).2 := by
  unfold State.abandoned
  repeat' (first | with_reducible assumption | dsimp -iota only | with_reducible apply State.abandonedAs_ev | with_reducible trivial)

theorem State.abandonAll_ev {σ₀ s : State} (hev : Evolves σ₀ s) (a0 : List Posted) :
    Evolves σ₀ (State.abandonAll s a0) := by
  induction a0 generalizing s <;> unfold State.abandonAll <;> repeat' (first | with_reducible assumption | with_reducible apply State.abandonedAs_ev | with_reducible apply_assumption)

theorem State.deviceReset_ev {σ₀ s : State} (hev : Evolves σ₀ s) (cause : Nat) (x : Straps) :
    Evolves σ₀ (State.deviceReset s cause x) := by
  unfold State.deviceReset
  obtain ⟨h1, h2⟩ := hev
  dsimp -iota only
  refine State.abandonAll_ev (State.loadCal_ev (State.loadPpr_ev (State.setRf_ev (State.setRf_ev ?_ _ _ _ _) _ _ _ _))) _
  exact ⟨fun x => ⟨rfl, rfl, (h1 x).2.2⟩, h2⟩

theorem State.por_ev {σ₀ s : State} (hev : Evolves σ₀ s) (x : Straps) :
    Evolves σ₀ (State.por s x) := by
  unfold State.por
  obtain ⟨h1, h2⟩ := hev
  exact State.loadCal_ev (State.loadPpr_ev ⟨fun x => ⟨rfl, rfl, (h1 x).2.2⟩, h2⟩)

theorem State.resetWrite_ev {σ₀ s : State} (hev : Evolves σ₀ s) (who : Initiator) (mask : BitVec 64) (v : BitVec 64) (x : Straps) :
    Evolves σ₀ (State.resetWrite s who mask v x) := by
  unfold State.resetWrite
  repeat' (first | with_reducible assumption | with_reducible apply State.gate_ev | with_reducible apply State.countReg_ev | with_reducible apply State.deviceReset_ev | with_reducible refine ev_ite.mpr ⟨fun _ => ?_, fun _ => ?_⟩ | with_reducible refine ev_ite3.mpr ⟨fun _ => ?_, fun _ => ?_⟩)

theorem State.coreRstResult_ev {σ₀ s : State} (hev : Evolves σ₀ s) (n : Nat) :
    Evolves σ₀ (State.coreRstResult s n) := by
  unfold State.coreRstResult
  repeat' (first | with_reducible assumption | with_reducible apply State.setRf_ev)

theorem State.loseHalted_ev {σ₀ s : State} (hev : Evolves σ₀ s) (p : Nat) :
    Evolves σ₀ (State.loseHalted s p) := by
  unfold State.loseHalted
  repeat' (first | with_reducible assumption | with_reducible apply State.freeSlot_ev | with_reducible apply State.cutSpec_ev | with_reducible apply State.setCtx_ev | with_reducible apply State.note_ev | with_reducible apply State.event_ev | with_reducible refine ev_ite3.mpr ⟨fun _ => ?_, fun _ => ?_⟩ | split)

theorem State.freeStranded_ev {σ₀ s : State} (hev : Evolves σ₀ s) (p : Nat) :
    Evolves σ₀ (State.freeStranded s p) := by
  unfold State.freeStranded
  repeat' (first | with_reducible assumption | with_reducible apply State.freeSlot_ev | with_reducible refine ev_foldl' _ _ ?_ (fun _ _ _ => ?_) | split)

theorem State.doCoreReset_ev {σ₀ s : State} (hev : Evolves σ₀ s) (p : Nat) :
    Evolves σ₀ (State.doCoreReset s p) := by
  unfold State.doCoreReset
  repeat' (first | with_reducible assumption | with_reducible apply State.resetCrib_ev | with_reducible apply State.loseHalted_ev | with_reducible apply State.freeStranded_ev | with_reducible apply State.resetSlot_ev | with_reducible apply State.setRf_ev | with_reducible apply State.coreRstResult_ev | dsimp -iota only | with_reducible trivial)

theorem State.coreReset_ev {σ₀ s : State} (hev : Evolves σ₀ s) (p : Nat) :
    Evolves σ₀ (State.coreReset s p) := by
  unfold State.coreReset
  repeat' (first | with_reducible assumption | with_reducible apply State.setRf_ev | with_reducible apply State.coreRstResult_ev | with_reducible apply State.doCoreReset_ev | with_reducible refine ev_ite.mpr ⟨fun _ => ?_, fun _ => ?_⟩ | with_reducible refine ev_ite3.mpr ⟨fun _ => ?_, fun _ => ?_⟩)

theorem State.coreRstWrite_ev {σ₀ s : State} (hev : Evolves σ₀ s) (who : Initiator) (mask : BitVec 64) (v : BitVec 64) :
    Evolves σ₀ (State.coreRstWrite s who mask v) := by
  unfold State.coreRstWrite
  repeat' (first | with_reducible assumption | with_reducible apply State.gate_ev | with_reducible apply State.countReg_ev | with_reducible apply State.coreReset_ev | with_reducible refine ev_ite.mpr ⟨fun _ => ?_, fun _ => ?_⟩ | with_reducible refine ev_ite3.mpr ⟨fun _ => ?_, fun _ => ?_⟩)

theorem State.heldCoreReset_ev {σ₀ s : State} (hev : Evolves σ₀ s) :
    Evolves σ₀ (State.heldCoreReset s) := by
  unfold State.heldCoreReset
  repeat' (first | with_reducible assumption | with_reducible apply State.coreReset_ev | with_reducible refine ev_ite.mpr ⟨fun _ => ?_, fun _ => ?_⟩ | with_reducible refine ev_ite3.mpr ⟨fun _ => ?_, fun _ => ?_⟩)

theorem State.bootErr_ev {σ₀ s : State} (hev : Evolves σ₀ s) (e : Nat) :
    Evolves σ₀ (State.bootErr s e) := by
  unfold State.bootErr
  repeat' (first | with_reducible assumption | with_reducible apply State.setRf_ev)

theorem State.pllLock_ev {σ₀ s : State} (hev : Evolves σ₀ s) (tb : Bool) :
    Evolves σ₀ (State.pllLock s tb) := by
  unfold State.pllLock
  repeat' (first | with_reducible assumption | with_reducible apply State.setRf_ev | with_reducible refine ev_ite.mpr ⟨fun _ => ?_, fun _ => ?_⟩ | with_reducible refine ev_ite3.mpr ⟨fun _ => ?_, fun _ => ?_⟩ | simp only [↓ev_mk, evk_eta])

theorem State.memoryInit_ev {σ₀ s : State} (hev : Evolves σ₀ s) :
    Evolves σ₀ (State.memoryInit s) := by
  unfold State.memoryInit
  split
  · exact hev
  · have h1 : Evolves σ₀ { s with mem := [], tags := [], planted := [], barns := [], llc := [], life := { s.life with memOk := true } } := by
      obtain ⟨h1, h2⟩ := hev
      exact ⟨fun x => ⟨rfl, rfl, (h1 x).2.2⟩, h2⟩
    dsimp only
    split
    · exact State.bootErr_ev (State.setRf_ev h1 Reg.devState 63 60 4) 1
    · exact h1

theorem State.copyBody_ev {σ₀ s : State} (hev : Evolves σ₀ s) (l : List Byte) :
    Evolves σ₀ (State.copyBody s l) := by
  unfold State.copyBody
  repeat' (first | with_reducible assumption | with_reducible apply State.setMemWord_ev | with_reducible refine ev_foldl' _ _ ?_ (fun _ _ _ => ?_))

theorem State.enterImage_ev {σ₀ s : State} (hev : Evolves σ₀ s) (l : List Byte) :
    Evolves σ₀ (State.enterImage s l) := by
  unfold State.enterImage
  repeat' (first | with_reducible assumption | with_reducible apply State.setSlot_ev | with_reducible apply State.setCtx_ev | with_reducible apply State.setCore_ev)

theorem State.bootImage_ev {σ₀ s : State} (hev : Evolves σ₀ s) (l : List Byte) :
    Evolves σ₀ (State.bootImage s l) := by
  unfold State.bootImage
  repeat' (first | with_reducible assumption | with_reducible apply State.copyBody_ev | with_reducible apply State.note_ev | with_reducible apply State.event_ev | with_reducible apply State.setRf_ev | with_reducible apply State.enterImage_ev | with_reducible apply State.applyParams_ev | with_reducible refine ev_ite3.mpr ⟨fun _ => ?_, fun _ => ?_⟩ | simp only [↓ev_mk, evk_eta] | with_reducible apply State.hostLoad_ev)

theorem State.xspiMode_ev {σ₀ s : State} (hev : Evolves σ₀ s) :
    Evolves σ₀ (State.xspiMode s) := by
  unfold State.xspiMode
  repeat' (first | with_reducible assumption | (split <;> (try dsimp -iota only) <;> try (rename_i hq; obtain ⟨hq1, hq2⟩ := Prod.ext_iff.mp hq; dsimp only at hq2; subst hq2)) | simp only [↓ev_mk, evk_eta] | with_reducible apply State.freeNat_ev)

theorem State.bootFlash_ev {σ₀ s : State} (hev : Evolves σ₀ s) (a : Option (List Byte)) (b : Option (List Byte)) :
    Evolves σ₀ (State.bootFlash s a b) := by
  unfold State.bootFlash
  repeat' (first | with_reducible assumption | with_reducible apply State.xspiMode_ev | with_reducible apply State.bootImage_ev | with_reducible apply State.bootErr_ev | with_reducible apply State.setRf_ev | with_reducible refine ev_ite.mpr ⟨fun _ => ?_, fun _ => ?_⟩ | simp only [↓ev_mk, evk_eta] | with_reducible apply State.hostLoad_ev)

theorem State.hostImage_ev {σ₀ s : State} (hev : Evolves σ₀ s) (host : Option (List Byte)) :
    Evolves σ₀ (State.hostImage s host) := by
  unfold State.hostImage
  repeat' (first | with_reducible assumption | with_reducible apply State.request_ev | split | dsimp -iota only)

theorem State.bootLoadDone_ev {σ₀ s : State} (hev : Evolves σ₀ s) (a : Option (List Byte)) (b : Option (List Byte)) (host : Option (List Byte)) :
    Evolves σ₀ (State.bootLoadDone s a b host) := by
  unfold State.bootLoadDone
  repeat' (first | with_reducible assumption | with_reducible apply State.bootFlash_ev | with_reducible apply State.hostImage_ev | with_reducible apply State.bootErr_ev | with_reducible apply State.setRf_ev | with_reducible apply State.bootImage_ev | split | with_reducible apply State.hostLoad_ev)

theorem State.bootCtrlWrite_ev {σ₀ s : State} (hev : Evolves σ₀ s) (who : Initiator) (mask : BitVec 64) (v : BitVec 64) :
    Evolves σ₀ (State.bootCtrlWrite s who mask v) := by
  unfold State.bootCtrlWrite
  repeat' (first | with_reducible assumption | with_reducible apply State.gate_ev | with_reducible apply State.setRf_ev | with_reducible refine ev_ite.mpr ⟨fun _ => ?_, fun _ => ?_⟩ | with_reducible refine ev_ite3.mpr ⟨fun _ => ?_, fun _ => ?_⟩ | with_reducible apply State.store64_ev | with_reducible apply State.hostLoad_ev)

theorem State.stateWrite_ev {σ₀ s : State} (hev : Evolves σ₀ s) (who : Initiator) (mask : BitVec 64) (v : BitVec 64) :
    Evolves σ₀ (State.stateWrite s who mask v) := by
  unfold State.stateWrite
  repeat' (first | with_reducible assumption | with_reducible apply State.gate_ev | with_reducible apply State.setRf_ev | with_reducible refine ev_ite.mpr ⟨fun _ => ?_, fun _ => ?_⟩ | with_reducible refine ev_ite3.mpr ⟨fun _ => ?_, fun _ => ?_⟩ | with_reducible apply State.store64_ev)

theorem State.tbLost_ev {σ₀ s : State} (hev : Evolves σ₀ s) :
    Evolves σ₀ (State.tbLost s) := by
  unfold State.tbLost
  repeat' (first | with_reducible assumption | with_reducible apply State.setRf_ev | with_reducible apply State.note_ev | with_reducible refine ev_ite.mpr ⟨fun _ => ?_, fun _ => ?_⟩ | with_reducible refine ev_ite3.mpr ⟨fun _ => ?_, fun _ => ?_⟩)

theorem State.alertWrite_ev {σ₀ s : State} (hev : Evolves σ₀ s) (who : Initiator) (mask : BitVec 64) (v : BitVec 64) :
    Evolves σ₀ (State.alertWrite s who mask v) := by
  unfold State.alertWrite
  repeat' (first | with_reducible assumption | with_reducible apply State.gate_ev | with_reducible refine ev_ite.mpr ⟨fun _ => ?_, fun _ => ?_⟩ | with_reducible refine ev_ite3.mpr ⟨fun _ => ?_, fun _ => ?_⟩ | simp only [↓ev_mk, evk_eta] | with_reducible apply State.store64_ev)

theorem State.heartbeat_ev {σ₀ s : State} (hev : Evolves σ₀ s) :
    Evolves σ₀ (State.heartbeat s) := by
  unfold State.heartbeat
  repeat' (first | with_reducible assumption | with_reducible refine ev_ite3.mpr ⟨fun _ => ?_, fun _ => ?_⟩ | split | simp only [↓ev_mk, evk_eta])

theorem State.heartbeatLost_ev {σ₀ s : State} (hev : Evolves σ₀ s) :
    Evolves σ₀ (State.heartbeatLost s) := by
  unfold State.heartbeatLost
  repeat' (first | with_reducible assumption | with_reducible apply State.setRf_ev | with_reducible apply State.note_ev | with_reducible refine ev_ite3.mpr ⟨fun _ => ?_, fun _ => ?_⟩ | split | simp only [↓ev_mk, evk_eta])

theorem State.thermWrite_ev {σ₀ s : State} (hev : Evolves σ₀ s) (who : Initiator) (mask : BitVec 64) (v : BitVec 64) :
    Evolves σ₀ (State.thermWrite s who mask v) := by
  unfold State.thermWrite
  repeat' (first | with_reducible assumption | with_reducible apply State.gate_ev | with_reducible apply State.countReg_ev | with_reducible apply State.plain_ev | with_reducible refine ev_ite.mpr ⟨fun _ => ?_, fun _ => ?_⟩ | with_reducible refine ev_ite3.mpr ⟨fun _ => ?_, fun _ => ?_⟩)

theorem State.tempSample_ev {σ₀ s : State} (hev : Evolves σ₀ s) (raw : Nat) :
    Evolves σ₀ (State.tempSample s raw) := by
  unfold State.tempSample
  repeat' (first | with_reducible assumption | with_reducible apply State.setRf_ev | with_reducible apply State.alertHall0_ev | with_reducible apply State.note_ev | with_reducible refine ev_ite.mpr ⟨fun _ => ?_, fun _ => ?_⟩ | with_reducible refine ev_ite3.mpr ⟨fun _ => ?_, fun _ => ?_⟩)

theorem State.jtagHalt_ev {σ₀ s : State} (hev : Evolves σ₀ s) (scn : Nat) :
    Evolves σ₀ (State.jtagHalt s scn) := by
  unfold State.jtagHalt
  repeat' (first | with_reducible assumption | with_reducible apply State.alertCtx_ev | with_reducible refine ev_ite.mpr ⟨fun _ => ?_, fun _ => ?_⟩ | with_reducible refine ev_ite3.mpr ⟨fun _ => ?_, fun _ => ?_⟩)

theorem State.jtagScan_ev {σ₀ s : State} (hev : Evolves σ₀ s) (k : JtagIr) :
    Evolves σ₀ (State.jtagScan s k) := by
  unfold State.jtagScan
  repeat' (first | with_reducible assumption | with_reducible apply State.send_ev | split | simp only [↓ev_mk, evk_eta] | with_reducible apply State.freeNat_ev)

theorem State.jtagReset_ev {σ₀ s : State} (hev : Evolves σ₀ s) (x : Straps) :
    Evolves σ₀ (State.jtagReset s x) := by
  unfold State.jtagReset
  repeat' (first | with_reducible assumption | with_reducible apply State.deviceReset_ev | with_reducible refine ev_ite.mpr ⟨fun _ => ?_, fun _ => ?_⟩ | with_reducible refine ev_ite3.mpr ⟨fun _ => ?_, fun _ => ?_⟩)

/-! Requests. -/

theorem State.odReadOne_ev {σ₀ s : State} (hev : Evolves σ₀ s) (p : Nat) (i : Nat) (sub : Nat) :
    Evolves σ₀ (State.odReadOne s p i sub).2 := by
  unfold State.odReadOne
  repeat' (first | with_reducible assumption | with_reducible refine ev_ite3.mpr ⟨fun _ => ?_, fun _ => ?_⟩ | (split <;> (try dsimp -iota only) <;> try (rename_i hq; obtain ⟨hq1, hq2⟩ := Prod.ext_iff.mp hq; dsimp only at hq2; subst hq2)) | with_reducible apply State.odValue_ev)

theorem State.stopObject_ev {σ₀ s : State} (hev : Evolves σ₀ s) (v : Nat) :
    Evolves σ₀ (State.stopObject s v) := by
  unfold State.stopObject
  repeat' (first | with_reducible assumption | with_reducible apply State.stopRelease_ev | with_reducible apply State.axStopWrite_ev | with_reducible refine ev_ite.mpr ⟨fun _ => ?_, fun _ => ?_⟩ | with_reducible refine ev_ite3.mpr ⟨fun _ => ?_, fun _ => ?_⟩)

theorem State.esmObject_ev {σ₀ s : State} (hev : Evolves σ₀ s) (v : Nat) :
    Evolves σ₀ (State.esmObject s v) := by
  unfold State.esmObject
  repeat' (first | with_reducible assumption | with_reducible apply State.setObj_ev | with_reducible apply State.event_ev)

theorem State.clearEmergency_ev {σ₀ s : State} (hev : Evolves σ₀ s) :
    Evolves σ₀ (State.clearEmergency s) := by
  unfold State.clearEmergency
  repeat' (first | with_reducible assumption | with_reducible apply State.emergencyRaw_ev | simp only [↓ev_mk, evk_eta])

theorem State.clearOverride_ev {σ₀ s : State} (hev : Evolves σ₀ s) (j : Nat) (v : Nat) :
    Evolves σ₀ (State.clearOverride s j v) := by
  unfold State.clearOverride
  repeat' (first | with_reducible assumption | with_reducible apply State.setReg_ev)

theorem State.patchUnlock_ev {σ₀ s : State} (hev : Evolves σ₀ s) (v : Nat) :
    Evolves σ₀ (State.patchUnlock s v).2 := by
  unfold State.patchUnlock
  repeat' (first | with_reducible assumption | with_reducible refine ev_ite2.mpr ⟨fun _ => ?_, fun _ => ?_⟩ | with_reducible refine ev_ite3.mpr ⟨fun _ => ?_, fun _ => ?_⟩ | simp only [↓ev_mk, evk_eta])

theorem State.jtagUnlock_ev {σ₀ s : State} (hev : Evolves σ₀ s) (v : Nat) :
    Evolves σ₀ (State.jtagUnlock s v).2 := by
  unfold State.jtagUnlock
  repeat' (first | with_reducible assumption | with_reducible refine ev_ite2.mpr ⟨fun _ => ?_, fun _ => ?_⟩ | with_reducible refine ev_ite3.mpr ⟨fun _ => ?_, fun _ => ?_⟩ | simp only [↓ev_mk, evk_eta])

theorem State.odCommand_ev {σ₀ s : State} (hev : Evolves σ₀ s) (p : Nat) (i : Nat) (sub : Nat) (v : Nat) :
    Evolves σ₀ (State.odCommand s p i sub v).2 := by
  unfold State.odCommand
  repeat' (first | with_reducible assumption | with_reducible apply State.stopObject_ev | with_reducible apply State.esmObject_ev | with_reducible apply State.clearEmergency_ev | with_reducible apply State.clearOverride_ev | with_reducible apply State.setPath_ev | with_reducible refine ev_ite2.mpr ⟨fun _ => ?_, fun _ => ?_⟩ | with_reducible refine ev_ite3.mpr ⟨fun _ => ?_, fun _ => ?_⟩ | with_reducible apply State.storeParams_ev | with_reducible apply State.dropParams_ev | with_reducible apply State.pdoWrite_ev | with_reducible apply State.restoreCal_ev | with_reducible apply State.patchUnlock_ev | with_reducible apply State.jtagUnlock_ev | with_reducible apply State.commitCmd_ev)

theorem State.odWriteOne_ev {σ₀ s : State} (hev : Evolves σ₀ s) (p : Nat) (i : Nat) (sub : Nat) (l : List Byte) :
    Evolves σ₀ (State.odWriteOne s p i sub l).2 := by
  unfold State.odWriteOne
  repeat' (first | with_reducible assumption | with_reducible refine ev_ite3.mpr ⟨fun _ => ?_, fun _ => ?_⟩ | (split <;> (try dsimp -iota only) <;> try (rename_i hq; obtain ⟨hq1, hq2⟩ := Prod.ext_iff.mp hq; dsimp only at hq2; subst hq2)) | with_reducible apply State.odCommand_ev | with_reducible apply State.stage_ev)

theorem State.odReadMany_ev {σ₀ s : State} (hev : Evolves σ₀ s) (p : Nat) (i : Nat) (a0 : List (Nat × Nat)) :
    Evolves σ₀ (State.odReadMany s p i a0).2 := by
  induction a0 generalizing s with
  | nil => exact hev
  | cons e l ih =>
    obtain ⟨sub, n⟩ := e
    have key : Evolves σ₀ (if s.odReadBad p i sub = 0 then s.odReadOne p i sub else ([], s)).2 := by
      split
      · exact State.odReadOne_ev hev _ _ _
      · exact hev
    exact ih key

theorem State.odWriteMany_ev {σ₀ s : State} (hev : Evolves σ₀ s) (p : Nat) (i : Nat) (a0 : List (Nat × Nat)) (a1 : List Byte) :
    Evolves σ₀ (State.odWriteMany s p i a0 a1).2 := by
  induction a0 generalizing s a1 with
  | nil => exact hev
  | cons e l ih =>
    obtain ⟨sub, n⟩ := e
    simp only [State.odWriteMany]
    split
    · split
      · exact ih hev _
      · exact hev
    · generalize (if n = 0 then a1.length else n) = k
      generalize (if (odEntry s.part i sub).size = 0 then _ else _) = b
      have hw := State.odWriteOne_ev hev p i sub b
      generalize s.odWriteOne p i sub b = q at hw ⊢
      obtain ⟨x, t⟩ := q
      split
      · rename_i e; cases e; exact ih hw _
      · rename_i e; cases e; exact hw
      · rename_i e; cases e; exact hw

theorem State.odRead_ev {σ₀ s : State} (hev : Evolves σ₀ s) (p : Nat) (i : Nat) (sub : Nat) (complete : Bool) :
    Evolves σ₀ (State.odRead s p i sub complete).2.2 := by
  unfold State.odRead
  repeat' (first | with_reducible assumption | with_reducible refine ev_ite3.mpr ⟨fun _ => ?_, fun _ => ?_⟩ | (split <;> (try dsimp -iota only) <;> try (rename_i hq; obtain ⟨hq1, hq2⟩ := Prod.ext_iff.mp hq; dsimp only at hq2; subst hq2)) | with_reducible apply State.odReadMany_ev | with_reducible apply State.odReadOne_ev)

theorem State.odWrite_ev {σ₀ s : State} (hev : Evolves σ₀ s) (p : Nat) (i : Nat) (sub : Nat) (complete : Bool) (l : List Byte) :
    Evolves σ₀ (State.odWrite s p i sub complete l).2 := by
  unfold State.odWrite
  repeat' (first | with_reducible assumption | with_reducible refine ev_ite2.mpr ⟨fun _ => ?_, fun _ => ?_⟩ | with_reducible refine ev_ite3.mpr ⟨fun _ => ?_, fun _ => ?_⟩ | with_reducible apply State.odWriteMany_ev | with_reducible apply State.odWriteOne_ev)

theorem State.setSeries_ev {σ₀ s : State} (hev : Evolves σ₀ s) (p : Nat) (o : Option Staged) :
    Evolves σ₀ (State.setSeries s p o) := by
  unfold State.setSeries
  repeat' (first | with_reducible assumption | with_reducible apply State.setPath_ev)

theorem State.odWriteSeries_ev {σ₀ s : State} (hev : Evolves σ₀ s) (p : Nat) (i : Nat) (sub : Nat) (offset : Nat) (last : Bool) (l : List Byte) :
    Evolves σ₀ (State.odWriteSeries s p i sub offset last l).2 := by
  unfold State.odWriteSeries
  repeat' (first | with_reducible assumption | with_reducible apply State.setSeries_ev | with_reducible refine ev_ite3.mpr ⟨fun _ => ?_, fun _ => ?_⟩ | split | dsimp -iota only | with_reducible apply State.odWriteOne_ev)

theorem State.boxOdWrite_ev {σ₀ s : State} (hev : Evolves σ₀ s) (b : Option Nat) :
    Evolves σ₀ (State.boxOdWrite s b) := by
  unfold State.boxOdWrite
  repeat' (first | with_reducible assumption | with_reducible apply State.respondWords_ev | with_reducible apply State.setSeries_ev | with_reducible apply State.respondAbort_ev | with_reducible refine ev_ite3.mpr ⟨fun _ => ?_, fun _ => ?_⟩ | (split <;> (try dsimp -iota only) <;> try (rename_i hq; obtain ⟨hq1, hq2⟩ := Prod.ext_iff.mp hq; dsimp only at hq2; subst hq2)) | with_reducible apply State.odWriteSeries_ev | with_reducible apply State.odWrite_ev)

theorem State.boxOdRead_ev {σ₀ s : State} (hev : Evolves σ₀ s) (b : Option Nat) :
    Evolves σ₀ (State.boxOdRead s b) := by
  unfold State.boxOdRead
  repeat' (first | with_reducible assumption | with_reducible apply State.respondWords_ev | with_reducible apply State.respondAbort_ev | with_reducible apply State.respond_ev | with_reducible apply State.setSeries_ev | with_reducible apply State.take_ev | with_reducible refine ev_ite.mpr ⟨fun _ => ?_, fun _ => ?_⟩ | with_reducible refine ev_ite3.mpr ⟨fun _ => ?_, fun _ => ?_⟩ | with_reducible apply State.odRead_ev)

theorem State.odReadRow_ev {σ₀ s : State} (hev : Evolves σ₀ s) (b : Option Nat) :
    Evolves σ₀ (State.odReadRow s b) := by
  unfold State.odReadRow
  repeat' (first | with_reducible assumption | with_reducible apply State.serve_ev | with_reducible apply State.boxOdRead_ev | with_reducible refine ev_ite.mpr ⟨fun _ => ?_, fun _ => ?_⟩ | with_reducible refine ev_ite3.mpr ⟨fun _ => ?_, fun _ => ?_⟩ | intro _)

theorem State.odWriteRow_ev {σ₀ s : State} (hev : Evolves σ₀ s) (b : Option Nat) :
    Evolves σ₀ (State.odWriteRow s b) := by
  unfold State.odWriteRow
  repeat' (first | with_reducible assumption | with_reducible apply State.serve_ev | with_reducible apply State.boxOdWrite_ev | with_reducible refine ev_ite.mpr ⟨fun _ => ?_, fun _ => ?_⟩ | with_reducible refine ev_ite3.mpr ⟨fun _ => ?_, fun _ => ?_⟩ | intro _)

theorem State.sdoRequest_ev {σ₀ s : State} (hev : Evolves σ₀ s) (op : SdoOp) (i : Nat) (sub : Nat) (complete : Bool) (l : List Byte) :
    Evolves σ₀ (State.sdoRequest s op i sub complete l) := by
  unfold State.sdoRequest
  repeat' (first | with_reducible assumption | with_reducible apply State.send_ev | (split <;> (try dsimp -iota only) <;> try (rename_i hq; obtain ⟨hq1, hq2⟩ := Prod.ext_iff.mp hq; dsimp only at hq2; subst hq2)) | with_reducible apply State.odWrite_ev | with_reducible apply State.odRead_ev)

theorem State.odDirect_ev {σ₀ s : State} (hev : Evolves σ₀ s) (p : Nat) (i : Nat) (sub : Nat) (v : Nat) :
    Evolves σ₀ (State.odDirect s p i sub v) := by
  unfold State.odDirect
  repeat' (first | with_reducible assumption | with_reducible apply State.send_ev | with_reducible refine ev_ite3.mpr ⟨fun _ => ?_, fun _ => ?_⟩ | (split <;> (try dsimp -iota only) <;> try (rename_i hq; obtain ⟨hq1, hq2⟩ := Prod.ext_iff.mp hq; dsimp only at hq2; subst hq2)) | with_reducible apply State.odWriteOne_ev)

/-! Views. -/

theorem State.readImage_ev {σ₀ s : State} (hev : Evolves σ₀ s) (h : Nat) (off : Nat) :
    Evolves σ₀ (State.readImage s h off).2 := by
  unfold State.readImage
  repeat' (first | with_reducible assumption | with_reducible apply State.pdViolation_ev | with_reducible refine ev_ite.mpr ⟨fun _ => ?_, fun _ => ?_⟩ | with_reducible refine ev_ite3.mpr ⟨fun _ => ?_, fun _ => ?_⟩)

theorem State.readReg_ev {σ₀ s : State} (hev : Evolves σ₀ s) (who : Initiator) (off : Nat) :
    Evolves σ₀ (State.readReg s who off).2 := by
  unfold State.readReg
  repeat' (first | with_reducible assumption | with_reducible refine ev_ite3.mpr ⟨fun _ => ?_, fun _ => ?_⟩ | split | with_reducible apply State.readImage_ev)

/-! Ctl. -/

theorem State.errsumWrite_ev {σ₀ s : State} (hev : Evolves σ₀ s) (mask : BitVec 64) (v : BitVec 64) :
    Evolves σ₀ (State.errsumWrite s mask v) := by
  unfold State.errsumWrite
  repeat' (first | with_reducible assumption | with_reducible apply State.clearFields_ev | with_reducible refine ev_ite.mpr ⟨fun _ => ?_, fun _ => ?_⟩ | with_reducible refine ev_ite3.mpr ⟨fun _ => ?_, fun _ => ?_⟩ | with_reducible apply State.store64_ev)

theorem State.xstatWrite_ev {σ₀ s : State} (hev : Evolves σ₀ s) (mask : BitVec 64) (v : BitVec 64) :
    Evolves σ₀ (State.xstatWrite s mask v) := by
  unfold State.xstatWrite
  repeat' (first | with_reducible assumption | with_reducible apply State.plain_ev | with_reducible apply State.setRf_ev | with_reducible refine ev_ite.mpr ⟨fun _ => ?_, fun _ => ?_⟩ | with_reducible refine ev_ite3.mpr ⟨fun _ => ?_, fun _ => ?_⟩)

theorem State.devWrite_ev {σ₀ s : State} (hev : Evolves σ₀ s) (who : Initiator) (off : Nat) (mask : BitVec 64) (v : BitVec 64) :
    Evolves σ₀ (State.devWrite s who off mask v) := by
  unfold State.devWrite
  repeat' (first | with_reducible assumption | with_reducible apply State.boxWrite_ev | with_reducible apply State.resetWrite_ev | with_reducible apply State.coreRstWrite_ev | with_reducible apply State.stateWrite_ev | with_reducible apply State.gate_ev | with_reducible apply State.plain_ev | with_reducible apply State.bootCtrlWrite_ev | with_reducible apply State.alertWrite_ev | with_reducible apply State.thermWrite_ev | with_reducible apply State.patchWrite_ev | with_reducible apply State.announceLevel_ev | with_reducible apply State.memRegWrite_ev | with_reducible apply State.errsumWrite_ev | with_reducible apply State.xstatWrite_ev | with_reducible refine ev_ite.mpr ⟨fun _ => ?_, fun _ => ?_⟩ | with_reducible refine ev_ite3.mpr ⟨fun _ => ?_, fun _ => ?_⟩)

theorem State.sthBaseWrite_ev {σ₀ s : State} (hev : Evolves σ₀ s) (off : Nat) (mask : BitVec 64) (v : BitVec 64) :
    Evolves σ₀ (State.sthBaseWrite s off mask v) := by
  unfold State.sthBaseWrite
  repeat' (first | with_reducible assumption | with_reducible apply State.plain_ev | with_reducible apply State.countReg_ev | with_reducible apply State.setRf_ev | with_reducible refine ev_ite.mpr ⟨fun _ => ?_, fun _ => ?_⟩ | with_reducible refine ev_ite3.mpr ⟨fun _ => ?_, fun _ => ?_⟩)

theorem State.coreWrite_ev {σ₀ s : State} (hev : Evolves σ₀ s) (who : Initiator) (off : Nat) (mask : BitVec 64) (v : BitVec 64) :
    Evolves σ₀ (State.coreWrite s who off mask v) := by
  unfold State.coreWrite
  repeat' (first | with_reducible assumption | with_reducible apply State.gate_ev | with_reducible apply State.sthBaseWrite_ev | with_reducible apply State.cribWrite_ev | with_reducible apply State.clearFields_ev | with_reducible apply State.plain_ev | with_reducible refine ev_ite.mpr ⟨fun _ => ?_, fun _ => ?_⟩ | with_reducible refine ev_ite3.mpr ⟨fun _ => ?_, fun _ => ?_⟩ | with_reducible apply State.store64_ev)

theorem State.ctxCmdWrite_ev {σ₀ s : State} (hev : Evolves σ₀ s) (who : Initiator) (mask : BitVec 64) (v : BitVec 64) :
    Evolves σ₀ (State.ctxCmdWrite s who mask v) := by
  unfold State.ctxCmdWrite
  repeat' (first | with_reducible assumption | with_reducible apply State.gate_ev | with_reducible apply State.fill_ev | with_reducible apply State.countReg_ev | with_reducible apply State.ctxApply_ev | split | dsimp -iota only)

theorem State.restartWdog_ev {σ₀ s : State} (hev : Evolves σ₀ s) (h : Nat) :
    Evolves σ₀ (State.restartWdog s h) := by
  unfold State.restartWdog
  repeat' (first | with_reducible assumption | simp only [↓ev_mk, evk_eta])

theorem State.alertRouteWrite_ev {σ₀ s : State} (hev : Evolves σ₀ s) (who : Initiator) (h : Nat) (mask : BitVec 64) (v : BitVec 64) :
    Evolves σ₀ (State.alertRouteWrite s who h mask v) := by
  unfold State.alertRouteWrite
  repeat' (first | with_reducible assumption | with_reducible apply State.gate_ev | with_reducible apply State.countReg_ev | with_reducible apply State.restartWdog_ev | with_reducible refine ev_ite.mpr ⟨fun _ => ?_, fun _ => ?_⟩ | with_reducible refine ev_ite3.mpr ⟨fun _ => ?_, fun _ => ?_⟩ | with_reducible apply State.store64_ev)

theorem State.evrWrite_ev {σ₀ s : State} (hev : Evolves σ₀ s) (who : Initiator) (off : Nat) (mask : BitVec 64) (v : BitVec 64) :
    Evolves σ₀ (State.evrWrite s who off mask v) := by
  unfold State.evrWrite
  repeat' (first | with_reducible assumption | with_reducible apply State.ctxCmdWrite_ev | with_reducible apply State.alertRouteWrite_ev | with_reducible apply State.gate_ev | with_reducible apply State.plain_ev | with_reducible refine ev_ite.mpr ⟨fun _ => ?_, fun _ => ?_⟩ | with_reducible refine ev_ite3.mpr ⟨fun _ => ?_, fun _ => ?_⟩)

theorem State.blockWrite_ev {σ₀ s : State} (hev : Evolves σ₀ s) (who : Initiator) (off : Nat) (mask : BitVec 64) (v : BitVec 64) :
    Evolves σ₀ (State.blockWrite s who off mask v) := by
  unfold State.blockWrite
  repeat' (first | with_reducible assumption | with_reducible apply State.devWrite_ev | with_reducible apply State.coreWrite_ev | with_reducible apply State.glWrite_ev | with_reducible apply State.webWrite_ev | with_reducible apply State.galWrite_ev | with_reducible apply State.pageWrite_ev | with_reducible apply State.eclWrite_ev | with_reducible apply State.cascWrite_ev | with_reducible apply State.svcWrite_ev | with_reducible apply State.hallWrite_ev | with_reducible apply State.evrWrite_ev | with_reducible refine ev_ite.mpr ⟨fun _ => ?_, fun _ => ?_⟩ | with_reducible refine ev_ite3.mpr ⟨fun _ => ?_, fun _ => ?_⟩)

theorem State.flagged_ev {σ₀ s t : State} (hev : Evolves σ₀ s) (hev1 : Evolves σ₀ t) (who : Initiator) (off : Nat) (mask : BitVec 64) (v : BitVec 64) :
    Evolves σ₀ (State.flagged s t who off mask v) := by
  unfold State.flagged
  repeat' (first | with_reducible assumption | with_reducible apply State.override_ev | with_reducible refine ev_ite.mpr ⟨fun _ => ?_, fun _ => ?_⟩ | with_reducible refine ev_ite3.mpr ⟨fun _ => ?_, fun _ => ?_⟩)

theorem State.applyReg_ev {σ₀ s : State} (hev : Evolves σ₀ s) (who : Initiator) (off : Nat) (mask : BitVec 64) (v : BitVec 64) :
    Evolves σ₀ (State.applyReg s who off mask v) := by
  unfold State.applyReg
  repeat' (first | with_reducible assumption | with_reducible apply State.countReg_ev | with_reducible apply State.flagged_ev | with_reducible apply State.blockWrite_ev | with_reducible refine ev_ite.mpr ⟨fun _ => ?_, fun _ => ?_⟩ | with_reducible refine ev_ite3.mpr ⟨fun _ => ?_, fun _ => ?_⟩)

theorem State.drainPosted_ev {σ₀ s : State} (hev : Evolves σ₀ s) (who : Initiator) (home : Nat) (last : Posted → Bool) (a0 : Nat) :
    Evolves σ₀ (State.drainPosted s who home last a0).2 := by
  induction a0 generalizing s who home last <;> unfold State.drainPosted <;> repeat' (first | with_reducible assumption | with_reducible apply State.applyReg_ev | with_reducible refine ev_ite3.mpr ⟨fun _ => ?_, fun _ => ?_⟩ | split | with_reducible apply_assumption)

theorem State.writeReg_ev {σ₀ s : State} (hev : Evolves σ₀ s) (who : Initiator) (off : Nat) (mask : BitVec 64) (v : BitVec 64) :
    Evolves σ₀ (State.writeReg s who off mask v) := by
  unfold State.writeReg
  repeat' (first | with_reducible assumption | with_reducible apply State.applyReg_ev | with_reducible refine ev_ite.mpr ⟨fun _ => ?_, fun _ => ?_⟩ | with_reducible refine ev_ite3.mpr ⟨fun _ => ?_, fun _ => ?_⟩ | simp only [↓ev_mk, evk_eta] | with_reducible apply State.drainPosted_ev)

theorem State.write64_ev {σ₀ s : State} (hev : Evolves σ₀ s) (who : Initiator) (off : Nat) (v : BitVec 64) :
    Evolves σ₀ (State.write64 s who off v) := by
  unfold State.write64
  repeat' (first | with_reducible assumption | with_reducible apply State.writeReg_ev)

theorem State.drainAll_ev {σ₀ s : State} (hev : Evolves σ₀ s) (who : Initiator) (home : Nat) :
    Evolves σ₀ (State.drainAll s who home) := by
  unfold State.drainAll
  repeat' (first | with_reducible assumption | with_reducible apply State.drainPosted_ev)

theorem State.readAfter_ev {σ₀ s : State} (hev : Evolves σ₀ s) (who : Initiator) (off : Nat) :
    Evolves σ₀ (State.readAfter s who off).2 := by
  unfold State.readAfter
  repeat' (first | with_reducible assumption | with_reducible apply State.drainAll_ev | with_reducible refine ev_ite3.mpr ⟨fun _ => ?_, fun _ => ?_⟩ | (split <;> (try dsimp -iota only) <;> try (rename_i hq; obtain ⟨hq1, hq2⟩ := Prod.ext_iff.mp hq; dsimp only at hq2; subst hq2)) | dsimp -iota only | with_reducible apply State.readReg_ev)

theorem State.releaseWrites_ev {σ₀ s : State} (hev : Evolves σ₀ s) :
    Evolves σ₀ (State.releaseWrites s) := by
  unfold State.releaseWrites
  repeat' (first | with_reducible assumption | with_reducible apply State.drainAll_ev | with_reducible refine ev_foldl' _ _ ?_ (fun _ _ _ => ?_) | with_reducible refine ev_ite.mpr ⟨fun _ => ?_, fun _ => ?_⟩ | with_reducible refine ev_ite3.mpr ⟨fun _ => ?_, fun _ => ?_⟩)

theorem State.abandonWrite_ev {σ₀ s : State} (hev : Evolves σ₀ s) (who : Initiator) (off : Nat) :
    Evolves σ₀ (State.abandonWrite s who off) := by
  unfold State.abandonWrite
  repeat' (first | with_reducible assumption | with_reducible apply State.alertCtx_ev | (split <;> (try dsimp -iota only) <;> try (rename_i hq; obtain ⟨hq1, hq2⟩ := Prod.ext_iff.mp hq; dsimp only at hq2; subst hq2)) | simp only [↓ev_mk, evk_eta] | with_reducible apply State.abandoned_ev | with_reducible apply State.abandonedAs_ev)

/-! Device. -/

theorem State.hostWindowError_ev {σ₀ s : State} (hev : Evolves σ₀ s) (r : Run) (pa : Nat) (store : Bool) :
    Evolves σ₀ (State.hostWindowError s r pa store).2 := by
  unfold State.hostWindowError
  repeat' (first | with_reducible assumption | with_reducible apply State.store_ev | with_reducible refine ev_ite3.mpr ⟨fun _ => ?_, fun _ => ?_⟩ | with_reducible apply State.report_ev)

theorem State.hostLoad_ev {σ₀ s : State} (hev : Evolves σ₀ s) (r : Run) (pa : Nat) :
    Evolves σ₀ (State.hostLoad s r pa).2 := by
  unfold State.hostLoad
  split
  · exact hev
  · rename_i h a _
    have h1 := State.freeAt_ev (State.request_ev hev h (.hostRead h a 8)) a
    generalize State.freeAt (State.request s h (.hostRead h a 8)) a = q at h1 ⊢
    obtain ⟨f, t⟩ := q
    dsimp only at h1 ⊢
    have h2 := State.hostWindowError_ev h1 r pa false
    generalize State.hostWindowError t r pa false = y at h2 ⊢
    obtain ⟨i, u⟩ := y
    dsimp only at h2 ⊢
    split
    · exact h2
    · exact h2
    · exact h1

theorem State.hostDrop_ev {σ₀ s : State} (hev : Evolves σ₀ s) (r : Run) (pa : Nat) :
    Evolves σ₀ (State.hostDrop s r pa) := by
  unfold State.hostDrop
  repeat' (first | with_reducible assumption | with_reducible apply State.alertCtx_ev | with_reducible apply State.hostWindowError_ev)

theorem State.hostStore_ev {σ₀ s : State} (hev : Evolves σ₀ s) (r : Run) (pa : Nat) (v : BitVec 64) :
    Evolves σ₀ (State.hostStore s r pa v) := by
  unfold State.hostStore
  split
  · exact State.hostDrop_ev hev _ _
  · exact State.request_ev hev _ _

theorem State.countMram_ev {σ₀ s : State} (hev : Evolves σ₀ s) (pa : Nat) :
    Evolves σ₀ (State.countMram s pa) := by
  unfold State.countMram
  repeat' (first | with_reducible assumption | with_reducible apply State.countRsv_ev)

theorem State.mramLoad_ev {σ₀ s : State} (hev : Evolves σ₀ s) (o : Nat) :
    Evolves σ₀ (State.mramLoad s o).2 := by
  unfold State.mramLoad
  repeat' (first | with_reducible assumption | (split <;> (try dsimp -iota only) <;> try (rename_i hq; obtain ⟨hq1, hq2⟩ := Prod.ext_iff.mp hq; dsimp only at hq2; subst hq2)) | with_reducible apply State.freeAt_ev)

theorem State.devLoad_ev {σ₀ s : State} (hev : Evolves σ₀ s) (r : Run) (pa : Nat) :
    Evolves σ₀ (State.devLoad s r pa).2 := by
  unfold State.devLoad
  repeat' (first | with_reducible assumption | with_reducible apply State.countMram_ev | (split <;> (try dsimp -iota only) <;> try (rename_i hq; obtain ⟨hq1, hq2⟩ := Prod.ext_iff.mp hq; dsimp only at hq2; subst hq2)) | with_reducible apply State.mramLoad_ev | with_reducible apply State.hostLoad_ev | with_reducible apply State.readAfter_ev)

theorem State.devStore_ev {σ₀ s : State} (hev : Evolves σ₀ s) (r : Run) (pa : Nat) (v : BitVec 64) :
    Evolves σ₀ (State.devStore s r pa v) := by
  unfold State.devStore
  repeat' (first | with_reducible assumption | with_reducible apply State.countMram_ev | with_reducible apply State.hostStore_ev | split | simp only [↓ev_mk, evk_eta])

end Sys2Proof.Machine
end

