-- ==== Sys2Proof/Laws/EvStep.lean ====
section
/-! SUPPORT. Evolves (Laws/Evolves.lean) for accesses of a core, exceptions, arithmetic, branches and memory instructions. -/

namespace Sys2Proof.Machine

/-! Access. -/

theorem State.copyAhead_ev {σ₀ s t : State} (hev : Evolves σ₀ s) {a : Agent} {h : Nat} {w : Word} {pa d : Nat} {hdr : Word}
    (hc : s.copyAhead a h w = some (pa, d, hdr, t)) : Evolves σ₀ t := by
  unfold State.copyAhead at hc
  split at hc
  · cases hc
  · dsimp -iota only at hc
    split at hc
    · cases hc
    · split at hc
      · rename_i hr
        cases hc
        have h1 := State.resolve_ev hev a h (s.heapPa h w) w.type true
        rw [hr] at h1
        exact h1
      · cases hc

theorem State.repairRom_ev {σ₀ s : State} (r : Run) (h : Nat) (va : BitVec 64) (w : Word) (n : Nat)
    (heal : Word → State → State) (hev : Evolves σ₀ s) (hx0 : ∀ x0 x1, Evolves σ₀ x1 → Evolves σ₀ (heal x0 x1)) :
    (State.repairRom s r h va w n heal).Ev σ₀ := by
  have h1 := State.checkPtr_ev hev (.core r.p) h w true
  unfold State.repairRom
  dsimp -iota only
  split
  · rename_i hc _
    exact Res.ev_stop (State.partCopy_ev (State.copyAhead_ev hev hc) _ _ _ _ _)
  · split <;> (rename_i hq; rw [hq] at h1; dsimp only at h1)
    · exact h1
    · exact Res.Ev_ite.mpr ⟨fun _ => hx0 _ _ h1, fun _ => hx0 _ _ h1⟩
    · exact h1

theorem State.coreBarrier_ev {σ₀ s : State} (r : Run) (h : Nat) (va : BitVec 64) (w : Word) (heal : Word → State → State)
    (again : State → Res Word) (hev : Evolves σ₀ s) (hx0 : ∀ x0 x1, Evolves σ₀ x1 → Evolves σ₀ (heal x0 x1))
    (hx1 : ∀ x0, Evolves σ₀ x0 → (again x0).Ev σ₀) : (State.coreBarrier s r h va w heal again).Ev σ₀ := by
  unfold State.coreBarrier
  split
  · exact hev
  · have h1 := State.freeNat_ev hev
    generalize State.freeNat s = q at h1 ⊢
    obtain ⟨n, t⟩ := q
    dsimp only at h1 ⊢
    split
    · rename_i hq
      exact Res.Ev_bind _ _ (MicroEnd.part_ev (State.routine_ev h1 hq)) fun _ _ h2 => hx1 _ h2
    · exact State.repairRom_ev r h va w n heal h1 hx0

theorem State.slotlessBarrier_ev {σ₀ s : State} (hev : Evolves σ₀ s) (r : Run) (h : Nat) (va : BitVec 64) (w : Word) :
    (State.slotlessBarrier s r h va w).Ev σ₀ :=
  State.coreBarrier_ev r h va w _ _ hev (fun _ _ h1 => h1) fun _ h1 =>
    State.repairRom_ev r h va w 0 _ h1 fun _ _ h2 => h2

theorem State.barrierRead_ev {σ₀ s : State} (hev : Evolves σ₀ s) (r : Run) (va : BitVec 64) (pa : Nat) (w : Word)
    (tent : Option Nat) : (State.barrierRead s r va pa w tent).Ev σ₀ := by
  refine State.coreBarrier_ev r r.hall va w _ _ hev (fun v t h1 => ?_) fun _ h1 => h1
  split
  · exact ev_ite.mpr ⟨fun _ => State.setTentative_ev h1 _ _ _, fun _ => h1⟩
  · exact ev_ite.mpr ⟨fun _ => State.coreHeal_ev h1 _ _ _, fun _ => h1⟩

theorem State.readMem_ev {σ₀ s : State} (hev : Evolves σ₀ s) (r : Run) (va : BitVec 64) (pa : Nat) (bar : Bool) :
    (State.readMem s r va pa bar).Ev σ₀ := by
  unfold State.readMem
  split
  · have h1 := State.coreLoad_ev hev r.p .mut pa
    dsimp only
    split
    · exact State.barrierRead_ev h1 _ _ _ _ _
    · exact Res.ev_ok h1
  · rename_i i _
    split
    · exact Res.ev_hold (State.countStall_ev hev _)
    · rename_i t ht
      have h0 := OptEv.of (State.takeLine_ev hev i pa) ht
      split
      · split
        · exact State.barrierRead_ev h0 _ _ _ _ _
        · exact Res.ev_ok h0
      · have h1 := State.setR_ev (State.coreLoad_ev h0 r.p .mut pa) i pa
        dsimp only
        split
        · exact State.barrierRead_ev h1 _ _ _ _ _
        · exact Res.ev_ok h1

theorem State.loadAt_ev {σ₀ s : State} (hev : Evolves σ₀ s) (r : Run) (stair : Nat) (addr : Int) (stack : Bool) (plain : Bool) :
    (State.loadAt s r stair addr stack plain).Ev σ₀ := by
  unfold State.loadAt
  repeat' (first | with_reducible assumption | with_reducible apply State.readMem_ev | with_reducible apply State.plain_ev | with_reducible apply Res.bind_ev | with_reducible refine Res.ev_ok ?_ | with_reducible refine Res.ev_trap ?_ | with_reducible refine Res.ev_hold ?_ | with_reducible refine Res.ev_stop ?_ | with_reducible refine Res.Ev_bind _ _ ?_ (fun _ _ _ => ?_) | with_reducible refine ev_ite3.mpr ⟨fun _ => ?_, fun _ => ?_⟩ | (split <;> (try dsimp -iota only) <;> try (rename_i hq; obtain ⟨hq1, hq2⟩ := Prod.ext_iff.mp hq; dsimp only at hq2; subst hq2)) | with_reducible apply State.devLoad_ev | intro _)

theorem State.prepStore_ev {σ₀ s : State} (hev : Evolves σ₀ s) (r : Run) (stair : Nat) (addr : Int) (stack : Bool) (w : Word) :
    (State.prepStore s r stair addr stack w).Ev σ₀ := by
  unfold State.prepStore
  dsimp -iota only
  split
  · exact Res.ev_trap hev
  · rename_i pa _
    split
    · split
      · rename_i i _
        split
        · exact Res.ev_hold (State.countStall_ev hev _)
        · rename_i t ht
          exact Res.ev_ok (OptEv.of (State.takeLine_ev hev i pa) ht)
      · split
        · have h1 := State.convert_ev hev (.core r.p) r.hall w
          generalize State.convert s (.core r.p) r.hall w = q at h1 ⊢
          obtain ⟨f, t⟩ := q
          cases f with
          | good v => exact Res.ev_ok h1
          | assist k => exact Res.ev_trap h1
        · exact Res.ev_ok hev
    · split
      · exact Res.ev_hold hev
      · exact Res.ev_ok hev

theorem State.convertStore_ev {σ₀ s : State} (hev : Evolves σ₀ s) (a : Agent) (req : CribReq) (h : Nat) (pa : Nat) (w : Word) (bar : Bool) :
    Evolves σ₀ (State.convertStore s a req h pa w bar) := by
  unfold State.convertStore
  repeat' (first | with_reducible assumption | with_reducible apply State.storeLogged_ev | with_reducible refine ev_ite3.mpr ⟨fun _ => ?_, fun _ => ?_⟩ | (split <;> (try dsimp -iota only) <;> try (rename_i hq; obtain ⟨hq1, hq2⟩ := Prod.ext_iff.mp hq; dsimp only at hq2; subst hq2)) | with_reducible apply State.convert_ev)

theorem State.logRoutines_ev {σ₀ s : State} (hev : Evolves σ₀ s) (r : Run) (a0 : List (Nat × Word)) :
    (State.logRoutines s r a0).Ev σ₀ := by
  induction a0 generalizing s with
  | nil => exact hev
  | cons e l ih =>
    unfold State.logRoutines
    refine Res.Ev_bind _ _ ?_ fun _ _ h1 => Res.Ev_bind _ _ (ih h1) fun _ _ h2 => h2
    split
    · exact hev
    · rename_i hq
      split at hq
      · exact Res.Ev_bind _ _ (MicroEnd.part_ev (State.routine_ev hev hq)) fun _ _ h1 => h1
      · cases hq

theorem State.logReady_ev {σ₀ s : State} (hev : Evolves σ₀ s) (r : Run) (l : List (Nat × Word)) :
    (State.logReady s r l).Ev σ₀ := by
  unfold State.logReady
  repeat' (first | with_reducible assumption | with_reducible apply State.emptyLog_ev | with_reducible apply State.setCore_ev | with_reducible apply State.logRoutines_ev | with_reducible apply State.setGl_ev | with_reducible refine Res.ev_ok ?_ | with_reducible refine Res.ev_stop ?_ | with_reducible refine ev_ite.mpr ⟨fun _ => ?_, fun _ => ?_⟩ | with_reducible refine Res.Ev_ite.mpr ⟨fun _ => ?_, fun _ => ?_⟩)

theorem State.commitStore_ev {σ₀ s : State} (hev : Evolves σ₀ s) (r : Run) (pa : Nat) (w : Word) (logged : Bool) :
    Evolves σ₀ (State.commitStore s r pa w logged) := by
  unfold State.commitStore
  repeat' (first | with_reducible assumption | with_reducible apply State.setTentative_ev | with_reducible apply State.storeAs_ev | with_reducible apply State.convertStore_ev | with_reducible apply State.devStore_ev | split)

theorem State.storeAt_ev {σ₀ s : State} (hev : Evolves σ₀ s) (r : Run) (stair : Nat) (addr : Int) (stack : Bool) (w : Word) :
    (State.storeAt s r stair addr stack w).Ev σ₀ := by
  unfold State.storeAt
  repeat' (first | with_reducible assumption | with_reducible apply State.prepStore_ev | with_reducible apply Res.bind_ev | with_reducible apply State.logReady_ev | with_reducible apply State.commitStore_ev | with_reducible refine Res.ev_ok ?_ | with_reducible refine Res.ev_trap ?_ | with_reducible refine Res.ev_hold ?_ | with_reducible refine Res.ev_stop ?_ | with_reducible refine Res.Ev_bind _ _ ?_ (fun _ _ _ => ?_) | intro _)

theorem State.load_ev {σ₀ s : State} (hev : Evolves σ₀ s) (r : Run) (addr : Int) (stack : Bool) :
    (State.load s r addr stack).Ev σ₀ := by
  unfold State.load
  repeat' (first | with_reducible assumption | with_reducible apply State.loadAt_ev | with_reducible refine Res.ev_ok ?_ | with_reducible refine Res.ev_trap ?_ | with_reducible refine Res.ev_hold ?_ | with_reducible refine Res.ev_stop ?_)

theorem State.store_ev {σ₀ s : State} (hev : Evolves σ₀ s) (r : Run) (addr : Int) (w : Word) (stack : Bool) :
    (State.store s r addr w stack).Ev σ₀ := by
  unfold State.store
  repeat' (first | with_reducible assumption | with_reducible apply State.storeAt_ev | with_reducible refine Res.ev_ok ?_ | with_reducible refine Res.ev_trap ?_ | with_reducible refine Res.ev_hold ?_ | with_reducible refine Res.ev_stop ?_)

theorem State.prepEach_ev {σ₀ s : State} (hev : Evolves σ₀ s) (r : Run) (stack : Bool) (a0 : List (Int × Word)) :
    (State.prepEach s r stack a0).Ev σ₀ := by
  induction a0 generalizing s with
  | nil => exact hev
  | cons e l ih =>
    refine Res.Ev_bind _ _ (State.prepStore_ev hev _ _ _ _ _) fun _ _ h => ?_
    exact Res.Ev_bind _ _ (ih h) fun _ _ h => h

theorem State.prepStores_ev {σ₀ s : State} (hev : Evolves σ₀ s) (r : Run) (stack : Bool) (l : List (Int × Word)) :
    (State.prepStores s r stack l).Ev σ₀ := by
  unfold State.prepStores
  repeat' (first | with_reducible assumption | with_reducible apply State.prepEach_ev | with_reducible apply Res.bind_ev | with_reducible apply State.logReady_ev | with_reducible refine Res.ev_ok ?_ | with_reducible refine Res.ev_trap ?_ | with_reducible refine Res.ev_hold ?_ | with_reducible refine Res.ev_stop ?_ | with_reducible refine Res.Ev_bind _ _ ?_ (fun _ _ _ => ?_) | intro _)

theorem State.commitStores_ev {σ₀ s : State} (hev : Evolves σ₀ s) (r : Run) (a0 : List ((Nat × Word) × Bool)) :
    Evolves σ₀ (State.commitStores s r a0) := by
  induction a0 generalizing s with
  | nil => exact hev
  | cons e l ih => exact ih (State.commitStore_ev hev r e.1.1 e.1.2 e.2)

theorem State.loadWords_ev {σ₀ s : State} (hev : Evolves σ₀ s) (r : Run) (addr : Int) (stack : Bool) (a0 : Nat) :
    (State.loadWords s r addr stack a0).Ev σ₀ := by
  induction a0 generalizing s r addr stack <;> unfold State.loadWords <;> repeat' (first | with_reducible assumption | with_reducible apply State.load_ev | with_reducible apply Res.bind_ev | with_reducible refine Res.ev_ok ?_ | with_reducible refine Res.ev_trap ?_ | with_reducible refine Res.ev_hold ?_ | with_reducible refine Res.ev_stop ?_ | with_reducible refine Res.Ev_bind _ _ ?_ (fun _ _ _ => ?_) | with_reducible apply_assumption | intro _)

/-! Ops. -/

theorem State.freeWords_ev {σ₀ s : State} (hev : Evolves σ₀ s) (a0 : Nat) :
    Evolves σ₀ (State.freeWords s a0).2 := by
  induction a0 generalizing s <;> unfold State.freeWords <;> repeat' (first | with_reducible assumption | (split <;> (try dsimp -iota only) <;> try (rename_i hq; obtain ⟨hq1, hq2⟩ := Prod.ext_iff.mp hq; dsimp only at hq2; subst hq2)) | with_reducible apply State.freeWord_ev | with_reducible apply_assumption)

theorem State.haltCore_ev {σ₀ s : State} (hev : Evolves σ₀ s) (r : Run) (reason : Nat) :
    Evolves σ₀ (State.haltCore s r reason) := by
  unfold State.haltCore
  repeat' (first | with_reducible assumption | with_reducible apply State.haltSlot_ev)

theorem State.stageTrap_ev {σ₀ s : State} (hev : Evolves σ₀ s) (r : Run) (t : Trap) :
    Evolves σ₀ (State.stageTrap s r t) := by
  unfold State.stageTrap
  repeat' (first | with_reducible assumption | with_reducible apply State.setCore_ev | split | with_reducible apply State.stage_ev)

theorem State.stairheadRom_ev {σ₀ s : State} (hev : Evolves σ₀ s) (r : Run) (t : Trap) (f : EntryFail) :
    Evolves σ₀ (State.stairheadRom s r t f) := by
  unfold State.stairheadRom
  repeat' (first | with_reducible assumption | with_reducible apply State.haltCore_ev | with_reducible apply State.coreStore_ev | with_reducible apply State.setRegs_ev | with_reducible apply State.target_ev | with_reducible apply State.setCore_ev | with_reducible apply State.stageTrap_ev | with_reducible apply State.setReg_ev | with_reducible apply State.note_ev | with_reducible apply State.event_ev | with_reducible refine ev_foldl' _ _ ?_ (fun _ _ _ => ?_) | with_reducible refine ev_ite3.mpr ⟨fun _ => ?_, fun _ => ?_⟩ | split | dsimp -iota only | with_reducible apply State.stage_ev)

theorem State.stairhead_ev {σ₀ s : State} (hev : Evolves σ₀ s) (r : Run) (t : Trap) (f : EntryFail) :
    Evolves σ₀ (State.stairhead s r t f) := by
  unfold State.stairhead
  repeat' (first | with_reducible assumption | with_reducible apply State.bumpRf_ev | with_reducible apply State.stairheadRom_ev | with_reducible apply State.haltCore_ev | (rename_i hq; refine State.microEnd_ev hq rfl ?_) | split | dsimp -iota only)

theorem State.vectorWord_ev {σ₀ s : State} (hev : Evolves σ₀ s) (r : Run) (stair : Nat) (addr : Nat) :
    Evolves σ₀ (State.vectorWord s r stair addr).2 := by
  unfold State.vectorWord
  repeat' (first | with_reducible assumption | with_reducible refine Res.ev_ok ?_ | with_reducible refine Res.ev_trap ?_ | with_reducible refine Res.ev_hold ?_ | with_reducible refine Res.ev_stop ?_ | with_reducible refine ev_ite2.mpr ⟨fun _ => ?_, fun _ => ?_⟩ | with_reducible refine ev_ite3.mpr ⟨fun _ => ?_, fun _ => ?_⟩ | split | with_reducible apply State.coreLoad_ev)

theorem State.vector_ev {σ₀ s : State} (hev : Evolves σ₀ s) (r : Run) (cause : Nat) :
    Evolves σ₀ (State.vector s r cause).2 := by
  unfold State.vector
  repeat' (first | with_reducible assumption | with_reducible refine ev_ite3.mpr ⟨fun _ => ?_, fun _ => ?_⟩ | (split <;> (try dsimp -iota only) <;> try (rename_i hq; obtain ⟨hq1, hq2⟩ := Prod.ext_iff.mp hq; dsimp only at hq2; subst hq2)) | dsimp -iota only | with_reducible apply State.vectorWord_ev)

theorem State.asEntry_ev {σ₀ s : State} (r : Run) (frame : Trap) (orig : Trap) (k : Nat) (rom : Bool × State) (hev : Evolves σ₀ s) (hx0 : Evolves σ₀ (rom).2) :
    Evolves σ₀ (State.asEntry s r frame orig k rom).2 := by
  unfold State.asEntry
  repeat' (first | with_reducible assumption | with_reducible apply State.stairhead_ev | with_reducible refine Res.ev_ok ?_ | with_reducible refine Res.ev_trap ?_ | with_reducible refine Res.ev_hold ?_ | with_reducible refine Res.ev_stop ?_ | with_reducible refine ev_ite3.mpr ⟨fun _ => ?_, fun _ => ?_⟩ | (rename_i hq; refine State.microEnd_ev hq rfl ?_) | (rename_i hq; refine State.microIf_ev hq rfl ?_) | split)

theorem State.enterWith_ev {σ₀ s : State} (hev : Evolves σ₀ s) (r : Run) (frame : Trap) (orig : Trap) (k : Nat) (lws : List Word) :
    Evolves σ₀ (State.enterWith s r frame orig k lws).2 := by
  unfold State.enterWith
  repeat' (first | with_reducible assumption | with_reducible apply State.stairhead_ev | with_reducible apply State.target_ev | with_reducible apply State.coreStore_ev | with_reducible apply State.setRegs_ev | with_reducible apply State.stageTrap_ev | with_reducible refine ev_foldl' _ _ ?_ (fun _ _ _ => ?_) | with_reducible refine ev_ite3.mpr ⟨fun _ => ?_, fun _ => ?_⟩ | (split <;> (try dsimp -iota only) <;> try (rename_i hq; obtain ⟨hq1, hq2⟩ := Prod.ext_iff.mp hq; dsimp only at hq2; subst hq2)) | with_reducible apply State.asEntry_ev | with_reducible apply State.vector_ev)

theorem State.enter_ev {σ₀ s : State} (hev : Evolves σ₀ s) (r : Run) (t : Trap) :
    Evolves σ₀ (State.enter s r t).2 := by
  unfold State.enter
  repeat' (first | with_reducible assumption | with_reducible apply State.stairhead_ev | with_reducible refine ev_ite3.mpr ⟨fun _ => ?_, fun _ => ?_⟩ | (split <;> (try dsimp -iota only) <;> try (rename_i hq; obtain ⟨hq1, hq2⟩ := Prod.ext_iff.mp hq; dsimp only at hq2; subst hq2)) | with_reducible apply State.freeWords_ev | with_reducible apply State.enterWith_ev)

theorem State.countTrap_ev {σ₀ s : State} (hev : Evolves σ₀ s) (r : Run) (t : Trap) :
    Evolves σ₀ (State.countTrap s r t) := by
  unfold State.countTrap
  repeat' (first | with_reducible assumption | with_reducible apply State.bumpRf_ev | with_reducible apply State.setGl_ev | with_reducible refine ev_ite3.mpr ⟨fun _ => ?_, fun _ => ?_⟩ | split)

theorem State.keepFill_ev {σ₀ s : State} (hev : Evolves σ₀ s) (r : Run) (t : Trap) (done : Bool) :
    Evolves σ₀ (State.keepFill s r t done) := by
  unfold State.keepFill
  repeat' (first | with_reducible assumption | with_reducible apply State.setCtx_ev | with_reducible refine ev_ite.mpr ⟨fun _ => ?_, fun _ => ?_⟩ | with_reducible refine ev_ite3.mpr ⟨fun _ => ?_, fun _ => ?_⟩)

theorem State.take_ev {σ₀ s : State} (hev : Evolves σ₀ s) (r : Run) (t : Trap) :
    Evolves σ₀ (State.take s r t) := by
  unfold State.take
  repeat' (first | with_reducible assumption | with_reducible apply State.await_ev | with_reducible apply State.countTrap_ev | with_reducible apply State.haltCore_ev | with_reducible apply State.keepFill_ev | with_reducible refine ev_ite.mpr ⟨fun _ => ?_, fun _ => ?_⟩ | with_reducible refine ev_ite3.mpr ⟨fun _ => ?_, fun _ => ?_⟩ | with_reducible apply State.enter_ev)

theorem State.deliver_ev {σ₀ s : State} (hev : Evolves σ₀ s) (r : Run) (k : Nat) :
    Evolves σ₀ (State.deliver s r k) := by
  unfold State.deliver
  repeat' (first | with_reducible assumption | with_reducible apply State.restoreSpec_ev | with_reducible apply State.applyDeferred_ev | with_reducible apply State.setCtx_ev | with_reducible refine ev_ite3.mpr ⟨fun _ => ?_, fun _ => ?_⟩ | split | simp only [↓ev_mk, evk_eta] | with_reducible apply State.enter_ev)

theorem State.fetchParcel_ev {σ₀ s : State} (hev : Evolves σ₀ s) (r : Run) (pc : BitVec 44) :
    Evolves σ₀ (State.fetchParcel s r pc).2 := by
  unfold State.fetchParcel
  repeat' (first | with_reducible assumption | with_reducible refine Res.ev_ok ?_ | with_reducible refine Res.ev_trap ?_ | with_reducible refine Res.ev_hold ?_ | with_reducible refine Res.ev_stop ?_ | with_reducible refine ev_ite2.mpr ⟨fun _ => ?_, fun _ => ?_⟩ | with_reducible refine ev_ite3.mpr ⟨fun _ => ?_, fun _ => ?_⟩ | split | dsimp -iota only | with_reducible apply State.coreLoad_ev)

theorem State.fetchParcels_ev {σ₀ s : State} (hev : Evolves σ₀ s) (r : Run) (pc : BitVec 44) (a0 : Nat) :
    Evolves σ₀ (State.fetchParcels s r pc a0).2 := by
  induction a0 generalizing s r pc <;> unfold State.fetchParcels <;> repeat' (first | with_reducible assumption | (split <;> (try dsimp -iota only) <;> try (rename_i hq; obtain ⟨hq1, hq2⟩ := Prod.ext_iff.mp hq; dsimp only at hq2; subst hq2)) | with_reducible apply State.fetchParcel_ev | with_reducible apply_assumption)

theorem State.retire_ev {σ₀ s : State} (hev : Evolves σ₀ s) (r : Run) (pc : BitVec 44) (ss : Bool) :
    Evolves σ₀ (State.retire s r pc ss) := by
  unfold State.retire
  repeat' (first | with_reducible assumption | with_reducible apply State.setPc_ev | with_reducible apply State.alertCtx_ev | with_reducible refine ev_ite.mpr ⟨fun _ => ?_, fun _ => ?_⟩ | with_reducible refine ev_ite3.mpr ⟨fun _ => ?_, fun _ => ?_⟩)

theorem Res.settle_ev {σ₀  : State} (x : Res (BitVec 44)) (r : Run) (ss : Bool) (hx0 : (x).Ev σ₀) :
    Evolves σ₀ (Res.settle x r ss) := by
  unfold Res.settle
  repeat' (first | with_reducible assumption | with_reducible apply State.retire_ev | with_reducible apply State.take_ev | with_reducible apply State.await_ev | with_reducible refine Res.ev_ok ?_ | with_reducible refine Res.ev_trap ?_ | with_reducible refine Res.ev_hold ?_ | with_reducible refine Res.ev_stop ?_ | split | with_reducible apply_assumption)

theorem State.coreStep_ev {σ₀ s : State} (p : Nat) (i : Instr) (stair : Nat) (body : Run → State → Res (BitVec 44)) (hev : Evolves σ₀ s) (hx0 : ∀ x0 x1, Evolves σ₀ x1 → (body x0 x1).Ev σ₀) :
    Evolves σ₀ (State.coreStep s p i stair body) := by
  unfold State.coreStep
  repeat' (first | with_reducible assumption | with_reducible apply State.deliver_ev | with_reducible apply State.take_ev | with_reducible apply Res.settle_ev | with_reducible refine ev_ite3.mpr ⟨fun _ => ?_, fun _ => ?_⟩ | (split <;> (try dsimp -iota only) <;> try (rename_i hq; obtain ⟨hq1, hq2⟩ := Prod.ext_iff.mp hq; dsimp only at hq2; subst hq2)) | with_reducible apply State.fetchParcels_ev | with_reducible apply_assumption)

theorem State.waitOr_ev {σ₀ s : State} (hev : Evolves σ₀ s) (r : Run) (i : Instr) (w : Wait) :
    (State.waitOr s r i w).Ev σ₀ := by
  unfold State.waitOr
  repeat' (first | with_reducible assumption | with_reducible apply State.await_ev | with_reducible refine Res.ev_ok ?_ | with_reducible refine Res.ev_trap ?_ | with_reducible refine Res.ev_hold ?_ | with_reducible refine Res.ev_stop ?_ | with_reducible refine ev_ite3.mpr ⟨fun _ => ?_, fun _ => ?_⟩ | with_reducible refine Res.Ev_ite.mpr ⟨fun _ => ?_, fun _ => ?_⟩)

theorem State.leaveStairhead_ev {σ₀ s : State} (hev : Evolves σ₀ s) (r : Run) :
    Evolves σ₀ (State.leaveStairhead s r) := by
  unfold State.leaveStairhead
  repeat' (first | with_reducible assumption | with_reducible apply State.setCtx_ev | with_reducible apply State.take_ev | with_reducible apply State.applyBusy_ev | with_reducible refine ev_ite.mpr ⟨fun _ => ?_, fun _ => ?_⟩ | with_reducible refine ev_ite3.mpr ⟨fun _ => ?_, fun _ => ?_⟩)

theorem State.excReturn_ev {σ₀ s : State} (hev : Evolves σ₀ s) (r : Run) (i : Instr) :
    (State.excReturn s r i).Ev σ₀ := by
  unfold State.excReturn
  repeat' (first | with_reducible assumption | with_reducible apply State.loadAt_ev | with_reducible apply Res.bind_ev | with_reducible apply State.setRegs_ev | with_reducible apply State.alertCtx_ev | with_reducible apply State.leaveStairhead_ev | with_reducible apply State.take_ev | with_reducible refine Res.ev_trap ?_ | with_reducible refine Res.ev_hold ?_ | with_reducible refine Res.ev_stop ?_ | with_reducible refine Res.Ev_bind _ _ ?_ (fun _ _ _ => ?_) | split | dsimp -iota only | intro _)

/-! Operands. -/

theorem orFault_ev {α : Type} {σ₀ s : State} (t : Option Trap) (f : Res α) (hev : Evolves σ₀ s) (hx0 : (f).Ev σ₀) :
    (orFault t s f).Ev σ₀ := by
  unfold orFault
  repeat' (first | with_reducible assumption | with_reducible refine Res.ev_ok ?_ | with_reducible refine Res.ev_trap ?_ | with_reducible refine Res.ev_hold ?_ | with_reducible refine Res.ev_stop ?_ | split)

theorem State.baseAddr_ev {σ₀ s : State} (hev : Evolves σ₀ s) (r : Run) (base : Word) (k : Int) (kw : Word) (store : Bool) :
    (State.baseAddr s r base k kw store).Ev σ₀ := by
  unfold State.baseAddr
  repeat' (first | with_reducible assumption | with_reducible apply State.loadAt_ev | with_reducible apply Res.bind_ev | with_reducible apply State.store_ev | with_reducible refine Res.ev_ok ?_ | with_reducible refine Res.ev_trap ?_ | with_reducible refine Res.ev_hold ?_ | with_reducible refine Res.ev_stop ?_ | with_reducible refine Res.Ev_bind _ _ ?_ (fun _ _ _ => ?_) | with_reducible refine ev_ite3.mpr ⟨fun _ => ?_, fun _ => ?_⟩ | with_reducible refine Res.Ev_ite.mpr ⟨fun _ => ?_, fun _ => ?_⟩ | intro _)

theorem State.loadBase_ev {σ₀ s : State} (hev : Evolves σ₀ s) (r : Run) (rt : Nat) (base : Word) (k : Int) (kw : Word) :
    (State.loadBase s r rt base k kw).Ev σ₀ := by
  unfold State.loadBase
  repeat' (first | with_reducible assumption | with_reducible apply State.baseAddr_ev | with_reducible apply Res.bind_ev | with_reducible apply State.load_ev | with_reducible apply State.setW_ev | with_reducible refine Res.ev_ok ?_ | with_reducible refine Res.ev_trap ?_ | with_reducible refine Res.ev_hold ?_ | with_reducible refine Res.ev_stop ?_ | with_reducible refine Res.Ev_bind _ _ ?_ (fun _ _ _ => ?_) | intro _)

theorem State.storeBase_ev {σ₀ s : State} (hev : Evolves σ₀ s) (r : Run) (w : Word) (base : Word) (k : Int) (kw : Word) :
    (State.storeBase s r w base k kw).Ev σ₀ := by
  unfold State.storeBase
  repeat' (first | with_reducible assumption | with_reducible apply State.baseAddr_ev | with_reducible apply Res.bind_ev | with_reducible apply State.store_ev | with_reducible refine Res.ev_ok ?_ | with_reducible refine Res.ev_trap ?_ | with_reducible refine Res.ev_hold ?_ | with_reducible refine Res.ev_stop ?_ | with_reducible refine Res.Ev_bind _ _ ?_ (fun _ _ _ => ?_) | intro _)

/-! Arith. -/

theorem State.generic_ev {σ₀ s : State} (hev : Evolves σ₀ s) (r : Run) (op : GOp) (a : Word) (b : Word) (rd : Nat) :
    (State.generic s r op a b rd).Ev σ₀ := by
  unfold State.generic
  repeat' (first | with_reducible assumption | with_reducible apply State.setW_ev | with_reducible refine Res.ev_ok ?_ | with_reducible refine Res.ev_trap ?_ | with_reducible refine Res.ev_hold ?_ | with_reducible refine Res.ev_stop ?_ | split)

theorem State.cell_ev {σ₀ s : State} (hev : Evolves σ₀ s) (r : Run) (rd : Nat) (c : Word) (word : Nat) :
    (State.cell s r rd c word).Ev σ₀ := by
  unfold State.cell
  repeat' (first | with_reducible assumption | with_reducible apply orFault_ev | with_reducible apply State.setW_ev | with_reducible apply State.load_ev | with_reducible apply Res.bind_ev | with_reducible refine Res.ev_ok ?_ | with_reducible refine Res.ev_trap ?_ | with_reducible refine Res.ev_hold ?_ | with_reducible refine Res.ev_stop ?_ | with_reducible refine Res.Ev_bind _ _ ?_ (fun _ _ _ => ?_) | with_reducible refine ev_ite3.mpr ⟨fun _ => ?_, fun _ => ?_⟩ | with_reducible refine Res.Ev_ite.mpr ⟨fun _ => ?_, fun _ => ?_⟩ | intro _)

theorem State.repEffect_ev {σ₀ s : State} (hev : Evolves σ₀ s) (r : Run) (a0 : RepOp) :
    (State.repEffect s r a0).Ev σ₀ := by
  unfold State.repEffect
  repeat' (first | with_reducible assumption | with_reducible apply State.setW_ev | with_reducible apply State.cell_ev | with_reducible apply State.generic_ev | with_reducible refine Res.ev_ok ?_ | with_reducible refine Res.ev_trap ?_ | with_reducible refine Res.ev_hold ?_ | with_reducible refine Res.ev_stop ?_ | split)

theorem State.simpleStep_ev {σ₀ s : State} (hev : Evolves σ₀ s) (p : Nat) (i : Instr) (op : RepOp) :
    Evolves σ₀ (State.simpleStep s p i op) := by
  unfold State.simpleStep
  repeat' (first | with_reducible assumption | with_reducible apply State.coreStep_ev | with_reducible apply State.repEffect_ev | with_reducible apply Res.bind_ev | with_reducible refine Res.ev_ok ?_ | with_reducible refine Res.ev_trap ?_ | with_reducible refine Res.ev_hold ?_ | with_reducible refine Res.ev_stop ?_ | with_reducible refine Res.Ev_bind _ _ ?_ (fun _ _ _ => ?_) | intro _)

theorem execGadd_ev {σ₀ s : State} (hev : Evolves σ₀ s) (p : Nat) (f : ArithForm) :
    OutEv σ₀ (execGadd p f s) := by
  unfold execGadd
  repeat' (first | with_reducible assumption | with_reducible apply State.simpleStep_ev | with_reducible refine ev_next ?_)

theorem execGsub_ev {σ₀ s : State} (hev : Evolves σ₀ s) (p : Nat) (f : ArithForm) :
    OutEv σ₀ (execGsub p f s) := by
  unfold execGsub
  repeat' (first | with_reducible assumption | with_reducible apply State.simpleStep_ev | with_reducible refine ev_next ?_)

theorem execGmul_ev {σ₀ s : State} (hev : Evolves σ₀ s) (p : Nat) (rd : R5) (ra : R5) (rb : R5) :
    OutEv σ₀ (execGmul p rd ra rb s) := by
  unfold execGmul
  repeat' (first | with_reducible assumption | with_reducible apply State.simpleStep_ev | with_reducible refine ev_next ?_)

theorem execGaddi_ev {σ₀ s : State} (hev : Evolves σ₀ s) (p : Nat) (f : AddImmForm) :
    OutEv σ₀ (execGaddi p f s) := by
  unfold execGaddi
  repeat' (first | with_reducible assumption | with_reducible apply State.simpleStep_ev | with_reducible refine ev_next ?_)

theorem execGcmp_ev {σ₀ s : State} (hev : Evolves σ₀ s) (p : Nat) (f : CmpForm) :
    OutEv σ₀ (execGcmp p f s) := by
  unfold execGcmp
  repeat' (first | with_reducible assumption | with_reducible apply State.coreStep_ev | with_reducible apply orFault_ev | with_reducible apply State.setCc_ev | with_reducible refine Res.ev_ok ?_ | with_reducible refine Res.ev_trap ?_ | with_reducible refine Res.ev_hold ?_ | with_reducible refine Res.ev_stop ?_ | with_reducible refine ev_next ?_ | intro _)

theorem execWcmp_ev {σ₀ s : State} (hev : Evolves σ₀ s) (p : Nat) (f : CmpForm) :
    OutEv σ₀ (execWcmp p f s) := by
  unfold execWcmp
  repeat' (first | with_reducible assumption | with_reducible apply State.coreStep_ev | with_reducible apply State.setCc_ev | with_reducible refine Res.ev_ok ?_ | with_reducible refine Res.ev_trap ?_ | with_reducible refine Res.ev_hold ?_ | with_reducible refine Res.ev_stop ?_ | with_reducible refine ev_next ?_ | intro _)

theorem execMov_ev {σ₀ s : State} (hev : Evolves σ₀ s) (p : Nat) (f : UnaryForm) :
    OutEv σ₀ (execMov p f s) := by
  unfold execMov
  repeat' (first | with_reducible assumption | with_reducible apply State.simpleStep_ev | with_reducible refine ev_next ?_)

theorem execNop_ev {σ₀ s : State} (hev : Evolves σ₀ s) (p : Nat) :
    OutEv σ₀ (execNop p s) := by
  unfold execNop
  repeat' (first | with_reducible assumption | with_reducible apply State.simpleStep_ev | with_reducible refine ev_next ?_)

theorem execCar_ev {σ₀ s : State} (hev : Evolves σ₀ s) (p : Nat) (f : UnaryForm) :
    OutEv σ₀ (execCar p f s) := by
  unfold execCar
  repeat' (first | with_reducible assumption | with_reducible apply State.simpleStep_ev | with_reducible refine ev_next ?_)

theorem execCdr_ev {σ₀ s : State} (hev : Evolves σ₀ s) (p : Nat) (f : UnaryForm) :
    OutEv σ₀ (execCdr p f s) := by
  unfold execCdr
  repeat' (first | with_reducible assumption | with_reducible apply State.simpleStep_ev | with_reducible refine ev_next ?_)

theorem State.writeStep_ev {σ₀ s : State} (hev : Evolves σ₀ s) (p : Nat) (i : Instr) (rd : Nat) (f : State → Run → Word) :
    Evolves σ₀ (State.writeStep s p i rd f) := by
  unfold State.writeStep
  repeat' (first | with_reducible assumption | with_reducible apply State.coreStep_ev | with_reducible apply State.setW_ev | with_reducible refine Res.ev_ok ?_ | with_reducible refine Res.ev_trap ?_ | with_reducible refine Res.ev_hold ?_ | with_reducible refine Res.ev_stop ?_ | intro _)

theorem execLdi_ev {σ₀ s : State} (hev : Evolves σ₀ s) (p : Nat) (f : LdiForm) :
    OutEv σ₀ (execLdi p f s) := by
  unfold execLdi
  repeat' (first | with_reducible assumption | with_reducible apply State.writeStep_ev | with_reducible refine ev_next ?_)

theorem execLdk_ev {σ₀ s : State} (hev : Evolves σ₀ s) (p : Nat) (rd : R4) (k : BitVec 3) :
    OutEv σ₀ (execLdk p rd k s) := by
  unfold execLdk
  repeat' (first | with_reducible assumption | with_reducible apply State.writeStep_ev | with_reducible refine ev_next ?_)

theorem execLdik_ev {σ₀ s : State} (hev : Evolves σ₀ s) (p : Nat) (rd : R5) (k : BitVec 2) (imm : BitVec 16) :
    OutEv σ₀ (execLdik p rd k imm s) := by
  unfold execLdik
  repeat' (first | with_reducible assumption | with_reducible apply State.coreStep_ev | with_reducible apply orFault_ev | with_reducible apply State.setW_ev | with_reducible refine Res.ev_ok ?_ | with_reducible refine Res.ev_trap ?_ | with_reducible refine Res.ev_hold ?_ | with_reducible refine Res.ev_stop ?_ | with_reducible refine ev_next ?_ | intro _)

theorem execTagi_ev {σ₀ s : State} (hev : Evolves σ₀ s) (p : Nat) (rd : R5) (ra : R5) (ty : BitVec 6) :
    OutEv σ₀ (execTagi p rd ra ty s) := by
  unfold execTagi
  repeat' (first | with_reducible assumption | with_reducible apply State.coreStep_ev | with_reducible apply State.setW_ev | with_reducible refine Res.ev_ok ?_ | with_reducible refine Res.ev_trap ?_ | with_reducible refine Res.ev_hold ?_ | with_reducible refine Res.ev_stop ?_ | with_reducible refine ev_next ?_ | with_reducible refine ev_ite3.mpr ⟨fun _ => ?_, fun _ => ?_⟩ | with_reducible refine Res.Ev_ite.mpr ⟨fun _ => ?_, fun _ => ?_⟩ | intro _)

theorem execTypeq_ev {σ₀ s : State} (hev : Evolves σ₀ s) (p : Nat) (rd : R5) (ra : R5) (ty : BitVec 6) :
    OutEv σ₀ (execTypeq p rd ra ty s) := by
  unfold execTypeq
  repeat' (first | with_reducible assumption | with_reducible apply State.writeStep_ev | with_reducible refine ev_next ?_ | with_reducible refine ev_ite3.mpr ⟨fun _ => ?_, fun _ => ?_⟩)

theorem execTagw_ev {σ₀ s : State} (hev : Evolves σ₀ s) (p : Nat) (rd : R5) (ra : R5) (tag : BitVec 8) :
    OutEv σ₀ (execTagw p rd ra tag s) := by
  unfold execTagw
  repeat' (first | with_reducible assumption | with_reducible apply State.coreStep_ev | with_reducible apply State.slotlessBarrier_ev | with_reducible apply Res.bind_ev | with_reducible apply State.setW_ev | with_reducible refine Res.ev_ok ?_ | with_reducible refine ev_next ?_ | with_reducible refine Res.Ev_bind _ _ ?_ (fun _ _ _ => ?_) | with_reducible refine Res.Ev_ite.mpr ⟨fun _ => ?_, fun _ => ?_⟩ | intro _)

theorem State.setCnt_ev {σ₀ s : State} (hev : Evolves σ₀ s) (r : Run) (n : Nat) :
    Evolves σ₀ (State.setCnt s r n) := by
  unfold State.setCnt
  repeat' (first | with_reducible assumption | with_reducible apply State.setRegs_ev)

theorem State.repLoop_ev {σ₀ s : State} (hev : Evolves σ₀ s) (r : Run) (op : RepOp) (a0 : Nat) (a1 : Option Nat) :
    (State.repLoop s r op a0 a1).Ev σ₀ := by
  induction a0 generalizing s a1 with
  | zero => exact Res.ev_ok hev
  | succ n ih =>
    unfold State.repLoop
    split
    · exact Res.ev_stop hev
    · exact Res.Ev_bind _ _ (State.repEffect_ev hev _ _) (fun _ t ht => ih (State.setCnt_ev ht _ _) _)

theorem execRep_ev {σ₀ s : State} (hev : Evolves σ₀ s) (p : Nat) (op : RepOp) (stop : Option Nat) :
    OutEv σ₀ (execRep p op stop s) := by
  unfold execRep
  repeat' (first | with_reducible assumption | with_reducible apply State.coreStep_ev | with_reducible apply State.repLoop_ev | with_reducible apply Res.bind_ev | with_reducible refine Res.ev_ok ?_ | with_reducible refine Res.ev_trap ?_ | with_reducible refine Res.ev_hold ?_ | with_reducible refine Res.ev_stop ?_ | with_reducible refine ev_next ?_ | with_reducible refine Res.Ev_bind _ _ ?_ (fun _ _ _ => ?_) | intro _)

/-! Branch. -/

theorem State.branchStep_ev {σ₀ s : State} (hev : Evolves σ₀ s) (p : Nat) (i : Instr) (disp : Int) (taken : State → Run → Bool) :
    Evolves σ₀ (State.branchStep s p i disp taken) := by
  unfold State.branchStep
  repeat' (first | with_reducible assumption | with_reducible apply State.coreStep_ev | with_reducible refine Res.ev_ok ?_ | with_reducible refine Res.ev_trap ?_ | with_reducible refine Res.ev_hold ?_ | with_reducible refine Res.ev_stop ?_ | with_reducible refine ev_ite3.mpr ⟨fun _ => ?_, fun _ => ?_⟩ | intro _)

theorem execBr_ev {σ₀ s : State} (hev : Evolves σ₀ s) (p : Nat) (f : BrForm) :
    OutEv σ₀ (execBr p f s) := by
  unfold execBr
  repeat' (first | with_reducible assumption | with_reducible apply State.branchStep_ev | with_reducible refine ev_next ?_)

theorem execBcond_ev {σ₀ s : State} (hev : Evolves σ₀ s) (p : Nat) (f : BcondForm) :
    OutEv σ₀ (execBcond p f s) := by
  unfold execBcond
  repeat' (first | with_reducible assumption | with_reducible apply State.branchStep_ev | with_reducible refine ev_next ?_)

theorem execBnil_ev {σ₀ s : State} (hev : Evolves σ₀ s) (p : Nat) (f : BnilForm) :
    OutEv σ₀ (execBnil p f s) := by
  unfold execBnil
  repeat' (first | with_reducible assumption | with_reducible apply State.branchStep_ev | with_reducible refine ev_next ?_)

theorem execBnnil_ev {σ₀ s : State} (hev : Evolves σ₀ s) (p : Nat) (f : BnilForm) :
    OutEv σ₀ (execBnnil p f s) := by
  unfold execBnnil
  repeat' (first | with_reducible assumption | with_reducible apply State.branchStep_ev | with_reducible refine ev_next ?_)

theorem execTbr_ev {σ₀ s : State} (hev : Evolves σ₀ s) (p : Nat) (ra : R5) (ty : BitVec 6) (sense : Bool) (disp : BitVec 13) :
    OutEv σ₀ (execTbr p ra ty sense disp s) := by
  unfold execTbr
  repeat' (first | with_reducible assumption | with_reducible apply State.branchStep_ev | with_reducible refine ev_next ?_)

theorem State.loadTyped_ev {σ₀ s : State} (hev : Evolves σ₀ s) (r : Run) (addr : Int) (ok : Word → Bool) :
    (State.loadTyped s r addr ok).Ev σ₀ := by
  unfold State.loadTyped
  repeat' (first | with_reducible assumption | with_reducible apply State.load_ev | with_reducible apply Res.bind_ev | with_reducible apply orFault_ev | with_reducible refine Res.ev_ok ?_ | with_reducible refine Res.ev_trap ?_ | with_reducible refine Res.ev_hold ?_ | with_reducible refine Res.ev_stop ?_ | with_reducible refine Res.Ev_bind _ _ ?_ (fun _ _ _ => ?_) | intro _)

theorem State.codeTarget_ev {σ₀ s : State} (hev : Evolves σ₀ s) (r : Run) (w : Word) :
    (State.codeTarget s r w).Ev σ₀ := by
  unfold State.codeTarget
  repeat' (first | with_reducible assumption | with_reducible apply State.loadTyped_ev | with_reducible apply Res.bind_ev | with_reducible refine Res.ev_ok ?_ | with_reducible refine Res.ev_trap ?_ | with_reducible refine Res.ev_hold ?_ | with_reducible refine Res.ev_stop ?_ | with_reducible refine Res.Ev_bind _ _ ?_ (fun _ _ _ => ?_) | intro _)

theorem State.target_ev {σ₀ s : State} (hev : Evolves σ₀ s) (r : Run) (w : Word) :
    (State.target s r w).Ev σ₀ := by
  unfold State.target
  repeat' (first | with_reducible assumption | with_reducible apply orFault_ev | with_reducible apply State.codeTarget_ev | with_reducible apply State.loadTyped_ev | with_reducible apply Res.bind_ev | with_reducible refine Res.ev_ok ?_ | with_reducible refine Res.ev_trap ?_ | with_reducible refine Res.ev_hold ?_ | with_reducible refine Res.ev_stop ?_ | with_reducible refine Res.Ev_bind _ _ ?_ (fun _ _ _ => ?_) | with_reducible refine ev_ite3.mpr ⟨fun _ => ?_, fun _ => ?_⟩ | with_reducible refine Res.Ev_ite.mpr ⟨fun _ => ?_, fun _ => ?_⟩ | intro _)

theorem execJmp_ev {σ₀ s : State} (hev : Evolves σ₀ s) (p : Nat) (ra : R5) :
    OutEv σ₀ (execJmp p ra s) := by
  unfold execJmp
  repeat' (first | with_reducible assumption | with_reducible apply State.coreStep_ev | with_reducible apply State.target_ev | with_reducible refine Res.ev_ok ?_ | with_reducible refine Res.ev_trap ?_ | with_reducible refine Res.ev_hold ?_ | with_reducible refine Res.ev_stop ?_ | with_reducible refine ev_next ?_ | intro _)

theorem execCallm_ev {σ₀ s : State} (hev : Evolves σ₀ s) (p : Nat) (ra : R5) (mask : BitVec 16) :
    OutEv σ₀ (execCallm p ra mask s) := by
  unfold execCallm
  repeat' (first | with_reducible assumption | with_reducible apply State.coreStep_ev | with_reducible apply State.target_ev | with_reducible apply Res.bind_ev | with_reducible apply State.prepStores_ev | with_reducible apply State.commitStores_ev | with_reducible apply State.setW_ev | with_reducible refine Res.ev_ok ?_ | with_reducible refine Res.ev_trap ?_ | with_reducible refine Res.ev_hold ?_ | with_reducible refine Res.ev_stop ?_ | with_reducible refine ev_next ?_ | with_reducible refine Res.Ev_bind _ _ ?_ (fun _ _ _ => ?_) | with_reducible refine ev_ite3.mpr ⟨fun _ => ?_, fun _ => ?_⟩ | with_reducible refine Res.Ev_ite.mpr ⟨fun _ => ?_, fun _ => ?_⟩ | intro _)

theorem State.setWs_ev {σ₀ s : State} (hev : Evolves σ₀ s) (r : Run) (a0 : List (Nat × Word)) :
    Evolves σ₀ (State.setWs s r a0) := by
  induction a0 generalizing s with
  | nil => exact hev
  | cons e l ih => exact ih (State.setW_ev hev _ _ _)

theorem execRetm_ev {σ₀ s : State} (hev : Evolves σ₀ s) (p : Nat) :
    OutEv σ₀ (execRetm p s) := by
  unfold execRetm
  repeat' (first | with_reducible assumption | with_reducible apply State.coreStep_ev | with_reducible apply State.load_ev | with_reducible apply Res.bind_ev | with_reducible apply State.loadWords_ev | with_reducible apply State.setWs_ev | with_reducible apply State.setW_ev | with_reducible refine Res.ev_ok ?_ | with_reducible refine Res.ev_trap ?_ | with_reducible refine Res.ev_hold ?_ | with_reducible refine Res.ev_stop ?_ | with_reducible refine ev_next ?_ | with_reducible refine Res.Ev_bind _ _ ?_ (fun _ _ _ => ?_) | with_reducible refine ev_ite3.mpr ⟨fun _ => ?_, fun _ => ?_⟩ | with_reducible refine Res.Ev_ite.mpr ⟨fun _ => ?_, fun _ => ?_⟩ | intro _)

theorem execBrk_ev {σ₀ s : State} (hev : Evolves σ₀ s) (p : Nat) :
    OutEv σ₀ (execBrk p s) := by
  unfold execBrk
  repeat' (first | with_reducible assumption | with_reducible apply State.coreStep_ev | with_reducible refine Res.ev_ok ?_ | with_reducible refine Res.ev_trap ?_ | with_reducible refine Res.ev_hold ?_ | with_reducible refine Res.ev_stop ?_ | with_reducible refine ev_next ?_ | intro _)

theorem execScall_ev {σ₀ s : State} (hev : Evolves σ₀ s) (p : Nat) (st : Bool) :
    OutEv σ₀ (execScall p st s) := by
  unfold execScall
  repeat' (first | with_reducible assumption | with_reducible apply State.coreStep_ev | with_reducible apply State.setRegs_ev | with_reducible refine Res.ev_ok ?_ | with_reducible refine Res.ev_trap ?_ | with_reducible refine Res.ev_hold ?_ | with_reducible refine Res.ev_stop ?_ | with_reducible refine ev_next ?_ | with_reducible refine ev_ite3.mpr ⟨fun _ => ?_, fun _ => ?_⟩ | with_reducible refine Res.Ev_ite.mpr ⟨fun _ => ?_, fun _ => ?_⟩ | intro _)

theorem sretTo_ev {σ₀ s : State} (hev : Evolves σ₀ s) (r : Run) (old : BitVec 64) (pc : BitVec 44) :
    (sretTo r old pc s).Ev σ₀ := by
  unfold sretTo
  repeat' (first | with_reducible assumption | with_reducible apply State.retire_ev | with_reducible apply State.leaveStairhead_ev | with_reducible refine Res.ev_ok ?_ | with_reducible refine Res.ev_trap ?_ | with_reducible refine Res.ev_hold ?_ | with_reducible refine Res.ev_stop ?_ | with_reducible refine ev_ite3.mpr ⟨fun _ => ?_, fun _ => ?_⟩ | with_reducible refine Res.Ev_ite.mpr ⟨fun _ => ?_, fun _ => ?_⟩)

theorem execSret_ev {σ₀ s : State} (hev : Evolves σ₀ s) (p : Nat) :
    OutEv σ₀ (execSret p s) := by
  unfold execSret
  repeat' (first | with_reducible assumption | with_reducible apply State.coreStep_ev | with_reducible apply sretTo_ev | with_reducible apply State.setRegs_ev | with_reducible refine Res.ev_ok ?_ | with_reducible refine Res.ev_trap ?_ | with_reducible refine Res.ev_hold ?_ | with_reducible refine Res.ev_stop ?_ | with_reducible refine ev_next ?_ | with_reducible refine ev_ite3.mpr ⟨fun _ => ?_, fun _ => ?_⟩ | with_reducible refine Res.Ev_ite.mpr ⟨fun _ => ?_, fun _ => ?_⟩ | intro _)

theorem execXret_ev {σ₀ s : State} (hev : Evolves σ₀ s) (p : Nat) :
    OutEv σ₀ (execXret p s) := by
  unfold execXret
  repeat' (first | with_reducible assumption | with_reducible apply State.coreStep_ev | with_reducible apply State.excReturn_ev | with_reducible refine Res.ev_ok ?_ | with_reducible refine Res.ev_trap ?_ | with_reducible refine Res.ev_hold ?_ | with_reducible refine Res.ev_stop ?_ | with_reducible refine ev_next ?_ | intro _)

/-! Memory. -/

theorem State.loadBody_ev {σ₀ s : State} (hev : Evolves σ₀ s) (r : Run) (i : Instr) (rt : Nat) (base : Nat) (k : Int) (kw : Word) :
    (State.loadBody s r i rt base k kw).Ev σ₀ := by
  unfold State.loadBody
  repeat' (first | with_reducible assumption | with_reducible apply State.loadBase_ev | with_reducible apply Res.bind_ev | with_reducible refine Res.ev_ok ?_ | with_reducible refine Res.ev_trap ?_ | with_reducible refine Res.ev_hold ?_ | with_reducible refine Res.ev_stop ?_ | with_reducible refine Res.Ev_bind _ _ ?_ (fun _ _ _ => ?_) | intro _)

theorem State.storeBody_ev {σ₀ s : State} (hev : Evolves σ₀ s) (r : Run) (i : Instr) (rt : Nat) (base : Nat) (k : Int) (kw : Word) :
    (State.storeBody s r i rt base k kw).Ev σ₀ := by
  unfold State.storeBody
  repeat' (first | with_reducible assumption | with_reducible apply State.storeBase_ev | with_reducible apply Res.bind_ev | with_reducible refine Res.ev_ok ?_ | with_reducible refine Res.ev_trap ?_ | with_reducible refine Res.ev_hold ?_ | with_reducible refine Res.ev_stop ?_ | with_reducible refine Res.Ev_bind _ _ ?_ (fun _ _ _ => ?_) | intro _)

theorem execLd_ev {σ₀ s : State} (hev : Evolves σ₀ s) (p : Nat) (f : MemForm) :
    OutEv σ₀ (execLd p f s) := by
  unfold execLd
  repeat' (first | with_reducible assumption | with_reducible apply State.coreStep_ev | with_reducible apply State.loadBody_ev | with_reducible refine Res.ev_ok ?_ | with_reducible refine Res.ev_trap ?_ | with_reducible refine Res.ev_hold ?_ | with_reducible refine Res.ev_stop ?_ | with_reducible refine ev_next ?_ | intro _)

theorem execSt_ev {σ₀ s : State} (hev : Evolves σ₀ s) (p : Nat) (f : MemForm) :
    OutEv σ₀ (execSt p f s) := by
  unfold execSt
  repeat' (first | with_reducible assumption | with_reducible apply State.coreStep_ev | with_reducible apply State.storeBody_ev | with_reducible refine Res.ev_ok ?_ | with_reducible refine Res.ev_trap ?_ | with_reducible refine Res.ev_hold ?_ | with_reducible refine Res.ev_stop ?_ | with_reducible refine ev_next ?_ | intro _)

theorem execLdx_ev {σ₀ s : State} (hev : Evolves σ₀ s) (p : Nat) (rd : R5) (ra : R5) (rb : R5) :
    OutEv σ₀ (execLdx p rd ra rb s) := by
  unfold execLdx
  repeat' (first | with_reducible assumption | with_reducible apply State.coreStep_ev | with_reducible apply orFault_ev | with_reducible apply State.loadBody_ev | with_reducible refine Res.ev_ok ?_ | with_reducible refine Res.ev_trap ?_ | with_reducible refine Res.ev_hold ?_ | with_reducible refine Res.ev_stop ?_ | with_reducible refine ev_next ?_ | intro _)

theorem execStx_ev {σ₀ s : State} (hev : Evolves σ₀ s) (p : Nat) (rd : R5) (ra : R5) (rb : R5) :
    OutEv σ₀ (execStx p rd ra rb s) := by
  unfold execStx
  repeat' (first | with_reducible assumption | with_reducible apply State.coreStep_ev | with_reducible apply orFault_ev | with_reducible apply State.storeBody_ev | with_reducible refine Res.ev_ok ?_ | with_reducible refine Res.ev_trap ?_ | with_reducible refine Res.ev_hold ?_ | with_reducible refine Res.ev_stop ?_ | with_reducible refine ev_next ?_ | intro _)

theorem execLdsp_ev {σ₀ s : State} (hev : Evolves σ₀ s) (p : Nat) (rt : R4) (off : BitVec 7) :
    OutEv σ₀ (execLdsp p rt off s) := by
  unfold execLdsp
  repeat' (first | with_reducible assumption | with_reducible apply State.coreStep_ev | with_reducible apply State.loadBody_ev | with_reducible refine Res.ev_ok ?_ | with_reducible refine Res.ev_trap ?_ | with_reducible refine Res.ev_hold ?_ | with_reducible refine Res.ev_stop ?_ | with_reducible refine ev_next ?_ | intro _)

theorem execStsp_ev {σ₀ s : State} (hev : Evolves σ₀ s) (p : Nat) (rt : R4) (off : BitVec 7) :
    OutEv σ₀ (execStsp p rt off s) := by
  unfold execStsp
  repeat' (first | with_reducible assumption | with_reducible apply State.coreStep_ev | with_reducible apply State.storeBody_ev | with_reducible refine Res.ev_ok ?_ | with_reducible refine Res.ev_trap ?_ | with_reducible refine Res.ev_hold ?_ | with_reducible refine Res.ev_stop ?_ | with_reducible refine ev_next ?_ | intro _)

theorem execFence_ev {σ₀ s : State} (hev : Evolves σ₀ s) (p : Nat) :
    OutEv σ₀ (execFence p s) := by
  unfold execFence
  repeat' (first | with_reducible assumption | with_reducible apply State.coreStep_ev | with_reducible refine Res.ev_ok ?_ | with_reducible refine Res.ev_trap ?_ | with_reducible refine Res.ev_hold ?_ | with_reducible refine Res.ev_stop ?_ | with_reducible refine ev_next ?_ | intro _)

end Sys2Proof.Machine
end

