-- ==== Sys2Proof/Laws/EvInstr.lean ====
section
/-! SUPPORT. Evolves (Laws/Evolves.lean) for the other core instructions and events. -/

namespace Sys2Proof.Machine

/-! Lists. -/

theorem State.replaceCell_ev {σ₀ s : State} (hev : Evolves σ₀ s) (r : Run) (i : Instr) (cell : Word) (w : Word) (word : Nat) :
    (State.replaceCell s r i cell w word).Ev σ₀ := by
  unfold State.replaceCell
  repeat' (first | with_reducible assumption | with_reducible apply orFault_ev | with_reducible apply State.cell_ev | with_reducible apply State.store_ev | with_reducible apply Res.bind_ev | with_reducible refine Res.ev_ok ?_ | with_reducible refine Res.ev_trap ?_ | with_reducible refine Res.ev_hold ?_ | with_reducible refine Res.ev_stop ?_ | with_reducible refine Res.Ev_bind _ _ ?_ (fun _ _ _ => ?_) | intro _)

theorem execRplaca_ev {σ₀ s : State} (hev : Evolves σ₀ s) (p : Nat) (ra : R5) (rb : R5) :
    OutEv σ₀ (execRplaca p ra rb s) := by
  unfold execRplaca
  repeat' (first | with_reducible assumption | with_reducible apply State.coreStep_ev | with_reducible apply State.replaceCell_ev | with_reducible refine Res.ev_ok ?_ | with_reducible refine Res.ev_trap ?_ | with_reducible refine Res.ev_hold ?_ | with_reducible refine Res.ev_stop ?_ | with_reducible refine ev_next ?_ | intro _)

theorem execRplacd_ev {σ₀ s : State} (hev : Evolves σ₀ s) (p : Nat) (ra : R5) (rb : R5) :
    OutEv σ₀ (execRplacd p ra rb s) := by
  unfold execRplacd
  repeat' (first | with_reducible assumption | with_reducible apply State.coreStep_ev | with_reducible apply State.replaceCell_ev | with_reducible refine Res.ev_ok ?_ | with_reducible refine Res.ev_trap ?_ | with_reducible refine Res.ev_hold ?_ | with_reducible refine Res.ev_stop ?_ | with_reducible refine ev_next ?_ | intro _)

theorem Res.clearsRes_ev {α : Type} {σ₀  : State} (x : Res α) (r : Run) (hx0 : (x).Ev σ₀) :
    (Res.clearsRes x r).Ev σ₀ := by
  unfold Res.clearsRes
  repeat' (first | with_reducible assumption | with_reducible apply State.setRes_ev | with_reducible refine Res.ev_ok ?_ | with_reducible refine Res.ev_trap ?_ | with_reducible refine Res.ev_hold ?_ | with_reducible refine Res.ev_stop ?_ | with_reducible refine ev_ite3.mpr ⟨fun _ => ?_, fun _ => ?_⟩ | split | with_reducible apply_assumption)

theorem State.interrupted_ev {σ₀ s : State} (hev : Evolves σ₀ s) (r : Run) :
    Evolves σ₀ (State.interrupted s r) := by
  unfold State.interrupted
  repeat' (first | with_reducible assumption | with_reducible apply State.setRes_ev)

theorem State.longDone_ev {σ₀ s : State} (hev : Evolves σ₀ s) (r : Run) (i : Instr) :
    (State.longDone s r i).Ev σ₀ := by
  unfold State.longDone
  repeat' (first | with_reducible assumption | with_reducible apply State.setRes_ev | with_reducible refine Res.ev_ok ?_ | with_reducible refine Res.ev_trap ?_ | with_reducible refine Res.ev_hold ?_ | with_reducible refine Res.ev_stop ?_)

theorem State.searchStep_ev {σ₀ s : State} (hev : Evolves σ₀ s) (r : Run) (assoc : Bool) (key : Word) (l : Word) :
    (State.searchStep s r assoc key l).Ev σ₀ := by
  unfold State.searchStep
  repeat' (first | with_reducible assumption | with_reducible apply State.load_ev | with_reducible apply Res.bind_ev | with_reducible apply orFault_ev | with_reducible refine Res.ev_ok ?_ | with_reducible refine Res.ev_trap ?_ | with_reducible refine Res.ev_hold ?_ | with_reducible refine Res.ev_stop ?_ | with_reducible refine Res.Ev_bind _ _ ?_ (fun _ _ _ => ?_) | with_reducible refine ev_ite3.mpr ⟨fun _ => ?_, fun _ => ?_⟩ | with_reducible refine Res.Ev_ite.mpr ⟨fun _ => ?_, fun _ => ?_⟩ | intro _)

theorem State.searchLoop_ev {σ₀ s : State} (hev : Evolves σ₀ s) (r : Run) (i : Instr) (assoc : Bool) (rd : Nat) (ra : Nat) (rb : Nat) (a0 : Nat) (a1 : Option Nat) :
    (State.searchLoop s r i assoc rd ra rb a0 a1).Ev σ₀ := by
  induction a0 generalizing s a1 with
  | zero =>
    unfold State.searchLoop
    dsimp only
    split
    · exact State.longDone_ev (State.setW_ev hev _ _ _) _ _
    · split
      · exact hev
      · exact State.longDone_ev (State.setW_ev hev _ _ _) _ _
  | succ n ih =>
    unfold State.searchLoop
    dsimp only
    split
    · exact State.longDone_ev (State.setW_ev hev _ _ _) _ _
    · split
      · exact hev
      · refine Res.Ev_bind _ _ (State.searchStep_ev hev _ _ _ _) fun f t h => ?_
        cases f with
        | hit w => exact State.longDone_ev (State.setW_ev h _ _ _) _ _
        | miss =>
          refine Res.Ev_bind _ _ (State.load_ev h _ _ _) fun _ _ h => ?_
          split
          · exact State.interrupted_ev (State.setCnt_ev (State.setW_ev h _ _ _) _ _) _
          · exact ih (State.setCnt_ev (State.setW_ev h _ _ _) _ _) _

theorem execMemq_ev {σ₀ s : State} (hev : Evolves σ₀ s) (p : Nat) (rd : R5) (ra : R5) (rb : R5) (stop : Option Nat) :
    OutEv σ₀ (execMemq p rd ra rb stop s) := by
  unfold execMemq
  repeat' (first | with_reducible assumption | with_reducible apply State.coreStep_ev | with_reducible apply State.asRoutine_ev | with_reducible apply State.searchLoop_ev | with_reducible apply Res.clearsRes_ev | with_reducible refine Res.ev_ok ?_ | with_reducible refine Res.ev_trap ?_ | with_reducible refine Res.ev_hold ?_ | with_reducible refine Res.ev_stop ?_ | with_reducible refine ev_next ?_ | intro _)

theorem execAssq_ev {σ₀ s : State} (hev : Evolves σ₀ s) (p : Nat) (rd : R5) (ra : R5) (rb : R5) (stop : Option Nat) :
    OutEv σ₀ (execAssq p rd ra rb stop s) := by
  unfold execAssq
  repeat' (first | with_reducible assumption | with_reducible apply State.coreStep_ev | with_reducible apply State.asRoutine_ev | with_reducible apply State.searchLoop_ev | with_reducible apply Res.clearsRes_ev | with_reducible refine Res.ev_ok ?_ | with_reducible refine Res.ev_trap ?_ | with_reducible refine Res.ev_hold ?_ | with_reducible refine Res.ev_stop ?_ | with_reducible refine ev_next ?_ | intro _)

theorem State.lengthLoop_ev {σ₀ s : State} (hev : Evolves σ₀ s) (r : Run) (i : Instr) (rd : Nat) (ra : Nat) (a0 : Nat) (a1 : Option Nat) :
    (State.lengthLoop s r i rd ra a0 a1).Ev σ₀ := by
  induction a0 generalizing s a1 with
  | zero =>
    unfold State.lengthLoop
    dsimp only
    split
    · exact State.longDone_ev hev _ _
    · split
      · exact hev
      · exact State.longDone_ev hev _ _
  | succ n ih =>
    unfold State.lengthLoop
    dsimp only
    split
    · exact State.longDone_ev hev _ _
    · split
      · exact hev
      · refine Res.Ev_bind _ _ (State.load_ev hev _ _ _) fun _ _ h => ?_
        split
        · exact State.interrupted_ev (State.setCnt_ev (State.setW_ev (State.setW_ev h _ _ _) _ _ _) _ _) _
        · exact ih (State.setCnt_ev (State.setW_ev (State.setW_ev h _ _ _) _ _ _) _ _) _

theorem execLlen_ev {σ₀ s : State} (hev : Evolves σ₀ s) (p : Nat) (rd : R5) (ra : R5) (stop : Option Nat) :
    OutEv σ₀ (execLlen p rd ra stop s) := by
  unfold execLlen
  repeat' (first | with_reducible assumption | with_reducible apply State.coreStep_ev | with_reducible apply State.asRoutine_ev | with_reducible apply orFault_ev | with_reducible apply State.lengthLoop_ev | with_reducible apply Res.clearsRes_ev | with_reducible refine Res.ev_ok ?_ | with_reducible refine Res.ev_trap ?_ | with_reducible refine Res.ev_hold ?_ | with_reducible refine Res.ev_stop ?_ | with_reducible refine ev_next ?_ | intro _)

/-! Vectors. -/

theorem State.extent_ev {σ₀ s : State} (hev : Evolves σ₀ s) (r : Run) (o : Word) :
    (State.extent s r o).Ev σ₀ := by
  unfold State.extent
  repeat' (first | with_reducible assumption | with_reducible apply State.load_ev | with_reducible apply Res.bind_ev | with_reducible apply orFault_ev | with_reducible refine Res.ev_ok ?_ | with_reducible refine Res.ev_trap ?_ | with_reducible refine Res.ev_hold ?_ | with_reducible refine Res.ev_stop ?_ | with_reducible refine Res.Ev_bind _ _ ?_ (fun _ _ _ => ?_) | with_reducible refine ev_ite3.mpr ⟨fun _ => ?_, fun _ => ?_⟩ | with_reducible refine Res.Ev_ite.mpr ⟨fun _ => ?_, fun _ => ?_⟩ | intro _)

theorem State.readElement_ev {σ₀ s : State} (hev : Evolves σ₀ s) (r : Run) (o : Word) (j : Nat) :
    (State.readElement s r o j).Ev σ₀ := by
  unfold State.readElement
  repeat' (first | with_reducible assumption | with_reducible apply State.load_ev | with_reducible apply Res.bind_ev | with_reducible refine Res.ev_ok ?_ | with_reducible refine Res.ev_trap ?_ | with_reducible refine Res.ev_hold ?_ | with_reducible refine Res.ev_stop ?_ | with_reducible refine Res.Ev_bind _ _ ?_ (fun _ _ _ => ?_) | with_reducible refine ev_ite3.mpr ⟨fun _ => ?_, fun _ => ?_⟩ | with_reducible refine Res.Ev_ite.mpr ⟨fun _ => ?_, fun _ => ?_⟩ | intro _)

theorem State.writeElement_ev {σ₀ s : State} (hev : Evolves σ₀ s) (r : Run) (o : Word) (j : Nat) (v : Word) :
    (State.writeElement s r o j v).Ev σ₀ := by
  unfold State.writeElement
  repeat' (first | with_reducible assumption | with_reducible apply State.store_ev | with_reducible apply State.prepStore_ev | with_reducible apply Res.bind_ev | with_reducible apply State.readMem_ev | with_reducible apply State.commitStore_ev | with_reducible refine Res.ev_ok ?_ | with_reducible refine Res.ev_trap ?_ | with_reducible refine Res.ev_stop ?_ | with_reducible refine Res.Ev_bind _ _ ?_ (fun _ _ _ => ?_) | (split <;> (try dsimp -iota only) <;> try (rename_i hq; obtain ⟨hq1, hq2⟩ := Prod.ext_iff.mp hq; dsimp only at hq2; subst hq2)) | with_reducible apply State.devLoad_ev | intro _)

theorem execVref_ev {σ₀ s : State} (hev : Evolves σ₀ s) (p : Nat) (rd : R5) (ra : R5) (rb : R5) :
    OutEv σ₀ (execVref p rd ra rb s) := by
  unfold execVref
  repeat' (first | with_reducible assumption | with_reducible apply State.coreStep_ev | with_reducible apply orFault_ev | with_reducible apply State.extent_ev | with_reducible apply Res.bind_ev | with_reducible apply State.readElement_ev | with_reducible apply State.setW_ev | with_reducible refine Res.ev_ok ?_ | with_reducible refine Res.ev_trap ?_ | with_reducible refine Res.ev_hold ?_ | with_reducible refine Res.ev_stop ?_ | with_reducible refine ev_next ?_ | with_reducible refine Res.Ev_bind _ _ ?_ (fun _ _ _ => ?_) | with_reducible refine ev_ite3.mpr ⟨fun _ => ?_, fun _ => ?_⟩ | with_reducible refine Res.Ev_ite.mpr ⟨fun _ => ?_, fun _ => ?_⟩ | intro _)

theorem execVset_ev {σ₀ s : State} (hev : Evolves σ₀ s) (p : Nat) (rd : R5) (ra : R5) (rb : R5) :
    OutEv σ₀ (execVset p rd ra rb s) := by
  unfold execVset
  repeat' (first | with_reducible assumption | with_reducible apply State.coreStep_ev | with_reducible apply orFault_ev | with_reducible apply State.extent_ev | with_reducible apply Res.bind_ev | with_reducible apply State.writeElement_ev | with_reducible refine Res.ev_ok ?_ | with_reducible refine Res.ev_trap ?_ | with_reducible refine Res.ev_hold ?_ | with_reducible refine Res.ev_stop ?_ | with_reducible refine ev_next ?_ | with_reducible refine Res.Ev_bind _ _ ?_ (fun _ _ _ => ?_) | with_reducible refine ev_ite3.mpr ⟨fun _ => ?_, fun _ => ?_⟩ | with_reducible refine Res.Ev_ite.mpr ⟨fun _ => ?_, fun _ => ?_⟩ | intro _)

theorem State.fillLoop_ev {σ₀ s : State} (hev : Evolves σ₀ s) (r : Run) (i : Instr) (o : Word) (rd : Nat) (rb : Nat) (a0 : Nat) (a1 : Nat) (a2 : Option Nat) :
    (State.fillLoop s r i o rd rb a0 a1 a2).Ev σ₀ := by
  induction a0 generalizing s a1 a2 with
  | zero => exact State.longDone_ev hev _ _
  | succ n ih =>
    unfold State.fillLoop
    refine Res.Ev_bind _ _ (State.writeElement_ev hev _ _ _ _) (fun _ t ht => ?_)
    have h1 := State.setCnt_ev (State.setW_ev ht r rb (fix ((t.getW r rb).payload + 1))) r n
    dsimp only
    generalize State.setCnt (State.setW t r rb (fix ((t.getW r rb).payload + 1))) r n = u at h1 ⊢
    split
    · split
      · exact Res.ev_stop (State.interrupted_ev h1 _)
      · exact ih h1 _ _
    · exact ih h1 _ _

theorem execVfill_ev {σ₀ s : State} (hev : Evolves σ₀ s) (p : Nat) (rd : R5) (ra : R5) (rb : R5) (stop : Option Nat) :
    OutEv σ₀ (execVfill p rd ra rb stop s) := by
  unfold execVfill
  repeat' (first | with_reducible assumption | with_reducible apply State.coreStep_ev | with_reducible apply State.asRoutine_ev | with_reducible apply orFault_ev | with_reducible apply State.extent_ev | with_reducible apply Res.bind_ev | with_reducible apply State.fillLoop_ev | with_reducible apply Res.clearsRes_ev | with_reducible refine Res.ev_ok ?_ | with_reducible refine Res.ev_trap ?_ | with_reducible refine Res.ev_hold ?_ | with_reducible refine Res.ev_stop ?_ | with_reducible refine ev_next ?_ | with_reducible refine Res.Ev_bind _ _ ?_ (fun _ _ _ => ?_) | with_reducible refine ev_ite3.mpr ⟨fun _ => ?_, fun _ => ?_⟩ | with_reducible refine Res.Ev_ite.mpr ⟨fun _ => ?_, fun _ => ?_⟩ | intro _)

theorem State.copyLoop_ev {σ₀ s : State} (hev : Evolves σ₀ s) (r : Run) (i : Instr) (src : Word) (dst : Word) (rb : Nat) (a0 : Nat) (a1 : Nat) (a2 : Option Nat) :
    (State.copyLoop s r i src dst rb a0 a1 a2).Ev σ₀ := by
  induction a0 generalizing s a1 a2 with
  | zero => exact State.longDone_ev hev _ _
  | succ n ih =>
    unfold State.copyLoop
    refine Res.Ev_bind _ _ (State.readElement_ev hev _ _ _) (fun w t ht => ?_)
    refine Res.Ev_bind _ _ (State.writeElement_ev ht _ _ _ _) (fun _ u hu => ?_)
    dsimp only
    generalize hv : State.setCnt _ r n = v
    have h1 : Evolves σ₀ v := by rw [← hv]; exact State.setCnt_ev (State.setW_ev hu _ _ _) _ _
    split
    · split
      · exact Res.ev_stop (State.interrupted_ev h1 _)
      · exact ih h1 _ _
    · exact ih h1 _ _

theorem execVcopy_ev {σ₀ s : State} (hev : Evolves σ₀ s) (p : Nat) (rd : R5) (ra : R5) (rb : R5) (stop : Option Nat) :
    OutEv σ₀ (execVcopy p rd ra rb stop s) := by
  unfold execVcopy
  repeat' (first | with_reducible assumption | with_reducible apply State.coreStep_ev | with_reducible apply State.asRoutine_ev | with_reducible apply orFault_ev | with_reducible apply State.extent_ev | with_reducible apply Res.bind_ev | with_reducible apply State.copyLoop_ev | with_reducible apply Res.clearsRes_ev | with_reducible refine Res.ev_ok ?_ | with_reducible refine Res.ev_trap ?_ | with_reducible refine Res.ev_hold ?_ | with_reducible refine Res.ev_stop ?_ | with_reducible refine ev_next ?_ | with_reducible refine Res.Ev_bind _ _ ?_ (fun _ _ _ => ?_) | with_reducible refine ev_ite3.mpr ⟨fun _ => ?_, fun _ => ?_⟩ | with_reducible refine Res.Ev_ite.mpr ⟨fun _ => ?_, fun _ => ?_⟩ | intro _)

/-! Alloc. -/

theorem State.setRetry_ev {σ₀ s : State} (hev : Evolves σ₀ s) (r : Run) (due : Bool) :
    Evolves σ₀ (State.setRetry s r due) := by
  unfold State.setRetry
  repeat' (first | with_reducible assumption | with_reducible apply State.setCtx_ev)

theorem State.exhausted_ev {σ₀ s : State} (hev : Evolves σ₀ s) (r : Run) (i : Instr) (size : Nat) :
    (State.exhausted s r i size).Ev σ₀ := by
  unfold State.exhausted
  repeat' (first | with_reducible assumption | with_reducible apply State.setRetry_ev | with_reducible apply State.waitOr_ev | with_reducible refine Res.ev_trap ?_ | (split <;> (try dsimp -iota only) <;> try (rename_i hq; obtain ⟨hq1, hq2⟩ := Prod.ext_iff.mp hq; dsimp only at hq2; subst hq2)) | with_reducible apply State.startCycle_ev)

theorem State.takeRegion_ev {σ₀ s : State} (hev : Evolves σ₀ s) (h : Nat) :
    Evolves σ₀ (State.takeRegion s h).2 := by
  unfold State.takeRegion
  repeat' (first | with_reducible assumption | with_reducible apply State.take_ev | with_reducible apply State.setBin_ev | with_reducible apply State.setGl_ev | with_reducible apply State.cyclePolicy_ev | with_reducible refine ev_ite3.mpr ⟨fun _ => ?_, fun _ => ?_⟩ | (split <;> (try dsimp -iota only) <;> try (rename_i hq; obtain ⟨hq1, hq2⟩ := Prod.ext_iff.mp hq; dsimp only at hq2; subst hq2)) | with_reducible apply State.freeNat_ev | with_reducible apply State.takeBin_ev)

theorem State.checked_ev {σ₀ s : State} (hev : Evolves σ₀ s) (r : Run) :
    Evolves σ₀ (State.checked s r) := by
  unfold State.checked
  repeat' (first | with_reducible assumption | with_reducible apply State.setSlot_ev)

theorem State.place_ev {σ₀ s : State} (r : Run) (i : Instr) (size : Nat) (f : Nat → State → Res (BitVec 44)) (hev : Evolves σ₀ s) (hx0 : ∀ x0 x1, Evolves σ₀ x1 → (f x0 x1).Ev σ₀) :
    (State.place s r i size f).Ev σ₀ := by
  unfold State.place
  repeat' (first | with_reducible assumption | with_reducible apply State.checked_ev | with_reducible apply State.adopt_ev | with_reducible apply State.exhausted_ev | with_reducible apply State.setRegs_ev | with_reducible refine Res.ev_ok ?_ | with_reducible refine Res.ev_trap ?_ | with_reducible refine Res.ev_hold ?_ | with_reducible refine Res.ev_stop ?_ | with_reducible refine ev_ite3.mpr ⟨fun _ => ?_, fun _ => ?_⟩ | (split <;> (try dsimp -iota only) <;> try (rename_i hq; obtain ⟨hq1, hq2⟩ := Prod.ext_iff.mp hq; dsimp only at hq2; subst hq2)) | with_reducible apply State.takeRegion_ev | with_reducible apply_assumption)

theorem State.build_ev {σ₀ s : State} (hev : Evolves σ₀ s) (r : Run) (i : Instr) (a : Nat) (ty : Nat) (rd : Nat) (ws : List Word) :
    (State.build s r i a ty rd ws).Ev σ₀ := by
  unfold State.build
  repeat' (first | with_reducible assumption | with_reducible apply State.prepStores_ev | with_reducible apply Res.bind_ev | with_reducible apply State.commitStores_ev | with_reducible apply State.startObj_ev | with_reducible apply State.setRegs_ev | with_reducible apply State.setRetry_ev | with_reducible apply State.setW_ev | with_reducible refine Res.ev_ok ?_ | with_reducible refine Res.Ev_bind _ _ ?_ (fun _ _ _ => ?_) | intro _)

theorem execCons_ev {σ₀ s : State} (hev : Evolves σ₀ s) (p : Nat) (rd : R5) (ra : R5) (rb : R5) :
    OutEv σ₀ (execCons p rd ra rb s) := by
  unfold execCons
  repeat' (first | with_reducible assumption | with_reducible apply State.coreStep_ev | with_reducible apply State.place_ev | with_reducible apply State.build_ev | with_reducible refine Res.ev_ok ?_ | with_reducible refine Res.ev_trap ?_ | with_reducible refine Res.ev_hold ?_ | with_reducible refine Res.ev_stop ?_ | with_reducible refine ev_next ?_ | intro _)

theorem State.giveLarge_ev {σ₀ s : State} (hev : Evolves σ₀ s) (h : Nat) (n : Nat) (size : Nat) (a0 : Nat) (a1 : Nat) :
    Evolves σ₀ (State.giveLarge s h n size a0 a1) := by
  induction a1 generalizing s h n size a0 <;> unfold State.giveLarge <;> repeat' (first | with_reducible assumption | with_reducible apply State.giveBin_ev | with_reducible apply State.setBin_ev | with_reducible refine ev_ite3.mpr ⟨fun _ => ?_, fun _ => ?_⟩ | with_reducible apply_assumption)

theorem State.allocLarge_ev {σ₀ s : State} (hev : Evolves σ₀ s) (r : Run) (i : Instr) (ty : Nat) (n : Nat) (rd : Nat) (hdr : Word) :
    (State.allocLarge s r i ty n rd hdr).Ev σ₀ := by
  unfold State.allocLarge
  dsimp -iota only
  generalize 8 * (n + 1) = size
  generalize (size - 1) / binSize + 1 = k
  split
  · exact Res.ev_hold hev
  · split
    · exact State.exhausted_ev hev _ _ _
    · have h1 := State.freeNat_ev hev
      generalize State.freeNat s = q at h1 ⊢
      obtain ⟨f, t⟩ := q
      dsimp only at h1 ⊢
      generalize pick _ f = o
      cases o with
      | none => exact State.exhausted_ev h1 _ _ _
      | some b =>
        dsimp only
        split
        · exact Res.ev_trap h1
        · generalize hw : State.cyclePolicy _ _ = w
          have h2 : Evolves σ₀ w := by rw [← hw]; exact State.cyclePolicy_ev (State.giveLarge_ev h1 _ _ _ _ _) _
          generalize binSize * b = pa
          exact Res.ev_stop (State.await_ev (State.setRetry_ev (State.agentStore_ev h2 _ _) _ _) _ _)

theorem execAlloc_ev {σ₀ s : State} (hev : Evolves σ₀ s) (p : Nat) (rd : R5) (ra : R5) (ty : BitVec 6) (pin : Bool) (sub : BitVec 8) :
    OutEv σ₀ (execAlloc p rd ra ty pin sub s) := by
  unfold execAlloc
  repeat' (first | with_reducible assumption | with_reducible apply State.coreStep_ev | with_reducible apply orFault_ev | with_reducible apply State.place_ev | with_reducible apply State.build_ev | with_reducible apply State.allocLarge_ev | with_reducible refine Res.ev_trap ?_ | with_reducible refine ev_next ?_ | with_reducible refine Res.Ev_ite.mpr ⟨fun _ => ?_, fun _ => ?_⟩ | intro _)

theorem State.initSlots_ev {σ₀ s : State} (hev : Evolves σ₀ s) (pa : Nat) (ty : Nat) (n : Nat) (a0 : Nat) :
    Evolves σ₀ (State.initSlots s pa ty n a0) := by
  induction a0 generalizing s pa ty n <;> unfold State.initSlots <;> repeat' (first | with_reducible assumption | with_reducible apply State.agentStore_ev | with_reducible apply_assumption)

theorem execLargeInitDone_ev {σ₀ s : State} (hev : Evolves σ₀ s) (scn : Nat) :
    OutEv σ₀ (execLargeInitDone scn s) := by
  unfold execLargeInitDone
  repeat' (first | with_reducible assumption | with_reducible apply State.initSlots_ev | with_reducible apply State.setCtx_ev | with_reducible apply State.allocDone_ev | with_reducible refine ev_next ?_ | split | dsimp -iota only)

/-! Special. -/

theorem State.setLandingWord_ev {σ₀ s : State} (hev : Evolves σ₀ s) (r : Run) (j : Nat) (w : Word) :
    Evolves σ₀ (State.setLandingWord s r j w) := by
  unfold State.setLandingWord
  repeat' (first | with_reducible assumption | with_reducible apply State.setCore_ev | with_reducible apply State.setRegs_ev | with_reducible refine ev_ite3.mpr ⟨fun _ => ?_, fun _ => ?_⟩ | split)

theorem State.lfsr_ev {σ₀ s : State} (hev : Evolves σ₀ s) (p : Nat) :
    Evolves σ₀ (State.lfsr s p).2 := by
  unfold State.lfsr
  repeat' (first | with_reducible assumption | with_reducible apply State.setCore_ev | with_reducible apply State.freeNat_ev)

theorem State.getSpecial_ev {σ₀ s : State} (hev : Evolves σ₀ s) (r : Run) (sel : Nat) :
    Evolves σ₀ (State.getSpecial s r sel).2 := by
  unfold State.getSpecial
  repeat' (first | with_reducible assumption | with_reducible refine ev_ite2.mpr ⟨fun _ => ?_, fun _ => ?_⟩ | with_reducible refine ev_ite3.mpr ⟨fun _ => ?_, fun _ => ?_⟩ | (split <;> (try dsimp -iota only) <;> try (rename_i hq; obtain ⟨hq1, hq2⟩ := Prod.ext_iff.mp hq; dsimp only at hq2; subst hq2)) | with_reducible apply State.stage_ev | with_reducible apply State.lfsr_ev)

theorem execGets_ev {σ₀ s : State} (hev : Evolves σ₀ s) (p : Nat) (rd : R5) (sel : BitVec 8) :
    OutEv σ₀ (execGets p rd sel s) := by
  unfold execGets
  repeat' (first | with_reducible assumption | with_reducible apply State.coreStep_ev | with_reducible apply State.setW_ev | with_reducible refine Res.ev_ok ?_ | with_reducible refine Res.ev_trap ?_ | with_reducible refine Res.ev_hold ?_ | with_reducible refine Res.ev_stop ?_ | with_reducible refine ev_next ?_ | with_reducible refine ev_ite2.mpr ⟨fun _ => ?_, fun _ => ?_⟩ | with_reducible refine ev_ite3.mpr ⟨fun _ => ?_, fun _ => ?_⟩ | (split <;> (try dsimp -iota only) <;> try (rename_i hq; obtain ⟨hq1, hq2⟩ := Prod.ext_iff.mp hq; dsimp only at hq2; subst hq2)) | with_reducible apply State.getSpecial_ev | intro _)

theorem State.satisfied_ev {σ₀ s : State} (hev : Evolves σ₀ s) (r : Run) (v : BitVec 64) :
    OptEv σ₀ (State.satisfied s r v) := by
  unfold State.satisfied
  repeat' (first | with_reducible assumption | with_reducible apply State.setRegs_ev | with_reducible exact ev_none | with_reducible refine ev_some ?_ | with_reducible refine ev_ite3.mpr ⟨fun _ => ?_, fun _ => ?_⟩ | split | simp only [↓ev_mk, evk_eta])

theorem State.beginWait_ev {σ₀ s : State} (hev : Evolves σ₀ s) (r : Run) (v : BitVec 64) :
    Evolves σ₀ (State.beginWait s r v) := by
  unfold State.beginWait
  repeat' (first | with_reducible assumption | with_reducible apply State.setRegs_ev)

theorem State.setWait_ev {σ₀ s : State} (hev : Evolves σ₀ s) (r : Run) (i : Instr) (v : BitVec 64) :
    (State.setWait s r i v).Ev σ₀ := by
  unfold State.setWait
  split
  · rename_i t ht
    exact Res.ev_ok (OptEv.of (State.satisfied_ev hev r v) ht)
  · split
    · exact State.waitOr_ev hev _ _ _
    · exact State.waitOr_ev (State.beginWait_ev hev _ _) _ _ _

theorem State.setSthBase_ev {σ₀ s : State} (hev : Evolves σ₀ s) (r : Run) (v : BitVec 64) :
    Evolves σ₀ (State.setSthBase s r v) := by
  unfold State.setSthBase
  repeat' (first | with_reducible assumption | with_reducible apply State.countRsv_ev | with_reducible apply State.setReg_ev | with_reducible refine ev_ite.mpr ⟨fun _ => ?_, fun _ => ?_⟩ | with_reducible refine ev_ite3.mpr ⟨fun _ => ?_, fun _ => ?_⟩)

theorem State.putSystem_ev {σ₀ s : State} (hev : Evolves σ₀ s) (r : Run) (sel : Nat) (v : BitVec 64) :
    Evolves σ₀ (State.putSystem s r sel v) := by
  unfold State.putSystem
  repeat' (first | with_reducible assumption | with_reducible apply State.countRsv_ev | with_reducible apply State.setSys_ev | with_reducible apply State.setSthBase_ev | with_reducible apply State.setReg_ev | with_reducible apply State.setRegs_ev | with_reducible apply State.setLandingWord_ev | with_reducible apply State.setCore_ev | with_reducible refine ev_ite.mpr ⟨fun _ => ?_, fun _ => ?_⟩ | with_reducible refine ev_ite3.mpr ⟨fun _ => ?_, fun _ => ?_⟩ | with_reducible apply State.stage_ev)

theorem State.setSpecial_ev {σ₀ s : State} (hev : Evolves σ₀ s) (r : Run) (i : Instr) (sel : Nat) (w : Word) :
    (State.setSpecial s r i sel w).Ev σ₀ := by
  unfold State.setSpecial
  repeat' (first | with_reducible assumption | with_reducible apply State.setLandingWord_ev | with_reducible apply orFault_ev | with_reducible apply State.setRegs_ev | with_reducible apply State.setSlot_ev | with_reducible apply State.setWait_ev | with_reducible apply State.putSystem_ev | with_reducible refine Res.ev_ok ?_ | with_reducible refine Res.ev_trap ?_ | with_reducible refine Res.ev_hold ?_ | with_reducible refine Res.ev_stop ?_ | with_reducible refine ev_ite3.mpr ⟨fun _ => ?_, fun _ => ?_⟩ | with_reducible refine Res.Ev_ite.mpr ⟨fun _ => ?_, fun _ => ?_⟩)

theorem execSets_ev {σ₀ s : State} (hev : Evolves σ₀ s) (p : Nat) (sel : BitVec 8) (rd : R5) :
    OutEv σ₀ (execSets p sel rd s) := by
  unfold execSets
  repeat' (first | with_reducible assumption | with_reducible apply State.coreStep_ev | with_reducible apply State.setSpecial_ev | with_reducible refine Res.ev_ok ?_ | with_reducible refine Res.ev_trap ?_ | with_reducible refine Res.ev_hold ?_ | with_reducible refine Res.ev_stop ?_ | with_reducible refine ev_next ?_ | with_reducible refine ev_ite3.mpr ⟨fun _ => ?_, fun _ => ?_⟩ | with_reducible refine Res.Ev_ite.mpr ⟨fun _ => ?_, fun _ => ?_⟩ | intro _)

theorem State.setWf_ev {σ₀ s : State} (hev : Evolves σ₀ s) (r : Run) (b : Bool) :
    Evolves σ₀ (State.setWf s r b) := by
  unfold State.setWf
  repeat' (first | with_reducible assumption | with_reducible apply State.setStatus_ev)

theorem State.windowGet_ev {σ₀ s : State} (hev : Evolves σ₀ s) (r : Run) (i : Instr) (rd : Nat) (sel : Nat) (scn : Nat) :
    (State.windowGet s r i rd sel scn).Ev σ₀ := by
  unfold State.windowGet
  dsimp -iota only
  split
  · exact Res.ev_ok (State.setWf_ev hev _ _)
  · split <;> exact Res.ev_ok (State.setWf_ev (State.setW_ev hev _ _ _) _ _)
  · rename_i desc _
    split
    · exact Res.ev_ok (State.setWf_ev (State.setW_ev hev _ _ _) _ _)
    · have h1 := State.agentLoad_ev hev (descSlot desc (selSlot sel))
      generalize State.agentLoad s (descSlot desc (selSlot sel)) = q at h1 ⊢
      obtain ⟨w, t⟩ := q
      dsimp only at h1 ⊢
      split
      · exact Res.ev_ok (State.setWf_ev (State.setW_ev h1 _ _ _) _ _)
      · refine Res.Ev_bind _ _ (State.coreBarrier_ev _ _ _ _ _ _ h1 (fun _ _ h2 => ?_) fun _ h2 => h2)
          fun _ _ h2 => Res.ev_ok (State.setWf_ev (State.setW_ev h2 _ _ _) _ _)
        exact ev_ite.mpr ⟨fun _ => State.gwrite_ev h2 _ _ _, fun _ => h2⟩

theorem State.countWindow_ev {σ₀ s : State} (hev : Evolves σ₀ s) (refused : Bool) (scn : Nat) (sel : Nat) :
    Evolves σ₀ (State.countWindow s refused scn sel) := by
  unfold State.countWindow
  repeat' (first | with_reducible assumption | with_reducible apply State.countRsv_ev | with_reducible refine ev_ite.mpr ⟨fun _ => ?_, fun _ => ?_⟩ | with_reducible refine ev_ite3.mpr ⟨fun _ => ?_, fun _ => ?_⟩)

theorem State.windowPut_ev {σ₀ s : State} (hev : Evolves σ₀ s) (r : Run) (i : Instr) (sel : Nat) (scn : Nat) (w : Word) :
    (State.windowPut s r i sel scn w).Ev σ₀ := by
  unfold State.windowPut
  dsimp -iota only
  generalize strip _ w = w
  split
  · exact Res.ev_ok (State.setWf_ev hev _ _)
  · split
    · exact Res.ev_ok (State.setWf_ev hev _ _)
    · generalize Regs.selPut _ sel w false = q
      obtain ⟨x, bad⟩ := q
      exact Res.ev_ok (State.setWf_ev (State.alertsDue_ev (State.countWindow_ev (State.setSlot_ev hev _ _) _ _ _) _) _ _)
  · rename_i desc _
    have h1 := State.agentLoad_ev hev (descSlot desc (selSlot sel))
    generalize State.agentLoad s (descSlot desc (selSlot sel)) = q at h1 ⊢
    obtain ⟨old, t⟩ := q
    dsimp only at h1 ⊢
    generalize (if old.type = 0x32 then fixN 0 else old) = old
    split
    · exact Res.ev_ok (State.setWf_ev h1 _ _)
    · generalize Regs.selPut _ sel w false = q
      obtain ⟨x, bad⟩ := q
      dsimp only
      split
      · exact Res.ev_ok (State.setWf_ev (State.alertsDue_ev (State.countWindow_ev
          (State.storeAs_ev h1 _ _ _ _ _ _) _ _ _) _) _ _)
      · generalize (s.ctx scn).hall = h
        have h2 := State.convert_ev h1 (.core r.p) h (x.selWord sel)
        generalize State.convert t (.core r.p) h (x.selWord sel) = y at h2 ⊢
        obtain ⟨f, u⟩ := y
        cases f with
        | good v =>
          exact Res.ev_ok (State.setWf_ev (State.alertsDue_ev (State.countWindow_ev
            (State.storeLogged_ev h2 _ _ _ _ _ _ _) _ _ _) _) _ _)
        | assist k => exact Res.ev_trap h2

theorem execWget_ev {σ₀ s : State} (hev : Evolves σ₀ s) (p : Nat) (rd : R5) (sel : BitVec 8) :
    OutEv σ₀ (execWget p rd sel s) := by
  unfold execWget
  repeat' (first | with_reducible assumption | with_reducible apply State.coreStep_ev | with_reducible apply State.windowGet_ev | with_reducible refine Res.ev_ok ?_ | with_reducible refine Res.ev_trap ?_ | with_reducible refine Res.ev_hold ?_ | with_reducible refine Res.ev_stop ?_ | with_reducible refine ev_next ?_ | with_reducible refine ev_ite3.mpr ⟨fun _ => ?_, fun _ => ?_⟩ | with_reducible refine Res.Ev_ite.mpr ⟨fun _ => ?_, fun _ => ?_⟩ | intro _)

theorem execWput_ev {σ₀ s : State} (hev : Evolves σ₀ s) (p : Nat) (sel : BitVec 8) (rd : R5) :
    OutEv σ₀ (execWput p sel rd s) := by
  unfold execWput
  repeat' (first | with_reducible assumption | with_reducible apply State.coreStep_ev | with_reducible apply State.windowPut_ev | with_reducible refine Res.ev_ok ?_ | with_reducible refine Res.ev_trap ?_ | with_reducible refine Res.ev_hold ?_ | with_reducible refine Res.ev_stop ?_ | with_reducible refine ev_next ?_ | with_reducible refine ev_ite3.mpr ⟨fun _ => ?_, fun _ => ?_⟩ | with_reducible refine Res.Ev_ite.mpr ⟨fun _ => ?_, fun _ => ?_⟩ | intro _)

/-! Tlb. -/

theorem State.tlbWrite_ev {σ₀ s : State} (hev : Evolves σ₀ s) (r : Run) (i : Instr) (w : Word) (n : Nat) :
    (State.tlbWrite s r i w n).Ev σ₀ := by
  unfold State.tlbWrite
  repeat' (first | with_reducible assumption | with_reducible apply State.bumpRf_ev | with_reducible apply State.setCore_ev | with_reducible refine Res.ev_ok ?_ | with_reducible refine Res.ev_trap ?_ | with_reducible refine Res.ev_hold ?_ | with_reducible refine Res.ev_stop ?_ | with_reducible refine ev_ite3.mpr ⟨fun _ => ?_, fun _ => ?_⟩ | with_reducible refine Res.Ev_ite.mpr ⟨fun _ => ?_, fun _ => ?_⟩ | with_reducible apply State.stage_ev)

theorem execTlbwi_ev {σ₀ s : State} (hev : Evolves σ₀ s) (p : Nat) (ra : R5) (rb : R5) :
    OutEv σ₀ (execTlbwi p ra rb s) := by
  unfold execTlbwi
  repeat' (first | with_reducible assumption | with_reducible apply State.coreStep_ev | with_reducible apply orFault_ev | with_reducible apply State.tlbWrite_ev | with_reducible refine Res.ev_ok ?_ | with_reducible refine Res.ev_trap ?_ | with_reducible refine Res.ev_hold ?_ | with_reducible refine Res.ev_stop ?_ | with_reducible refine ev_next ?_ | with_reducible refine ev_ite3.mpr ⟨fun _ => ?_, fun _ => ?_⟩ | with_reducible refine Res.Ev_ite.mpr ⟨fun _ => ?_, fun _ => ?_⟩ | with_reducible apply State.stage_ev | intro _)

theorem execTlbwr_ev {σ₀ s : State} (hev : Evolves σ₀ s) (p : Nat) (ra : R5) :
    OutEv σ₀ (execTlbwr p ra s) := by
  unfold execTlbwr
  repeat' (first | with_reducible assumption | with_reducible apply State.coreStep_ev | with_reducible apply orFault_ev | with_reducible apply State.tlbWrite_ev | with_reducible refine Res.ev_ok ?_ | with_reducible refine Res.ev_trap ?_ | with_reducible refine Res.ev_hold ?_ | with_reducible refine Res.ev_stop ?_ | with_reducible refine ev_next ?_ | with_reducible refine ev_ite3.mpr ⟨fun _ => ?_, fun _ => ?_⟩ | (split <;> (try dsimp -iota only) <;> try (rename_i hq; obtain ⟨hq1, hq2⟩ := Prod.ext_iff.mp hq; dsimp only at hq2; subst hq2)) | with_reducible apply State.stage_ev | with_reducible apply State.lfsr_ev | intro _)

theorem State.walk_ev {σ₀ s : State} (hev : Evolves σ₀ s) (p : Nat) (h : Nat) (low : Bool) (va : BitVec 64) (a : Nat) (lvl : Nat) (a0 : Nat) :
    Evolves σ₀ (State.walk s p h low va a lvl a0).2 := by
  induction a0 generalizing s p h low va a lvl <;> unfold State.walk <;> repeat' (first | with_reducible assumption | with_reducible refine ev_ite2.mpr ⟨fun _ => ?_, fun _ => ?_⟩ | with_reducible refine ev_ite3.mpr ⟨fun _ => ?_, fun _ => ?_⟩ | with_reducible apply State.coreLoad_ev | with_reducible apply_assumption)

theorem execTwalk_ev {σ₀ s : State} (hev : Evolves σ₀ s) (p : Nat) (rd : R5) (ra : R5) :
    OutEv σ₀ (execTwalk p rd ra s) := by
  unfold execTwalk
  repeat' (first | with_reducible assumption | with_reducible apply State.coreStep_ev | with_reducible apply State.asRoutine_ev | with_reducible apply State.setCore_ev | with_reducible apply State.setW_ev | with_reducible refine Res.ev_ok ?_ | with_reducible refine Res.ev_trap ?_ | with_reducible refine Res.ev_hold ?_ | with_reducible refine Res.ev_stop ?_ | with_reducible refine ev_next ?_ | with_reducible refine ev_ite3.mpr ⟨fun _ => ?_, fun _ => ?_⟩ | (split <;> (try dsimp -iota only) <;> try (rename_i hq; obtain ⟨hq1, hq2⟩ := Prod.ext_iff.mp hq; dsimp only at hq2; subst hq2)) | with_reducible apply State.walk_ev | with_reducible apply State.stage_ev | intro _)

theorem State.performStores_ev {σ₀ s : State} (hev : Evolves σ₀ s) (p : Nat) :
    Evolves σ₀ (State.performStores s p) := by
  unfold State.performStores
  repeat' (first | with_reducible assumption | with_reducible apply State.drainAll_ev | with_reducible refine ev_foldl' _ _ ?_ (fun _ _ _ => ?_))

theorem State.tlbiAckOne_ev {σ₀ s : State} (hev : Evolves σ₀ s) (p : Nat) (j : TlbiJob) :
    Evolves σ₀ (State.tlbiAckOne s p j) := by
  unfold State.tlbiAckOne
  repeat' (first | with_reducible assumption | with_reducible apply State.removeOn_ev | with_reducible refine ev_ite3.mpr ⟨fun _ => ?_, fun _ => ?_⟩ | simp only [↓ev_mk, evk_eta])

theorem State.tlbiRetire_ev {σ₀ s : State} (hev : Evolves σ₀ s) :
    Evolves σ₀ (State.tlbiRetire s) := by
  unfold State.tlbiRetire
  repeat' (first | with_reducible assumption | with_reducible apply State.retire_ev | with_reducible refine ev_foldl' _ _ ?_ (fun _ _ _ => ?_) | with_reducible refine ev_ite3.mpr ⟨fun _ => ?_, fun _ => ?_⟩ | split | simp only [↓ev_mk, evk_eta])

theorem execTlbi_ev {σ₀ s : State} (hev : Evolves σ₀ s) (p : Nat) (ra : R5) :
    OutEv σ₀ (execTlbi p ra s) := by
  unfold execTlbi
  repeat' (first | with_reducible assumption | with_reducible apply State.coreStep_ev | with_reducible apply orFault_ev | with_reducible apply State.removeOn_ev | with_reducible refine Res.ev_ok ?_ | with_reducible refine Res.ev_trap ?_ | with_reducible refine Res.ev_hold ?_ | with_reducible refine Res.ev_stop ?_ | with_reducible refine ev_next ?_ | with_reducible refine ev_foldl' _ _ ?_ (fun _ _ _ => ?_) | with_reducible refine ev_ite3.mpr ⟨fun _ => ?_, fun _ => ?_⟩ | with_reducible refine Res.Ev_ite.mpr ⟨fun _ => ?_, fun _ => ?_⟩ | simp only [↓ev_mk, evk_eta] | intro _)

theorem State.tlbiAck_ev {σ₀ s : State} (hev : Evolves σ₀ s) (p : Nat) :
    Evolves σ₀ (State.tlbiAck s p) := by
  unfold State.tlbiAck
  repeat' (first | with_reducible assumption | with_reducible apply State.performStores_ev | with_reducible apply State.tlbiAckOne_ev | with_reducible apply State.tlbiRetire_ev | with_reducible refine ev_foldl' _ _ ?_ (fun _ _ _ => ?_) | with_reducible refine ev_ite.mpr ⟨fun _ => ?_, fun _ => ?_⟩ | with_reducible refine ev_ite3.mpr ⟨fun _ => ?_, fun _ => ?_⟩)

theorem execTlbiAck_ev {σ₀ s : State} (hev : Evolves σ₀ s) (p : Nat) :
    OutEv σ₀ (execTlbiAck p s) := by
  unfold execTlbiAck
  repeat' (first | with_reducible assumption | with_reducible apply State.tlbiAck_ev | with_reducible refine ev_next ?_)

/-! Waits. -/

theorem execWaitp_ev {σ₀ s : State} (hev : Evolves σ₀ s) (p : Nat) (rd : R5) (ra : R5) :
    OutEv σ₀ (execWaitp p rd ra s) := by
  unfold execWaitp
  repeat' (first | with_reducible assumption | with_reducible apply State.coreStep_ev | with_reducible apply orFault_ev | with_reducible apply State.setW_ev | with_reducible apply State.waitOr_ev | with_reducible refine Res.ev_ok ?_ | with_reducible refine Res.ev_trap ?_ | with_reducible refine Res.ev_hold ?_ | with_reducible refine Res.ev_stop ?_ | with_reducible refine ev_next ?_ | with_reducible refine ev_ite3.mpr ⟨fun _ => ?_, fun _ => ?_⟩ | with_reducible refine Res.Ev_ite.mpr ⟨fun _ => ?_, fun _ => ?_⟩ | intro _)

theorem State.itemWords_ev {σ₀ s : State} (hev : Evolves σ₀ s) (r : Run) (w : Word) :
    (State.itemWords s r w).Ev σ₀ := by
  unfold State.itemWords
  repeat' (first | with_reducible assumption | with_reducible apply State.loadWords_ev | with_reducible refine Res.ev_ok ?_ | with_reducible refine Res.ev_trap ?_ | with_reducible refine Res.ev_hold ?_ | with_reducible refine Res.ev_stop ?_)

theorem State.specItem_ev {σ₀ s : State} (hev : Evolves σ₀ s) (r : Run) (w : Word) :
    (State.specItem s r w).Ev σ₀ := by
  unfold State.specItem
  repeat' (first | with_reducible assumption | with_reducible apply orFault_ev | with_reducible apply State.itemWords_ev | with_reducible apply Res.bind_ev | with_reducible refine Res.ev_ok ?_ | with_reducible refine Res.ev_trap ?_ | with_reducible refine Res.ev_hold ?_ | with_reducible refine Res.ev_stop ?_ | with_reducible refine Res.Ev_bind _ _ ?_ (fun _ _ _ => ?_) | with_reducible refine ev_ite3.mpr ⟨fun _ => ?_, fun _ => ?_⟩ | with_reducible refine Res.Ev_ite.mpr ⟨fun _ => ?_, fun _ => ?_⟩ | intro _)

theorem State.setSpeck_ev {σ₀ s : State} (hev : Evolves σ₀ s) (r : Run) (v : Nat) :
    Evolves σ₀ (State.setSpeck s r v) := by
  unfold State.setSpeck
  repeat' (first | with_reducible assumption | with_reducible apply State.setRegs_ev)

theorem State.openSpec_ev {σ₀ s : State} (hev : Evolves σ₀ s) (r : Run) (key : BitVec 64) (item : Option Nat) :
    Evolves σ₀ (State.openSpec s r key item) := by
  unfold State.openSpec
  have h1 := State.freeNat_ev hev
  dsimp -iota only
  generalize State.freeNat s = q at h1 ⊢
  obtain ⟨f, t⟩ := q
  dsimp only at h1 ⊢
  generalize pick _ f = o
  cases o with
  | none => exact h1
  | some i =>
    dsimp only
    refine State.setSpeck_ev ?_ _ _
    generalize hu : State.setGal _ i _ = u
    have h2 : Evolves σ₀ u := by rw [← hu]; refine State.setGal_ev ?_ _ _; exact h1
    cases item with
    | none => exact h2
    | some pa =>
      dsimp only
      split
      · exact h2
      · rename_i v hv
        exact State.setR_ev (OptEv.of (State.takeLine_ev h2 _ _) hv) _ _

theorem State.specPlain_ev {σ₀ s : State} (hev : Evolves σ₀ s) (r : Run) (i : Instr) :
    (State.specPlain s r i).Ev σ₀ := by
  unfold State.specPlain
  repeat' (first | with_reducible assumption | with_reducible apply State.setSpeck_ev | with_reducible refine Res.ev_ok ?_ | with_reducible refine Res.ev_trap ?_ | with_reducible refine Res.ev_hold ?_ | with_reducible refine Res.ev_stop ?_)

theorem State.reopened_ev {σ₀ s : State} (hev : Evolves σ₀ s) (r : Run) :
    Evolves σ₀ (State.reopened s r) := by
  unfold State.reopened
  repeat' (first | with_reducible assumption | with_reducible apply State.setCtx_ev | simp only [↓ev_mk, evk_eta] | dsimp -iota only | intro _ | with_reducible trivial)

theorem State.specCases_ev {σ₀ s : State} (hev : Evolves σ₀ s) (r : Run) (i : Instr) (key : BitVec 64) (item : Word) :
    (State.specCases s r i key item).Ev σ₀ := by
  unfold State.specCases
  repeat' (first | with_reducible assumption | with_reducible apply State.waitOr_ev | with_reducible apply State.reopened_ev | with_reducible apply State.specPlain_ev | with_reducible apply State.openSpec_ev | with_reducible apply State.countStall_ev | with_reducible refine Res.ev_ok ?_ | with_reducible refine Res.ev_hold ?_ | split | dsimp -iota only)

theorem execSpecOpen_ev {σ₀ s : State} (hev : Evolves σ₀ s) (p : Nat) (ra : R5) (rb : R5) :
    OutEv σ₀ (execSpecOpen p ra rb s) := by
  unfold execSpecOpen
  repeat' (first | with_reducible assumption | with_reducible apply State.coreStep_ev | with_reducible apply orFault_ev | with_reducible apply State.specItem_ev | with_reducible apply Res.bind_ev | with_reducible apply State.specCases_ev | with_reducible refine Res.ev_ok ?_ | with_reducible refine Res.ev_trap ?_ | with_reducible refine Res.ev_hold ?_ | with_reducible refine Res.ev_stop ?_ | with_reducible refine ev_next ?_ | with_reducible refine Res.Ev_bind _ _ ?_ (fun _ _ _ => ?_) | intro _)

theorem execSpecClose_ev {σ₀ s : State} (hev : Evolves σ₀ s) (p : Nat) :
    OutEv σ₀ (execSpecClose p s) := by
  unfold execSpecClose
  repeat' (first | with_reducible assumption | with_reducible apply State.coreStep_ev | with_reducible apply State.waitOr_ev | with_reducible refine Res.ev_ok ?_ | with_reducible refine Res.ev_trap ?_ | with_reducible refine Res.ev_hold ?_ | with_reducible refine Res.ev_stop ?_ | with_reducible refine ev_next ?_ | with_reducible refine ev_ite3.mpr ⟨fun _ => ?_, fun _ => ?_⟩ | with_reducible refine Res.Ev_ite.mpr ⟨fun _ => ?_, fun _ => ?_⟩ | intro _)

/-! Events. -/

theorem execIllegalEncoding_ev {σ₀ s : State} (hev : Evolves σ₀ s) (p : Nat) :
    OutEv σ₀ (execIllegalEncoding p s) := by
  unfold execIllegalEncoding
  repeat' (first | with_reducible assumption | with_reducible apply State.deliver_ev | with_reducible apply State.take_ev | with_reducible refine ev_next ?_ | with_reducible refine ev_ite3.mpr ⟨fun _ => ?_, fun _ => ?_⟩ | (split <;> (try dsimp -iota only) <;> try (rename_i hq; obtain ⟨hq1, hq2⟩ := Prod.ext_iff.mp hq; dsimp only at hq2; subst hq2)) | with_reducible apply State.fetchParcels_ev)

theorem execAlertDelivery_ev {σ₀ s : State} (hev : Evolves σ₀ s) (p : Nat) :
    OutEv σ₀ (execAlertDelivery p s) := by
  unfold execAlertDelivery
  repeat' (first | with_reducible assumption | with_reducible apply State.deliver_ev | with_reducible refine ev_next ?_ | split)

theorem State.dispatchTo_ev {σ₀ s : State} (hev : Evolves σ₀ s) (p : Nat) (scn : Nat) :
    Evolves σ₀ (State.dispatchTo s p scn) := by
  unfold State.dispatchTo
  repeat' (first | with_reducible assumption | with_reducible apply State.scanNow_ev | with_reducible apply State.startOn_ev)

theorem execDispatch_ev {σ₀ s : State} (hev : Evolves σ₀ s) (p : Nat) :
    OutEv σ₀ (execDispatch p s) := by
  unfold execDispatch
  repeat' (first | with_reducible assumption | with_reducible apply State.dispatchTo_ev | with_reducible refine ev_next ?_ | with_reducible refine ev_ite3.mpr ⟨fun _ => ?_, fun _ => ?_⟩ | split)

theorem execPreemption_ev {σ₀ s : State} (hev : Evolves σ₀ s) (p : Nat) :
    OutEv σ₀ (execPreemption p s) := by
  unfold execPreemption
  repeat' (first | with_reducible assumption | with_reducible apply State.preempt_ev | with_reducible refine ev_next ?_ | with_reducible refine ev_ite3.mpr ⟨fun _ => ?_, fun _ => ?_⟩ | split)

theorem execQuantumEnd_ev {σ₀ s : State} (hev : Evolves σ₀ s) (p : Nat) :
    OutEv σ₀ (execQuantumEnd p s) := by
  unfold execQuantumEnd
  repeat' (first | with_reducible assumption | with_reducible apply State.preempt_ev | with_reducible refine ev_next ?_ | with_reducible refine ev_ite3.mpr ⟨fun _ => ?_, fun _ => ?_⟩ | split)

theorem execFillOnDemand_ev {σ₀ s : State} (hev : Evolves σ₀ s) :
    OutEv σ₀ (execFillOnDemand s) := by
  unfold execFillOnDemand
  repeat' (first | with_reducible assumption | with_reducible apply State.fillBlocked_ev | with_reducible apply State.fill_ev | with_reducible apply State.setResult_ev | with_reducible refine ev_next ?_ | with_reducible refine ev_foldl' _ _ ?_ (fun _ _ _ => ?_) | with_reducible refine ev_ite3.mpr ⟨fun _ => ?_, fun _ => ?_⟩ | split | dsimp -iota only)

theorem execTimerWake_ev {σ₀ s : State} (hev : Evolves σ₀ s) :
    OutEv σ₀ (execTimerWake s) := by
  unfold execTimerWake
  repeat' (first | with_reducible assumption | with_reducible apply State.wakeAll_ev | with_reducible refine ev_next ?_)

theorem execWatchdog_ev {σ₀ s : State} (hev : Evolves σ₀ s) (h : Nat) :
    OutEv σ₀ (execWatchdog h s) := by
  unfold execWatchdog
  repeat' (first | with_reducible assumption | with_reducible apply State.alertHall_ev | with_reducible refine ev_next ?_ | with_reducible refine ev_ite3.mpr ⟨fun _ => ?_, fun _ => ?_⟩ | split | simp only [↓ev_mk, evk_eta])

theorem execRegisterScan_ev {σ₀ s : State} (hev : Evolves σ₀ s) (hcn : Nat) :
    OutEv σ₀ (execRegisterScan hcn s) := by
  unfold execRegisterScan
  repeat' (first | with_reducible assumption | with_reducible apply State.scanNow_ev | with_reducible refine ev_next ?_)

end Sys2Proof.Machine
end

