-- ==== Sys2Proof/Laws/EvCommands.lean ====
section
/-! SUPPORT. Evolves (Laws/Evolves.lean) for the commands of the units. -/

namespace Sys2Proof.Machine

/-! Manager. -/

theorem hallAnswer_ev {σ₀  : State} (h : Nat) (code : Nat) (x : Nat × State) (hx0 : Evolves σ₀ (x).2) :
    Evolves σ₀ (hallAnswer h code x) := by
  unfold hallAnswer
  repeat' (first | with_reducible assumption | with_reducible apply State.note_ev | with_reducible apply State.event_ev | with_reducible apply State.respondWords_ev)

theorem State.freshShares_ev {σ₀ s : State} (hev : Evolves σ₀ s) (h : Nat) :
    Evolves σ₀ (State.freshShares s h) := by
  unfold State.freshShares
  repeat' (first | with_reducible assumption | with_reducible apply State.resetShares_ev | with_reducible apply State.setShare_ev)

theorem State.mgrCreate_ev {σ₀ s : State} (hev : Evolves σ₀ s) (h : Nat) :
    Evolves σ₀ (State.mgrCreate s h).2 := by
  unfold State.mgrCreate
  repeat' (first | with_reducible assumption | with_reducible apply State.hallCreate_ev | with_reducible apply State.freshShares_ev | with_reducible refine ev_ite2.mpr ⟨fun _ => ?_, fun _ => ?_⟩ | with_reducible refine ev_ite3.mpr ⟨fun _ => ?_, fun _ => ?_⟩)

theorem State.mgrStart_ev {σ₀ s : State} (hev : Evolves σ₀ s) (h : Nat) (first : Option Nat) :
    Evolves σ₀ (State.mgrStart s h first).2 := by
  unfold State.mgrStart
  repeat' (first | with_reducible assumption | with_reducible apply State.hallStart_ev | with_reducible apply State.ctxApply_ev | with_reducible refine ev_ite3.mpr ⟨fun _ => ?_, fun _ => ?_⟩ | split)

theorem State.mgrReset_ev {σ₀ s : State} (hev : Evolves σ₀ s) (h : Nat) (mode : Nat) (grace : Nat) (limit : Nat) :
    Evolves σ₀ (State.mgrReset s h mode grace limit).2 := by
  unfold State.mgrReset
  repeat' (first | with_reducible assumption | with_reducible apply State.setRf_ev | with_reducible apply State.resetGo_ev | with_reducible refine ev_ite2.mpr ⟨fun _ => ?_, fun _ => ?_⟩ | with_reducible refine ev_ite3.mpr ⟨fun _ => ?_, fun _ => ?_⟩)

theorem State.mgrRemove_ev {σ₀ s : State} (hev : Evolves σ₀ s) (h : Nat) :
    Evolves σ₀ (State.mgrRemove s h).2 := by
  unfold State.mgrRemove
  repeat' (first | with_reducible assumption | with_reducible apply State.hallRemove_ev | with_reducible refine ev_ite2.mpr ⟨fun _ => ?_, fun _ => ?_⟩ | with_reducible refine ev_ite3.mpr ⟨fun _ => ?_, fun _ => ?_⟩)

theorem State.shareField_ev {σ₀ s : State} (hev : Evolves σ₀ s) (off : Nat) (hi : Nat) (lo : Nat) (v : Nat) (ok : Bool) :
    Evolves σ₀ (State.shareField s off hi lo v ok).2 := by
  unfold State.shareField
  repeat' (first | with_reducible assumption | with_reducible apply State.commitWrite_ev | with_reducible refine ev_ite2.mpr ⟨fun _ => ?_, fun _ => ?_⟩ | with_reducible refine ev_ite3.mpr ⟨fun _ => ?_, fun _ => ?_⟩)

theorem State.shareContexts_ev {σ₀ s : State} (hev : Evolves σ₀ s) (h : Nat) (v : Nat) (lcn : Nat) (first : Nat) :
    Evolves σ₀ (State.shareContexts s h v lcn first).2 := by
  unfold State.shareContexts
  repeat' (first | with_reducible assumption | with_reducible apply State.slotCmd_ev | with_reducible refine ev_ite2.mpr ⟨fun _ => ?_, fun _ => ?_⟩ | with_reducible refine ev_ite3.mpr ⟨fun _ => ?_, fun _ => ?_⟩)

theorem State.shareCams_ev {σ₀ s : State} (hev : Evolves σ₀ s) (h : Nat) (v : Nat) (g : Nat) :
    Evolves σ₀ (State.shareCams s h v g).2 := by
  unfold State.shareCams
  repeat' (first | with_reducible assumption | with_reducible apply State.dropCams_ev | with_reducible apply State.setRf_ev | with_reducible apply State.shareChanged_ev | with_reducible refine ev_foldl' _ _ ?_ (fun _ _ _ => ?_) | with_reducible refine ev_ite.mpr ⟨fun _ => ?_, fun _ => ?_⟩ | with_reducible refine ev_ite2.mpr ⟨fun _ => ?_, fun _ => ?_⟩ | with_reducible refine ev_ite3.mpr ⟨fun _ => ?_, fun _ => ?_⟩)

theorem State.shareGl_ev {σ₀ s : State} (hev : Evolves σ₀ s) (h : Nat) (hi : Nat) (lo : Nat) (v : Nat) (id : Nat) :
    Evolves σ₀ (State.shareGl s h hi lo v id).2 := by
  unfold State.shareGl
  repeat' (first | with_reducible assumption | with_reducible apply State.setRf_ev | with_reducible apply State.shareChanged_ev | with_reducible refine ev_ite2.mpr ⟨fun _ => ?_, fun _ => ?_⟩ | with_reducible refine ev_ite3.mpr ⟨fun _ => ?_, fun _ => ?_⟩)

theorem State.mgrShare_ev {σ₀ s : State} (hev : Evolves σ₀ s) (h : Nat) (id : Nat) (v : Nat) (lcn : Nat) (first : Nat) :
    Evolves σ₀ (State.mgrShare s h id v lcn first).2 := by
  unfold State.mgrShare
  repeat' (first | with_reducible assumption | with_reducible apply State.setRf_ev | with_reducible apply State.shareChanged_ev | with_reducible refine ev_ite2.mpr ⟨fun _ => ?_, fun _ => ?_⟩ | with_reducible refine ev_ite3.mpr ⟨fun _ => ?_, fun _ => ?_⟩ | with_reducible apply State.shareContexts_ev | with_reducible apply State.shareField_ev | with_reducible apply State.shareGl_ev | with_reducible apply State.shareCams_ev)

theorem State.mgrQuery_ev {σ₀ s : State} (hev : Evolves σ₀ s) (h : Nat) :
    Evolves σ₀ (State.mgrQuery s h) := by
  unfold State.mgrQuery
  repeat' (first | with_reducible assumption | with_reducible apply State.note_ev | with_reducible apply State.event_ev | with_reducible apply State.respondWords_ev | with_reducible refine ev_ite.mpr ⟨fun _ => ?_, fun _ => ?_⟩ | with_reducible refine ev_ite3.mpr ⟨fun _ => ?_, fun _ => ?_⟩)

theorem State.mgrVersion_ev {σ₀ s : State} (hev : Evolves σ₀ s) :
    Evolves σ₀ (State.mgrVersion s) := by
  unfold State.mgrVersion
  repeat' (first | with_reducible assumption | with_reducible apply State.respondWords_ev | with_reducible apply State.freeNat_ev)

theorem State.mgrEventRead_ev {σ₀ s : State} (hev : Evolves σ₀ s) :
    Evolves σ₀ (State.mgrEventRead s) := by
  unfold State.mgrEventRead
  repeat' (first | with_reducible assumption | with_reducible apply State.take_ev | with_reducible apply State.respondWords_ev | simp only [↓ev_mk, evk_eta])

theorem State.mgrSub_ev {σ₀ s : State} (code : Nat) (sub : Nat) (f : State → State) (hev : Evolves σ₀ s) (hx0 : ∀ x0, Evolves σ₀ x0 → Evolves σ₀ (f x0)) :
    Evolves σ₀ (State.mgrSub s code sub f) := by
  unfold State.mgrSub
  refine State.serve_ev _ _ _ hev (fun t ht => ?_)
  split
  · exact hx0 t ht
  · exact ht

theorem State.mgrServiceStatus_ev {σ₀ s : State} (hev : Evolves σ₀ s) :
    Evolves σ₀ (State.mgrServiceStatus s) := by
  unfold State.mgrServiceStatus
  repeat' (first | with_reducible assumption | with_reducible apply State.respondWords_ev | with_reducible apply State.take_ev)

theorem State.mgrSeed_ev {σ₀ s : State} (hev : Evolves σ₀ s) (op : Nat) :
    Evolves σ₀ (State.mgrSeed s op) := by
  unfold State.mgrSeed
  repeat' (first | with_reducible assumption | with_reducible apply State.seedCmd_ev | with_reducible apply State.respondWords_ev)

theorem State.mgrCascStatus_ev {σ₀ s : State} (hev : Evolves σ₀ s) :
    Evolves σ₀ (State.mgrCascStatus s) := by
  unfold State.mgrCascStatus
  repeat' (first | with_reducible assumption | with_reducible apply State.respondWords_ev)

theorem State.mgrCasc_ev {σ₀ s : State} (f : State → State) (hev : Evolves σ₀ s) (hx0 : ∀ x0, Evolves σ₀ x0 → Evolves σ₀ (f x0)) :
    Evolves σ₀ (State.mgrCasc s f) := by
  unfold State.mgrCasc
  repeat' (first | with_reducible assumption | with_reducible apply State.respondWords_ev | with_reducible refine ev_ite.mpr ⟨fun _ => ?_, fun _ => ?_⟩ | with_reducible refine ev_ite3.mpr ⟨fun _ => ?_, fun _ => ?_⟩ | with_reducible apply_assumption)

/-! Commands. -/

theorem State.accessTimeout_ev {σ₀ s : State} (hev : Evolves σ₀ s) (who : Initiator) (off : Nat) (write : Bool) (va : BitVec 64) :
    Evolves σ₀ (State.accessTimeout s who off write va) := by
  unfold State.accessTimeout
  repeat' (first | with_reducible assumption | with_reducible apply State.abandonWrite_ev | with_reducible apply State.take_ev | with_reducible apply State.send_ev | with_reducible refine ev_ite3.mpr ⟨fun _ => ?_, fun _ => ?_⟩ | split | dsimp -iota only | with_reducible apply State.abandoned_ev)

theorem State.stopReqBy_ev {σ₀ s : State} (hev : Evolves σ₀ s) (a0 : StopCause) :
    Evolves σ₀ (State.stopReqBy s a0) := by
  unfold State.stopReqBy
  repeat' (first | with_reducible assumption | with_reducible apply State.stopPinLow_ev | with_reducible apply State.write64_ev | split)

theorem State.ackDrain_ev {σ₀ s : State} (hev : Evolves σ₀ s) (who : Initiator) (h : Nat) :
    Evolves σ₀ (State.ackDrain s who h) := by
  unfold State.ackDrain
  repeat' (first | with_reducible assumption | with_reducible apply State.drainAckWrite_ev | with_reducible apply State.write64_ev | with_reducible refine ev_ite3.mpr ⟨fun _ => ?_, fun _ => ?_⟩ | split)

theorem State.writeReqSeq_ev {σ₀ s : State} (hev : Evolves σ₀ s) (box : Option Nat) (seq : BitVec 16) :
    Evolves σ₀ (State.writeReqSeq s box seq) := by
  unfold State.writeReqSeq
  repeat' (first | with_reducible assumption | with_reducible apply State.writeReg_ev | split)

theorem State.writeRspSeq_ev {σ₀ s : State} (hev : Evolves σ₀ s) (scn : Nat) (box : Option Nat) (seq : BitVec 16) :
    Evolves σ₀ (State.writeRspSeq s scn box seq) := by
  unfold State.writeRspSeq
  repeat' (first | with_reducible assumption | with_reducible apply State.writeReg_ev)

theorem State.pdoMapping_ev {σ₀ s : State} (hev : Evolves σ₀ s) (path : Nat) (index : Nat) (sub : Nat) (v : Nat) :
    Evolves σ₀ (State.pdoMapping s path index sub v) := by
  unfold State.pdoMapping
  repeat' (first | with_reducible assumption | with_reducible apply State.odDirect_ev | with_reducible refine ev_ite.mpr ⟨fun _ => ?_, fun _ => ?_⟩ | with_reducible refine ev_ite3.mpr ⟨fun _ => ?_, fun _ => ?_⟩)

theorem State.keyWrite_ev {σ₀ s : State} (hev : Evolves σ₀ s) (who : Initiator) (key : BitVec 32) (x : Straps) :
    Evolves σ₀ (State.keyWrite s who key x) := by
  unfold State.keyWrite
  repeat' (first | with_reducible assumption | with_reducible apply State.drainAll_ev | with_reducible apply State.resetWrite_ev | with_reducible refine ev_ite.mpr ⟨fun _ => ?_, fun _ => ?_⟩ | with_reducible refine ev_ite3.mpr ⟨fun _ => ?_, fun _ => ?_⟩)

theorem State.jtagAccess_ev {σ₀ s : State} (hev : Evolves σ₀ s) (store : Bool) (pa : Nat) (w : Word) :
    Evolves σ₀ (State.jtagAccess s store pa w) := by
  unfold State.jtagAccess
  repeat' (first | with_reducible assumption | with_reducible apply State.store_ev | with_reducible apply State.agentStore_ev | with_reducible apply State.send_ev | with_reducible apply State.write64_ev | with_reducible refine ev_ite3.mpr ⟨fun _ => ?_, fun _ => ?_⟩ | (split <;> (try dsimp -iota only) <;> try (rename_i hq; obtain ⟨hq1, hq2⟩ := Prod.ext_iff.mp hq; dsimp only at hq2; subst hq2)) | with_reducible apply State.agentLoad_ev | with_reducible apply State.readAfter_ev | with_reducible apply State.freeAt_ev)

theorem State.jtagPort_ev {σ₀ s : State} (hev : Evolves σ₀ s) (op : JtagOp) (pa : Nat) (w : Word) :
    Evolves σ₀ (State.jtagPort s op pa w) := by
  unfold State.jtagPort
  repeat' (first | with_reducible assumption | with_reducible apply State.load_ev | with_reducible apply State.jtagAccess_ev | with_reducible apply State.store_ev | with_reducible apply State.jtagScan_ev | split)

/-! CmdCascade. -/

theorem execLinkTrained_ev {σ₀ s : State} (hev : Evolves σ₀ s) (closed : Bool) :
    OutEv σ₀ (execLinkTrained closed s) := by
  unfold execLinkTrained
  repeat' (first | with_reducible assumption | with_reducible apply State.linkTrained_ev | with_reducible refine ev_next ?_)

theorem execSyncSend_ev {σ₀ s : State} (hev : Evolves σ₀ s) :
    OutEv σ₀ (execSyncSend s) := by
  unfold execSyncSend
  repeat' (first | with_reducible assumption | with_reducible apply State.syncSend_ev | with_reducible refine ev_next ?_)

theorem execSyncCell_ev {σ₀ s : State} (hev : Evolves σ₀ s) (src : Arrival) (epoch : Nat) (time : Nat) (path : Nat) (join : List Nat) :
    OutEv σ₀ (execSyncCell src epoch time path join s) := by
  unfold execSyncCell
  repeat' (first | with_reducible assumption | with_reducible apply State.syncCell_ev | with_reducible refine ev_next ?_ | dsimp -iota only | with_reducible trivial)

theorem execLinkDelayMeasure_ev {σ₀ s : State} (hev : Evolves σ₀ s) (port : Nat) (ns : Nat) :
    OutEv σ₀ (execLinkDelayMeasure port ns s) := by
  unfold execLinkDelayMeasure
  repeat' (first | with_reducible assumption | with_reducible apply State.linkDelay_ev | with_reducible refine ev_next ?_)

theorem execSyncLoss_ev {σ₀ s : State} (hev : Evolves σ₀ s) :
    OutEv σ₀ (execSyncLoss s) := by
  unfold execSyncLoss
  repeat' (first | with_reducible assumption | with_reducible apply State.syncLoss_ev | with_reducible refine ev_next ?_)

theorem execJoinComplete_ev {σ₀ s : State} (hev : Evolves σ₀ s) :
    OutEv σ₀ (execJoinComplete s) := by
  unfold execJoinComplete
  repeat' (first | with_reducible assumption | with_reducible apply State.joinComplete_ev | with_reducible refine ev_next ?_)

theorem execCascJoinWrite_ev {σ₀ s : State} (hev : Evolves σ₀ s) (who : Initiator) (v : BitVec 64) :
    OutEv σ₀ (execCascJoinWrite who v s) := by
  unfold execCascJoinWrite
  repeat' (first | with_reducible assumption | with_reducible apply State.write64_ev | with_reducible refine ev_next ?_)

theorem execAxisSampleCell_ev {σ₀ s : State} (hev : Evolves σ₀ s) (port : Nat) (n : Nat) (src : Nat) (a : Nat) (pos : BitVec 64) (vel : BitVec 64) (acc : BitVec 64) (time : BitVec 64) (flags : SampleFlags) :
    OutEv σ₀ (execAxisSampleCell port n src a pos vel acc time flags s) := by
  unfold execAxisSampleCell
  repeat' (first | with_reducible assumption | with_reducible apply State.axisSample_ev | with_reducible refine ev_next ?_ | dsimp -iota only | with_reducible trivial)

theorem execRemoteAxisStale_ev {σ₀ s : State} (hev : Evolves σ₀ s) (x : Nat) :
    OutEv σ₀ (execRemoteAxisStale x s) := by
  unfold execRemoteAxisStale
  repeat' (first | with_reducible assumption | with_reducible apply State.axisStale_ev | with_reducible refine ev_next ?_)

theorem execCascAxmapWrite_ev {σ₀ s : State} (hev : Evolves σ₀ s) (who : Initiator) (x : Nat) (v : BitVec 64) :
    OutEv σ₀ (execCascAxmapWrite who x v s) := by
  unfold execCascAxmapWrite
  repeat' (first | with_reducible assumption | with_reducible apply State.write64_ev | with_reducible refine ev_next ?_)

theorem execHandoffSend_ev {σ₀ s : State} (hev : Evolves σ₀ s) (who : Initiator) (tail : Nat) :
    OutEv σ₀ (execHandoffSend who tail s) := by
  unfold execHandoffSend
  repeat' (first | with_reducible assumption | with_reducible apply State.write64_ev | with_reducible refine ev_next ?_)

theorem execHandoffReceive_ev {σ₀ s : State} (hev : Evolves σ₀ s) (port : Nat) (n : Nat) (cell : List Word) :
    OutEv σ₀ (execHandoffReceive port n cell s) := by
  unfold execHandoffReceive
  repeat' (first | with_reducible assumption | with_reducible apply State.handoffReceive_ev | with_reducible apply State.cell_ev | with_reducible refine ev_next ?_)

theorem execHandoffStatus_ev {σ₀ s : State} (hev : Evolves σ₀ s) (i : Nat) (answer : Option HandAnswer) :
    OutEv σ₀ (execHandoffStatus i answer s) := by
  unfold execHandoffStatus
  repeat' (first | with_reducible assumption | with_reducible apply State.handoffStatus_ev | with_reducible refine ev_next ?_ | dsimp -iota only | with_reducible trivial)

theorem execPromote_ev {σ₀ s : State} (hev : Evolves σ₀ s) (who : Initiator) :
    OutEv σ₀ (execPromote who s) := by
  unfold execPromote
  repeat' (first | with_reducible assumption | with_reducible apply State.write64_ev | with_reducible refine ev_next ?_)

theorem execRetime_ev {σ₀ s : State} (hev : Evolves σ₀ s) (who : Initiator) :
    OutEv σ₀ (execRetime who s) := by
  unfold execRetime
  repeat' (first | with_reducible assumption | with_reducible apply State.write64_ev | with_reducible refine ev_next ?_)

theorem execRejoin_ev {σ₀ s : State} (hev : Evolves σ₀ s) (who : Initiator) :
    OutEv σ₀ (execRejoin who s) := by
  unfold execRejoin
  repeat' (first | with_reducible assumption | with_reducible apply State.write64_ev | with_reducible refine ev_next ?_)

theorem execRingBreak_ev {σ₀ s : State} (hev : Evolves σ₀ s) (port : Nat) :
    OutEv σ₀ (execRingBreak port s) := by
  unfold execRingBreak
  repeat' (first | with_reducible assumption | with_reducible apply State.cascBreak_ev | with_reducible refine ev_next ?_)

theorem execJoinAnnouncement_ev {σ₀ s : State} (hev : Evolves σ₀ s) (src : Arrival) (join : List Nat) :
    OutEv σ₀ (execJoinAnnouncement src join s) := by
  unfold execJoinAnnouncement
  repeat' (first | with_reducible assumption | with_reducible apply State.joinAnnouncement_ev | with_reducible refine ev_next ?_ | dsimp -iota only | with_reducible trivial)

/-! CmdControl. -/

theorem execFill_ev {σ₀ s : State} (hev : Evolves σ₀ s) (who : Initiator) (scn : Nat) (arg : Nat) :
    OutEv σ₀ (execFill who scn arg s) := by
  unfold execFill
  repeat' (first | with_reducible assumption | with_reducible apply State.write64_ev | with_reducible refine ev_next ?_)

theorem execSpill_ev {σ₀ s : State} (hev : Evolves σ₀ s) (who : Initiator) (scn : Nat) :
    OutEv σ₀ (execSpill who scn s) := by
  unfold execSpill
  repeat' (first | with_reducible assumption | with_reducible apply State.write64_ev | with_reducible refine ev_next ?_)

theorem execPark_ev {σ₀ s : State} (hev : Evolves σ₀ s) (who : Initiator) (scn : Nat) :
    OutEv σ₀ (execPark who scn s) := by
  unfold execPark
  repeat' (first | with_reducible assumption | with_reducible apply State.write64_ev | with_reducible refine ev_next ?_)

theorem execResume_ev {σ₀ s : State} (hev : Evolves σ₀ s) (who : Initiator) (scn : Nat) :
    OutEv σ₀ (execResume who scn s) := by
  unfold execResume
  repeat' (first | with_reducible assumption | with_reducible apply State.write64_ev | with_reducible refine ev_next ?_)

theorem execSetprio_ev {σ₀ s : State} (hev : Evolves σ₀ s) (who : Initiator) (scn : Nat) (prio : Nat) :
    OutEv σ₀ (execSetprio who scn prio s) := by
  unfold execSetprio
  repeat' (first | with_reducible assumption | with_reducible apply State.write64_ev | with_reducible refine ev_next ?_)

theorem execPost_ev {σ₀ s : State} (hev : Evolves σ₀ s) (who : Initiator) (scn : Nat) (bits : Nat) :
    OutEv σ₀ (execPost who scn bits s) := by
  unfold execPost
  repeat' (first | with_reducible assumption | with_reducible apply State.write64_ev | with_reducible refine ev_next ?_)

theorem execCancel_ev {σ₀ s : State} (hev : Evolves σ₀ s) (who : Initiator) (scn : Nat) :
    OutEv σ₀ (execCancel who scn s) := by
  unfold execCancel
  repeat' (first | with_reducible assumption | with_reducible apply State.write64_ev | with_reducible refine ev_next ?_)

theorem execCreate_ev {σ₀ s : State} (hev : Evolves σ₀ s) (who : Initiator) (scn : Nat) :
    OutEv σ₀ (execCreate who scn s) := by
  unfold execCreate
  repeat' (first | with_reducible assumption | with_reducible apply State.write64_ev | with_reducible refine ev_next ?_)

theorem execRetire_ev {σ₀ s : State} (hev : Evolves σ₀ s) (who : Initiator) (scn : Nat) :
    OutEv σ₀ (execRetire who scn s) := by
  unfold execRetire
  repeat' (first | with_reducible assumption | with_reducible apply State.write64_ev | with_reducible refine ev_next ?_)

theorem execAlertRouteWrite_ev {σ₀ s : State} (hev : Evolves σ₀ s) (who : Initiator) (h : Nat) (v : BitVec 64) :
    OutEv σ₀ (execAlertRouteWrite who h v s) := by
  unfold execAlertRouteWrite
  repeat' (first | with_reducible assumption | with_reducible apply State.write64_ev | with_reducible refine ev_next ?_)

theorem execWatchdogKick_ev {σ₀ s : State} (hev : Evolves σ₀ s) (who : Initiator) (h : Nat) :
    OutEv σ₀ (execWatchdogKick who h s) := by
  unfold execWatchdogKick
  repeat' (first | with_reducible assumption | with_reducible apply State.write64_ev | with_reducible refine ev_next ?_)

theorem execAccessTimeout_ev {σ₀ s : State} (hev : Evolves σ₀ s) (who : Initiator) (off : Nat) (write : Bool) (va : BitVec 64) :
    OutEv σ₀ (execAccessTimeout who off write va s) := by
  unfold execAccessTimeout
  repeat' (first | with_reducible assumption | with_reducible apply State.accessTimeout_ev | with_reducible refine ev_next ?_)

theorem execRegisterWrite_ev {σ₀ s : State} (hev : Evolves σ₀ s) (who : Initiator) (off : Nat) (mask : BitVec 64) (v : BitVec 64) :
    OutEv σ₀ (execRegisterWrite who off mask v s) := by
  unfold execRegisterWrite
  repeat' (first | with_reducible assumption | with_reducible apply State.writeReg_ev | with_reducible refine ev_next ?_)

theorem execPatchBegin_ev {σ₀ s : State} (hev : Evolves σ₀ s) (who : Initiator) :
    OutEv σ₀ (execPatchBegin who s) := by
  unfold execPatchBegin
  repeat' (first | with_reducible assumption | with_reducible apply State.write64_ev | with_reducible refine ev_next ?_)

theorem execPatchData_ev {σ₀ s : State} (hev : Evolves σ₀ s) (who : Initiator) (v : BitVec 64) :
    OutEv σ₀ (execPatchData who v s) := by
  unfold execPatchData
  repeat' (first | with_reducible assumption | with_reducible apply State.write64_ev | with_reducible refine ev_next ?_)

theorem execPatchCheck_ev {σ₀ s : State} (hev : Evolves σ₀ s) (who : Initiator) :
    OutEv σ₀ (execPatchCheck who s) := by
  unfold execPatchCheck
  repeat' (first | with_reducible assumption | with_reducible apply State.write64_ev | with_reducible refine ev_next ?_)

theorem execPatchApply_ev {σ₀ s : State} (hev : Evolves σ₀ s) (who : Initiator) :
    OutEv σ₀ (execPatchApply who s) := by
  unfold execPatchApply
  repeat' (first | with_reducible assumption | with_reducible apply State.write64_ev | with_reducible refine ev_next ?_)

theorem execPatchWeChange_ev {σ₀ s : State} (hev : Evolves σ₀ s) (level : Bool) :
    OutEv σ₀ (execPatchWeChange level s) := by
  unfold execPatchWeChange
  repeat' (first | with_reducible assumption | with_reducible apply State.setPatchWe_ev | with_reducible refine ev_next ?_)

theorem execPatchCoreSwitch_ev {σ₀ s : State} (hev : Evolves σ₀ s) (p : Nat) :
    OutEv σ₀ (execPatchCoreSwitch p s) := by
  unfold execPatchCoreSwitch
  repeat' (first | with_reducible assumption | with_reducible apply State.patchCore_ev | with_reducible apply State.announceLevel_ev | with_reducible apply State.releaseWrites_ev | with_reducible refine ev_next ?_)

theorem execCribDisable_ev {σ₀ s : State} (hev : Evolves σ₀ s) (p : Nat) :
    OutEv σ₀ (execCribDisable p s) := by
  unfold execCribDisable
  repeat' (first | with_reducible assumption | with_reducible apply State.cribDisable_ev | with_reducible refine ev_next ?_)

theorem execCribEnable_ev {σ₀ s : State} (hev : Evolves σ₀ s) (p : Nat) :
    OutEv σ₀ (execCribEnable p s) := by
  unfold execCribEnable
  repeat' (first | with_reducible assumption | with_reducible apply State.cribEnable_ev | with_reducible refine ev_next ?_)

theorem execMaintGo_ev {σ₀ s : State} (hev : Evolves σ₀ s) (who : Initiator) (p : Nat) (op : Nat) (irq : Bool) :
    OutEv σ₀ (execMaintGo who p op irq s) := by
  unfold execMaintGo
  repeat' (first | with_reducible assumption | with_reducible apply State.write64_ev | with_reducible refine ev_next ?_)

theorem execMaintDone_ev {σ₀ s : State} (hev : Evolves σ₀ s) (p : Nat) :
    OutEv σ₀ (execMaintDone p s) := by
  unfold execMaintDone
  repeat' (first | with_reducible assumption | with_reducible apply State.maintDone_ev | with_reducible refine ev_next ?_)

theorem execScrubRead_ev {σ₀ s : State} (hev : Evolves σ₀ s) :
    OutEv σ₀ (execScrubRead s) := by
  unfold execScrubRead
  repeat' (first | with_reducible assumption | with_reducible apply State.scrubRead_ev | with_reducible refine ev_next ?_)

theorem execMemInj_ev {σ₀ s : State} (hev : Evolves σ₀ s) :
    OutEv σ₀ (execMemInj s) := by
  unfold execMemInj
  repeat' (first | with_reducible assumption | with_reducible apply State.memInject_ev | with_reducible refine ev_next ?_)

/-! CmdDict. -/

theorem execCommitImmediate_ev {σ₀ s : State} (hev : Evolves σ₀ s) (path : Nat) :
    OutEv σ₀ (execCommitImmediate path s) := by
  unfold execCommitImmediate
  repeat' (first | with_reducible assumption | with_reducible apply State.odDirect_ev | with_reducible refine ev_next ?_)

theorem execCommitNextCycle_ev {σ₀ s : State} (hev : Evolves σ₀ s) (path : Nat) :
    OutEv σ₀ (execCommitNextCycle path s) := by
  unfold execCommitNextCycle
  repeat' (first | with_reducible assumption | with_reducible apply State.odDirect_ev | with_reducible refine ev_next ?_)

theorem execCommitNextPitch_ev {σ₀ s : State} (hev : Evolves σ₀ s) (path : Nat) :
    OutEv σ₀ (execCommitNextPitch path s) := by
  unfold execCommitNextPitch
  repeat' (first | with_reducible assumption | with_reducible apply State.odDirect_ev | with_reducible refine ev_next ?_)

theorem execDiscard_ev {σ₀ s : State} (hev : Evolves σ₀ s) (path : Nat) :
    OutEv σ₀ (execDiscard path s) := by
  unfold execDiscard
  repeat' (first | with_reducible assumption | with_reducible apply State.odDirect_ev | with_reducible refine ev_next ?_)

theorem execCommitBoundary_ev {σ₀ s : State} (hev : Evolves σ₀ s) :
    OutEv σ₀ (execCommitBoundary s) := by
  unfold execCommitBoundary
  repeat' (first | with_reducible assumption | with_reducible apply State.commitBoundary_ev | with_reducible refine ev_next ?_)

theorem execTransitionStep_ev {σ₀ s : State} (hev : Evolves σ₀ s) (path : Nat) :
    OutEv σ₀ (execTransitionStep path s) := by
  unfold execTransitionStep
  repeat' (first | with_reducible assumption | with_reducible apply State.transitionStep_ev | with_reducible refine ev_next ?_)

theorem execStoreParameters_ev {σ₀ s : State} (hev : Evolves σ₀ s) (path : Nat) (sig : Nat) :
    OutEv σ₀ (execStoreParameters path sig s) := by
  unfold execStoreParameters
  repeat' (first | with_reducible assumption | with_reducible apply State.odDirect_ev | with_reducible refine ev_next ?_)

theorem execRestoreDefaults_ev {σ₀ s : State} (hev : Evolves σ₀ s) (path : Nat) (sig : Nat) :
    OutEv σ₀ (execRestoreDefaults path sig s) := by
  unfold execRestoreDefaults
  repeat' (first | with_reducible assumption | with_reducible apply State.odDirect_ev | with_reducible refine ev_next ?_)

theorem execRestoreCalibration_ev {σ₀ s : State} (hev : Evolves σ₀ s) (path : Nat) (sig : Nat) :
    OutEv σ₀ (execRestoreCalibration path sig s) := by
  unfold execRestoreCalibration
  repeat' (first | with_reducible assumption | with_reducible apply State.odDirect_ev | with_reducible refine ev_next ?_)

theorem execStopObject_ev {σ₀ s : State} (hev : Evolves σ₀ s) (path : Nat) (v : Nat) :
    OutEv σ₀ (execStopObject path v s) := by
  unfold execStopObject
  repeat' (first | with_reducible assumption | with_reducible apply State.odDirect_ev | with_reducible refine ev_next ?_)

theorem execEsmRequest_ev {σ₀ s : State} (hev : Evolves σ₀ s) (path : Nat) (v : Nat) :
    OutEv σ₀ (execEsmRequest path v s) := by
  unfold execEsmRequest
  repeat' (first | with_reducible assumption | with_reducible apply State.odDirect_ev | with_reducible refine ev_next ?_)

theorem execClearEmergency_ev {σ₀ s : State} (hev : Evolves σ₀ s) (path : Nat) (v : Nat) :
    OutEv σ₀ (execClearEmergency path v s) := by
  unfold execClearEmergency
  repeat' (first | with_reducible assumption | with_reducible apply State.odDirect_ev | with_reducible refine ev_next ?_)

theorem execClearOverride_ev {σ₀ s : State} (hev : Evolves σ₀ s) (path : Nat) (j : Nat) (v : Nat) :
    OutEv σ₀ (execClearOverride path j v s) := by
  unfold execClearOverride
  repeat' (first | with_reducible assumption | with_reducible apply State.odDirect_ev | with_reducible refine ev_next ?_)

theorem execPatchUnlock_ev {σ₀ s : State} (hev : Evolves σ₀ s) (path : Nat) (v : Nat) :
    OutEv σ₀ (execPatchUnlock path v s) := by
  unfold execPatchUnlock
  repeat' (first | with_reducible assumption | with_reducible apply State.odDirect_ev | with_reducible refine ev_next ?_)

theorem execJtagUnlock_ev {σ₀ s : State} (hev : Evolves σ₀ s) (path : Nat) (v : Nat) :
    OutEv σ₀ (execJtagUnlock path v s) := by
  unfold execJtagUnlock
  repeat' (first | with_reducible assumption | with_reducible apply State.odDirect_ev | with_reducible refine ev_next ?_)

theorem execPdoMapping_ev {σ₀ s : State} (hev : Evolves σ₀ s) (path : Nat) (index : Nat) (sub : Nat) (v : Nat) :
    OutEv σ₀ (execPdoMapping path index sub v s) := by
  unfold execPdoMapping
  repeat' (first | with_reducible assumption | with_reducible apply State.pdoMapping_ev | with_reducible refine ev_next ?_)

theorem execCommitTimeout_ev {σ₀ s : State} (hev : Evolves σ₀ s) (path : Nat) :
    OutEv σ₀ (execCommitTimeout path s) := by
  unfold execCommitTimeout
  repeat' (first | with_reducible assumption | with_reducible apply State.commitTimeout_ev | with_reducible refine ev_next ?_)

/-! CmdGallery. -/

theorem execSpecCheck_ev {σ₀ s : State} (hev : Evolves σ₀ s) :
    OutEv σ₀ (execSpecCheck s) := by
  unfold execSpecCheck
  repeat' (first | with_reducible assumption | with_reducible apply State.specCheck_ev | with_reducible refine ev_next ?_)

theorem execAbandon_ev {σ₀ s : State} (hev : Evolves σ₀ s) (who : Initiator) (speck : BitVec 32) :
    OutEv σ₀ (execAbandon who speck s) := by
  unfold execAbandon
  repeat' (first | with_reducible assumption | with_reducible apply State.write64_ev | with_reducible refine ev_next ?_)

theorem execRemoteTimeout_ev {σ₀ s : State} (hev : Evolves σ₀ s) :
    OutEv σ₀ (execRemoteTimeout s) := by
  unfold execRemoteTimeout
  repeat' (first | with_reducible assumption | with_reducible apply State.remoteTimeout_ev | with_reducible refine ev_next ?_)

theorem execMirrorEnable_ev {σ₀ s : State} (hev : Evolves σ₀ s) (who : Initiator) (h : Nat) (base : BitVec 29) :
    OutEv σ₀ (execMirrorEnable who h base s) := by
  unfold execMirrorEnable
  repeat' (first | with_reducible assumption | with_reducible apply State.write64_ev | with_reducible refine ev_next ?_)

/-! CmdGranary. -/

theorem execAssignRoot_ev {σ₀ s : State} (hev : Evolves σ₀ s) (who : Initiator) (h : Nat) (count : Nat) (any : Bool) (bin : Nat) :
    OutEv σ₀ (execAssignRoot who h count any bin s) := by
  unfold execAssignRoot
  repeat' (first | with_reducible assumption | with_reducible apply State.write64_ev | with_reducible refine ev_next ?_)

theorem execAssignPlain_ev {σ₀ s : State} (hev : Evolves σ₀ s) (who : Initiator) (h : Nat) (count : Nat) (any : Bool) (bin : Nat) :
    OutEv σ₀ (execAssignPlain who h count any bin s) := by
  unfold execAssignPlain
  repeat' (first | with_reducible assumption | with_reducible apply State.write64_ev | with_reducible refine ev_next ?_)

theorem execRelease_ev {σ₀ s : State} (hev : Evolves σ₀ s) (who : Initiator) (h : Nat) (count : Nat) (bin : Nat) :
    OutEv σ₀ (execRelease who h count bin s) := by
  unfold execRelease
  repeat' (first | with_reducible assumption | with_reducible apply State.write64_ev | with_reducible refine ev_next ?_)

theorem execCycleYoung_ev {σ₀ s : State} (hev : Evolves σ₀ s) (who : Initiator) (h : Nat) :
    OutEv σ₀ (execCycleYoung who h s) := by
  unfold execCycleYoung
  repeat' (first | with_reducible assumption | with_reducible apply State.write64_ev | with_reducible refine ev_next ?_)

theorem execCycleFull_ev {σ₀ s : State} (hev : Evolves σ₀ s) (who : Initiator) (h : Nat) :
    OutEv σ₀ (execCycleFull who h s) := by
  unfold execCycleFull
  repeat' (first | with_reducible assumption | with_reducible apply State.write64_ev | with_reducible refine ev_next ?_)

theorem execArmAck_ev {σ₀ s : State} (hev : Evolves σ₀ s) (p : Nat) (h : Nat) :
    OutEv σ₀ (execArmAck p h s) := by
  unfold execArmAck
  repeat' (first | with_reducible assumption | with_reducible apply State.ackArm_ev | with_reducible refine ev_next ?_)

theorem execFlip_ev {σ₀ s : State} (hev : Evolves σ₀ s) (p : Nat) (h : Nat) :
    OutEv σ₀ (execFlip p h s) := by
  unfold execFlip
  repeat' (first | with_reducible assumption | with_reducible apply State.flipCore_ev | with_reducible refine ev_next ?_)

theorem execGleanerTrace_ev {σ₀ s : State} (hev : Evolves σ₀ s) (h : Nat) :
    OutEv σ₀ (execGleanerTrace h s) := by
  unfold execGleanerTrace
  repeat' (first | with_reducible assumption | with_reducible apply State.traceStep_ev | with_reducible refine ev_next ?_)

theorem execFinish_ev {σ₀ s : State} (hev : Evolves σ₀ s) (h : Nat) :
    OutEv σ₀ (execFinish h s) := by
  unfold execFinish
  repeat' (first | with_reducible assumption | with_reducible apply State.finishCycle_ev | with_reducible refine ev_next ?_)

/-! CmdHall. -/

theorem execHallCtrlCreate_ev {σ₀ s : State} (hev : Evolves σ₀ s) (who : Initiator) (h : Nat) :
    OutEv σ₀ (execHallCtrlCreate who h s) := by
  unfold execHallCtrlCreate
  repeat' (first | with_reducible assumption | with_reducible apply State.write64_ev | with_reducible refine ev_next ?_)

theorem execHallCtrlStart_ev {σ₀ s : State} (hev : Evolves σ₀ s) (who : Initiator) (h : Nat) :
    OutEv σ₀ (execHallCtrlStart who h s) := by
  unfold execHallCtrlStart
  repeat' (first | with_reducible assumption | with_reducible apply State.write64_ev | with_reducible refine ev_next ?_)

theorem execHallCtrlRemove_ev {σ₀ s : State} (hev : Evolves σ₀ s) (who : Initiator) (h : Nat) :
    OutEv σ₀ (execHallCtrlRemove who h s) := by
  unfold execHallCtrlRemove
  repeat' (first | with_reducible assumption | with_reducible apply State.write64_ev | with_reducible refine ev_next ?_)

theorem execHallSlotCmd_ev {σ₀ s : State} (hev : Evolves σ₀ s) (who : Initiator) (lcn : Nat) (first : Nat) (count : Nat) (h : Nat) :
    OutEv σ₀ (execHallSlotCmd who lcn first count h s) := by
  unfold execHallSlotCmd
  repeat' (first | with_reducible assumption | with_reducible apply State.write64_ev | with_reducible refine ev_next ?_)

theorem execHallDevmap_ev {σ₀ s : State} (hev : Evolves σ₀ s) (who : Initiator) (h : Nat) (j : Nat) (v : BitVec 64) :
    OutEv σ₀ (execHallDevmap who h j v s) := by
  unfold execHallDevmap
  repeat' (first | with_reducible assumption | with_reducible apply State.write64_ev | with_reducible refine ev_next ?_)

theorem execHallResetGo_ev {σ₀ s : State} (hev : Evolves σ₀ s) (who : Initiator) (h : Nat) (squash : Bool) (grace : Nat) (limit : Nat) :
    OutEv σ₀ (execHallResetGo who h squash grace limit s) := by
  unfold execHallResetGo
  repeat' (first | with_reducible assumption | with_reducible apply State.write64_ev | with_reducible refine ev_next ?_)

theorem execHallDrainAck_ev {σ₀ s : State} (hev : Evolves σ₀ s) (who : Initiator) (h : Nat) :
    OutEv σ₀ (execHallDrainAck who h s) := by
  unfold execHallDrainAck
  repeat' (first | with_reducible assumption | with_reducible apply State.ackDrain_ev | with_reducible refine ev_next ?_)

theorem execGraceEnd_ev {σ₀ s : State} (hev : Evolves σ₀ s) (h : Nat) :
    OutEv σ₀ (execGraceEnd h s) := by
  unfold execGraceEnd
  repeat' (first | with_reducible assumption | with_reducible apply State.graceEnd_ev | with_reducible refine ev_next ?_)

theorem execDrainLimitEnd_ev {σ₀ s : State} (hev : Evolves σ₀ s) (h : Nat) :
    OutEv σ₀ (execDrainLimitEnd h s) := by
  unfold execDrainLimitEnd
  repeat' (first | with_reducible assumption | with_reducible apply State.drainLimitEnd_ev | with_reducible refine ev_next ?_)

theorem State.drainHall_ev {σ₀ s : State} (hev : Evolves σ₀ s) (h : Nat) :
    Evolves σ₀ (State.drainHall s h) := by
  unfold State.drainHall
  repeat' (first | with_reducible assumption | with_reducible apply State.drainAll_ev | with_reducible refine ev_foldl' _ _ ?_ (fun _ _ _ => ?_) | dsimp -iota only | intro _ | with_reducible trivial)

theorem execHallResetDone_ev {σ₀ s : State} (hev : Evolves σ₀ s) (h : Nat) :
    OutEv σ₀ (execHallResetDone h s) := by
  unfold execHallResetDone
  repeat' (first | with_reducible assumption | with_reducible apply State.drainHall_ev | with_reducible apply State.hallResetDone_ev | with_reducible refine ev_next ?_ | with_reducible refine ev_ite.mpr ⟨fun _ => ?_, fun _ => ?_⟩)

theorem execFlr_ev {σ₀ s : State} (hev : Evolves σ₀ s) (h : Nat) :
    OutEv σ₀ (execFlr h s) := by
  unfold execFlr
  repeat' (first | with_reducible assumption | with_reducible apply State.flr_ev | with_reducible refine ev_next ?_)

theorem execVfEnableWrite_ev {σ₀ s : State} (hev : Evolves σ₀ s) (enable : Bool) (num : Nat) :
    OutEv σ₀ (execVfEnableWrite enable num s) := by
  unfold execVfEnableWrite
  repeat' (first | with_reducible assumption | with_reducible apply State.vfWrite_ev | with_reducible refine ev_next ?_ | with_reducible refine ev_ite.mpr ⟨fun _ => ?_, fun _ => ?_⟩)

theorem execPfFlr_ev {σ₀ s : State} (hev : Evolves σ₀ s) :
    OutEv σ₀ (execPfFlr s) := by
  unfold execPfFlr
  repeat' (first | with_reducible assumption | with_reducible apply State.pfFlr_ev | with_reducible refine ev_next ?_ | with_reducible refine ev_ite.mpr ⟨fun _ => ?_, fun _ => ?_⟩)

theorem execPerst_ev {σ₀ s : State} (hev : Evolves σ₀ s) :
    OutEv σ₀ (execPerst s) := by
  unfold execPerst
  repeat' (first | with_reducible assumption | with_reducible apply State.perstRise_ev | with_reducible refine ev_next ?_ | dsimp -iota only | with_reducible trivial)

theorem execD3hot_ev {σ₀ s : State} (hev : Evolves σ₀ s) (fn : Nat) (q : CfgReq) :
    OutEv σ₀ (execD3hot fn q s) := by
  unfold execD3hot
  repeat' (first | with_reducible assumption | with_reducible apply State.cfgRequest_ev | with_reducible refine ev_next ?_)

/-! CmdHost. -/

theorem execReqSeq_ev {σ₀ s : State} (hev : Evolves σ₀ s) (box : Option Nat) (seq : BitVec 16) :
    OutEv σ₀ (execReqSeq box seq s) := by
  unfold execReqSeq
  repeat' (first | with_reducible assumption | with_reducible apply State.writeReqSeq_ev | with_reducible refine ev_next ?_)

theorem execRspSeq_ev {σ₀ s : State} (hev : Evolves σ₀ s) (scn : Nat) (box : Option Nat) (seq : BitVec 16) :
    OutEv σ₀ (execRspSeq scn box seq s) := by
  unfold execRspSeq
  repeat' (first | with_reducible assumption | with_reducible apply State.writeRspSeq_ev | with_reducible refine ev_next ?_)

theorem execVersion_ev {σ₀ s : State} (hev : Evolves σ₀ s) :
    OutEv σ₀ (execVersion s) := by
  unfold execVersion
  repeat' (first | with_reducible assumption | with_reducible apply State.serve_ev | with_reducible apply State.mgrVersion_ev | with_reducible refine ev_next ?_)

theorem execOdRead_ev {σ₀ s : State} (hev : Evolves σ₀ s) (box : Option Nat) :
    OutEv σ₀ (execOdRead box s) := by
  unfold execOdRead
  repeat' (first | with_reducible assumption | with_reducible apply State.odReadRow_ev | with_reducible refine ev_next ?_)

theorem execOdWrite_ev {σ₀ s : State} (hev : Evolves σ₀ s) (box : Option Nat) :
    OutEv σ₀ (execOdWrite box s) := by
  unfold execOdWrite
  repeat' (first | with_reducible assumption | with_reducible apply State.odWriteRow_ev | with_reducible refine ev_next ?_)

theorem execHallCreate_ev {σ₀ s : State} (hev : Evolves σ₀ s) (h : Nat) :
    OutEv σ₀ (execHallCreate h s) := by
  unfold execHallCreate
  repeat' (first | with_reducible assumption | with_reducible apply State.serve_ev | with_reducible apply hallAnswer_ev | with_reducible refine ev_next ?_ | with_reducible apply State.mgrCreate_ev | intro _)

theorem execHallSetShare_ev {σ₀ s : State} (hev : Evolves σ₀ s) (h : Nat) (id : Nat) (value : Nat) (lcn : Nat) (first : Nat) :
    OutEv σ₀ (execHallSetShare h id value lcn first s) := by
  unfold execHallSetShare
  repeat' (first | with_reducible assumption | with_reducible apply State.serve_ev | with_reducible apply hallAnswer_ev | with_reducible refine ev_next ?_ | with_reducible apply State.mgrShare_ev | intro _)

theorem execHallStart_ev {σ₀ s : State} (hev : Evolves σ₀ s) (h : Nat) (first : Option Nat) :
    OutEv σ₀ (execHallStart h first s) := by
  unfold execHallStart
  repeat' (first | with_reducible assumption | with_reducible apply State.serve_ev | with_reducible apply hallAnswer_ev | with_reducible refine ev_next ?_ | with_reducible apply State.mgrStart_ev | intro _)

theorem execHallReset_ev {σ₀ s : State} (hev : Evolves σ₀ s) (h : Nat) (mode : Nat) (grace : Nat) (limit : Nat) :
    OutEv σ₀ (execHallReset h mode grace limit s) := by
  unfold execHallReset
  repeat' (first | with_reducible assumption | with_reducible apply State.serve_ev | with_reducible apply hallAnswer_ev | with_reducible refine ev_next ?_ | with_reducible apply State.mgrReset_ev | intro _)

theorem execHallRemove_ev {σ₀ s : State} (hev : Evolves σ₀ s) (h : Nat) :
    OutEv σ₀ (execHallRemove h s) := by
  unfold execHallRemove
  repeat' (first | with_reducible assumption | with_reducible apply State.serve_ev | with_reducible apply hallAnswer_ev | with_reducible refine ev_next ?_ | with_reducible apply State.mgrRemove_ev | intro _)

theorem execHallQuery_ev {σ₀ s : State} (hev : Evolves σ₀ s) (h : Nat) :
    OutEv σ₀ (execHallQuery h s) := by
  unfold execHallQuery
  repeat' (first | with_reducible assumption | with_reducible apply State.serve_ev | with_reducible apply State.mgrQuery_ev | with_reducible refine ev_next ?_ | intro _)

theorem execEventRead_ev {σ₀ s : State} (hev : Evolves σ₀ s) :
    OutEv σ₀ (execEventRead s) := by
  unfold execEventRead
  repeat' (first | with_reducible assumption | with_reducible apply State.serve_ev | with_reducible apply State.mgrEventRead_ev | with_reducible refine ev_next ?_)

theorem execServiceStatus_ev {σ₀ s : State} (hev : Evolves σ₀ s) :
    OutEv σ₀ (execServiceStatus s) := by
  unfold execServiceStatus
  repeat' (first | with_reducible assumption | with_reducible apply State.mgrSub_ev | with_reducible apply State.mgrServiceStatus_ev | with_reducible refine ev_next ?_)

theorem execServiceRespare_ev {σ₀ s : State} (hev : Evolves σ₀ s) :
    OutEv σ₀ (execServiceRespare s) := by
  unfold execServiceRespare
  repeat' (first | with_reducible assumption | with_reducible apply State.mgrSub_ev | with_reducible apply State.mgrSeed_ev | with_reducible refine ev_next ?_ | intro _)

theorem execServiceRowspare_ev {σ₀ s : State} (hev : Evolves σ₀ s) :
    OutEv σ₀ (execServiceRowspare s) := by
  unfold execServiceRowspare
  repeat' (first | with_reducible assumption | with_reducible apply State.mgrSub_ev | with_reducible apply State.mgrSeed_ev | with_reducible refine ev_next ?_ | intro _)

theorem execServicePpr_ev {σ₀ s : State} (hev : Evolves σ₀ s) :
    OutEv σ₀ (execServicePpr s) := by
  unfold execServicePpr
  repeat' (first | with_reducible assumption | with_reducible apply State.mgrSub_ev | with_reducible apply State.mgrSeed_ev | with_reducible refine ev_next ?_ | intro _)

theorem execServiceWayspare_ev {σ₀ s : State} (hev : Evolves σ₀ s) :
    OutEv σ₀ (execServiceWayspare s) := by
  unfold execServiceWayspare
  repeat' (first | with_reducible assumption | with_reducible apply State.mgrSub_ev | with_reducible apply State.mgrSeed_ev | with_reducible refine ev_next ?_ | intro _)

theorem execServiceCtxrow_ev {σ₀ s : State} (hev : Evolves σ₀ s) :
    OutEv σ₀ (execServiceCtxrow s) := by
  unfold execServiceCtxrow
  repeat' (first | with_reducible assumption | with_reducible apply State.mgrSub_ev | with_reducible apply State.mgrSeed_ev | with_reducible refine ev_next ?_ | intro _)

theorem execServiceFreeze_ev {σ₀ s : State} (hev : Evolves σ₀ s) :
    OutEv σ₀ (execServiceFreeze s) := by
  unfold execServiceFreeze
  repeat' (first | with_reducible assumption | with_reducible apply State.mgrSub_ev | with_reducible apply State.freezeRing_ev | with_reducible apply State.respondWords_ev | with_reducible refine ev_next ?_ | intro _)

theorem execServiceUnfreeze_ev {σ₀ s : State} (hev : Evolves σ₀ s) :
    OutEv σ₀ (execServiceUnfreeze s) := by
  unfold execServiceUnfreeze
  repeat' (first | with_reducible assumption | with_reducible apply State.mgrSub_ev | with_reducible apply State.unfreezeRing_ev | with_reducible apply State.respondWords_ev | with_reducible refine ev_next ?_ | intro _)

theorem execCascadeStatus_ev {σ₀ s : State} (hev : Evolves σ₀ s) :
    OutEv σ₀ (execCascadeStatus s) := by
  unfold execCascadeStatus
  repeat' (first | with_reducible assumption | with_reducible apply State.mgrSub_ev | with_reducible apply State.mgrCascStatus_ev | with_reducible refine ev_next ?_)

theorem execCascadePromote_ev {σ₀ s : State} (hev : Evolves σ₀ s) :
    OutEv σ₀ (execCascadePromote s) := by
  unfold execCascadePromote
  repeat' (first | with_reducible assumption | with_reducible apply State.mgrSub_ev | with_reducible apply State.mgrCasc_ev | with_reducible apply State.promote_ev | with_reducible refine ev_next ?_ | intro _)

theorem execCascadeRetime_ev {σ₀ s : State} (hev : Evolves σ₀ s) :
    OutEv σ₀ (execCascadeRetime s) := by
  unfold execCascadeRetime
  repeat' (first | with_reducible assumption | with_reducible apply State.mgrSub_ev | with_reducible apply State.mgrCasc_ev | with_reducible apply State.retime_ev | with_reducible refine ev_next ?_ | intro _)

theorem execCascadeRejoin_ev {σ₀ s : State} (hev : Evolves σ₀ s) :
    OutEv σ₀ (execCascadeRejoin s) := by
  unfold execCascadeRejoin
  repeat' (first | with_reducible assumption | with_reducible apply State.mgrSub_ev | with_reducible apply State.mgrCasc_ev | with_reducible apply State.rejoin_ev | with_reducible refine ev_next ?_ | intro _)

theorem execDoorbell_ev {σ₀ s : State} (hev : Evolves σ₀ s) (who : Initiator) (h : Nat) (q : Nat) (tail : Nat) :
    OutEv σ₀ (execDoorbell who h q tail s) := by
  unfold execDoorbell
  repeat' (first | with_reducible assumption | with_reducible apply State.write64_ev | with_reducible refine ev_next ?_)

theorem execQCfgWrite_ev {σ₀ s : State} (hev : Evolves σ₀ s) (who : Initiator) (h : Nat) (q : Nat) (v : BitVec 64) :
    OutEv σ₀ (execQCfgWrite who h q v s) := by
  unfold execQCfgWrite
  repeat' (first | with_reducible assumption | with_reducible apply State.write64_ev | with_reducible refine ev_next ?_)

theorem execHqNotifySet_ev {σ₀ s : State} (hev : Evolves σ₀ s) (who : Initiator) (h : Nat) (set : BitVec 30) :
    OutEv σ₀ (execHqNotifySet who h set s) := by
  unfold execHqNotifySet
  repeat' (first | with_reducible assumption | with_reducible apply State.write64_ev | with_reducible refine ev_next ?_)

theorem execDescriptorFetch_ev {σ₀ s : State} (hev : Evolves σ₀ s) (h : Nat) (q : Nat) (reply : Option (List (BitVec 64))) :
    OutEv σ₀ (execDescriptorFetch h q reply s) := by
  unfold execDescriptorFetch
  repeat' (first | with_reducible assumption | with_reducible apply State.fetchDescriptor_ev | with_reducible refine ev_next ?_)

theorem execDescriptorComplete_ev {σ₀ s : State} (hev : Evolves σ₀ s) (h : Nat) (e : Nat) (data : List Byte) (done : Nat) (fail : Bool) (cplFail : Bool) (poisoned : List Nat) :
    OutEv σ₀ (execDescriptorComplete h e data done fail cplFail poisoned s) := by
  unfold execDescriptorComplete
  repeat' (first | with_reducible assumption | with_reducible apply State.completeDescriptor_ev | with_reducible refine ev_next ?_)

/-! CmdNet. -/

theorem execLineCycleStart_ev {σ₀ s : State} (hev : Evolves σ₀ s) :
    OutEv σ₀ (execLineCycleStart s) := by
  unfold execLineCycleStart
  repeat' (first | with_reducible assumption | with_reducible apply State.lineCycle_ev | with_reducible refine ev_next ?_)

theorem execOutputSnapshot_ev {σ₀ s : State} (hev : Evolves σ₀ s) :
    OutEv σ₀ (execOutputSnapshot s) := by
  unfold execOutputSnapshot
  repeat' (first | with_reducible assumption | with_reducible apply State.outputSnapshot_ev | with_reducible refine ev_next ?_)

theorem execFrameReturn_ev {σ₀ s : State} (hev : Evolves σ₀ s) (back : List (Nat × Nat × List Byte)) (brk : Option Nat) (news : LineNews) :
    OutEv σ₀ (execFrameReturn back brk news s) := by
  unfold execFrameReturn
  repeat' (first | with_reducible assumption | with_reducible apply State.frameReturn_ev | with_reducible refine ev_next ?_ | dsimp -iota only | intro _ | with_reducible trivial)

theorem execEclModeWrite_ev {σ₀ s : State} (hev : Evolves σ₀ s) (who : Initiator) (v : BitVec 64) :
    OutEv σ₀ (execEclModeWrite who v s) := by
  unfold execEclModeWrite
  repeat' (first | with_reducible assumption | with_reducible apply State.write64_ev | with_reducible refine ev_next ?_)

theorem execSdoRequest_ev {σ₀ s : State} (hev : Evolves σ₀ s) (op : SdoOp) (index : Nat) (sub : Nat) (complete : Bool) (data : List Byte) :
    OutEv σ₀ (execSdoRequest op index sub complete data s) := by
  unfold execSdoRequest
  repeat' (first | with_reducible assumption | with_reducible apply State.sdoRequest_ev | with_reducible refine ev_next ?_ | dsimp -iota only | with_reducible trivial)

theorem execAlStateRequest_ev {σ₀ s : State} (hev : Evolves σ₀ s) (q : PlantReq) :
    OutEv σ₀ (execAlStateRequest q s) := by
  unfold execAlStateRequest
  repeat' (first | with_reducible assumption | with_reducible apply State.plantRequest_ev | with_reducible refine ev_next ?_ | dsimp -iota only | with_reducible trivial)

theorem execSync0_ev {σ₀ s : State} (hev : Evolves σ₀ s) (plant : BitVec 64) :
    OutEv σ₀ (execSync0 plant s) := by
  unfold execSync0
  repeat' (first | with_reducible assumption | with_reducible apply State.sync0_ev | with_reducible refine ev_next ?_)

theorem execSm2Watchdog_ev {σ₀ s : State} (hev : Evolves σ₀ s) :
    OutEv σ₀ (execSm2Watchdog s) := by
  unfold execSm2Watchdog
  repeat' (first | with_reducible assumption | with_reducible apply State.sm2Watchdog_ev | with_reducible refine ev_next ?_)

theorem execPlantProcessData_ev {σ₀ s : State} (hev : Evolves σ₀ s) (rx : List Byte) :
    OutEv σ₀ (execPlantProcessData rx s) := by
  unfold execPlantProcessData
  repeat' (first | with_reducible assumption | with_reducible apply State.plantFrame_ev | with_reducible refine ev_next ?_)

/-! CmdService. -/

theorem execRespare_ev {σ₀ s : State} (hev : Evolves σ₀ s) (who : Initiator) (lcn : Nat) :
    OutEv σ₀ (execRespare who lcn s) := by
  unfold execRespare
  repeat' (first | with_reducible assumption | with_reducible apply State.write64_ev | with_reducible apply State.seedCmd_ev | with_reducible refine ev_next ?_)

theorem execRespareGroup_ev {σ₀ s : State} (hev : Evolves σ₀ s) :
    OutEv σ₀ (execRespareGroup s) := by
  unfold execRespareGroup
  repeat' (first | with_reducible assumption | with_reducible apply State.respareGroup_ev | with_reducible refine ev_next ?_)

theorem execRowspare_ev {σ₀ s : State} (hev : Evolves σ₀ s) (who : Initiator) (sector : Nat) :
    OutEv σ₀ (execRowspare who sector s) := by
  unfold execRowspare
  repeat' (first | with_reducible assumption | with_reducible apply State.write64_ev | with_reducible apply State.seedCmd_ev | with_reducible refine ev_next ?_)

theorem execPpr_ev {σ₀ s : State} (hev : Evolves σ₀ s) (who : Initiator) (ch : Nat) (entry : Nat) :
    OutEv σ₀ (execPpr who ch entry s) := by
  unfold execPpr
  repeat' (first | with_reducible assumption | with_reducible apply State.write64_ev | with_reducible apply State.seedCmd_ev | with_reducible refine ev_next ?_)

theorem execWayspare_ev {σ₀ s : State} (hev : Evolves σ₀ s) (who : Initiator) (slice : Nat) (way : Nat) :
    OutEv σ₀ (execWayspare who slice way s) := by
  unfold execWayspare
  repeat' (first | with_reducible assumption | with_reducible apply State.write64_ev | with_reducible apply State.seedCmd_ev | with_reducible refine ev_next ?_)

theorem execCtxrow_ev {σ₀ s : State} (hev : Evolves σ₀ s) (who : Initiator) (p : Nat) (slot : Nat) :
    OutEv σ₀ (execCtxrow who p slot s) := by
  unfold execCtxrow
  repeat' (first | with_reducible assumption | with_reducible apply State.write64_ev | with_reducible apply State.seedCmd_ev | with_reducible refine ev_next ?_)

theorem execServiceDone_ev {σ₀ s : State} (hev : Evolves σ₀ s) :
    OutEv σ₀ (execServiceDone s) := by
  unfold execServiceDone
  repeat' (first | with_reducible assumption | with_reducible apply State.serviceDone_ev | with_reducible apply State.heldCoreReset_ev | with_reducible refine ev_next ?_)

theorem execMonitorSample_ev {σ₀ s : State} (hev : Evolves σ₀ s) (m : Monitor) (v : Nat) (width : Nat) (ue : Bool) :
    OutEv σ₀ (execMonitorSample m v width ue s) := by
  unfold execMonitorSample
  repeat' (first | with_reducible assumption | with_reducible apply State.monitorSample_ev | with_reducible refine ev_next ?_)

theorem execMonitorHour_ev {σ₀ s : State} (hev : Evolves σ₀ s) (m : Monitor) :
    OutEv σ₀ (execMonitorHour m s) := by
  unfold execMonitorHour
  repeat' (first | with_reducible assumption | with_reducible apply State.monitorHour_ev | with_reducible refine ev_next ?_)

theorem execHourlySummary_ev {σ₀ s : State} (hev : Evolves σ₀ s) :
    OutEv σ₀ (execHourlySummary s) := by
  unfold execHourlySummary
  repeat' (first | with_reducible assumption | with_reducible apply State.hourlySummary_ev | with_reducible refine ev_next ?_)

theorem execRecordWrite_ev {σ₀ s : State} (hev : Evolves σ₀ s) :
    OutEv σ₀ (execRecordWrite s) := by
  unfold execRecordWrite
  repeat' (first | with_reducible assumption | with_reducible apply State.recordWrite_ev | with_reducible refine ev_next ?_)

theorem execFreeze_ev {σ₀ s : State} (hev : Evolves σ₀ s) (who : Initiator) :
    OutEv σ₀ (execFreeze who s) := by
  unfold execFreeze
  repeat' (first | with_reducible assumption | with_reducible apply State.writeReg_ev | with_reducible refine ev_next ?_)

theorem execUnfreeze_ev {σ₀ s : State} (hev : Evolves σ₀ s) (who : Initiator) :
    OutEv σ₀ (execUnfreeze who s) := by
  unfold execUnfreeze
  repeat' (first | with_reducible assumption | with_reducible apply State.writeReg_ev | with_reducible refine ev_next ?_)

theorem execPowerFail_ev {σ₀ s : State} (hev : Evolves σ₀ s) :
    OutEv σ₀ (execPowerFail s) := by
  unfold execPowerFail
  repeat' (first | with_reducible assumption | with_reducible apply State.powerFail_ev | with_reducible refine ev_next ?_)

/-! CmdStartup. -/

theorem execPor_ev {σ₀ s : State} (hev : Evolves σ₀ s) (bootSrc : BitVec 2) (cascId : BitVec 3) (legacyN : Bool) :
    OutEv σ₀ (execPor bootSrc cascId legacyN s) := by
  unfold execPor
  repeat' (first | with_reducible assumption | with_reducible apply State.por_ev | with_reducible refine ev_next ?_)

theorem execDeviceReset_ev {σ₀ s : State} (hev : Evolves σ₀ s) (who : Initiator) (key : BitVec 32) (bootSrc : BitVec 2) (cascId : BitVec 3) (legacyN : Bool) :
    OutEv σ₀ (execDeviceReset who key bootSrc cascId legacyN s) := by
  unfold execDeviceReset
  repeat' (first | with_reducible assumption | with_reducible apply State.keyWrite_ev | with_reducible refine ev_next ?_)

theorem execPllLock_ev {σ₀ s : State} (hev : Evolves σ₀ s) (tb : Bool) :
    OutEv σ₀ (execPllLock tb s) := by
  unfold execPllLock
  repeat' (first | with_reducible assumption | with_reducible apply State.pllLock_ev | with_reducible refine ev_next ?_)

theorem execMemoryInitDone_ev {σ₀ s : State} (hev : Evolves σ₀ s) :
    OutEv σ₀ (execMemoryInitDone s) := by
  unfold execMemoryInitDone
  repeat' (first | with_reducible assumption | with_reducible apply State.memoryInit_ev | with_reducible refine ev_next ?_)

theorem execBootLoadDone_ev {σ₀ s : State} (hev : Evolves σ₀ s) (a : Option (List Byte)) (b : Option (List Byte)) (host : Option (List Byte)) :
    OutEv σ₀ (execBootLoadDone a b host s) := by
  unfold execBootLoadDone
  repeat' (first | with_reducible assumption | with_reducible apply State.bootLoadDone_ev | with_reducible refine ev_next ?_)

theorem execBootGo_ev {σ₀ s : State} (hev : Evolves σ₀ s) (who : Initiator) :
    OutEv σ₀ (execBootGo who s) := by
  unfold execBootGo
  repeat' (first | with_reducible assumption | with_reducible apply State.write64_ev | with_reducible refine ev_next ?_)

theorem execReadySet_ev {σ₀ s : State} (hev : Evolves σ₀ s) (who : Initiator) :
    OutEv σ₀ (execReadySet who s) := by
  unfold execReadySet
  repeat' (first | with_reducible assumption | with_reducible apply State.write64_ev | with_reducible refine ev_next ?_)

theorem execCoreReset_ev {σ₀ s : State} (hev : Evolves σ₀ s) (who : Initiator) (p : Nat) :
    OutEv σ₀ (execCoreReset who p s) := by
  unfold execCoreReset
  repeat' (first | with_reducible assumption | with_reducible apply State.write64_ev | with_reducible refine ev_next ?_)

theorem execTbLost_ev {σ₀ s : State} (hev : Evolves σ₀ s) :
    OutEv σ₀ (execTbLost s) := by
  unfold execTbLost
  repeat' (first | with_reducible assumption | with_reducible apply State.tbLost_ev | with_reducible refine ev_next ?_)

theorem execKick_ev {σ₀ s : State} (hev : Evolves σ₀ s) (who : Initiator) :
    OutEv σ₀ (execKick who s) := by
  unfold execKick
  repeat' (first | with_reducible assumption | with_reducible apply State.write64_ev | with_reducible refine ev_next ?_)

theorem execHeartbeatToggle_ev {σ₀ s : State} (hev : Evolves σ₀ s) :
    OutEv σ₀ (execHeartbeatToggle s) := by
  unfold execHeartbeatToggle
  repeat' (first | with_reducible assumption | with_reducible apply State.heartbeat_ev | with_reducible refine ev_next ?_)

theorem execHeartbeatLost_ev {σ₀ s : State} (hev : Evolves σ₀ s) :
    OutEv σ₀ (execHeartbeatLost s) := by
  unfold execHeartbeatLost
  repeat' (first | with_reducible assumption | with_reducible apply State.heartbeatLost_ev | with_reducible refine ev_next ?_)

theorem execTempSample_ev {σ₀ s : State} (hev : Evolves σ₀ s) (raw : Nat) :
    OutEv σ₀ (execTempSample raw s) := by
  unfold execTempSample
  repeat' (first | with_reducible assumption | with_reducible apply State.tempSample_ev | with_reducible refine ev_next ?_)

theorem execJtagHalt_ev {σ₀ s : State} (hev : Evolves σ₀ s) (scn : Nat) :
    OutEv σ₀ (execJtagHalt scn s) := by
  unfold execJtagHalt
  repeat' (first | with_reducible assumption | with_reducible apply State.jtagHalt_ev | with_reducible refine ev_next ?_)

theorem execJtagDeviceReset_ev {σ₀ s : State} (hev : Evolves σ₀ s) (bootSrc : BitVec 2) (cascId : BitVec 3) (legacyN : Bool) :
    OutEv σ₀ (execJtagDeviceReset bootSrc cascId legacyN s) := by
  unfold execJtagDeviceReset
  repeat' (first | with_reducible assumption | with_reducible apply State.jtagReset_ev | with_reducible refine ev_next ?_)

theorem execJtagAccess_ev {σ₀ s : State} (hev : Evolves σ₀ s) (op : JtagOp) (pa : Nat) (w : Word) :
    OutEv σ₀ (execJtagAccess op pa w s) := by
  unfold execJtagAccess
  repeat' (first | with_reducible assumption | with_reducible apply State.jtagPort_ev | with_reducible refine ev_next ?_ | dsimp -iota only | with_reducible trivial)

/-! CmdWeb. -/

theorem execEncoderEdge_ev {σ₀ s : State} (hev : Evolves σ₀ s) (x : Nat) (e : PinEdge) :
    OutEv σ₀ (execEncoderEdge x e s) := by
  unfold execEncoderEdge
  repeat' (first | with_reducible assumption | with_reducible apply State.encoderPins_ev | with_reducible refine ev_next ?_)

theorem execZIndex_ev {σ₀ s : State} (hev : Evolves σ₀ s) (e : ZPulse) :
    OutEv σ₀ (execZIndex e s) := by
  unfold execZIndex
  repeat' (first | with_reducible assumption | with_reducible apply State.zEdge_ev | with_reducible refine ev_next ?_ | with_reducible refine ev_ite.mpr ⟨fun _ => ?_, fun _ => ?_⟩ | with_reducible refine ev_ite3.mpr ⟨fun _ => ?_, fun _ => ?_⟩)

theorem execSsiFrameStart_ev {σ₀ s : State} (hev : Evolves σ₀ s) (x : Nat) :
    OutEv σ₀ (execSsiFrameStart x s) := by
  unfold execSsiFrameStart
  repeat' (first | with_reducible assumption | with_reducible apply State.ssiStart_ev | with_reducible refine ev_next ?_)

theorem execSsiFrame_ev {σ₀ s : State} (hev : Evolves σ₀ s) (x : Nat) (bits : Nat) (before : Bool) (after : Bool) :
    OutEv σ₀ (execSsiFrame x bits before after s) := by
  unfold execSsiFrame
  repeat' (first | with_reducible assumption | with_reducible apply State.ssiFrame_ev | with_reducible refine ev_next ?_)

theorem execExtrapEnd_ev {σ₀ s : State} (hev : Evolves σ₀ s) (x : Nat) :
    OutEv σ₀ (execExtrapEnd x s) := by
  unfold execExtrapEnd
  repeat' (first | with_reducible assumption | with_reducible apply State.extrapEnd_ev | with_reducible refine ev_next ?_)

theorem execRecover_ev {σ₀ s : State} (hev : Evolves σ₀ s) (who : Initiator) (x : Nat) :
    OutEv σ₀ (execRecover who x s) := by
  unfold execRecover
  repeat' (first | with_reducible assumption | with_reducible apply State.write64_ev | with_reducible refine ev_next ?_)

theorem execEstimatorSample_ev {σ₀ s : State} (hev : Evolves σ₀ s) :
    OutEv σ₀ (execEstimatorSample s) := by
  unfold execEstimatorSample
  repeat' (first | with_reducible assumption | with_reducible apply State.estimatorSample_ev | with_reducible apply State.broadcastSamples_ev | with_reducible refine ev_next ?_)

theorem execSwap_ev {σ₀ s : State} (hev : Evolves σ₀ s) (who : Initiator) (x : Nat) (count : Nat) :
    OutEv σ₀ (execSwap who x count s) := by
  unfold execSwap
  repeat' (first | with_reducible assumption | with_reducible apply State.write64_ev | with_reducible refine ev_next ?_)

theorem execMarkEdge_ev {σ₀ s : State} (hev : Evolves σ₀ s) (m : Nat) (ns : Nat) (rising : Bool) :
    OutEv σ₀ (execMarkEdge m ns rising s) := by
  unfold execMarkEdge
  repeat' (first | with_reducible assumption | with_reducible apply State.markPin_ev | with_reducible refine ev_next ?_)

theorem execMsSample_ev {σ₀ s : State} (hev : Evolves σ₀ s) (c : Nat) (value : Nat) :
    OutEv σ₀ (execMsSample c value s) := by
  unfold execMsSample
  repeat' (first | with_reducible assumption | with_reducible apply State.msSample_ev | with_reducible refine ev_next ?_)

theorem execCamOnAt_ev {σ₀ s : State} (hev : Evolves σ₀ s) (who : Initiator) (k : Nat) (target : BitVec 64) :
    OutEv σ₀ (execCamOnAt who k target s) := by
  unfold execCamOnAt
  repeat' (first | with_reducible assumption | with_reducible apply State.write64_ev | with_reducible apply State.target_ev | with_reducible refine ev_next ?_)

theorem execCamOffAt_ev {σ₀ s : State} (hev : Evolves σ₀ s) (who : Initiator) (k : Nat) (target : BitVec 64) :
    OutEv σ₀ (execCamOffAt who k target s) := by
  unfold execCamOffAt
  repeat' (first | with_reducible assumption | with_reducible apply State.write64_ev | with_reducible apply State.target_ev | with_reducible refine ev_next ?_)

theorem execCamOnDt_ev {σ₀ s : State} (hev : Evolves σ₀ s) (who : Initiator) (k : Nat) (target : BitVec 64) :
    OutEv σ₀ (execCamOnDt who k target s) := by
  unfold execCamOnDt
  repeat' (first | with_reducible assumption | with_reducible apply State.write64_ev | with_reducible apply State.target_ev | with_reducible refine ev_next ?_)

theorem execCamOffDt_ev {σ₀ s : State} (hev : Evolves σ₀ s) (who : Initiator) (k : Nat) (target : BitVec 64) :
    OutEv σ₀ (execCamOffDt who k target s) := by
  unfold execCamOffDt
  repeat' (first | with_reducible assumption | with_reducible apply State.write64_ev | with_reducible apply State.target_ev | with_reducible refine ev_next ?_)

theorem execFlush_ev {σ₀ s : State} (hev : Evolves σ₀ s) (who : Initiator) (k : Nat) :
    OutEv σ₀ (execFlush who k s) := by
  unfold execFlush
  repeat' (first | with_reducible assumption | with_reducible apply State.write64_ev | with_reducible apply State.camCtrl_ev | with_reducible refine ev_next ?_)

theorem execNow_ev {σ₀ s : State} (hev : Evolves σ₀ s) (who : Initiator) (k : Nat) (level : Bool) :
    OutEv σ₀ (execNow who k level s) := by
  unfold execNow
  repeat' (first | with_reducible assumption | with_reducible apply State.write64_ev | with_reducible apply State.camCtrl_ev | with_reducible refine ev_next ?_ | with_reducible refine ev_ite3.mpr ⟨fun _ => ?_, fun _ => ?_⟩)

theorem execCamFire_ev {σ₀ s : State} (hev : Evolves σ₀ s) (k : Nat) :
    OutEv σ₀ (execCamFire k s) := by
  unfold execCamFire
  repeat' (first | with_reducible assumption | with_reducible apply State.camFire_ev | with_reducible refine ev_next ?_)

theorem execIringWrite_ev {σ₀ s : State} (hev : Evolves σ₀ s) (who : Initiator) (x : Nat) (v : BitVec 64) :
    OutEv σ₀ (execIringWrite who x v s) := by
  unfold execIringWrite
  repeat' (first | with_reducible assumption | with_reducible apply State.write64_ev | with_reducible refine ev_next ?_)

theorem execIptrTail_ev {σ₀ s : State} (hev : Evolves σ₀ s) (who : Initiator) (x : Nat) (tail : Nat) :
    OutEv σ₀ (execIptrTail who x tail s) := by
  unfold execIptrTail
  repeat' (first | with_reducible assumption | with_reducible apply State.write64_ev | with_reducible refine ev_next ?_)

theorem execStopReq_ev {σ₀ s : State} (hev : Evolves σ₀ s) (who : StopCause) :
    OutEv σ₀ (execStopReq who s) := by
  unfold execStopReq
  repeat' (first | with_reducible assumption | with_reducible apply State.stopReqBy_ev | with_reducible refine ev_next ?_ | dsimp -iota only | with_reducible trivial)

theorem execReleaseStop_ev {σ₀ s : State} (hev : Evolves σ₀ s) (who : Initiator) :
    OutEv σ₀ (execReleaseStop who s) := by
  unfold execReleaseStop
  repeat' (first | with_reducible assumption | with_reducible apply State.write64_ev | with_reducible refine ev_next ?_)

theorem execStopped_ev {σ₀ s : State} (hev : Evolves σ₀ s) :
    OutEv σ₀ (execStopped s) := by
  unfold execStopped
  repeat' (first | with_reducible assumption | with_reducible apply State.stopDone_ev | with_reducible refine ev_next ?_)

theorem execStopReqNHigh_ev {σ₀ s : State} (hev : Evolves σ₀ s) :
    OutEv σ₀ (execStopReqNHigh s) := by
  unfold execStopReqNHigh
  repeat' (first | with_reducible assumption | with_reducible apply State.stopPinHigh_ev | with_reducible refine ev_next ?_)

end Sys2Proof.Machine
end

