-- ==== Sys2Proof/Laws/EvExec.lean ====
section
/-! SUPPORT. Evolves (Laws/Evolves.lean) for every command. -/

namespace Sys2Proof.Machine

/-! Dispatch. -/

/-- Every command keeps what Evolves says. -/
theorem exec_ev {σ₀ s : State} (hev : Evolves σ₀ s) (i : Instr) : OutEv σ₀ (exec i s) :=
  match i with
  | .gadd p f => execGadd_ev hev p f
  | .gsub p f => execGsub_ev hev p f
  | .gmul p rd ra rb => execGmul_ev hev p rd ra rb
  | .gaddi p f => execGaddi_ev hev p f
  | .gcmp p f => execGcmp_ev hev p f
  | .wcmp p f => execWcmp_ev hev p f
  | .mov p f => execMov_ev hev p f
  | .ldi p f => execLdi_ev hev p f
  | .ldk p rd k => execLdk_ev hev p rd k
  | .ldik p rd k imm => execLdik_ev hev p rd k imm
  | .tagi p rd ra ty => execTagi_ev hev p rd ra ty
  | .typeq p rd ra ty => execTypeq_ev hev p rd ra ty
  | .tagw p rd ra tag => execTagw_ev hev p rd ra tag
  | .br p f => execBr_ev hev p f
  | .bcond p f => execBcond_ev hev p f
  | .bnil p f => execBnil_ev hev p f
  | .bnnil p f => execBnnil_ev hev p f
  | .tbr p ra ty sense disp => execTbr_ev hev p ra ty sense disp
  | .jmp p ra => execJmp_ev hev p ra
  | .callm p ra mask => execCallm_ev hev p ra mask
  | .retm p => execRetm_ev hev p
  | .brk p => execBrk_ev hev p
  | .nop p => execNop_ev hev p
  | .rep p op stop => execRep_ev hev p op stop
  | .ld p f => execLd_ev hev p f
  | .st p f => execSt_ev hev p f
  | .ldx p rd ra rb => execLdx_ev hev p rd ra rb
  | .stx p rd ra rb => execStx_ev hev p rd ra rb
  | .ldsp p rt off => execLdsp_ev hev p rt off
  | .stsp p rt off => execStsp_ev hev p rt off
  | .fence p => execFence_ev hev p
  | .car p f => execCar_ev hev p f
  | .cdr p f => execCdr_ev hev p f
  | .cons p rd ra rb => execCons_ev hev p rd ra rb
  | .rplaca p ra rb => execRplaca_ev hev p ra rb
  | .rplacd p ra rb => execRplacd_ev hev p ra rb
  | .memq p rd ra rb stop => execMemq_ev hev p rd ra rb stop
  | .assq p rd ra rb stop => execAssq_ev hev p rd ra rb stop
  | .llen p rd ra stop => execLlen_ev hev p rd ra stop
  | .vref p rd ra rb => execVref_ev hev p rd ra rb
  | .vset p rd ra rb => execVset_ev hev p rd ra rb
  | .vfill p rd ra rb stop => execVfill_ev hev p rd ra rb stop
  | .vcopy p rd ra rb stop => execVcopy_ev hev p rd ra rb stop
  | .alloc p rd ra ty pin sub => execAlloc_ev hev p rd ra ty pin sub
  | .gets p rd sel => execGets_ev hev p rd sel
  | .sets p sel rd => execSets_ev hev p sel rd
  | .scall p st => execScall_ev hev p st
  | .sret p => execSret_ev hev p
  | .xret p => execXret_ev hev p
  | .wget p rd sel => execWget_ev hev p rd sel
  | .wput p sel rd => execWput_ev hev p sel rd
  | .tlbwi p ra rb => execTlbwi_ev hev p ra rb
  | .tlbwr p ra => execTlbwr_ev hev p ra
  | .tlbi p ra => execTlbi_ev hev p ra
  | .twalk p rd ra => execTwalk_ev hev p rd ra
  | .waitp p rd ra => execWaitp_ev hev p rd ra
  | .specOpen p ra rb => execSpecOpen_ev hev p ra rb
  | .specClose p => execSpecClose_ev hev p
  | .largeInitDone scn => execLargeInitDone_ev hev scn
  | .alertDelivery p => execAlertDelivery_ev hev p
  | .dispatch p => execDispatch_ev hev p
  | .preemption p => execPreemption_ev hev p
  | .quantumEnd p => execQuantumEnd_ev hev p
  | .fill who scn arg => execFill_ev hev who scn arg
  | .spill who scn => execSpill_ev hev who scn
  | .park who scn => execPark_ev hev who scn
  | .resume who scn => execResume_ev hev who scn
  | .setprio who scn prio => execSetprio_ev hev who scn prio
  | .post who scn bits => execPost_ev hev who scn bits
  | .cancel who scn => execCancel_ev hev who scn
  | .create who scn => execCreate_ev hev who scn
  | .retire who scn => execRetire_ev hev who scn
  | .fillOnDemand => execFillOnDemand_ev hev 
  | .timerWake => execTimerWake_ev hev 
  | .watchdog h => execWatchdog_ev hev h
  | .alertRouteWrite who h v => execAlertRouteWrite_ev hev who h v
  | .watchdogKick who h => execWatchdogKick_ev hev who h
  | .registerScan hcn => execRegisterScan_ev hev hcn
  | .tlbiAck p => execTlbiAck_ev hev p
  | .illegalEncoding p => execIllegalEncoding_ev hev p
  | .accessTimeout who off write va => execAccessTimeout_ev hev who off write va
  | .registerWrite who off mask v => execRegisterWrite_ev hev who off mask v
  | .patchBegin who => execPatchBegin_ev hev who
  | .patchData who v => execPatchData_ev hev who v
  | .patchCheck who => execPatchCheck_ev hev who
  | .patchApply who => execPatchApply_ev hev who
  | .patchCoreSwitch p => execPatchCoreSwitch_ev hev p
  | .cribDisable p => execCribDisable_ev hev p
  | .cribEnable p => execCribEnable_ev hev p
  | .maintGo who p op irq => execMaintGo_ev hev who p op irq
  | .maintDone p => execMaintDone_ev hev p
  | .scrubRead => execScrubRead_ev hev 
  | .memInj => execMemInj_ev hev 
  | .assignRoot who h count any bin => execAssignRoot_ev hev who h count any bin
  | .assignPlain who h count any bin => execAssignPlain_ev hev who h count any bin
  | .release who h count bin => execRelease_ev hev who h count bin
  | .cycleYoung who h => execCycleYoung_ev hev who h
  | .cycleFull who h => execCycleFull_ev hev who h
  | .armAck p h => execArmAck_ev hev p h
  | .flip p h => execFlip_ev hev p h
  | .gleanerTrace h => execGleanerTrace_ev hev h
  | .finish h => execFinish_ev hev h
  | .encoderEdge x e => execEncoderEdge_ev hev x e
  | .zIndex e => execZIndex_ev hev e
  | .ssiFrameStart x => execSsiFrameStart_ev hev x
  | .ssiFrame x bits before after => execSsiFrame_ev hev x bits before after
  | .extrapEnd x => execExtrapEnd_ev hev x
  | .recover who x => execRecover_ev hev who x
  | .estimatorSample => execEstimatorSample_ev hev 
  | .swap who x count => execSwap_ev hev who x count
  | .markEdge m ns rising => execMarkEdge_ev hev m ns rising
  | .msSample c value => execMsSample_ev hev c value
  | .camOnAt who k target => execCamOnAt_ev hev who k target
  | .camOffAt who k target => execCamOffAt_ev hev who k target
  | .camOnDt who k target => execCamOnDt_ev hev who k target
  | .camOffDt who k target => execCamOffDt_ev hev who k target
  | .flush who k => execFlush_ev hev who k
  | .now who k level => execNow_ev hev who k level
  | .camFire k => execCamFire_ev hev k
  | .iringWrite who x v => execIringWrite_ev hev who x v
  | .iptrTail who x tail => execIptrTail_ev hev who x tail
  | .stopReq who => execStopReq_ev hev who
  | .releaseStop who => execReleaseStop_ev hev who
  | .stopped => execStopped_ev hev 
  | .specCheck => execSpecCheck_ev hev 
  | .abandon who speck => execAbandon_ev hev who speck
  | .remoteTimeout => execRemoteTimeout_ev hev 
  | .mirrorEnable who h base => execMirrorEnable_ev hev who h base
  | .hallCtrlCreate who h => execHallCtrlCreate_ev hev who h
  | .hallCtrlStart who h => execHallCtrlStart_ev hev who h
  | .hallCtrlRemove who h => execHallCtrlRemove_ev hev who h
  | .hallSlotCmd who lcn first count h => execHallSlotCmd_ev hev who lcn first count h
  | .hallDevmap who h j v => execHallDevmap_ev hev who h j v
  | .hallResetGo who h squash grace limit => execHallResetGo_ev hev who h squash grace limit
  | .hallDrainAck who h => execHallDrainAck_ev hev who h
  | .graceEnd h => execGraceEnd_ev hev h
  | .drainLimitEnd h => execDrainLimitEnd_ev hev h
  | .hallResetDone h => execHallResetDone_ev hev h
  | .flr h => execFlr_ev hev h
  | .vfEnableWrite enable num => execVfEnableWrite_ev hev enable num
  | .pfFlr => execPfFlr_ev hev 
  | .perst => execPerst_ev hev 
  | .reqSeq box seq => execReqSeq_ev hev box seq
  | .rspSeq scn box seq => execRspSeq_ev hev scn box seq
  | .version => execVersion_ev hev 
  | .odRead box => execOdRead_ev hev box
  | .odWrite box => execOdWrite_ev hev box
  | .hallCreate h => execHallCreate_ev hev h
  | .hallSetShare h id value lcn first => execHallSetShare_ev hev h id value lcn first
  | .hallStart h first => execHallStart_ev hev h first
  | .hallReset h mode grace limit => execHallReset_ev hev h mode grace limit
  | .hallRemove h => execHallRemove_ev hev h
  | .hallQuery h => execHallQuery_ev hev h
  | .eventRead => execEventRead_ev hev 
  | .serviceStatus => execServiceStatus_ev hev 
  | .serviceRespare => execServiceRespare_ev hev 
  | .serviceRowspare => execServiceRowspare_ev hev 
  | .servicePpr => execServicePpr_ev hev 
  | .serviceWayspare => execServiceWayspare_ev hev 
  | .serviceCtxrow => execServiceCtxrow_ev hev 
  | .serviceFreeze => execServiceFreeze_ev hev 
  | .serviceUnfreeze => execServiceUnfreeze_ev hev 
  | .cascadeStatus => execCascadeStatus_ev hev 
  | .cascadePromote => execCascadePromote_ev hev 
  | .cascadeRetime => execCascadeRetime_ev hev 
  | .cascadeRejoin => execCascadeRejoin_ev hev 
  | .doorbell who h q tail => execDoorbell_ev hev who h q tail
  | .qCfgWrite who h q v => execQCfgWrite_ev hev who h q v
  | .hqNotifySet who h set => execHqNotifySet_ev hev who h set
  | .descriptorFetch h q reply => execDescriptorFetch_ev hev h q reply
  | .descriptorComplete h e data done fail cplFail poisoned => execDescriptorComplete_ev hev h e data done fail cplFail poisoned
  | .commitImmediate path => execCommitImmediate_ev hev path
  | .commitNextCycle path => execCommitNextCycle_ev hev path
  | .commitNextPitch path => execCommitNextPitch_ev hev path
  | .discard path => execDiscard_ev hev path
  | .commitBoundary => execCommitBoundary_ev hev 
  | .transitionStep path => execTransitionStep_ev hev path
  | .storeParameters path sig => execStoreParameters_ev hev path sig
  | .restoreDefaults path sig => execRestoreDefaults_ev hev path sig
  | .restoreCalibration path sig => execRestoreCalibration_ev hev path sig
  | .stopObject path v => execStopObject_ev hev path v
  | .esmRequest path v => execEsmRequest_ev hev path v
  | .clearEmergency path v => execClearEmergency_ev hev path v
  | .clearOverride path j v => execClearOverride_ev hev path j v
  | .patchUnlock path v => execPatchUnlock_ev hev path v
  | .jtagUnlock path v => execJtagUnlock_ev hev path v
  | .pdoMapping path index sub v => execPdoMapping_ev hev path index sub v
  | .lineCycleStart => execLineCycleStart_ev hev 
  | .outputSnapshot => execOutputSnapshot_ev hev 
  | .frameReturn back brk ref => execFrameReturn_ev hev back brk ref
  | .eclModeWrite who v => execEclModeWrite_ev hev who v
  | .sdoRequest down index sub complete data => execSdoRequest_ev hev down index sub complete data
  | .alStateRequest st => execAlStateRequest_ev hev st
  | .sync0 plant => execSync0_ev hev plant
  | .sm2Watchdog => execSm2Watchdog_ev hev 
  | .linkTrained closed => execLinkTrained_ev hev closed
  | .syncSend => execSyncSend_ev hev 
  | .syncCell src epoch time path join => execSyncCell_ev hev src epoch time path join
  | .linkDelayMeasure port ns => execLinkDelayMeasure_ev hev port ns
  | .syncLoss => execSyncLoss_ev hev 
  | .joinComplete => execJoinComplete_ev hev 
  | .cascJoinWrite who v => execCascJoinWrite_ev hev who v
  | .axisSampleCell port n src a pos vel acc time loss => execAxisSampleCell_ev hev port n src a pos vel acc time loss
  | .remoteAxisStale x => execRemoteAxisStale_ev hev x
  | .cascAxmapWrite who x v => execCascAxmapWrite_ev hev who x v
  | .handoffSend who tail => execHandoffSend_ev hev who tail
  | .handoffReceive port n cell => execHandoffReceive_ev hev port n cell
  | .handoffStatus index answer => execHandoffStatus_ev hev index answer
  | .promote who => execPromote_ev hev who
  | .retime who => execRetime_ev hev who
  | .rejoin who => execRejoin_ev hev who
  | .respare who lcn => execRespare_ev hev who lcn
  | .respareGroup => execRespareGroup_ev hev 
  | .rowspare who sector => execRowspare_ev hev who sector
  | .ppr who ch entry => execPpr_ev hev who ch entry
  | .wayspare who slice way => execWayspare_ev hev who slice way
  | .ctxrow who p slot => execCtxrow_ev hev who p slot
  | .serviceDone => execServiceDone_ev hev 
  | .monitorSample m v width ue => execMonitorSample_ev hev m v width ue
  | .monitorHour m => execMonitorHour_ev hev m
  | .hourlySummary => execHourlySummary_ev hev 
  | .recordWrite => execRecordWrite_ev hev 
  | .freeze who => execFreeze_ev hev who
  | .unfreeze who => execUnfreeze_ev hev who
  | .powerFail => execPowerFail_ev hev 
  | .por bootSrc cascId legacyN => execPor_ev hev bootSrc cascId legacyN
  | .deviceReset who key bootSrc cascId legacyN => execDeviceReset_ev hev who key bootSrc cascId legacyN
  | .pllLock tb => execPllLock_ev hev tb
  | .memoryInitDone => execMemoryInitDone_ev hev 
  | .bootLoadDone a b host => execBootLoadDone_ev hev a b host
  | .bootGo who => execBootGo_ev hev who
  | .readySet who => execReadySet_ev hev who
  | .coreReset who p => execCoreReset_ev hev who p
  | .tbLost => execTbLost_ev hev 
  | .kick who => execKick_ev hev who
  | .heartbeatToggle => execHeartbeatToggle_ev hev 
  | .heartbeatLost => execHeartbeatLost_ev hev 
  | .tempSample raw => execTempSample_ev hev raw
  | .jtagHalt scn => execJtagHalt_ev hev scn
  | .jtagDeviceReset bootSrc cascId legacyN => execJtagDeviceReset_ev hev bootSrc cascId legacyN
  | .jtagAccess store pa w => execJtagAccess_ev hev store pa w
  | .commitTimeout path => execCommitTimeout_ev hev path
  | .ringBreak port => execRingBreak_ev hev port
  | .joinAnnouncement src join => execJoinAnnouncement_ev hev src join
  | .stopReqNHigh => execStopReqNHigh_ev hev 
  | .patchWeChange level => execPatchWeChange_ev hev level
  | .plantProcessData rx => execPlantProcessData_ev hev rx
  | .d3hot fn q => execD3hot_ev hev fn q

end Sys2Proof.Machine
end

