-- ==== Sys2Proof/Laws/Fields.lean ====
section
/-! SUPPORT. Bit fields of 64-bit registers: what a field reads after a field is written. -/

namespace Sys2Proof.Machine

theorem getLsbD_fmask (hi lo i : Nat) (h : hi < 64) : (fmask hi lo).getLsbD i = decide (lo ≤ i ∧ i ≤ hi) := by
  simp only [fmask, BitVec.getLsbD_ofNat, Nat.testBit_mul_two_pow, Nat.testBit_two_pow_sub_one]
  by_cases h1 : lo ≤ i <;> by_cases h2 : i ≤ hi <;> simp [h1, h2] <;> omega

theorem getLsbD_setFld (v : BitVec 64) (hi lo x i : Nat) (h : hi < 64) :
    (setFld v hi lo x).getLsbD i = if lo ≤ i ∧ i ≤ hi then x.testBit (i - lo) else v.getLsbD i := by
  simp only [setFld, BitVec.getLsbD_or, BitVec.getLsbD_and, BitVec.getLsbD_not, getLsbD_fmask hi lo i h,
    BitVec.getLsbD_shiftLeft, BitVec.getLsbD_ofNat]
  by_cases h1 : lo ≤ i ∧ i ≤ hi
  · have : i < 64 := by omega
    have : i - lo < 64 := by omega
    simp [*]
  · by_cases h2 : i < 64
    · simp [h1, h2]
    · simp [h1, BitVec.getLsbD_of_ge _ _ (Nat.le_of_not_lt h2)]

theorem testBit_fld (v : BitVec 64) (hi lo i : Nat) :
    (fld v hi lo).testBit i = (decide (i < hi + 1 - lo) && v.getLsbD (lo + i)) := by
  simp [fld, Nat.testBit_mod_two_pow, Nat.testBit_shiftRight, BitVec.testBit_toNat]

/-- The field that was written. -/
theorem fld_setFld (v : BitVec 64) (hi lo x : Nat) (h : hi < 64) :
    fld (setFld v hi lo x) hi lo = x % 2 ^ (hi + 1 - lo) := by
  apply Nat.eq_of_testBit_eq
  intro i
  rw [testBit_fld, getLsbD_setFld _ _ _ _ _ h, Nat.testBit_mod_two_pow]
  by_cases hi' : i < hi + 1 - lo
  · rw [if_pos (by omega), Nat.add_sub_cancel_left]
  · simp [hi']

/-- A field apart from the one that was written. -/
theorem fld_setFld_other (v : BitVec 64) (hi lo x h l : Nat) (hh : hi < 64) (d : h < lo ∨ hi < l) :
    fld (setFld v hi lo x) h l = fld v h l := by
  apply Nat.eq_of_testBit_eq
  intro i
  rw [testBit_fld, testBit_fld, getLsbD_setFld _ _ _ _ _ hh]
  by_cases hi' : i < h + 1 - l
  · rw [if_neg (by omega)]
  · simp [hi']

/-- A bit that was written. -/
theorem bit_setBit (v : BitVec 64) (i : Nat) (b : Bool) (h : i < 64) : bit (setBit v i b) i = b := by
  simp only [bit, setBit, getLsbD_setFld _ _ _ _ _ h]
  cases b <;> simp

/-- A bit apart from the field that was written. -/
theorem bit_setFld_other (v : BitVec 64) (hi lo x i : Nat) (hh : hi < 64) (d : i < lo ∨ hi < i) :
    bit (setFld v hi lo x) i = bit v i := by
  simp only [bit, getLsbD_setFld _ _ _ _ _ hh]
  rw [if_neg (by omega)]

/-- A field of zero. -/
theorem fld_zero (h l : Nat) : fld 0 h l = 0 := by simp [fld]

end Sys2Proof.Machine
end

