-- ==== Sys2Proof/Laws/State.lean ====
section
/-! SUPPORT. What each named update of the state leaves and what it writes: one lemma per field, and per reader of a table,
for each update. -/

namespace Sys2Proof.Machine

/-! setCore. -/

@[simp] theorem State.setCore_part (s : State) (p : Nat) (c : Core) : (s.setCore p c).part = s.part := rfl
@[simp] theorem State.setCore_dt (s : State) (p : Nat) (c : Core) : (s.setCore p c).dt = s.dt := rfl
@[simp] theorem State.setCore_dtRun (s : State) (p : Nat) (c : Core) : (s.setCore p c).dtRun = s.dtRun := rfl
@[simp] theorem State.setCore_mem (s : State) (p : Nat) (c : Core) : (s.setCore p c).mem = s.mem := rfl
@[simp] theorem State.setCore_tags (s : State) (p : Nat) (c : Core) : (s.setCore p c).tags = s.tags := rfl
@[simp] theorem State.setCore_mram (s : State) (p : Nat) (c : Core) : (s.setCore p c).mram = s.mram := rfl
@[simp] theorem State.setCore_planted (s : State) (p : Nat) (c : Core) : (s.setCore p c).planted = s.planted := rfl
@[simp] theorem State.setCore_barns (s : State) (p : Nat) (c : Core) : (s.setCore p c).barns = s.barns := rfl
@[simp] theorem State.setCore_llc (s : State) (p : Nat) (c : Core) : (s.setCore p c).llc = s.llc := rfl
@[simp] theorem State.setCore_hourCe (s : State) (p : Nat) (c : Core) : (s.setCore p c).hourCe = s.hourCe := rfl
@[simp] theorem State.setCore_scrubPos (s : State) (p : Nat) (c : Core) : (s.setCore p c).scrubPos = s.scrubPos := rfl
@[simp] theorem State.setCore_ctl (s : State) (p : Nat) (c : Core) : (s.setCore p c).ctl = s.ctl := rfl
@[simp] theorem State.setCore_posted (s : State) (p : Nat) (c : Core) : (s.setCore p c).posted = s.posted := rfl
@[simp] theorem State.setCore_sysregs (s : State) (p : Nat) (c : Core) : (s.setCore p c).sysregs = s.sysregs := rfl
@[simp] theorem State.setCore_slots (s : State) (p : Nat) (c : Core) : (s.setCore p c).slots = s.slots := rfl
@[simp] theorem State.setCore_ctxs (s : State) (p : Nat) (c : Core) : (s.setCore p c).ctxs = s.ctxs := rfl
@[simp] theorem State.setCore_fillNo (s : State) (p : Nat) (c : Core) : (s.setCore p c).fillNo = s.fillNo := rfl
@[simp] theorem State.setCore_rings (s : State) (p : Nat) (c : Core) : (s.setCore p c).rings = s.rings := rfl
@[simp] theorem State.setCore_wdogFrom (s : State) (p : Nat) (c : Core) : (s.setCore p c).wdogFrom = s.wdogFrom := rfl
@[simp] theorem State.setCore_tlbis (s : State) (p : Nat) (c : Core) : (s.setCore p c).tlbis = s.tlbis := rfl
@[simp] theorem State.setCore_patch (s : State) (p : Nat) (c : Core) : (s.setCore p c).patch = s.patch := rfl
@[simp] theorem State.setCore_jtagUnlocked (s : State) (p : Nat) (c : Core) : (s.setCore p c).jtagUnlocked = s.jtagUnlocked := rfl
@[simp] theorem State.setCore_bins (s : State) (p : Nat) (c : Core) : (s.setCore p c).bins = s.bins := rfl
@[simp] theorem State.setCore_gl (s : State) (p : Nat) (c : Core) : (s.setCore p c).gl = s.gl := rfl
@[simp] theorem State.setCore_gal (s : State) (p : Nat) (c : Core) : (s.setCore p c).gal = s.gal := rfl
@[simp] theorem State.setCore_galSeq (s : State) (p : Nat) (c : Core) : (s.setCore p c).galSeq = s.galSeq := rfl
@[simp] theorem State.setCore_axes (s : State) (p : Nat) (c : Core) : (s.setCore p c).axes = s.axes := rfl
@[simp] theorem State.setCore_cams (s : State) (p : Nat) (c : Core) : (s.setCore p c).cams = s.cams := rfl
@[simp] theorem State.setCore_camEdge (s : State) (p : Nat) (c : Core) : (s.setCore p c).camEdge = s.camEdge := rfl
@[simp] theorem State.setCore_netCams (s : State) (p : Nat) (c : Core) : (s.setCore p c).netCams = s.netCams := rfl
@[simp] theorem State.setCore_marks (s : State) (p : Nat) (c : Core) : (s.setCore p c).marks = s.marks := rfl
@[simp] theorem State.setCore_msLevel (s : State) (p : Nat) (c : Core) : (s.setCore p c).msLevel = s.msLevel := rfl
@[simp] theorem State.setCore_ms (s : State) (p : Nat) (c : Core) : (s.setCore p c).ms = s.ms := rfl
@[simp] theorem State.setCore_objs (s : State) (p : Nat) (c : Core) : (s.setCore p c).objs = s.objs := rfl
@[simp] theorem State.setCore_vfEnable (s : State) (p : Nat) (c : Core) : (s.setCore p c).vfEnable = s.vfEnable := rfl
@[simp] theorem State.setCore_numVfs (s : State) (p : Nat) (c : Core) : (s.setCore p c).numVfs = s.numVfs := rfl
@[simp] theorem State.setCore_d3hot (s : State) (p : Nat) (c : Core) : (s.setCore p c).d3hot = s.d3hot := rfl
@[simp] theorem State.setCore_fns (s : State) (p : Nat) (c : Core) : (s.setCore p c).fns = s.fns := rfl
@[simp] theorem State.setCore_xe (s : State) (p : Nat) (c : Core) : (s.setCore p c).xe = s.xe := rfl
@[simp] theorem State.setCore_xeTurns (s : State) (p : Nat) (c : Core) : (s.setCore p c).xeTurns = s.xeTurns := rfl
@[simp] theorem State.setCore_evenPass (s : State) (p : Nat) (c : Core) : (s.setCore p c).evenPass = s.evenPass := rfl
@[simp] theorem State.setCore_hallRst (s : State) (p : Nat) (c : Core) : (s.setCore p c).hallRst = s.hallRst := rfl
@[simp] theorem State.setCore_pdActive (s : State) (p : Nat) (c : Core) : (s.setCore p c).pdActive = s.pdActive := rfl
@[simp] theorem State.setCore_dict (s : State) (p : Nat) (c : Core) : (s.setCore p c).dict = s.dict := rfl
@[simp] theorem State.setCore_eni (s : State) (p : Nat) (c : Core) : (s.setCore p c).eni = s.eni := rfl
@[simp] theorem State.setCore_params (s : State) (p : Nat) (c : Core) : (s.setCore p c).params = s.params := rfl
@[simp] theorem State.setCore_line (s : State) (p : Nat) (c : Core) : (s.setCore p c).line = s.line := rfl
@[simp] theorem State.setCore_plant (s : State) (p : Nat) (c : Core) : (s.setCore p c).plant = s.plant := rfl
@[simp] theorem State.setCore_lineSnap (s : State) (p : Nat) (c : Core) : (s.setCore p c).lineSnap = s.lineSnap := rfl
@[simp] theorem State.setCore_camNets (s : State) (p : Nat) (c : Core) : (s.setCore p c).camNets = s.camNets := rfl
@[simp] theorem State.setCore_casc (s : State) (p : Nat) (c : Core) : (s.setCore p c).casc = s.casc := rfl
@[simp] theorem State.setCore_service (s : State) (p : Nat) (c : Core) : (s.setCore p c).service = s.service := rfl
@[simp] theorem State.setCore_life (s : State) (p : Nat) (c : Core) : (s.setCore p c).life = s.life := rfl
@[simp] theorem State.setCore_recorder (s : State) (p : Nat) (c : Core) : (s.setCore p c).recorder = s.recorder := rfl
@[simp] theorem State.setCore_emcy (s : State) (p : Nat) (c : Core) : (s.setCore p c).emcy = s.emcy := rfl
@[simp] theorem State.setCore_mgrEvents (s : State) (p : Nat) (c : Core) : (s.setCore p c).mgrEvents = s.mgrEvents := rfl
@[simp] theorem State.setCore_out (s : State) (p : Nat) (c : Core) : (s.setCore p c).out = s.out := rfl
@[simp] theorem State.setCore_pending (s : State) (p : Nat) (c : Core) : (s.setCore p c).pending = s.pending := rfl
@[simp] theorem State.setCore_free (s : State) (p : Nat) (c : Core) : (s.setCore p c).free = s.free := rfl
@[simp] theorem State.setCore_slot_of (s : State) (p : Nat) (c : Core) (q : Nat) : (s.setCore p c).slot q = s.slot q := rfl
@[simp] theorem State.setCore_ctx_of (s : State) (p : Nat) (c : Core) (q : Nat) : (s.setCore p c).ctx q = s.ctx q := rfl
@[simp] theorem State.setCore_bin_of (s : State) (p : Nat) (c : Core) (q : Nat) : (s.setCore p c).bin q = s.bin q := rfl
@[simp] theorem State.setCore_glh_of (s : State) (p : Nat) (c : Core) (q : Nat) : (s.setCore p c).glh q = s.glh q := rfl
@[simp] theorem State.setCore_galr_of (s : State) (p : Nat) (c : Core) (q : Nat) : (s.setCore p c).galr q = s.galr q := rfl
@[simp] theorem State.setCore_reg_of (s : State) (p : Nat) (c : Core) (q : Nat) : (s.setCore p c).reg q = s.reg q := rfl
@[simp] theorem State.setCore_sys_of (s : State) (p : Nat) (c : Core) (q j : Nat) : (s.setCore p c).sys q j = s.sys q j := rfl
@[simp] theorem State.setCore_axr_of (s : State) (p : Nat) (c : Core) (q : Nat) : (s.setCore p c).axr q = s.axr q := rfl
@[simp] theorem State.setCore_obj_of (s : State) (p : Nat) (c : Core) (q j : Nat) : (s.setCore p c).obj q j = s.obj q j := rfl
@[simp] theorem State.setCore_path_of (s : State) (p : Nat) (c : Core) (q : Nat) : (s.setCore p c).path q = s.path q := rfl
@[simp] theorem State.setCore_barn_of (s : State) (p : Nat) (c : Core) (q : Nat) : (s.setCore p c).barn q = s.barn q := rfl
@[simp] theorem State.setCore_fnCfg_of (s : State) (p : Nat) (c : Core) (q : Nat) : (s.setCore p c).fnCfg q = s.fnCfg q := rfl
@[simp] theorem State.setCore_memWord_of (s : State) (p : Nat) (c : Core) (q : Nat) : (s.setCore p c).memWord q = s.memWord q := rfl

/-! setSlot. -/

@[simp] theorem State.setSlot_part (s : State) (n : Nat) (c : Slot) : (s.setSlot n c).part = s.part := rfl
@[simp] theorem State.setSlot_dt (s : State) (n : Nat) (c : Slot) : (s.setSlot n c).dt = s.dt := rfl
@[simp] theorem State.setSlot_dtRun (s : State) (n : Nat) (c : Slot) : (s.setSlot n c).dtRun = s.dtRun := rfl
@[simp] theorem State.setSlot_mem (s : State) (n : Nat) (c : Slot) : (s.setSlot n c).mem = s.mem := rfl
@[simp] theorem State.setSlot_tags (s : State) (n : Nat) (c : Slot) : (s.setSlot n c).tags = s.tags := rfl
@[simp] theorem State.setSlot_mram (s : State) (n : Nat) (c : Slot) : (s.setSlot n c).mram = s.mram := rfl
@[simp] theorem State.setSlot_planted (s : State) (n : Nat) (c : Slot) : (s.setSlot n c).planted = s.planted := rfl
@[simp] theorem State.setSlot_barns (s : State) (n : Nat) (c : Slot) : (s.setSlot n c).barns = s.barns := rfl
@[simp] theorem State.setSlot_llc (s : State) (n : Nat) (c : Slot) : (s.setSlot n c).llc = s.llc := rfl
@[simp] theorem State.setSlot_hourCe (s : State) (n : Nat) (c : Slot) : (s.setSlot n c).hourCe = s.hourCe := rfl
@[simp] theorem State.setSlot_scrubPos (s : State) (n : Nat) (c : Slot) : (s.setSlot n c).scrubPos = s.scrubPos := rfl
@[simp] theorem State.setSlot_ctl (s : State) (n : Nat) (c : Slot) : (s.setSlot n c).ctl = s.ctl := rfl
@[simp] theorem State.setSlot_posted (s : State) (n : Nat) (c : Slot) : (s.setSlot n c).posted = s.posted := rfl
@[simp] theorem State.setSlot_sysregs (s : State) (n : Nat) (c : Slot) : (s.setSlot n c).sysregs = s.sysregs := rfl
@[simp] theorem State.setSlot_cores (s : State) (n : Nat) (c : Slot) : (s.setSlot n c).cores = s.cores := rfl
@[simp] theorem State.setSlot_ctxs (s : State) (n : Nat) (c : Slot) : (s.setSlot n c).ctxs = s.ctxs := rfl
@[simp] theorem State.setSlot_fillNo (s : State) (n : Nat) (c : Slot) : (s.setSlot n c).fillNo = s.fillNo := rfl
@[simp] theorem State.setSlot_rings (s : State) (n : Nat) (c : Slot) : (s.setSlot n c).rings = s.rings := rfl
@[simp] theorem State.setSlot_wdogFrom (s : State) (n : Nat) (c : Slot) : (s.setSlot n c).wdogFrom = s.wdogFrom := rfl
@[simp] theorem State.setSlot_tlbis (s : State) (n : Nat) (c : Slot) : (s.setSlot n c).tlbis = s.tlbis := rfl
@[simp] theorem State.setSlot_patch (s : State) (n : Nat) (c : Slot) : (s.setSlot n c).patch = s.patch := rfl
@[simp] theorem State.setSlot_jtagUnlocked (s : State) (n : Nat) (c : Slot) : (s.setSlot n c).jtagUnlocked = s.jtagUnlocked := rfl
@[simp] theorem State.setSlot_bins (s : State) (n : Nat) (c : Slot) : (s.setSlot n c).bins = s.bins := rfl
@[simp] theorem State.setSlot_gl (s : State) (n : Nat) (c : Slot) : (s.setSlot n c).gl = s.gl := rfl
@[simp] theorem State.setSlot_gal (s : State) (n : Nat) (c : Slot) : (s.setSlot n c).gal = s.gal := rfl
@[simp] theorem State.setSlot_galSeq (s : State) (n : Nat) (c : Slot) : (s.setSlot n c).galSeq = s.galSeq := rfl
@[simp] theorem State.setSlot_axes (s : State) (n : Nat) (c : Slot) : (s.setSlot n c).axes = s.axes := rfl
@[simp] theorem State.setSlot_cams (s : State) (n : Nat) (c : Slot) : (s.setSlot n c).cams = s.cams := rfl
@[simp] theorem State.setSlot_camEdge (s : State) (n : Nat) (c : Slot) : (s.setSlot n c).camEdge = s.camEdge := rfl
@[simp] theorem State.setSlot_netCams (s : State) (n : Nat) (c : Slot) : (s.setSlot n c).netCams = s.netCams := rfl
@[simp] theorem State.setSlot_marks (s : State) (n : Nat) (c : Slot) : (s.setSlot n c).marks = s.marks := rfl
@[simp] theorem State.setSlot_msLevel (s : State) (n : Nat) (c : Slot) : (s.setSlot n c).msLevel = s.msLevel := rfl
@[simp] theorem State.setSlot_ms (s : State) (n : Nat) (c : Slot) : (s.setSlot n c).ms = s.ms := rfl
@[simp] theorem State.setSlot_objs (s : State) (n : Nat) (c : Slot) : (s.setSlot n c).objs = s.objs := rfl
@[simp] theorem State.setSlot_vfEnable (s : State) (n : Nat) (c : Slot) : (s.setSlot n c).vfEnable = s.vfEnable := rfl
@[simp] theorem State.setSlot_numVfs (s : State) (n : Nat) (c : Slot) : (s.setSlot n c).numVfs = s.numVfs := rfl
@[simp] theorem State.setSlot_d3hot (s : State) (n : Nat) (c : Slot) : (s.setSlot n c).d3hot = s.d3hot := rfl
@[simp] theorem State.setSlot_fns (s : State) (n : Nat) (c : Slot) : (s.setSlot n c).fns = s.fns := rfl
@[simp] theorem State.setSlot_xe (s : State) (n : Nat) (c : Slot) : (s.setSlot n c).xe = s.xe := rfl
@[simp] theorem State.setSlot_xeTurns (s : State) (n : Nat) (c : Slot) : (s.setSlot n c).xeTurns = s.xeTurns := rfl
@[simp] theorem State.setSlot_evenPass (s : State) (n : Nat) (c : Slot) : (s.setSlot n c).evenPass = s.evenPass := rfl
@[simp] theorem State.setSlot_hallRst (s : State) (n : Nat) (c : Slot) : (s.setSlot n c).hallRst = s.hallRst := rfl
@[simp] theorem State.setSlot_pdActive (s : State) (n : Nat) (c : Slot) : (s.setSlot n c).pdActive = s.pdActive := rfl
@[simp] theorem State.setSlot_dict (s : State) (n : Nat) (c : Slot) : (s.setSlot n c).dict = s.dict := rfl
@[simp] theorem State.setSlot_eni (s : State) (n : Nat) (c : Slot) : (s.setSlot n c).eni = s.eni := rfl
@[simp] theorem State.setSlot_params (s : State) (n : Nat) (c : Slot) : (s.setSlot n c).params = s.params := rfl
@[simp] theorem State.setSlot_line (s : State) (n : Nat) (c : Slot) : (s.setSlot n c).line = s.line := rfl
@[simp] theorem State.setSlot_plant (s : State) (n : Nat) (c : Slot) : (s.setSlot n c).plant = s.plant := rfl
@[simp] theorem State.setSlot_lineSnap (s : State) (n : Nat) (c : Slot) : (s.setSlot n c).lineSnap = s.lineSnap := rfl
@[simp] theorem State.setSlot_camNets (s : State) (n : Nat) (c : Slot) : (s.setSlot n c).camNets = s.camNets := rfl
@[simp] theorem State.setSlot_casc (s : State) (n : Nat) (c : Slot) : (s.setSlot n c).casc = s.casc := rfl
@[simp] theorem State.setSlot_service (s : State) (n : Nat) (c : Slot) : (s.setSlot n c).service = s.service := rfl
@[simp] theorem State.setSlot_life (s : State) (n : Nat) (c : Slot) : (s.setSlot n c).life = s.life := rfl
@[simp] theorem State.setSlot_recorder (s : State) (n : Nat) (c : Slot) : (s.setSlot n c).recorder = s.recorder := rfl
@[simp] theorem State.setSlot_emcy (s : State) (n : Nat) (c : Slot) : (s.setSlot n c).emcy = s.emcy := rfl
@[simp] theorem State.setSlot_mgrEvents (s : State) (n : Nat) (c : Slot) : (s.setSlot n c).mgrEvents = s.mgrEvents := rfl
@[simp] theorem State.setSlot_out (s : State) (n : Nat) (c : Slot) : (s.setSlot n c).out = s.out := rfl
@[simp] theorem State.setSlot_pending (s : State) (n : Nat) (c : Slot) : (s.setSlot n c).pending = s.pending := rfl
@[simp] theorem State.setSlot_free (s : State) (n : Nat) (c : Slot) : (s.setSlot n c).free = s.free := rfl
@[simp] theorem State.setSlot_core_of (s : State) (n : Nat) (c : Slot) (q : Nat) : (s.setSlot n c).core q = s.core q := rfl
@[simp] theorem State.setSlot_ctx_of (s : State) (n : Nat) (c : Slot) (q : Nat) : (s.setSlot n c).ctx q = s.ctx q := rfl
@[simp] theorem State.setSlot_bin_of (s : State) (n : Nat) (c : Slot) (q : Nat) : (s.setSlot n c).bin q = s.bin q := rfl
@[simp] theorem State.setSlot_glh_of (s : State) (n : Nat) (c : Slot) (q : Nat) : (s.setSlot n c).glh q = s.glh q := rfl
@[simp] theorem State.setSlot_galr_of (s : State) (n : Nat) (c : Slot) (q : Nat) : (s.setSlot n c).galr q = s.galr q := rfl
@[simp] theorem State.setSlot_reg_of (s : State) (n : Nat) (c : Slot) (q : Nat) : (s.setSlot n c).reg q = s.reg q := rfl
@[simp] theorem State.setSlot_sys_of (s : State) (n : Nat) (c : Slot) (q j : Nat) : (s.setSlot n c).sys q j = s.sys q j := rfl
@[simp] theorem State.setSlot_axr_of (s : State) (n : Nat) (c : Slot) (q : Nat) : (s.setSlot n c).axr q = s.axr q := rfl
@[simp] theorem State.setSlot_obj_of (s : State) (n : Nat) (c : Slot) (q j : Nat) : (s.setSlot n c).obj q j = s.obj q j := rfl
@[simp] theorem State.setSlot_path_of (s : State) (n : Nat) (c : Slot) (q : Nat) : (s.setSlot n c).path q = s.path q := rfl
@[simp] theorem State.setSlot_barn_of (s : State) (n : Nat) (c : Slot) (q : Nat) : (s.setSlot n c).barn q = s.barn q := rfl
@[simp] theorem State.setSlot_fnCfg_of (s : State) (n : Nat) (c : Slot) (q : Nat) : (s.setSlot n c).fnCfg q = s.fnCfg q := rfl
@[simp] theorem State.setSlot_memWord_of (s : State) (n : Nat) (c : Slot) (q : Nat) : (s.setSlot n c).memWord q = s.memWord q := rfl

/-! setCtx. -/

@[simp] theorem State.setCtx_part (s : State) (n : Nat) (c : SwCtx) : (s.setCtx n c).part = s.part := rfl
@[simp] theorem State.setCtx_dt (s : State) (n : Nat) (c : SwCtx) : (s.setCtx n c).dt = s.dt := rfl
@[simp] theorem State.setCtx_dtRun (s : State) (n : Nat) (c : SwCtx) : (s.setCtx n c).dtRun = s.dtRun := rfl
@[simp] theorem State.setCtx_mem (s : State) (n : Nat) (c : SwCtx) : (s.setCtx n c).mem = s.mem := rfl
@[simp] theorem State.setCtx_tags (s : State) (n : Nat) (c : SwCtx) : (s.setCtx n c).tags = s.tags := rfl
@[simp] theorem State.setCtx_mram (s : State) (n : Nat) (c : SwCtx) : (s.setCtx n c).mram = s.mram := rfl
@[simp] theorem State.setCtx_planted (s : State) (n : Nat) (c : SwCtx) : (s.setCtx n c).planted = s.planted := rfl
@[simp] theorem State.setCtx_barns (s : State) (n : Nat) (c : SwCtx) : (s.setCtx n c).barns = s.barns := rfl
@[simp] theorem State.setCtx_llc (s : State) (n : Nat) (c : SwCtx) : (s.setCtx n c).llc = s.llc := rfl
@[simp] theorem State.setCtx_hourCe (s : State) (n : Nat) (c : SwCtx) : (s.setCtx n c).hourCe = s.hourCe := rfl
@[simp] theorem State.setCtx_scrubPos (s : State) (n : Nat) (c : SwCtx) : (s.setCtx n c).scrubPos = s.scrubPos := rfl
@[simp] theorem State.setCtx_ctl (s : State) (n : Nat) (c : SwCtx) : (s.setCtx n c).ctl = s.ctl := rfl
@[simp] theorem State.setCtx_posted (s : State) (n : Nat) (c : SwCtx) : (s.setCtx n c).posted = s.posted := rfl
@[simp] theorem State.setCtx_sysregs (s : State) (n : Nat) (c : SwCtx) : (s.setCtx n c).sysregs = s.sysregs := rfl
@[simp] theorem State.setCtx_cores (s : State) (n : Nat) (c : SwCtx) : (s.setCtx n c).cores = s.cores := rfl
@[simp] theorem State.setCtx_slots (s : State) (n : Nat) (c : SwCtx) : (s.setCtx n c).slots = s.slots := rfl
@[simp] theorem State.setCtx_fillNo (s : State) (n : Nat) (c : SwCtx) : (s.setCtx n c).fillNo = s.fillNo := rfl
@[simp] theorem State.setCtx_rings (s : State) (n : Nat) (c : SwCtx) : (s.setCtx n c).rings = s.rings := rfl
@[simp] theorem State.setCtx_wdogFrom (s : State) (n : Nat) (c : SwCtx) : (s.setCtx n c).wdogFrom = s.wdogFrom := rfl
@[simp] theorem State.setCtx_tlbis (s : State) (n : Nat) (c : SwCtx) : (s.setCtx n c).tlbis = s.tlbis := rfl
@[simp] theorem State.setCtx_patch (s : State) (n : Nat) (c : SwCtx) : (s.setCtx n c).patch = s.patch := rfl
@[simp] theorem State.setCtx_jtagUnlocked (s : State) (n : Nat) (c : SwCtx) : (s.setCtx n c).jtagUnlocked = s.jtagUnlocked := rfl
@[simp] theorem State.setCtx_bins (s : State) (n : Nat) (c : SwCtx) : (s.setCtx n c).bins = s.bins := rfl
@[simp] theorem State.setCtx_gl (s : State) (n : Nat) (c : SwCtx) : (s.setCtx n c).gl = s.gl := rfl
@[simp] theorem State.setCtx_gal (s : State) (n : Nat) (c : SwCtx) : (s.setCtx n c).gal = s.gal := rfl
@[simp] theorem State.setCtx_galSeq (s : State) (n : Nat) (c : SwCtx) : (s.setCtx n c).galSeq = s.galSeq := rfl
@[simp] theorem State.setCtx_axes (s : State) (n : Nat) (c : SwCtx) : (s.setCtx n c).axes = s.axes := rfl
@[simp] theorem State.setCtx_cams (s : State) (n : Nat) (c : SwCtx) : (s.setCtx n c).cams = s.cams := rfl
@[simp] theorem State.setCtx_camEdge (s : State) (n : Nat) (c : SwCtx) : (s.setCtx n c).camEdge = s.camEdge := rfl
@[simp] theorem State.setCtx_netCams (s : State) (n : Nat) (c : SwCtx) : (s.setCtx n c).netCams = s.netCams := rfl
@[simp] theorem State.setCtx_marks (s : State) (n : Nat) (c : SwCtx) : (s.setCtx n c).marks = s.marks := rfl
@[simp] theorem State.setCtx_msLevel (s : State) (n : Nat) (c : SwCtx) : (s.setCtx n c).msLevel = s.msLevel := rfl
@[simp] theorem State.setCtx_ms (s : State) (n : Nat) (c : SwCtx) : (s.setCtx n c).ms = s.ms := rfl
@[simp] theorem State.setCtx_objs (s : State) (n : Nat) (c : SwCtx) : (s.setCtx n c).objs = s.objs := rfl
@[simp] theorem State.setCtx_vfEnable (s : State) (n : Nat) (c : SwCtx) : (s.setCtx n c).vfEnable = s.vfEnable := rfl
@[simp] theorem State.setCtx_numVfs (s : State) (n : Nat) (c : SwCtx) : (s.setCtx n c).numVfs = s.numVfs := rfl
@[simp] theorem State.setCtx_d3hot (s : State) (n : Nat) (c : SwCtx) : (s.setCtx n c).d3hot = s.d3hot := rfl
@[simp] theorem State.setCtx_fns (s : State) (n : Nat) (c : SwCtx) : (s.setCtx n c).fns = s.fns := rfl
@[simp] theorem State.setCtx_xe (s : State) (n : Nat) (c : SwCtx) : (s.setCtx n c).xe = s.xe := rfl
@[simp] theorem State.setCtx_xeTurns (s : State) (n : Nat) (c : SwCtx) : (s.setCtx n c).xeTurns = s.xeTurns := rfl
@[simp] theorem State.setCtx_evenPass (s : State) (n : Nat) (c : SwCtx) : (s.setCtx n c).evenPass = s.evenPass := rfl
@[simp] theorem State.setCtx_hallRst (s : State) (n : Nat) (c : SwCtx) : (s.setCtx n c).hallRst = s.hallRst := rfl
@[simp] theorem State.setCtx_pdActive (s : State) (n : Nat) (c : SwCtx) : (s.setCtx n c).pdActive = s.pdActive := rfl
@[simp] theorem State.setCtx_dict (s : State) (n : Nat) (c : SwCtx) : (s.setCtx n c).dict = s.dict := rfl
@[simp] theorem State.setCtx_eni (s : State) (n : Nat) (c : SwCtx) : (s.setCtx n c).eni = s.eni := rfl
@[simp] theorem State.setCtx_params (s : State) (n : Nat) (c : SwCtx) : (s.setCtx n c).params = s.params := rfl
@[simp] theorem State.setCtx_line (s : State) (n : Nat) (c : SwCtx) : (s.setCtx n c).line = s.line := rfl
@[simp] theorem State.setCtx_plant (s : State) (n : Nat) (c : SwCtx) : (s.setCtx n c).plant = s.plant := rfl
@[simp] theorem State.setCtx_lineSnap (s : State) (n : Nat) (c : SwCtx) : (s.setCtx n c).lineSnap = s.lineSnap := rfl
@[simp] theorem State.setCtx_camNets (s : State) (n : Nat) (c : SwCtx) : (s.setCtx n c).camNets = s.camNets := rfl
@[simp] theorem State.setCtx_casc (s : State) (n : Nat) (c : SwCtx) : (s.setCtx n c).casc = s.casc := rfl
@[simp] theorem State.setCtx_service (s : State) (n : Nat) (c : SwCtx) : (s.setCtx n c).service = s.service := rfl
@[simp] theorem State.setCtx_life (s : State) (n : Nat) (c : SwCtx) : (s.setCtx n c).life = s.life := rfl
@[simp] theorem State.setCtx_recorder (s : State) (n : Nat) (c : SwCtx) : (s.setCtx n c).recorder = s.recorder := rfl
@[simp] theorem State.setCtx_emcy (s : State) (n : Nat) (c : SwCtx) : (s.setCtx n c).emcy = s.emcy := rfl
@[simp] theorem State.setCtx_mgrEvents (s : State) (n : Nat) (c : SwCtx) : (s.setCtx n c).mgrEvents = s.mgrEvents := rfl
@[simp] theorem State.setCtx_out (s : State) (n : Nat) (c : SwCtx) : (s.setCtx n c).out = s.out := rfl
@[simp] theorem State.setCtx_pending (s : State) (n : Nat) (c : SwCtx) : (s.setCtx n c).pending = s.pending := rfl
@[simp] theorem State.setCtx_free (s : State) (n : Nat) (c : SwCtx) : (s.setCtx n c).free = s.free := rfl
@[simp] theorem State.setCtx_core_of (s : State) (n : Nat) (c : SwCtx) (q : Nat) : (s.setCtx n c).core q = s.core q := rfl
@[simp] theorem State.setCtx_slot_of (s : State) (n : Nat) (c : SwCtx) (q : Nat) : (s.setCtx n c).slot q = s.slot q := rfl
@[simp] theorem State.setCtx_bin_of (s : State) (n : Nat) (c : SwCtx) (q : Nat) : (s.setCtx n c).bin q = s.bin q := rfl
@[simp] theorem State.setCtx_glh_of (s : State) (n : Nat) (c : SwCtx) (q : Nat) : (s.setCtx n c).glh q = s.glh q := rfl
@[simp] theorem State.setCtx_galr_of (s : State) (n : Nat) (c : SwCtx) (q : Nat) : (s.setCtx n c).galr q = s.galr q := rfl
@[simp] theorem State.setCtx_reg_of (s : State) (n : Nat) (c : SwCtx) (q : Nat) : (s.setCtx n c).reg q = s.reg q := rfl
@[simp] theorem State.setCtx_sys_of (s : State) (n : Nat) (c : SwCtx) (q j : Nat) : (s.setCtx n c).sys q j = s.sys q j := rfl
@[simp] theorem State.setCtx_axr_of (s : State) (n : Nat) (c : SwCtx) (q : Nat) : (s.setCtx n c).axr q = s.axr q := rfl
@[simp] theorem State.setCtx_obj_of (s : State) (n : Nat) (c : SwCtx) (q j : Nat) : (s.setCtx n c).obj q j = s.obj q j := rfl
@[simp] theorem State.setCtx_path_of (s : State) (n : Nat) (c : SwCtx) (q : Nat) : (s.setCtx n c).path q = s.path q := rfl
@[simp] theorem State.setCtx_barn_of (s : State) (n : Nat) (c : SwCtx) (q : Nat) : (s.setCtx n c).barn q = s.barn q := rfl
@[simp] theorem State.setCtx_fnCfg_of (s : State) (n : Nat) (c : SwCtx) (q : Nat) : (s.setCtx n c).fnCfg q = s.fnCfg q := rfl
@[simp] theorem State.setCtx_memWord_of (s : State) (n : Nat) (c : SwCtx) (q : Nat) : (s.setCtx n c).memWord q = s.memWord q := rfl

/-! setBin. -/

@[simp] theorem State.setBin_part (s : State) (n : Nat) (b : Bin) : (s.setBin n b).part = s.part := rfl
@[simp] theorem State.setBin_dt (s : State) (n : Nat) (b : Bin) : (s.setBin n b).dt = s.dt := rfl
@[simp] theorem State.setBin_dtRun (s : State) (n : Nat) (b : Bin) : (s.setBin n b).dtRun = s.dtRun := rfl
@[simp] theorem State.setBin_mem (s : State) (n : Nat) (b : Bin) : (s.setBin n b).mem = s.mem := rfl
@[simp] theorem State.setBin_tags (s : State) (n : Nat) (b : Bin) : (s.setBin n b).tags = s.tags := rfl
@[simp] theorem State.setBin_mram (s : State) (n : Nat) (b : Bin) : (s.setBin n b).mram = s.mram := rfl
@[simp] theorem State.setBin_planted (s : State) (n : Nat) (b : Bin) : (s.setBin n b).planted = s.planted := rfl
@[simp] theorem State.setBin_barns (s : State) (n : Nat) (b : Bin) : (s.setBin n b).barns = s.barns := rfl
@[simp] theorem State.setBin_llc (s : State) (n : Nat) (b : Bin) : (s.setBin n b).llc = s.llc := rfl
@[simp] theorem State.setBin_hourCe (s : State) (n : Nat) (b : Bin) : (s.setBin n b).hourCe = s.hourCe := rfl
@[simp] theorem State.setBin_scrubPos (s : State) (n : Nat) (b : Bin) : (s.setBin n b).scrubPos = s.scrubPos := rfl
@[simp] theorem State.setBin_ctl (s : State) (n : Nat) (b : Bin) : (s.setBin n b).ctl = s.ctl := rfl
@[simp] theorem State.setBin_posted (s : State) (n : Nat) (b : Bin) : (s.setBin n b).posted = s.posted := rfl
@[simp] theorem State.setBin_sysregs (s : State) (n : Nat) (b : Bin) : (s.setBin n b).sysregs = s.sysregs := rfl
@[simp] theorem State.setBin_cores (s : State) (n : Nat) (b : Bin) : (s.setBin n b).cores = s.cores := rfl
@[simp] theorem State.setBin_slots (s : State) (n : Nat) (b : Bin) : (s.setBin n b).slots = s.slots := rfl
@[simp] theorem State.setBin_ctxs (s : State) (n : Nat) (b : Bin) : (s.setBin n b).ctxs = s.ctxs := rfl
@[simp] theorem State.setBin_fillNo (s : State) (n : Nat) (b : Bin) : (s.setBin n b).fillNo = s.fillNo := rfl
@[simp] theorem State.setBin_rings (s : State) (n : Nat) (b : Bin) : (s.setBin n b).rings = s.rings := rfl
@[simp] theorem State.setBin_wdogFrom (s : State) (n : Nat) (b : Bin) : (s.setBin n b).wdogFrom = s.wdogFrom := rfl
@[simp] theorem State.setBin_tlbis (s : State) (n : Nat) (b : Bin) : (s.setBin n b).tlbis = s.tlbis := rfl
@[simp] theorem State.setBin_patch (s : State) (n : Nat) (b : Bin) : (s.setBin n b).patch = s.patch := rfl
@[simp] theorem State.setBin_jtagUnlocked (s : State) (n : Nat) (b : Bin) : (s.setBin n b).jtagUnlocked = s.jtagUnlocked := rfl
@[simp] theorem State.setBin_gl (s : State) (n : Nat) (b : Bin) : (s.setBin n b).gl = s.gl := rfl
@[simp] theorem State.setBin_gal (s : State) (n : Nat) (b : Bin) : (s.setBin n b).gal = s.gal := rfl
@[simp] theorem State.setBin_galSeq (s : State) (n : Nat) (b : Bin) : (s.setBin n b).galSeq = s.galSeq := rfl
@[simp] theorem State.setBin_axes (s : State) (n : Nat) (b : Bin) : (s.setBin n b).axes = s.axes := rfl
@[simp] theorem State.setBin_cams (s : State) (n : Nat) (b : Bin) : (s.setBin n b).cams = s.cams := rfl
@[simp] theorem State.setBin_camEdge (s : State) (n : Nat) (b : Bin) : (s.setBin n b).camEdge = s.camEdge := rfl
@[simp] theorem State.setBin_netCams (s : State) (n : Nat) (b : Bin) : (s.setBin n b).netCams = s.netCams := rfl
@[simp] theorem State.setBin_marks (s : State) (n : Nat) (b : Bin) : (s.setBin n b).marks = s.marks := rfl
@[simp] theorem State.setBin_msLevel (s : State) (n : Nat) (b : Bin) : (s.setBin n b).msLevel = s.msLevel := rfl
@[simp] theorem State.setBin_ms (s : State) (n : Nat) (b : Bin) : (s.setBin n b).ms = s.ms := rfl
@[simp] theorem State.setBin_objs (s : State) (n : Nat) (b : Bin) : (s.setBin n b).objs = s.objs := rfl
@[simp] theorem State.setBin_vfEnable (s : State) (n : Nat) (b : Bin) : (s.setBin n b).vfEnable = s.vfEnable := rfl
@[simp] theorem State.setBin_numVfs (s : State) (n : Nat) (b : Bin) : (s.setBin n b).numVfs = s.numVfs := rfl
@[simp] theorem State.setBin_d3hot (s : State) (n : Nat) (b : Bin) : (s.setBin n b).d3hot = s.d3hot := rfl
@[simp] theorem State.setBin_fns (s : State) (n : Nat) (b : Bin) : (s.setBin n b).fns = s.fns := rfl
@[simp] theorem State.setBin_xe (s : State) (n : Nat) (b : Bin) : (s.setBin n b).xe = s.xe := rfl
@[simp] theorem State.setBin_xeTurns (s : State) (n : Nat) (b : Bin) : (s.setBin n b).xeTurns = s.xeTurns := rfl
@[simp] theorem State.setBin_evenPass (s : State) (n : Nat) (b : Bin) : (s.setBin n b).evenPass = s.evenPass := rfl
@[simp] theorem State.setBin_hallRst (s : State) (n : Nat) (b : Bin) : (s.setBin n b).hallRst = s.hallRst := rfl
@[simp] theorem State.setBin_pdActive (s : State) (n : Nat) (b : Bin) : (s.setBin n b).pdActive = s.pdActive := rfl
@[simp] theorem State.setBin_dict (s : State) (n : Nat) (b : Bin) : (s.setBin n b).dict = s.dict := rfl
@[simp] theorem State.setBin_eni (s : State) (n : Nat) (b : Bin) : (s.setBin n b).eni = s.eni := rfl
@[simp] theorem State.setBin_params (s : State) (n : Nat) (b : Bin) : (s.setBin n b).params = s.params := rfl
@[simp] theorem State.setBin_line (s : State) (n : Nat) (b : Bin) : (s.setBin n b).line = s.line := rfl
@[simp] theorem State.setBin_plant (s : State) (n : Nat) (b : Bin) : (s.setBin n b).plant = s.plant := rfl
@[simp] theorem State.setBin_lineSnap (s : State) (n : Nat) (b : Bin) : (s.setBin n b).lineSnap = s.lineSnap := rfl
@[simp] theorem State.setBin_camNets (s : State) (n : Nat) (b : Bin) : (s.setBin n b).camNets = s.camNets := rfl
@[simp] theorem State.setBin_casc (s : State) (n : Nat) (b : Bin) : (s.setBin n b).casc = s.casc := rfl
@[simp] theorem State.setBin_service (s : State) (n : Nat) (b : Bin) : (s.setBin n b).service = s.service := rfl
@[simp] theorem State.setBin_life (s : State) (n : Nat) (b : Bin) : (s.setBin n b).life = s.life := rfl
@[simp] theorem State.setBin_recorder (s : State) (n : Nat) (b : Bin) : (s.setBin n b).recorder = s.recorder := rfl
@[simp] theorem State.setBin_emcy (s : State) (n : Nat) (b : Bin) : (s.setBin n b).emcy = s.emcy := rfl
@[simp] theorem State.setBin_mgrEvents (s : State) (n : Nat) (b : Bin) : (s.setBin n b).mgrEvents = s.mgrEvents := rfl
@[simp] theorem State.setBin_out (s : State) (n : Nat) (b : Bin) : (s.setBin n b).out = s.out := rfl
@[simp] theorem State.setBin_pending (s : State) (n : Nat) (b : Bin) : (s.setBin n b).pending = s.pending := rfl
@[simp] theorem State.setBin_free (s : State) (n : Nat) (b : Bin) : (s.setBin n b).free = s.free := rfl
@[simp] theorem State.setBin_core_of (s : State) (n : Nat) (b : Bin) (q : Nat) : (s.setBin n b).core q = s.core q := rfl
@[simp] theorem State.setBin_slot_of (s : State) (n : Nat) (b : Bin) (q : Nat) : (s.setBin n b).slot q = s.slot q := rfl
@[simp] theorem State.setBin_ctx_of (s : State) (n : Nat) (b : Bin) (q : Nat) : (s.setBin n b).ctx q = s.ctx q := rfl
@[simp] theorem State.setBin_glh_of (s : State) (n : Nat) (b : Bin) (q : Nat) : (s.setBin n b).glh q = s.glh q := rfl
@[simp] theorem State.setBin_galr_of (s : State) (n : Nat) (b : Bin) (q : Nat) : (s.setBin n b).galr q = s.galr q := rfl
@[simp] theorem State.setBin_reg_of (s : State) (n : Nat) (b : Bin) (q : Nat) : (s.setBin n b).reg q = s.reg q := rfl
@[simp] theorem State.setBin_sys_of (s : State) (n : Nat) (b : Bin) (q j : Nat) : (s.setBin n b).sys q j = s.sys q j := rfl
@[simp] theorem State.setBin_axr_of (s : State) (n : Nat) (b : Bin) (q : Nat) : (s.setBin n b).axr q = s.axr q := rfl
@[simp] theorem State.setBin_obj_of (s : State) (n : Nat) (b : Bin) (q j : Nat) : (s.setBin n b).obj q j = s.obj q j := rfl
@[simp] theorem State.setBin_path_of (s : State) (n : Nat) (b : Bin) (q : Nat) : (s.setBin n b).path q = s.path q := rfl
@[simp] theorem State.setBin_barn_of (s : State) (n : Nat) (b : Bin) (q : Nat) : (s.setBin n b).barn q = s.barn q := rfl
@[simp] theorem State.setBin_fnCfg_of (s : State) (n : Nat) (b : Bin) (q : Nat) : (s.setBin n b).fnCfg q = s.fnCfg q := rfl
@[simp] theorem State.setBin_memWord_of (s : State) (n : Nat) (b : Bin) (q : Nat) : (s.setBin n b).memWord q = s.memWord q := rfl

/-! setGl. -/

@[simp] theorem State.setGl_part (s : State) (h : Nat) (g : GlHall) : (s.setGl h g).part = s.part := rfl
@[simp] theorem State.setGl_dt (s : State) (h : Nat) (g : GlHall) : (s.setGl h g).dt = s.dt := rfl
@[simp] theorem State.setGl_dtRun (s : State) (h : Nat) (g : GlHall) : (s.setGl h g).dtRun = s.dtRun := rfl
@[simp] theorem State.setGl_mem (s : State) (h : Nat) (g : GlHall) : (s.setGl h g).mem = s.mem := rfl
@[simp] theorem State.setGl_tags (s : State) (h : Nat) (g : GlHall) : (s.setGl h g).tags = s.tags := rfl
@[simp] theorem State.setGl_mram (s : State) (h : Nat) (g : GlHall) : (s.setGl h g).mram = s.mram := rfl
@[simp] theorem State.setGl_planted (s : State) (h : Nat) (g : GlHall) : (s.setGl h g).planted = s.planted := rfl
@[simp] theorem State.setGl_barns (s : State) (h : Nat) (g : GlHall) : (s.setGl h g).barns = s.barns := rfl
@[simp] theorem State.setGl_llc (s : State) (h : Nat) (g : GlHall) : (s.setGl h g).llc = s.llc := rfl
@[simp] theorem State.setGl_hourCe (s : State) (h : Nat) (g : GlHall) : (s.setGl h g).hourCe = s.hourCe := rfl
@[simp] theorem State.setGl_scrubPos (s : State) (h : Nat) (g : GlHall) : (s.setGl h g).scrubPos = s.scrubPos := rfl
@[simp] theorem State.setGl_ctl (s : State) (h : Nat) (g : GlHall) : (s.setGl h g).ctl = s.ctl := rfl
@[simp] theorem State.setGl_posted (s : State) (h : Nat) (g : GlHall) : (s.setGl h g).posted = s.posted := rfl
@[simp] theorem State.setGl_sysregs (s : State) (h : Nat) (g : GlHall) : (s.setGl h g).sysregs = s.sysregs := rfl
@[simp] theorem State.setGl_cores (s : State) (h : Nat) (g : GlHall) : (s.setGl h g).cores = s.cores := rfl
@[simp] theorem State.setGl_slots (s : State) (h : Nat) (g : GlHall) : (s.setGl h g).slots = s.slots := rfl
@[simp] theorem State.setGl_ctxs (s : State) (h : Nat) (g : GlHall) : (s.setGl h g).ctxs = s.ctxs := rfl
@[simp] theorem State.setGl_fillNo (s : State) (h : Nat) (g : GlHall) : (s.setGl h g).fillNo = s.fillNo := rfl
@[simp] theorem State.setGl_rings (s : State) (h : Nat) (g : GlHall) : (s.setGl h g).rings = s.rings := rfl
@[simp] theorem State.setGl_wdogFrom (s : State) (h : Nat) (g : GlHall) : (s.setGl h g).wdogFrom = s.wdogFrom := rfl
@[simp] theorem State.setGl_tlbis (s : State) (h : Nat) (g : GlHall) : (s.setGl h g).tlbis = s.tlbis := rfl
@[simp] theorem State.setGl_patch (s : State) (h : Nat) (g : GlHall) : (s.setGl h g).patch = s.patch := rfl
@[simp] theorem State.setGl_jtagUnlocked (s : State) (h : Nat) (g : GlHall) : (s.setGl h g).jtagUnlocked = s.jtagUnlocked := rfl
@[simp] theorem State.setGl_bins (s : State) (h : Nat) (g : GlHall) : (s.setGl h g).bins = s.bins := rfl
@[simp] theorem State.setGl_gal (s : State) (h : Nat) (g : GlHall) : (s.setGl h g).gal = s.gal := rfl
@[simp] theorem State.setGl_galSeq (s : State) (h : Nat) (g : GlHall) : (s.setGl h g).galSeq = s.galSeq := rfl
@[simp] theorem State.setGl_axes (s : State) (h : Nat) (g : GlHall) : (s.setGl h g).axes = s.axes := rfl
@[simp] theorem State.setGl_cams (s : State) (h : Nat) (g : GlHall) : (s.setGl h g).cams = s.cams := rfl
@[simp] theorem State.setGl_camEdge (s : State) (h : Nat) (g : GlHall) : (s.setGl h g).camEdge = s.camEdge := rfl
@[simp] theorem State.setGl_netCams (s : State) (h : Nat) (g : GlHall) : (s.setGl h g).netCams = s.netCams := rfl
@[simp] theorem State.setGl_marks (s : State) (h : Nat) (g : GlHall) : (s.setGl h g).marks = s.marks := rfl
@[simp] theorem State.setGl_msLevel (s : State) (h : Nat) (g : GlHall) : (s.setGl h g).msLevel = s.msLevel := rfl
@[simp] theorem State.setGl_ms (s : State) (h : Nat) (g : GlHall) : (s.setGl h g).ms = s.ms := rfl
@[simp] theorem State.setGl_objs (s : State) (h : Nat) (g : GlHall) : (s.setGl h g).objs = s.objs := rfl
@[simp] theorem State.setGl_vfEnable (s : State) (h : Nat) (g : GlHall) : (s.setGl h g).vfEnable = s.vfEnable := rfl
@[simp] theorem State.setGl_numVfs (s : State) (h : Nat) (g : GlHall) : (s.setGl h g).numVfs = s.numVfs := rfl
@[simp] theorem State.setGl_d3hot (s : State) (h : Nat) (g : GlHall) : (s.setGl h g).d3hot = s.d3hot := rfl
@[simp] theorem State.setGl_fns (s : State) (h : Nat) (g : GlHall) : (s.setGl h g).fns = s.fns := rfl
@[simp] theorem State.setGl_xe (s : State) (h : Nat) (g : GlHall) : (s.setGl h g).xe = s.xe := rfl
@[simp] theorem State.setGl_xeTurns (s : State) (h : Nat) (g : GlHall) : (s.setGl h g).xeTurns = s.xeTurns := rfl
@[simp] theorem State.setGl_evenPass (s : State) (h : Nat) (g : GlHall) : (s.setGl h g).evenPass = s.evenPass := rfl
@[simp] theorem State.setGl_hallRst (s : State) (h : Nat) (g : GlHall) : (s.setGl h g).hallRst = s.hallRst := rfl
@[simp] theorem State.setGl_pdActive (s : State) (h : Nat) (g : GlHall) : (s.setGl h g).pdActive = s.pdActive := rfl
@[simp] theorem State.setGl_dict (s : State) (h : Nat) (g : GlHall) : (s.setGl h g).dict = s.dict := rfl
@[simp] theorem State.setGl_eni (s : State) (h : Nat) (g : GlHall) : (s.setGl h g).eni = s.eni := rfl
@[simp] theorem State.setGl_params (s : State) (h : Nat) (g : GlHall) : (s.setGl h g).params = s.params := rfl
@[simp] theorem State.setGl_line (s : State) (h : Nat) (g : GlHall) : (s.setGl h g).line = s.line := rfl
@[simp] theorem State.setGl_plant (s : State) (h : Nat) (g : GlHall) : (s.setGl h g).plant = s.plant := rfl
@[simp] theorem State.setGl_lineSnap (s : State) (h : Nat) (g : GlHall) : (s.setGl h g).lineSnap = s.lineSnap := rfl
@[simp] theorem State.setGl_camNets (s : State) (h : Nat) (g : GlHall) : (s.setGl h g).camNets = s.camNets := rfl
@[simp] theorem State.setGl_casc (s : State) (h : Nat) (g : GlHall) : (s.setGl h g).casc = s.casc := rfl
@[simp] theorem State.setGl_service (s : State) (h : Nat) (g : GlHall) : (s.setGl h g).service = s.service := rfl
@[simp] theorem State.setGl_life (s : State) (h : Nat) (g : GlHall) : (s.setGl h g).life = s.life := rfl
@[simp] theorem State.setGl_recorder (s : State) (h : Nat) (g : GlHall) : (s.setGl h g).recorder = s.recorder := rfl
@[simp] theorem State.setGl_emcy (s : State) (h : Nat) (g : GlHall) : (s.setGl h g).emcy = s.emcy := rfl
@[simp] theorem State.setGl_mgrEvents (s : State) (h : Nat) (g : GlHall) : (s.setGl h g).mgrEvents = s.mgrEvents := rfl
@[simp] theorem State.setGl_out (s : State) (h : Nat) (g : GlHall) : (s.setGl h g).out = s.out := rfl
@[simp] theorem State.setGl_pending (s : State) (h : Nat) (g : GlHall) : (s.setGl h g).pending = s.pending := rfl
@[simp] theorem State.setGl_free (s : State) (h : Nat) (g : GlHall) : (s.setGl h g).free = s.free := rfl
@[simp] theorem State.setGl_core_of (s : State) (h : Nat) (g : GlHall) (q : Nat) : (s.setGl h g).core q = s.core q := rfl
@[simp] theorem State.setGl_slot_of (s : State) (h : Nat) (g : GlHall) (q : Nat) : (s.setGl h g).slot q = s.slot q := rfl
@[simp] theorem State.setGl_ctx_of (s : State) (h : Nat) (g : GlHall) (q : Nat) : (s.setGl h g).ctx q = s.ctx q := rfl
@[simp] theorem State.setGl_bin_of (s : State) (h : Nat) (g : GlHall) (q : Nat) : (s.setGl h g).bin q = s.bin q := rfl
@[simp] theorem State.setGl_galr_of (s : State) (h : Nat) (g : GlHall) (q : Nat) : (s.setGl h g).galr q = s.galr q := rfl
@[simp] theorem State.setGl_reg_of (s : State) (h : Nat) (g : GlHall) (q : Nat) : (s.setGl h g).reg q = s.reg q := rfl
@[simp] theorem State.setGl_sys_of (s : State) (h : Nat) (g : GlHall) (q j : Nat) : (s.setGl h g).sys q j = s.sys q j := rfl
@[simp] theorem State.setGl_axr_of (s : State) (h : Nat) (g : GlHall) (q : Nat) : (s.setGl h g).axr q = s.axr q := rfl
@[simp] theorem State.setGl_obj_of (s : State) (h : Nat) (g : GlHall) (q j : Nat) : (s.setGl h g).obj q j = s.obj q j := rfl
@[simp] theorem State.setGl_path_of (s : State) (h : Nat) (g : GlHall) (q : Nat) : (s.setGl h g).path q = s.path q := rfl
@[simp] theorem State.setGl_barn_of (s : State) (h : Nat) (g : GlHall) (q : Nat) : (s.setGl h g).barn q = s.barn q := rfl
@[simp] theorem State.setGl_fnCfg_of (s : State) (h : Nat) (g : GlHall) (q : Nat) : (s.setGl h g).fnCfg q = s.fnCfg q := rfl
@[simp] theorem State.setGl_memWord_of (s : State) (h : Nat) (g : GlHall) (q : Nat) : (s.setGl h g).memWord q = s.memWord q := rfl

/-! setGal. -/

@[simp] theorem State.setGal_part (s : State) (i : Nat) (g : GalRec) : (s.setGal i g).part = s.part := rfl
@[simp] theorem State.setGal_dt (s : State) (i : Nat) (g : GalRec) : (s.setGal i g).dt = s.dt := rfl
@[simp] theorem State.setGal_dtRun (s : State) (i : Nat) (g : GalRec) : (s.setGal i g).dtRun = s.dtRun := rfl
@[simp] theorem State.setGal_mem (s : State) (i : Nat) (g : GalRec) : (s.setGal i g).mem = s.mem := rfl
@[simp] theorem State.setGal_tags (s : State) (i : Nat) (g : GalRec) : (s.setGal i g).tags = s.tags := rfl
@[simp] theorem State.setGal_mram (s : State) (i : Nat) (g : GalRec) : (s.setGal i g).mram = s.mram := rfl
@[simp] theorem State.setGal_planted (s : State) (i : Nat) (g : GalRec) : (s.setGal i g).planted = s.planted := rfl
@[simp] theorem State.setGal_barns (s : State) (i : Nat) (g : GalRec) : (s.setGal i g).barns = s.barns := rfl
@[simp] theorem State.setGal_llc (s : State) (i : Nat) (g : GalRec) : (s.setGal i g).llc = s.llc := rfl
@[simp] theorem State.setGal_hourCe (s : State) (i : Nat) (g : GalRec) : (s.setGal i g).hourCe = s.hourCe := rfl
@[simp] theorem State.setGal_scrubPos (s : State) (i : Nat) (g : GalRec) : (s.setGal i g).scrubPos = s.scrubPos := rfl
@[simp] theorem State.setGal_ctl (s : State) (i : Nat) (g : GalRec) : (s.setGal i g).ctl = s.ctl := rfl
@[simp] theorem State.setGal_posted (s : State) (i : Nat) (g : GalRec) : (s.setGal i g).posted = s.posted := rfl
@[simp] theorem State.setGal_sysregs (s : State) (i : Nat) (g : GalRec) : (s.setGal i g).sysregs = s.sysregs := rfl
@[simp] theorem State.setGal_cores (s : State) (i : Nat) (g : GalRec) : (s.setGal i g).cores = s.cores := rfl
@[simp] theorem State.setGal_slots (s : State) (i : Nat) (g : GalRec) : (s.setGal i g).slots = s.slots := rfl
@[simp] theorem State.setGal_ctxs (s : State) (i : Nat) (g : GalRec) : (s.setGal i g).ctxs = s.ctxs := rfl
@[simp] theorem State.setGal_fillNo (s : State) (i : Nat) (g : GalRec) : (s.setGal i g).fillNo = s.fillNo := rfl
@[simp] theorem State.setGal_rings (s : State) (i : Nat) (g : GalRec) : (s.setGal i g).rings = s.rings := rfl
@[simp] theorem State.setGal_wdogFrom (s : State) (i : Nat) (g : GalRec) : (s.setGal i g).wdogFrom = s.wdogFrom := rfl
@[simp] theorem State.setGal_tlbis (s : State) (i : Nat) (g : GalRec) : (s.setGal i g).tlbis = s.tlbis := rfl
@[simp] theorem State.setGal_patch (s : State) (i : Nat) (g : GalRec) : (s.setGal i g).patch = s.patch := rfl
@[simp] theorem State.setGal_jtagUnlocked (s : State) (i : Nat) (g : GalRec) : (s.setGal i g).jtagUnlocked = s.jtagUnlocked := rfl
@[simp] theorem State.setGal_bins (s : State) (i : Nat) (g : GalRec) : (s.setGal i g).bins = s.bins := rfl
@[simp] theorem State.setGal_gl (s : State) (i : Nat) (g : GalRec) : (s.setGal i g).gl = s.gl := rfl
@[simp] theorem State.setGal_galSeq (s : State) (i : Nat) (g : GalRec) : (s.setGal i g).galSeq = s.galSeq := rfl
@[simp] theorem State.setGal_axes (s : State) (i : Nat) (g : GalRec) : (s.setGal i g).axes = s.axes := rfl
@[simp] theorem State.setGal_cams (s : State) (i : Nat) (g : GalRec) : (s.setGal i g).cams = s.cams := rfl
@[simp] theorem State.setGal_camEdge (s : State) (i : Nat) (g : GalRec) : (s.setGal i g).camEdge = s.camEdge := rfl
@[simp] theorem State.setGal_netCams (s : State) (i : Nat) (g : GalRec) : (s.setGal i g).netCams = s.netCams := rfl
@[simp] theorem State.setGal_marks (s : State) (i : Nat) (g : GalRec) : (s.setGal i g).marks = s.marks := rfl
@[simp] theorem State.setGal_msLevel (s : State) (i : Nat) (g : GalRec) : (s.setGal i g).msLevel = s.msLevel := rfl
@[simp] theorem State.setGal_ms (s : State) (i : Nat) (g : GalRec) : (s.setGal i g).ms = s.ms := rfl
@[simp] theorem State.setGal_objs (s : State) (i : Nat) (g : GalRec) : (s.setGal i g).objs = s.objs := rfl
@[simp] theorem State.setGal_vfEnable (s : State) (i : Nat) (g : GalRec) : (s.setGal i g).vfEnable = s.vfEnable := rfl
@[simp] theorem State.setGal_numVfs (s : State) (i : Nat) (g : GalRec) : (s.setGal i g).numVfs = s.numVfs := rfl
@[simp] theorem State.setGal_d3hot (s : State) (i : Nat) (g : GalRec) : (s.setGal i g).d3hot = s.d3hot := rfl
@[simp] theorem State.setGal_fns (s : State) (i : Nat) (g : GalRec) : (s.setGal i g).fns = s.fns := rfl
@[simp] theorem State.setGal_xe (s : State) (i : Nat) (g : GalRec) : (s.setGal i g).xe = s.xe := rfl
@[simp] theorem State.setGal_xeTurns (s : State) (i : Nat) (g : GalRec) : (s.setGal i g).xeTurns = s.xeTurns := rfl
@[simp] theorem State.setGal_evenPass (s : State) (i : Nat) (g : GalRec) : (s.setGal i g).evenPass = s.evenPass := rfl
@[simp] theorem State.setGal_hallRst (s : State) (i : Nat) (g : GalRec) : (s.setGal i g).hallRst = s.hallRst := rfl
@[simp] theorem State.setGal_pdActive (s : State) (i : Nat) (g : GalRec) : (s.setGal i g).pdActive = s.pdActive := rfl
@[simp] theorem State.setGal_dict (s : State) (i : Nat) (g : GalRec) : (s.setGal i g).dict = s.dict := rfl
@[simp] theorem State.setGal_eni (s : State) (i : Nat) (g : GalRec) : (s.setGal i g).eni = s.eni := rfl
@[simp] theorem State.setGal_params (s : State) (i : Nat) (g : GalRec) : (s.setGal i g).params = s.params := rfl
@[simp] theorem State.setGal_line (s : State) (i : Nat) (g : GalRec) : (s.setGal i g).line = s.line := rfl
@[simp] theorem State.setGal_plant (s : State) (i : Nat) (g : GalRec) : (s.setGal i g).plant = s.plant := rfl
@[simp] theorem State.setGal_lineSnap (s : State) (i : Nat) (g : GalRec) : (s.setGal i g).lineSnap = s.lineSnap := rfl
@[simp] theorem State.setGal_camNets (s : State) (i : Nat) (g : GalRec) : (s.setGal i g).camNets = s.camNets := rfl
@[simp] theorem State.setGal_casc (s : State) (i : Nat) (g : GalRec) : (s.setGal i g).casc = s.casc := rfl
@[simp] theorem State.setGal_service (s : State) (i : Nat) (g : GalRec) : (s.setGal i g).service = s.service := rfl
@[simp] theorem State.setGal_life (s : State) (i : Nat) (g : GalRec) : (s.setGal i g).life = s.life := rfl
@[simp] theorem State.setGal_recorder (s : State) (i : Nat) (g : GalRec) : (s.setGal i g).recorder = s.recorder := rfl
@[simp] theorem State.setGal_emcy (s : State) (i : Nat) (g : GalRec) : (s.setGal i g).emcy = s.emcy := rfl
@[simp] theorem State.setGal_mgrEvents (s : State) (i : Nat) (g : GalRec) : (s.setGal i g).mgrEvents = s.mgrEvents := rfl
@[simp] theorem State.setGal_out (s : State) (i : Nat) (g : GalRec) : (s.setGal i g).out = s.out := rfl
@[simp] theorem State.setGal_pending (s : State) (i : Nat) (g : GalRec) : (s.setGal i g).pending = s.pending := rfl
@[simp] theorem State.setGal_free (s : State) (i : Nat) (g : GalRec) : (s.setGal i g).free = s.free := rfl
@[simp] theorem State.setGal_core_of (s : State) (i : Nat) (g : GalRec) (q : Nat) : (s.setGal i g).core q = s.core q := rfl
@[simp] theorem State.setGal_slot_of (s : State) (i : Nat) (g : GalRec) (q : Nat) : (s.setGal i g).slot q = s.slot q := rfl
@[simp] theorem State.setGal_ctx_of (s : State) (i : Nat) (g : GalRec) (q : Nat) : (s.setGal i g).ctx q = s.ctx q := rfl
@[simp] theorem State.setGal_bin_of (s : State) (i : Nat) (g : GalRec) (q : Nat) : (s.setGal i g).bin q = s.bin q := rfl
@[simp] theorem State.setGal_glh_of (s : State) (i : Nat) (g : GalRec) (q : Nat) : (s.setGal i g).glh q = s.glh q := rfl
@[simp] theorem State.setGal_reg_of (s : State) (i : Nat) (g : GalRec) (q : Nat) : (s.setGal i g).reg q = s.reg q := rfl
@[simp] theorem State.setGal_sys_of (s : State) (i : Nat) (g : GalRec) (q j : Nat) : (s.setGal i g).sys q j = s.sys q j := rfl
@[simp] theorem State.setGal_axr_of (s : State) (i : Nat) (g : GalRec) (q : Nat) : (s.setGal i g).axr q = s.axr q := rfl
@[simp] theorem State.setGal_obj_of (s : State) (i : Nat) (g : GalRec) (q j : Nat) : (s.setGal i g).obj q j = s.obj q j := rfl
@[simp] theorem State.setGal_path_of (s : State) (i : Nat) (g : GalRec) (q : Nat) : (s.setGal i g).path q = s.path q := rfl
@[simp] theorem State.setGal_barn_of (s : State) (i : Nat) (g : GalRec) (q : Nat) : (s.setGal i g).barn q = s.barn q := rfl
@[simp] theorem State.setGal_fnCfg_of (s : State) (i : Nat) (g : GalRec) (q : Nat) : (s.setGal i g).fnCfg q = s.fnCfg q := rfl
@[simp] theorem State.setGal_memWord_of (s : State) (i : Nat) (g : GalRec) (q : Nat) : (s.setGal i g).memWord q = s.memWord q := rfl

/-! setReg. -/

@[simp] theorem State.setReg_part (s : State) (a : Nat) (v : BitVec 64) : (s.setReg a v).part = s.part := rfl
@[simp] theorem State.setReg_dt (s : State) (a : Nat) (v : BitVec 64) : (s.setReg a v).dt = s.dt := rfl
@[simp] theorem State.setReg_dtRun (s : State) (a : Nat) (v : BitVec 64) : (s.setReg a v).dtRun = s.dtRun := rfl
@[simp] theorem State.setReg_mem (s : State) (a : Nat) (v : BitVec 64) : (s.setReg a v).mem = s.mem := rfl
@[simp] theorem State.setReg_tags (s : State) (a : Nat) (v : BitVec 64) : (s.setReg a v).tags = s.tags := rfl
@[simp] theorem State.setReg_mram (s : State) (a : Nat) (v : BitVec 64) : (s.setReg a v).mram = s.mram := rfl
@[simp] theorem State.setReg_planted (s : State) (a : Nat) (v : BitVec 64) : (s.setReg a v).planted = s.planted := rfl
@[simp] theorem State.setReg_barns (s : State) (a : Nat) (v : BitVec 64) : (s.setReg a v).barns = s.barns := rfl
@[simp] theorem State.setReg_llc (s : State) (a : Nat) (v : BitVec 64) : (s.setReg a v).llc = s.llc := rfl
@[simp] theorem State.setReg_hourCe (s : State) (a : Nat) (v : BitVec 64) : (s.setReg a v).hourCe = s.hourCe := rfl
@[simp] theorem State.setReg_scrubPos (s : State) (a : Nat) (v : BitVec 64) : (s.setReg a v).scrubPos = s.scrubPos := rfl
@[simp] theorem State.setReg_posted (s : State) (a : Nat) (v : BitVec 64) : (s.setReg a v).posted = s.posted := rfl
@[simp] theorem State.setReg_sysregs (s : State) (a : Nat) (v : BitVec 64) : (s.setReg a v).sysregs = s.sysregs := rfl
@[simp] theorem State.setReg_cores (s : State) (a : Nat) (v : BitVec 64) : (s.setReg a v).cores = s.cores := rfl
@[simp] theorem State.setReg_slots (s : State) (a : Nat) (v : BitVec 64) : (s.setReg a v).slots = s.slots := rfl
@[simp] theorem State.setReg_ctxs (s : State) (a : Nat) (v : BitVec 64) : (s.setReg a v).ctxs = s.ctxs := rfl
@[simp] theorem State.setReg_fillNo (s : State) (a : Nat) (v : BitVec 64) : (s.setReg a v).fillNo = s.fillNo := rfl
@[simp] theorem State.setReg_rings (s : State) (a : Nat) (v : BitVec 64) : (s.setReg a v).rings = s.rings := rfl
@[simp] theorem State.setReg_wdogFrom (s : State) (a : Nat) (v : BitVec 64) : (s.setReg a v).wdogFrom = s.wdogFrom := rfl
@[simp] theorem State.setReg_tlbis (s : State) (a : Nat) (v : BitVec 64) : (s.setReg a v).tlbis = s.tlbis := rfl
@[simp] theorem State.setReg_patch (s : State) (a : Nat) (v : BitVec 64) : (s.setReg a v).patch = s.patch := rfl
@[simp] theorem State.setReg_jtagUnlocked (s : State) (a : Nat) (v : BitVec 64) : (s.setReg a v).jtagUnlocked = s.jtagUnlocked := rfl
@[simp] theorem State.setReg_bins (s : State) (a : Nat) (v : BitVec 64) : (s.setReg a v).bins = s.bins := rfl
@[simp] theorem State.setReg_gl (s : State) (a : Nat) (v : BitVec 64) : (s.setReg a v).gl = s.gl := rfl
@[simp] theorem State.setReg_gal (s : State) (a : Nat) (v : BitVec 64) : (s.setReg a v).gal = s.gal := rfl
@[simp] theorem State.setReg_galSeq (s : State) (a : Nat) (v : BitVec 64) : (s.setReg a v).galSeq = s.galSeq := rfl
@[simp] theorem State.setReg_axes (s : State) (a : Nat) (v : BitVec 64) : (s.setReg a v).axes = s.axes := rfl
@[simp] theorem State.setReg_cams (s : State) (a : Nat) (v : BitVec 64) : (s.setReg a v).cams = s.cams := rfl
@[simp] theorem State.setReg_camEdge (s : State) (a : Nat) (v : BitVec 64) : (s.setReg a v).camEdge = s.camEdge := rfl
@[simp] theorem State.setReg_netCams (s : State) (a : Nat) (v : BitVec 64) : (s.setReg a v).netCams = s.netCams := rfl
@[simp] theorem State.setReg_marks (s : State) (a : Nat) (v : BitVec 64) : (s.setReg a v).marks = s.marks := rfl
@[simp] theorem State.setReg_msLevel (s : State) (a : Nat) (v : BitVec 64) : (s.setReg a v).msLevel = s.msLevel := rfl
@[simp] theorem State.setReg_ms (s : State) (a : Nat) (v : BitVec 64) : (s.setReg a v).ms = s.ms := rfl
@[simp] theorem State.setReg_objs (s : State) (a : Nat) (v : BitVec 64) : (s.setReg a v).objs = s.objs := rfl
@[simp] theorem State.setReg_vfEnable (s : State) (a : Nat) (v : BitVec 64) : (s.setReg a v).vfEnable = s.vfEnable := rfl
@[simp] theorem State.setReg_numVfs (s : State) (a : Nat) (v : BitVec 64) : (s.setReg a v).numVfs = s.numVfs := rfl
@[simp] theorem State.setReg_d3hot (s : State) (a : Nat) (v : BitVec 64) : (s.setReg a v).d3hot = s.d3hot := rfl
@[simp] theorem State.setReg_fns (s : State) (a : Nat) (v : BitVec 64) : (s.setReg a v).fns = s.fns := rfl
@[simp] theorem State.setReg_xe (s : State) (a : Nat) (v : BitVec 64) : (s.setReg a v).xe = s.xe := rfl
@[simp] theorem State.setReg_xeTurns (s : State) (a : Nat) (v : BitVec 64) : (s.setReg a v).xeTurns = s.xeTurns := rfl
@[simp] theorem State.setReg_evenPass (s : State) (a : Nat) (v : BitVec 64) : (s.setReg a v).evenPass = s.evenPass := rfl
@[simp] theorem State.setReg_hallRst (s : State) (a : Nat) (v : BitVec 64) : (s.setReg a v).hallRst = s.hallRst := rfl
@[simp] theorem State.setReg_pdActive (s : State) (a : Nat) (v : BitVec 64) : (s.setReg a v).pdActive = s.pdActive := rfl
@[simp] theorem State.setReg_dict (s : State) (a : Nat) (v : BitVec 64) : (s.setReg a v).dict = s.dict := rfl
@[simp] theorem State.setReg_eni (s : State) (a : Nat) (v : BitVec 64) : (s.setReg a v).eni = s.eni := rfl
@[simp] theorem State.setReg_params (s : State) (a : Nat) (v : BitVec 64) : (s.setReg a v).params = s.params := rfl
@[simp] theorem State.setReg_line (s : State) (a : Nat) (v : BitVec 64) : (s.setReg a v).line = s.line := rfl
@[simp] theorem State.setReg_plant (s : State) (a : Nat) (v : BitVec 64) : (s.setReg a v).plant = s.plant := rfl
@[simp] theorem State.setReg_lineSnap (s : State) (a : Nat) (v : BitVec 64) : (s.setReg a v).lineSnap = s.lineSnap := rfl
@[simp] theorem State.setReg_camNets (s : State) (a : Nat) (v : BitVec 64) : (s.setReg a v).camNets = s.camNets := rfl
@[simp] theorem State.setReg_casc (s : State) (a : Nat) (v : BitVec 64) : (s.setReg a v).casc = s.casc := rfl
@[simp] theorem State.setReg_service (s : State) (a : Nat) (v : BitVec 64) : (s.setReg a v).service = s.service := rfl
@[simp] theorem State.setReg_life (s : State) (a : Nat) (v : BitVec 64) : (s.setReg a v).life = s.life := rfl
@[simp] theorem State.setReg_recorder (s : State) (a : Nat) (v : BitVec 64) : (s.setReg a v).recorder = s.recorder := rfl
@[simp] theorem State.setReg_emcy (s : State) (a : Nat) (v : BitVec 64) : (s.setReg a v).emcy = s.emcy := rfl
@[simp] theorem State.setReg_mgrEvents (s : State) (a : Nat) (v : BitVec 64) : (s.setReg a v).mgrEvents = s.mgrEvents := rfl
@[simp] theorem State.setReg_out (s : State) (a : Nat) (v : BitVec 64) : (s.setReg a v).out = s.out := rfl
@[simp] theorem State.setReg_pending (s : State) (a : Nat) (v : BitVec 64) : (s.setReg a v).pending = s.pending := rfl
@[simp] theorem State.setReg_free (s : State) (a : Nat) (v : BitVec 64) : (s.setReg a v).free = s.free := rfl
@[simp] theorem State.setReg_core_of (s : State) (a : Nat) (v : BitVec 64) (q : Nat) : (s.setReg a v).core q = s.core q := rfl
@[simp] theorem State.setReg_slot_of (s : State) (a : Nat) (v : BitVec 64) (q : Nat) : (s.setReg a v).slot q = s.slot q := rfl
@[simp] theorem State.setReg_ctx_of (s : State) (a : Nat) (v : BitVec 64) (q : Nat) : (s.setReg a v).ctx q = s.ctx q := rfl
@[simp] theorem State.setReg_bin_of (s : State) (a : Nat) (v : BitVec 64) (q : Nat) : (s.setReg a v).bin q = s.bin q := rfl
@[simp] theorem State.setReg_glh_of (s : State) (a : Nat) (v : BitVec 64) (q : Nat) : (s.setReg a v).glh q = s.glh q := rfl
@[simp] theorem State.setReg_galr_of (s : State) (a : Nat) (v : BitVec 64) (q : Nat) : (s.setReg a v).galr q = s.galr q := rfl
@[simp] theorem State.setReg_sys_of (s : State) (a : Nat) (v : BitVec 64) (q j : Nat) : (s.setReg a v).sys q j = s.sys q j := rfl
@[simp] theorem State.setReg_axr_of (s : State) (a : Nat) (v : BitVec 64) (q : Nat) : (s.setReg a v).axr q = s.axr q := rfl
@[simp] theorem State.setReg_obj_of (s : State) (a : Nat) (v : BitVec 64) (q j : Nat) : (s.setReg a v).obj q j = s.obj q j := rfl
@[simp] theorem State.setReg_path_of (s : State) (a : Nat) (v : BitVec 64) (q : Nat) : (s.setReg a v).path q = s.path q := rfl
@[simp] theorem State.setReg_barn_of (s : State) (a : Nat) (v : BitVec 64) (q : Nat) : (s.setReg a v).barn q = s.barn q := rfl
@[simp] theorem State.setReg_fnCfg_of (s : State) (a : Nat) (v : BitVec 64) (q : Nat) : (s.setReg a v).fnCfg q = s.fnCfg q := rfl
@[simp] theorem State.setReg_memWord_of (s : State) (a : Nat) (v : BitVec 64) (q : Nat) : (s.setReg a v).memWord q = s.memWord q := rfl

/-! setSys. -/

@[simp] theorem State.setSys_part (s : State) (h k : Nat) (v : BitVec 64) : (s.setSys h k v).part = s.part := rfl
@[simp] theorem State.setSys_dt (s : State) (h k : Nat) (v : BitVec 64) : (s.setSys h k v).dt = s.dt := rfl
@[simp] theorem State.setSys_dtRun (s : State) (h k : Nat) (v : BitVec 64) : (s.setSys h k v).dtRun = s.dtRun := rfl
@[simp] theorem State.setSys_mem (s : State) (h k : Nat) (v : BitVec 64) : (s.setSys h k v).mem = s.mem := rfl
@[simp] theorem State.setSys_tags (s : State) (h k : Nat) (v : BitVec 64) : (s.setSys h k v).tags = s.tags := rfl
@[simp] theorem State.setSys_mram (s : State) (h k : Nat) (v : BitVec 64) : (s.setSys h k v).mram = s.mram := rfl
@[simp] theorem State.setSys_planted (s : State) (h k : Nat) (v : BitVec 64) : (s.setSys h k v).planted = s.planted := rfl
@[simp] theorem State.setSys_barns (s : State) (h k : Nat) (v : BitVec 64) : (s.setSys h k v).barns = s.barns := rfl
@[simp] theorem State.setSys_llc (s : State) (h k : Nat) (v : BitVec 64) : (s.setSys h k v).llc = s.llc := rfl
@[simp] theorem State.setSys_hourCe (s : State) (h k : Nat) (v : BitVec 64) : (s.setSys h k v).hourCe = s.hourCe := rfl
@[simp] theorem State.setSys_scrubPos (s : State) (h k : Nat) (v : BitVec 64) : (s.setSys h k v).scrubPos = s.scrubPos := rfl
@[simp] theorem State.setSys_ctl (s : State) (h k : Nat) (v : BitVec 64) : (s.setSys h k v).ctl = s.ctl := rfl
@[simp] theorem State.setSys_posted (s : State) (h k : Nat) (v : BitVec 64) : (s.setSys h k v).posted = s.posted := rfl
@[simp] theorem State.setSys_cores (s : State) (h k : Nat) (v : BitVec 64) : (s.setSys h k v).cores = s.cores := rfl
@[simp] theorem State.setSys_slots (s : State) (h k : Nat) (v : BitVec 64) : (s.setSys h k v).slots = s.slots := rfl
@[simp] theorem State.setSys_ctxs (s : State) (h k : Nat) (v : BitVec 64) : (s.setSys h k v).ctxs = s.ctxs := rfl
@[simp] theorem State.setSys_fillNo (s : State) (h k : Nat) (v : BitVec 64) : (s.setSys h k v).fillNo = s.fillNo := rfl
@[simp] theorem State.setSys_rings (s : State) (h k : Nat) (v : BitVec 64) : (s.setSys h k v).rings = s.rings := rfl
@[simp] theorem State.setSys_wdogFrom (s : State) (h k : Nat) (v : BitVec 64) : (s.setSys h k v).wdogFrom = s.wdogFrom := rfl
@[simp] theorem State.setSys_tlbis (s : State) (h k : Nat) (v : BitVec 64) : (s.setSys h k v).tlbis = s.tlbis := rfl
@[simp] theorem State.setSys_patch (s : State) (h k : Nat) (v : BitVec 64) : (s.setSys h k v).patch = s.patch := rfl
@[simp] theorem State.setSys_jtagUnlocked (s : State) (h k : Nat) (v : BitVec 64) : (s.setSys h k v).jtagUnlocked = s.jtagUnlocked := rfl
@[simp] theorem State.setSys_bins (s : State) (h k : Nat) (v : BitVec 64) : (s.setSys h k v).bins = s.bins := rfl
@[simp] theorem State.setSys_gl (s : State) (h k : Nat) (v : BitVec 64) : (s.setSys h k v).gl = s.gl := rfl
@[simp] theorem State.setSys_gal (s : State) (h k : Nat) (v : BitVec 64) : (s.setSys h k v).gal = s.gal := rfl
@[simp] theorem State.setSys_galSeq (s : State) (h k : Nat) (v : BitVec 64) : (s.setSys h k v).galSeq = s.galSeq := rfl
@[simp] theorem State.setSys_axes (s : State) (h k : Nat) (v : BitVec 64) : (s.setSys h k v).axes = s.axes := rfl
@[simp] theorem State.setSys_cams (s : State) (h k : Nat) (v : BitVec 64) : (s.setSys h k v).cams = s.cams := rfl
@[simp] theorem State.setSys_camEdge (s : State) (h k : Nat) (v : BitVec 64) : (s.setSys h k v).camEdge = s.camEdge := rfl
@[simp] theorem State.setSys_netCams (s : State) (h k : Nat) (v : BitVec 64) : (s.setSys h k v).netCams = s.netCams := rfl
@[simp] theorem State.setSys_marks (s : State) (h k : Nat) (v : BitVec 64) : (s.setSys h k v).marks = s.marks := rfl
@[simp] theorem State.setSys_msLevel (s : State) (h k : Nat) (v : BitVec 64) : (s.setSys h k v).msLevel = s.msLevel := rfl
@[simp] theorem State.setSys_ms (s : State) (h k : Nat) (v : BitVec 64) : (s.setSys h k v).ms = s.ms := rfl
@[simp] theorem State.setSys_objs (s : State) (h k : Nat) (v : BitVec 64) : (s.setSys h k v).objs = s.objs := rfl
@[simp] theorem State.setSys_vfEnable (s : State) (h k : Nat) (v : BitVec 64) : (s.setSys h k v).vfEnable = s.vfEnable := rfl
@[simp] theorem State.setSys_numVfs (s : State) (h k : Nat) (v : BitVec 64) : (s.setSys h k v).numVfs = s.numVfs := rfl
@[simp] theorem State.setSys_d3hot (s : State) (h k : Nat) (v : BitVec 64) : (s.setSys h k v).d3hot = s.d3hot := rfl
@[simp] theorem State.setSys_fns (s : State) (h k : Nat) (v : BitVec 64) : (s.setSys h k v).fns = s.fns := rfl
@[simp] theorem State.setSys_xe (s : State) (h k : Nat) (v : BitVec 64) : (s.setSys h k v).xe = s.xe := rfl
@[simp] theorem State.setSys_xeTurns (s : State) (h k : Nat) (v : BitVec 64) : (s.setSys h k v).xeTurns = s.xeTurns := rfl
@[simp] theorem State.setSys_evenPass (s : State) (h k : Nat) (v : BitVec 64) : (s.setSys h k v).evenPass = s.evenPass := rfl
@[simp] theorem State.setSys_hallRst (s : State) (h k : Nat) (v : BitVec 64) : (s.setSys h k v).hallRst = s.hallRst := rfl
@[simp] theorem State.setSys_pdActive (s : State) (h k : Nat) (v : BitVec 64) : (s.setSys h k v).pdActive = s.pdActive := rfl
@[simp] theorem State.setSys_dict (s : State) (h k : Nat) (v : BitVec 64) : (s.setSys h k v).dict = s.dict := rfl
@[simp] theorem State.setSys_eni (s : State) (h k : Nat) (v : BitVec 64) : (s.setSys h k v).eni = s.eni := rfl
@[simp] theorem State.setSys_params (s : State) (h k : Nat) (v : BitVec 64) : (s.setSys h k v).params = s.params := rfl
@[simp] theorem State.setSys_line (s : State) (h k : Nat) (v : BitVec 64) : (s.setSys h k v).line = s.line := rfl
@[simp] theorem State.setSys_plant (s : State) (h k : Nat) (v : BitVec 64) : (s.setSys h k v).plant = s.plant := rfl
@[simp] theorem State.setSys_lineSnap (s : State) (h k : Nat) (v : BitVec 64) : (s.setSys h k v).lineSnap = s.lineSnap := rfl
@[simp] theorem State.setSys_camNets (s : State) (h k : Nat) (v : BitVec 64) : (s.setSys h k v).camNets = s.camNets := rfl
@[simp] theorem State.setSys_casc (s : State) (h k : Nat) (v : BitVec 64) : (s.setSys h k v).casc = s.casc := rfl
@[simp] theorem State.setSys_service (s : State) (h k : Nat) (v : BitVec 64) : (s.setSys h k v).service = s.service := rfl
@[simp] theorem State.setSys_life (s : State) (h k : Nat) (v : BitVec 64) : (s.setSys h k v).life = s.life := rfl
@[simp] theorem State.setSys_recorder (s : State) (h k : Nat) (v : BitVec 64) : (s.setSys h k v).recorder = s.recorder := rfl
@[simp] theorem State.setSys_emcy (s : State) (h k : Nat) (v : BitVec 64) : (s.setSys h k v).emcy = s.emcy := rfl
@[simp] theorem State.setSys_mgrEvents (s : State) (h k : Nat) (v : BitVec 64) : (s.setSys h k v).mgrEvents = s.mgrEvents := rfl
@[simp] theorem State.setSys_out (s : State) (h k : Nat) (v : BitVec 64) : (s.setSys h k v).out = s.out := rfl
@[simp] theorem State.setSys_pending (s : State) (h k : Nat) (v : BitVec 64) : (s.setSys h k v).pending = s.pending := rfl
@[simp] theorem State.setSys_free (s : State) (h k : Nat) (v : BitVec 64) : (s.setSys h k v).free = s.free := rfl
@[simp] theorem State.setSys_core_of (s : State) (h k : Nat) (v : BitVec 64) (q : Nat) : (s.setSys h k v).core q = s.core q := rfl
@[simp] theorem State.setSys_slot_of (s : State) (h k : Nat) (v : BitVec 64) (q : Nat) : (s.setSys h k v).slot q = s.slot q := rfl
@[simp] theorem State.setSys_ctx_of (s : State) (h k : Nat) (v : BitVec 64) (q : Nat) : (s.setSys h k v).ctx q = s.ctx q := rfl
@[simp] theorem State.setSys_bin_of (s : State) (h k : Nat) (v : BitVec 64) (q : Nat) : (s.setSys h k v).bin q = s.bin q := rfl
@[simp] theorem State.setSys_glh_of (s : State) (h k : Nat) (v : BitVec 64) (q : Nat) : (s.setSys h k v).glh q = s.glh q := rfl
@[simp] theorem State.setSys_galr_of (s : State) (h k : Nat) (v : BitVec 64) (q : Nat) : (s.setSys h k v).galr q = s.galr q := rfl
@[simp] theorem State.setSys_reg_of (s : State) (h k : Nat) (v : BitVec 64) (q : Nat) : (s.setSys h k v).reg q = s.reg q := rfl
@[simp] theorem State.setSys_axr_of (s : State) (h k : Nat) (v : BitVec 64) (q : Nat) : (s.setSys h k v).axr q = s.axr q := rfl
@[simp] theorem State.setSys_obj_of (s : State) (h k : Nat) (v : BitVec 64) (q j : Nat) : (s.setSys h k v).obj q j = s.obj q j := rfl
@[simp] theorem State.setSys_path_of (s : State) (h k : Nat) (v : BitVec 64) (q : Nat) : (s.setSys h k v).path q = s.path q := rfl
@[simp] theorem State.setSys_barn_of (s : State) (h k : Nat) (v : BitVec 64) (q : Nat) : (s.setSys h k v).barn q = s.barn q := rfl
@[simp] theorem State.setSys_fnCfg_of (s : State) (h k : Nat) (v : BitVec 64) (q : Nat) : (s.setSys h k v).fnCfg q = s.fnCfg q := rfl
@[simp] theorem State.setSys_memWord_of (s : State) (h k : Nat) (v : BitVec 64) (q : Nat) : (s.setSys h k v).memWord q = s.memWord q := rfl

/-! setAxr. -/

@[simp] theorem State.setAxr_part (s : State) (x : Nat) (r : AxRec) : (s.setAxr x r).part = s.part := rfl
@[simp] theorem State.setAxr_dt (s : State) (x : Nat) (r : AxRec) : (s.setAxr x r).dt = s.dt := rfl
@[simp] theorem State.setAxr_dtRun (s : State) (x : Nat) (r : AxRec) : (s.setAxr x r).dtRun = s.dtRun := rfl
@[simp] theorem State.setAxr_mem (s : State) (x : Nat) (r : AxRec) : (s.setAxr x r).mem = s.mem := rfl
@[simp] theorem State.setAxr_tags (s : State) (x : Nat) (r : AxRec) : (s.setAxr x r).tags = s.tags := rfl
@[simp] theorem State.setAxr_mram (s : State) (x : Nat) (r : AxRec) : (s.setAxr x r).mram = s.mram := rfl
@[simp] theorem State.setAxr_planted (s : State) (x : Nat) (r : AxRec) : (s.setAxr x r).planted = s.planted := rfl
@[simp] theorem State.setAxr_barns (s : State) (x : Nat) (r : AxRec) : (s.setAxr x r).barns = s.barns := rfl
@[simp] theorem State.setAxr_llc (s : State) (x : Nat) (r : AxRec) : (s.setAxr x r).llc = s.llc := rfl
@[simp] theorem State.setAxr_hourCe (s : State) (x : Nat) (r : AxRec) : (s.setAxr x r).hourCe = s.hourCe := rfl
@[simp] theorem State.setAxr_scrubPos (s : State) (x : Nat) (r : AxRec) : (s.setAxr x r).scrubPos = s.scrubPos := rfl
@[simp] theorem State.setAxr_ctl (s : State) (x : Nat) (r : AxRec) : (s.setAxr x r).ctl = s.ctl := rfl
@[simp] theorem State.setAxr_posted (s : State) (x : Nat) (r : AxRec) : (s.setAxr x r).posted = s.posted := rfl
@[simp] theorem State.setAxr_sysregs (s : State) (x : Nat) (r : AxRec) : (s.setAxr x r).sysregs = s.sysregs := rfl
@[simp] theorem State.setAxr_cores (s : State) (x : Nat) (r : AxRec) : (s.setAxr x r).cores = s.cores := rfl
@[simp] theorem State.setAxr_slots (s : State) (x : Nat) (r : AxRec) : (s.setAxr x r).slots = s.slots := rfl
@[simp] theorem State.setAxr_ctxs (s : State) (x : Nat) (r : AxRec) : (s.setAxr x r).ctxs = s.ctxs := rfl
@[simp] theorem State.setAxr_fillNo (s : State) (x : Nat) (r : AxRec) : (s.setAxr x r).fillNo = s.fillNo := rfl
@[simp] theorem State.setAxr_rings (s : State) (x : Nat) (r : AxRec) : (s.setAxr x r).rings = s.rings := rfl
@[simp] theorem State.setAxr_wdogFrom (s : State) (x : Nat) (r : AxRec) : (s.setAxr x r).wdogFrom = s.wdogFrom := rfl
@[simp] theorem State.setAxr_tlbis (s : State) (x : Nat) (r : AxRec) : (s.setAxr x r).tlbis = s.tlbis := rfl
@[simp] theorem State.setAxr_patch (s : State) (x : Nat) (r : AxRec) : (s.setAxr x r).patch = s.patch := rfl
@[simp] theorem State.setAxr_jtagUnlocked (s : State) (x : Nat) (r : AxRec) : (s.setAxr x r).jtagUnlocked = s.jtagUnlocked := rfl
@[simp] theorem State.setAxr_bins (s : State) (x : Nat) (r : AxRec) : (s.setAxr x r).bins = s.bins := rfl
@[simp] theorem State.setAxr_gl (s : State) (x : Nat) (r : AxRec) : (s.setAxr x r).gl = s.gl := rfl
@[simp] theorem State.setAxr_gal (s : State) (x : Nat) (r : AxRec) : (s.setAxr x r).gal = s.gal := rfl
@[simp] theorem State.setAxr_galSeq (s : State) (x : Nat) (r : AxRec) : (s.setAxr x r).galSeq = s.galSeq := rfl
@[simp] theorem State.setAxr_cams (s : State) (x : Nat) (r : AxRec) : (s.setAxr x r).cams = s.cams := rfl
@[simp] theorem State.setAxr_camEdge (s : State) (x : Nat) (r : AxRec) : (s.setAxr x r).camEdge = s.camEdge := rfl
@[simp] theorem State.setAxr_netCams (s : State) (x : Nat) (r : AxRec) : (s.setAxr x r).netCams = s.netCams := rfl
@[simp] theorem State.setAxr_marks (s : State) (x : Nat) (r : AxRec) : (s.setAxr x r).marks = s.marks := rfl
@[simp] theorem State.setAxr_msLevel (s : State) (x : Nat) (r : AxRec) : (s.setAxr x r).msLevel = s.msLevel := rfl
@[simp] theorem State.setAxr_ms (s : State) (x : Nat) (r : AxRec) : (s.setAxr x r).ms = s.ms := rfl
@[simp] theorem State.setAxr_objs (s : State) (x : Nat) (r : AxRec) : (s.setAxr x r).objs = s.objs := rfl
@[simp] theorem State.setAxr_vfEnable (s : State) (x : Nat) (r : AxRec) : (s.setAxr x r).vfEnable = s.vfEnable := rfl
@[simp] theorem State.setAxr_numVfs (s : State) (x : Nat) (r : AxRec) : (s.setAxr x r).numVfs = s.numVfs := rfl
@[simp] theorem State.setAxr_d3hot (s : State) (x : Nat) (r : AxRec) : (s.setAxr x r).d3hot = s.d3hot := rfl
@[simp] theorem State.setAxr_fns (s : State) (x : Nat) (r : AxRec) : (s.setAxr x r).fns = s.fns := rfl
@[simp] theorem State.setAxr_xe (s : State) (x : Nat) (r : AxRec) : (s.setAxr x r).xe = s.xe := rfl
@[simp] theorem State.setAxr_xeTurns (s : State) (x : Nat) (r : AxRec) : (s.setAxr x r).xeTurns = s.xeTurns := rfl
@[simp] theorem State.setAxr_evenPass (s : State) (x : Nat) (r : AxRec) : (s.setAxr x r).evenPass = s.evenPass := rfl
@[simp] theorem State.setAxr_hallRst (s : State) (x : Nat) (r : AxRec) : (s.setAxr x r).hallRst = s.hallRst := rfl
@[simp] theorem State.setAxr_pdActive (s : State) (x : Nat) (r : AxRec) : (s.setAxr x r).pdActive = s.pdActive := rfl
@[simp] theorem State.setAxr_dict (s : State) (x : Nat) (r : AxRec) : (s.setAxr x r).dict = s.dict := rfl
@[simp] theorem State.setAxr_eni (s : State) (x : Nat) (r : AxRec) : (s.setAxr x r).eni = s.eni := rfl
@[simp] theorem State.setAxr_params (s : State) (x : Nat) (r : AxRec) : (s.setAxr x r).params = s.params := rfl
@[simp] theorem State.setAxr_line (s : State) (x : Nat) (r : AxRec) : (s.setAxr x r).line = s.line := rfl
@[simp] theorem State.setAxr_plant (s : State) (x : Nat) (r : AxRec) : (s.setAxr x r).plant = s.plant := rfl
@[simp] theorem State.setAxr_lineSnap (s : State) (x : Nat) (r : AxRec) : (s.setAxr x r).lineSnap = s.lineSnap := rfl
@[simp] theorem State.setAxr_camNets (s : State) (x : Nat) (r : AxRec) : (s.setAxr x r).camNets = s.camNets := rfl
@[simp] theorem State.setAxr_casc (s : State) (x : Nat) (r : AxRec) : (s.setAxr x r).casc = s.casc := rfl
@[simp] theorem State.setAxr_service (s : State) (x : Nat) (r : AxRec) : (s.setAxr x r).service = s.service := rfl
@[simp] theorem State.setAxr_life (s : State) (x : Nat) (r : AxRec) : (s.setAxr x r).life = s.life := rfl
@[simp] theorem State.setAxr_recorder (s : State) (x : Nat) (r : AxRec) : (s.setAxr x r).recorder = s.recorder := rfl
@[simp] theorem State.setAxr_emcy (s : State) (x : Nat) (r : AxRec) : (s.setAxr x r).emcy = s.emcy := rfl
@[simp] theorem State.setAxr_mgrEvents (s : State) (x : Nat) (r : AxRec) : (s.setAxr x r).mgrEvents = s.mgrEvents := rfl
@[simp] theorem State.setAxr_out (s : State) (x : Nat) (r : AxRec) : (s.setAxr x r).out = s.out := rfl
@[simp] theorem State.setAxr_pending (s : State) (x : Nat) (r : AxRec) : (s.setAxr x r).pending = s.pending := rfl
@[simp] theorem State.setAxr_free (s : State) (x : Nat) (r : AxRec) : (s.setAxr x r).free = s.free := rfl
@[simp] theorem State.setAxr_core_of (s : State) (x : Nat) (r : AxRec) (q : Nat) : (s.setAxr x r).core q = s.core q := rfl
@[simp] theorem State.setAxr_slot_of (s : State) (x : Nat) (r : AxRec) (q : Nat) : (s.setAxr x r).slot q = s.slot q := rfl
@[simp] theorem State.setAxr_ctx_of (s : State) (x : Nat) (r : AxRec) (q : Nat) : (s.setAxr x r).ctx q = s.ctx q := rfl
@[simp] theorem State.setAxr_bin_of (s : State) (x : Nat) (r : AxRec) (q : Nat) : (s.setAxr x r).bin q = s.bin q := rfl
@[simp] theorem State.setAxr_glh_of (s : State) (x : Nat) (r : AxRec) (q : Nat) : (s.setAxr x r).glh q = s.glh q := rfl
@[simp] theorem State.setAxr_galr_of (s : State) (x : Nat) (r : AxRec) (q : Nat) : (s.setAxr x r).galr q = s.galr q := rfl
@[simp] theorem State.setAxr_reg_of (s : State) (x : Nat) (r : AxRec) (q : Nat) : (s.setAxr x r).reg q = s.reg q := rfl
@[simp] theorem State.setAxr_sys_of (s : State) (x : Nat) (r : AxRec) (q j : Nat) : (s.setAxr x r).sys q j = s.sys q j := rfl
@[simp] theorem State.setAxr_obj_of (s : State) (x : Nat) (r : AxRec) (q j : Nat) : (s.setAxr x r).obj q j = s.obj q j := rfl
@[simp] theorem State.setAxr_path_of (s : State) (x : Nat) (r : AxRec) (q : Nat) : (s.setAxr x r).path q = s.path q := rfl
@[simp] theorem State.setAxr_barn_of (s : State) (x : Nat) (r : AxRec) (q : Nat) : (s.setAxr x r).barn q = s.barn q := rfl
@[simp] theorem State.setAxr_fnCfg_of (s : State) (x : Nat) (r : AxRec) (q : Nat) : (s.setAxr x r).fnCfg q = s.fnCfg q := rfl
@[simp] theorem State.setAxr_memWord_of (s : State) (x : Nat) (r : AxRec) (q : Nat) : (s.setAxr x r).memWord q = s.memWord q := rfl

/-! setObj. -/

@[simp] theorem State.setObj_part (s : State) (i k v : Nat) : (s.setObj i j v).part = s.part := rfl
@[simp] theorem State.setObj_dt (s : State) (i k v : Nat) : (s.setObj i j v).dt = s.dt := rfl
@[simp] theorem State.setObj_dtRun (s : State) (i k v : Nat) : (s.setObj i j v).dtRun = s.dtRun := rfl
@[simp] theorem State.setObj_mem (s : State) (i k v : Nat) : (s.setObj i j v).mem = s.mem := rfl
@[simp] theorem State.setObj_tags (s : State) (i k v : Nat) : (s.setObj i j v).tags = s.tags := rfl
@[simp] theorem State.setObj_mram (s : State) (i k v : Nat) : (s.setObj i j v).mram = s.mram := rfl
@[simp] theorem State.setObj_planted (s : State) (i k v : Nat) : (s.setObj i j v).planted = s.planted := rfl
@[simp] theorem State.setObj_barns (s : State) (i k v : Nat) : (s.setObj i j v).barns = s.barns := rfl
@[simp] theorem State.setObj_llc (s : State) (i k v : Nat) : (s.setObj i j v).llc = s.llc := rfl
@[simp] theorem State.setObj_hourCe (s : State) (i k v : Nat) : (s.setObj i j v).hourCe = s.hourCe := rfl
@[simp] theorem State.setObj_scrubPos (s : State) (i k v : Nat) : (s.setObj i j v).scrubPos = s.scrubPos := rfl
@[simp] theorem State.setObj_ctl (s : State) (i k v : Nat) : (s.setObj i j v).ctl = s.ctl := rfl
@[simp] theorem State.setObj_posted (s : State) (i k v : Nat) : (s.setObj i j v).posted = s.posted := rfl
@[simp] theorem State.setObj_sysregs (s : State) (i k v : Nat) : (s.setObj i j v).sysregs = s.sysregs := rfl
@[simp] theorem State.setObj_cores (s : State) (i k v : Nat) : (s.setObj i j v).cores = s.cores := rfl
@[simp] theorem State.setObj_slots (s : State) (i k v : Nat) : (s.setObj i j v).slots = s.slots := rfl
@[simp] theorem State.setObj_ctxs (s : State) (i k v : Nat) : (s.setObj i j v).ctxs = s.ctxs := rfl
@[simp] theorem State.setObj_fillNo (s : State) (i k v : Nat) : (s.setObj i j v).fillNo = s.fillNo := rfl
@[simp] theorem State.setObj_rings (s : State) (i k v : Nat) : (s.setObj i j v).rings = s.rings := rfl
@[simp] theorem State.setObj_wdogFrom (s : State) (i k v : Nat) : (s.setObj i j v).wdogFrom = s.wdogFrom := rfl
@[simp] theorem State.setObj_tlbis (s : State) (i k v : Nat) : (s.setObj i j v).tlbis = s.tlbis := rfl
@[simp] theorem State.setObj_patch (s : State) (i k v : Nat) : (s.setObj i j v).patch = s.patch := rfl
@[simp] theorem State.setObj_jtagUnlocked (s : State) (i k v : Nat) : (s.setObj i j v).jtagUnlocked = s.jtagUnlocked := rfl
@[simp] theorem State.setObj_bins (s : State) (i k v : Nat) : (s.setObj i j v).bins = s.bins := rfl
@[simp] theorem State.setObj_gl (s : State) (i k v : Nat) : (s.setObj i j v).gl = s.gl := rfl
@[simp] theorem State.setObj_gal (s : State) (i k v : Nat) : (s.setObj i j v).gal = s.gal := rfl
@[simp] theorem State.setObj_galSeq (s : State) (i k v : Nat) : (s.setObj i j v).galSeq = s.galSeq := rfl
@[simp] theorem State.setObj_axes (s : State) (i k v : Nat) : (s.setObj i j v).axes = s.axes := rfl
@[simp] theorem State.setObj_cams (s : State) (i k v : Nat) : (s.setObj i j v).cams = s.cams := rfl
@[simp] theorem State.setObj_camEdge (s : State) (i k v : Nat) : (s.setObj i j v).camEdge = s.camEdge := rfl
@[simp] theorem State.setObj_netCams (s : State) (i k v : Nat) : (s.setObj i j v).netCams = s.netCams := rfl
@[simp] theorem State.setObj_marks (s : State) (i k v : Nat) : (s.setObj i j v).marks = s.marks := rfl
@[simp] theorem State.setObj_msLevel (s : State) (i k v : Nat) : (s.setObj i j v).msLevel = s.msLevel := rfl
@[simp] theorem State.setObj_ms (s : State) (i k v : Nat) : (s.setObj i j v).ms = s.ms := rfl
@[simp] theorem State.setObj_vfEnable (s : State) (i k v : Nat) : (s.setObj i j v).vfEnable = s.vfEnable := rfl
@[simp] theorem State.setObj_numVfs (s : State) (i k v : Nat) : (s.setObj i j v).numVfs = s.numVfs := rfl
@[simp] theorem State.setObj_d3hot (s : State) (i k v : Nat) : (s.setObj i j v).d3hot = s.d3hot := rfl
@[simp] theorem State.setObj_fns (s : State) (i k v : Nat) : (s.setObj i j v).fns = s.fns := rfl
@[simp] theorem State.setObj_xe (s : State) (i k v : Nat) : (s.setObj i j v).xe = s.xe := rfl
@[simp] theorem State.setObj_xeTurns (s : State) (i k v : Nat) : (s.setObj i j v).xeTurns = s.xeTurns := rfl
@[simp] theorem State.setObj_evenPass (s : State) (i k v : Nat) : (s.setObj i j v).evenPass = s.evenPass := rfl
@[simp] theorem State.setObj_hallRst (s : State) (i k v : Nat) : (s.setObj i j v).hallRst = s.hallRst := rfl
@[simp] theorem State.setObj_pdActive (s : State) (i k v : Nat) : (s.setObj i j v).pdActive = s.pdActive := rfl
@[simp] theorem State.setObj_dict (s : State) (i k v : Nat) : (s.setObj i j v).dict = s.dict := rfl
@[simp] theorem State.setObj_eni (s : State) (i k v : Nat) : (s.setObj i j v).eni = s.eni := rfl
@[simp] theorem State.setObj_params (s : State) (i k v : Nat) : (s.setObj i j v).params = s.params := rfl
@[simp] theorem State.setObj_line (s : State) (i k v : Nat) : (s.setObj i j v).line = s.line := rfl
@[simp] theorem State.setObj_plant (s : State) (i k v : Nat) : (s.setObj i j v).plant = s.plant := rfl
@[simp] theorem State.setObj_lineSnap (s : State) (i k v : Nat) : (s.setObj i j v).lineSnap = s.lineSnap := rfl
@[simp] theorem State.setObj_camNets (s : State) (i k v : Nat) : (s.setObj i j v).camNets = s.camNets := rfl
@[simp] theorem State.setObj_casc (s : State) (i k v : Nat) : (s.setObj i j v).casc = s.casc := rfl
@[simp] theorem State.setObj_service (s : State) (i k v : Nat) : (s.setObj i j v).service = s.service := rfl
@[simp] theorem State.setObj_life (s : State) (i k v : Nat) : (s.setObj i j v).life = s.life := rfl
@[simp] theorem State.setObj_recorder (s : State) (i k v : Nat) : (s.setObj i j v).recorder = s.recorder := rfl
@[simp] theorem State.setObj_emcy (s : State) (i k v : Nat) : (s.setObj i j v).emcy = s.emcy := rfl
@[simp] theorem State.setObj_mgrEvents (s : State) (i k v : Nat) : (s.setObj i j v).mgrEvents = s.mgrEvents := rfl
@[simp] theorem State.setObj_out (s : State) (i k v : Nat) : (s.setObj i j v).out = s.out := rfl
@[simp] theorem State.setObj_pending (s : State) (i k v : Nat) : (s.setObj i j v).pending = s.pending := rfl
@[simp] theorem State.setObj_free (s : State) (i k v : Nat) : (s.setObj i j v).free = s.free := rfl
@[simp] theorem State.setObj_core_of (s : State) (i k v : Nat) (q : Nat) : (s.setObj i j v).core q = s.core q := rfl
@[simp] theorem State.setObj_slot_of (s : State) (i k v : Nat) (q : Nat) : (s.setObj i j v).slot q = s.slot q := rfl
@[simp] theorem State.setObj_ctx_of (s : State) (i k v : Nat) (q : Nat) : (s.setObj i j v).ctx q = s.ctx q := rfl
@[simp] theorem State.setObj_bin_of (s : State) (i k v : Nat) (q : Nat) : (s.setObj i j v).bin q = s.bin q := rfl
@[simp] theorem State.setObj_glh_of (s : State) (i k v : Nat) (q : Nat) : (s.setObj i j v).glh q = s.glh q := rfl
@[simp] theorem State.setObj_galr_of (s : State) (i k v : Nat) (q : Nat) : (s.setObj i j v).galr q = s.galr q := rfl
@[simp] theorem State.setObj_reg_of (s : State) (i k v : Nat) (q : Nat) : (s.setObj i j v).reg q = s.reg q := rfl
@[simp] theorem State.setObj_sys_of (s : State) (i k v : Nat) (q j : Nat) : (s.setObj i j v).sys q j = s.sys q j := rfl
@[simp] theorem State.setObj_axr_of (s : State) (i k v : Nat) (q : Nat) : (s.setObj i j v).axr q = s.axr q := rfl
@[simp] theorem State.setObj_path_of (s : State) (i k v : Nat) (q : Nat) : (s.setObj i j v).path q = s.path q := rfl
@[simp] theorem State.setObj_barn_of (s : State) (i k v : Nat) (q : Nat) : (s.setObj i j v).barn q = s.barn q := rfl
@[simp] theorem State.setObj_fnCfg_of (s : State) (i k v : Nat) (q : Nat) : (s.setObj i j v).fnCfg q = s.fnCfg q := rfl
@[simp] theorem State.setObj_memWord_of (s : State) (i k v : Nat) (q : Nat) : (s.setObj i j v).memWord q = s.memWord q := rfl

/-! setCasc. -/

@[simp] theorem State.setCasc_part (s : State) (c : Casc) : (s.setCasc c).part = s.part := rfl
@[simp] theorem State.setCasc_dt (s : State) (c : Casc) : (s.setCasc c).dt = s.dt := rfl
@[simp] theorem State.setCasc_dtRun (s : State) (c : Casc) : (s.setCasc c).dtRun = s.dtRun := rfl
@[simp] theorem State.setCasc_mem (s : State) (c : Casc) : (s.setCasc c).mem = s.mem := rfl
@[simp] theorem State.setCasc_tags (s : State) (c : Casc) : (s.setCasc c).tags = s.tags := rfl
@[simp] theorem State.setCasc_mram (s : State) (c : Casc) : (s.setCasc c).mram = s.mram := rfl
@[simp] theorem State.setCasc_planted (s : State) (c : Casc) : (s.setCasc c).planted = s.planted := rfl
@[simp] theorem State.setCasc_barns (s : State) (c : Casc) : (s.setCasc c).barns = s.barns := rfl
@[simp] theorem State.setCasc_llc (s : State) (c : Casc) : (s.setCasc c).llc = s.llc := rfl
@[simp] theorem State.setCasc_hourCe (s : State) (c : Casc) : (s.setCasc c).hourCe = s.hourCe := rfl
@[simp] theorem State.setCasc_scrubPos (s : State) (c : Casc) : (s.setCasc c).scrubPos = s.scrubPos := rfl
@[simp] theorem State.setCasc_ctl (s : State) (c : Casc) : (s.setCasc c).ctl = s.ctl := rfl
@[simp] theorem State.setCasc_posted (s : State) (c : Casc) : (s.setCasc c).posted = s.posted := rfl
@[simp] theorem State.setCasc_sysregs (s : State) (c : Casc) : (s.setCasc c).sysregs = s.sysregs := rfl
@[simp] theorem State.setCasc_cores (s : State) (c : Casc) : (s.setCasc c).cores = s.cores := rfl
@[simp] theorem State.setCasc_slots (s : State) (c : Casc) : (s.setCasc c).slots = s.slots := rfl
@[simp] theorem State.setCasc_ctxs (s : State) (c : Casc) : (s.setCasc c).ctxs = s.ctxs := rfl
@[simp] theorem State.setCasc_fillNo (s : State) (c : Casc) : (s.setCasc c).fillNo = s.fillNo := rfl
@[simp] theorem State.setCasc_rings (s : State) (c : Casc) : (s.setCasc c).rings = s.rings := rfl
@[simp] theorem State.setCasc_wdogFrom (s : State) (c : Casc) : (s.setCasc c).wdogFrom = s.wdogFrom := rfl
@[simp] theorem State.setCasc_tlbis (s : State) (c : Casc) : (s.setCasc c).tlbis = s.tlbis := rfl
@[simp] theorem State.setCasc_patch (s : State) (c : Casc) : (s.setCasc c).patch = s.patch := rfl
@[simp] theorem State.setCasc_jtagUnlocked (s : State) (c : Casc) : (s.setCasc c).jtagUnlocked = s.jtagUnlocked := rfl
@[simp] theorem State.setCasc_bins (s : State) (c : Casc) : (s.setCasc c).bins = s.bins := rfl
@[simp] theorem State.setCasc_gl (s : State) (c : Casc) : (s.setCasc c).gl = s.gl := rfl
@[simp] theorem State.setCasc_gal (s : State) (c : Casc) : (s.setCasc c).gal = s.gal := rfl
@[simp] theorem State.setCasc_galSeq (s : State) (c : Casc) : (s.setCasc c).galSeq = s.galSeq := rfl
@[simp] theorem State.setCasc_axes (s : State) (c : Casc) : (s.setCasc c).axes = s.axes := rfl
@[simp] theorem State.setCasc_cams (s : State) (c : Casc) : (s.setCasc c).cams = s.cams := rfl
@[simp] theorem State.setCasc_camEdge (s : State) (c : Casc) : (s.setCasc c).camEdge = s.camEdge := rfl
@[simp] theorem State.setCasc_netCams (s : State) (c : Casc) : (s.setCasc c).netCams = s.netCams := rfl
@[simp] theorem State.setCasc_marks (s : State) (c : Casc) : (s.setCasc c).marks = s.marks := rfl
@[simp] theorem State.setCasc_msLevel (s : State) (c : Casc) : (s.setCasc c).msLevel = s.msLevel := rfl
@[simp] theorem State.setCasc_ms (s : State) (c : Casc) : (s.setCasc c).ms = s.ms := rfl
@[simp] theorem State.setCasc_objs (s : State) (c : Casc) : (s.setCasc c).objs = s.objs := rfl
@[simp] theorem State.setCasc_vfEnable (s : State) (c : Casc) : (s.setCasc c).vfEnable = s.vfEnable := rfl
@[simp] theorem State.setCasc_numVfs (s : State) (c : Casc) : (s.setCasc c).numVfs = s.numVfs := rfl
@[simp] theorem State.setCasc_d3hot (s : State) (c : Casc) : (s.setCasc c).d3hot = s.d3hot := rfl
@[simp] theorem State.setCasc_fns (s : State) (c : Casc) : (s.setCasc c).fns = s.fns := rfl
@[simp] theorem State.setCasc_xe (s : State) (c : Casc) : (s.setCasc c).xe = s.xe := rfl
@[simp] theorem State.setCasc_xeTurns (s : State) (c : Casc) : (s.setCasc c).xeTurns = s.xeTurns := rfl
@[simp] theorem State.setCasc_evenPass (s : State) (c : Casc) : (s.setCasc c).evenPass = s.evenPass := rfl
@[simp] theorem State.setCasc_hallRst (s : State) (c : Casc) : (s.setCasc c).hallRst = s.hallRst := rfl
@[simp] theorem State.setCasc_pdActive (s : State) (c : Casc) : (s.setCasc c).pdActive = s.pdActive := rfl
@[simp] theorem State.setCasc_dict (s : State) (c : Casc) : (s.setCasc c).dict = s.dict := rfl
@[simp] theorem State.setCasc_eni (s : State) (c : Casc) : (s.setCasc c).eni = s.eni := rfl
@[simp] theorem State.setCasc_params (s : State) (c : Casc) : (s.setCasc c).params = s.params := rfl
@[simp] theorem State.setCasc_line (s : State) (c : Casc) : (s.setCasc c).line = s.line := rfl
@[simp] theorem State.setCasc_plant (s : State) (c : Casc) : (s.setCasc c).plant = s.plant := rfl
@[simp] theorem State.setCasc_lineSnap (s : State) (c : Casc) : (s.setCasc c).lineSnap = s.lineSnap := rfl
@[simp] theorem State.setCasc_camNets (s : State) (c : Casc) : (s.setCasc c).camNets = s.camNets := rfl
@[simp] theorem State.setCasc_service (s : State) (c : Casc) : (s.setCasc c).service = s.service := rfl
@[simp] theorem State.setCasc_life (s : State) (c : Casc) : (s.setCasc c).life = s.life := rfl
@[simp] theorem State.setCasc_recorder (s : State) (c : Casc) : (s.setCasc c).recorder = s.recorder := rfl
@[simp] theorem State.setCasc_emcy (s : State) (c : Casc) : (s.setCasc c).emcy = s.emcy := rfl
@[simp] theorem State.setCasc_mgrEvents (s : State) (c : Casc) : (s.setCasc c).mgrEvents = s.mgrEvents := rfl
@[simp] theorem State.setCasc_out (s : State) (c : Casc) : (s.setCasc c).out = s.out := rfl
@[simp] theorem State.setCasc_pending (s : State) (c : Casc) : (s.setCasc c).pending = s.pending := rfl
@[simp] theorem State.setCasc_free (s : State) (c : Casc) : (s.setCasc c).free = s.free := rfl
@[simp] theorem State.setCasc_core_of (s : State) (c : Casc) (q : Nat) : (s.setCasc c).core q = s.core q := rfl
@[simp] theorem State.setCasc_slot_of (s : State) (c : Casc) (q : Nat) : (s.setCasc c).slot q = s.slot q := rfl
@[simp] theorem State.setCasc_ctx_of (s : State) (c : Casc) (q : Nat) : (s.setCasc c).ctx q = s.ctx q := rfl
@[simp] theorem State.setCasc_bin_of (s : State) (c : Casc) (q : Nat) : (s.setCasc c).bin q = s.bin q := rfl
@[simp] theorem State.setCasc_glh_of (s : State) (c : Casc) (q : Nat) : (s.setCasc c).glh q = s.glh q := rfl
@[simp] theorem State.setCasc_galr_of (s : State) (c : Casc) (q : Nat) : (s.setCasc c).galr q = s.galr q := rfl
@[simp] theorem State.setCasc_reg_of (s : State) (c : Casc) (q : Nat) : (s.setCasc c).reg q = s.reg q := rfl
@[simp] theorem State.setCasc_sys_of (s : State) (c : Casc) (q j : Nat) : (s.setCasc c).sys q j = s.sys q j := rfl
@[simp] theorem State.setCasc_axr_of (s : State) (c : Casc) (q : Nat) : (s.setCasc c).axr q = s.axr q := rfl
@[simp] theorem State.setCasc_obj_of (s : State) (c : Casc) (q j : Nat) : (s.setCasc c).obj q j = s.obj q j := rfl
@[simp] theorem State.setCasc_path_of (s : State) (c : Casc) (q : Nat) : (s.setCasc c).path q = s.path q := rfl
@[simp] theorem State.setCasc_barn_of (s : State) (c : Casc) (q : Nat) : (s.setCasc c).barn q = s.barn q := rfl
@[simp] theorem State.setCasc_fnCfg_of (s : State) (c : Casc) (q : Nat) : (s.setCasc c).fnCfg q = s.fnCfg q := rfl
@[simp] theorem State.setCasc_memWord_of (s : State) (c : Casc) (q : Nat) : (s.setCasc c).memWord q = s.memWord q := rfl

/-! setPath. -/

@[simp] theorem State.setPath_part (s : State) (p : Nat) (x : PathSt) : (s.setPath p x).part = s.part := rfl
@[simp] theorem State.setPath_dt (s : State) (p : Nat) (x : PathSt) : (s.setPath p x).dt = s.dt := rfl
@[simp] theorem State.setPath_dtRun (s : State) (p : Nat) (x : PathSt) : (s.setPath p x).dtRun = s.dtRun := rfl
@[simp] theorem State.setPath_mem (s : State) (p : Nat) (x : PathSt) : (s.setPath p x).mem = s.mem := rfl
@[simp] theorem State.setPath_tags (s : State) (p : Nat) (x : PathSt) : (s.setPath p x).tags = s.tags := rfl
@[simp] theorem State.setPath_mram (s : State) (p : Nat) (x : PathSt) : (s.setPath p x).mram = s.mram := rfl
@[simp] theorem State.setPath_planted (s : State) (p : Nat) (x : PathSt) : (s.setPath p x).planted = s.planted := rfl
@[simp] theorem State.setPath_barns (s : State) (p : Nat) (x : PathSt) : (s.setPath p x).barns = s.barns := rfl
@[simp] theorem State.setPath_llc (s : State) (p : Nat) (x : PathSt) : (s.setPath p x).llc = s.llc := rfl
@[simp] theorem State.setPath_hourCe (s : State) (p : Nat) (x : PathSt) : (s.setPath p x).hourCe = s.hourCe := rfl
@[simp] theorem State.setPath_scrubPos (s : State) (p : Nat) (x : PathSt) : (s.setPath p x).scrubPos = s.scrubPos := rfl
@[simp] theorem State.setPath_ctl (s : State) (p : Nat) (x : PathSt) : (s.setPath p x).ctl = s.ctl := rfl
@[simp] theorem State.setPath_posted (s : State) (p : Nat) (x : PathSt) : (s.setPath p x).posted = s.posted := rfl
@[simp] theorem State.setPath_sysregs (s : State) (p : Nat) (x : PathSt) : (s.setPath p x).sysregs = s.sysregs := rfl
@[simp] theorem State.setPath_cores (s : State) (p : Nat) (x : PathSt) : (s.setPath p x).cores = s.cores := rfl
@[simp] theorem State.setPath_slots (s : State) (p : Nat) (x : PathSt) : (s.setPath p x).slots = s.slots := rfl
@[simp] theorem State.setPath_ctxs (s : State) (p : Nat) (x : PathSt) : (s.setPath p x).ctxs = s.ctxs := rfl
@[simp] theorem State.setPath_fillNo (s : State) (p : Nat) (x : PathSt) : (s.setPath p x).fillNo = s.fillNo := rfl
@[simp] theorem State.setPath_rings (s : State) (p : Nat) (x : PathSt) : (s.setPath p x).rings = s.rings := rfl
@[simp] theorem State.setPath_wdogFrom (s : State) (p : Nat) (x : PathSt) : (s.setPath p x).wdogFrom = s.wdogFrom := rfl
@[simp] theorem State.setPath_tlbis (s : State) (p : Nat) (x : PathSt) : (s.setPath p x).tlbis = s.tlbis := rfl
@[simp] theorem State.setPath_patch (s : State) (p : Nat) (x : PathSt) : (s.setPath p x).patch = s.patch := rfl
@[simp] theorem State.setPath_jtagUnlocked (s : State) (p : Nat) (x : PathSt) : (s.setPath p x).jtagUnlocked = s.jtagUnlocked := rfl
@[simp] theorem State.setPath_bins (s : State) (p : Nat) (x : PathSt) : (s.setPath p x).bins = s.bins := rfl
@[simp] theorem State.setPath_gl (s : State) (p : Nat) (x : PathSt) : (s.setPath p x).gl = s.gl := rfl
@[simp] theorem State.setPath_gal (s : State) (p : Nat) (x : PathSt) : (s.setPath p x).gal = s.gal := rfl
@[simp] theorem State.setPath_galSeq (s : State) (p : Nat) (x : PathSt) : (s.setPath p x).galSeq = s.galSeq := rfl
@[simp] theorem State.setPath_axes (s : State) (p : Nat) (x : PathSt) : (s.setPath p x).axes = s.axes := rfl
@[simp] theorem State.setPath_cams (s : State) (p : Nat) (x : PathSt) : (s.setPath p x).cams = s.cams := rfl
@[simp] theorem State.setPath_camEdge (s : State) (p : Nat) (x : PathSt) : (s.setPath p x).camEdge = s.camEdge := rfl
@[simp] theorem State.setPath_netCams (s : State) (p : Nat) (x : PathSt) : (s.setPath p x).netCams = s.netCams := rfl
@[simp] theorem State.setPath_marks (s : State) (p : Nat) (x : PathSt) : (s.setPath p x).marks = s.marks := rfl
@[simp] theorem State.setPath_msLevel (s : State) (p : Nat) (x : PathSt) : (s.setPath p x).msLevel = s.msLevel := rfl
@[simp] theorem State.setPath_ms (s : State) (p : Nat) (x : PathSt) : (s.setPath p x).ms = s.ms := rfl
@[simp] theorem State.setPath_objs (s : State) (p : Nat) (x : PathSt) : (s.setPath p x).objs = s.objs := rfl
@[simp] theorem State.setPath_vfEnable (s : State) (p : Nat) (x : PathSt) : (s.setPath p x).vfEnable = s.vfEnable := rfl
@[simp] theorem State.setPath_numVfs (s : State) (p : Nat) (x : PathSt) : (s.setPath p x).numVfs = s.numVfs := rfl
@[simp] theorem State.setPath_d3hot (s : State) (p : Nat) (x : PathSt) : (s.setPath p x).d3hot = s.d3hot := rfl
@[simp] theorem State.setPath_fns (s : State) (p : Nat) (x : PathSt) : (s.setPath p x).fns = s.fns := rfl
@[simp] theorem State.setPath_xe (s : State) (p : Nat) (x : PathSt) : (s.setPath p x).xe = s.xe := rfl
@[simp] theorem State.setPath_xeTurns (s : State) (p : Nat) (x : PathSt) : (s.setPath p x).xeTurns = s.xeTurns := rfl
@[simp] theorem State.setPath_evenPass (s : State) (p : Nat) (x : PathSt) : (s.setPath p x).evenPass = s.evenPass := rfl
@[simp] theorem State.setPath_hallRst (s : State) (p : Nat) (x : PathSt) : (s.setPath p x).hallRst = s.hallRst := rfl
@[simp] theorem State.setPath_pdActive (s : State) (p : Nat) (x : PathSt) : (s.setPath p x).pdActive = s.pdActive := rfl
@[simp] theorem State.setPath_eni (s : State) (p : Nat) (x : PathSt) : (s.setPath p x).eni = s.eni := rfl
@[simp] theorem State.setPath_params (s : State) (p : Nat) (x : PathSt) : (s.setPath p x).params = s.params := rfl
@[simp] theorem State.setPath_line (s : State) (p : Nat) (x : PathSt) : (s.setPath p x).line = s.line := rfl
@[simp] theorem State.setPath_plant (s : State) (p : Nat) (x : PathSt) : (s.setPath p x).plant = s.plant := rfl
@[simp] theorem State.setPath_lineSnap (s : State) (p : Nat) (x : PathSt) : (s.setPath p x).lineSnap = s.lineSnap := rfl
@[simp] theorem State.setPath_camNets (s : State) (p : Nat) (x : PathSt) : (s.setPath p x).camNets = s.camNets := rfl
@[simp] theorem State.setPath_casc (s : State) (p : Nat) (x : PathSt) : (s.setPath p x).casc = s.casc := rfl
@[simp] theorem State.setPath_service (s : State) (p : Nat) (x : PathSt) : (s.setPath p x).service = s.service := rfl
@[simp] theorem State.setPath_life (s : State) (p : Nat) (x : PathSt) : (s.setPath p x).life = s.life := rfl
@[simp] theorem State.setPath_recorder (s : State) (p : Nat) (x : PathSt) : (s.setPath p x).recorder = s.recorder := rfl
@[simp] theorem State.setPath_emcy (s : State) (p : Nat) (x : PathSt) : (s.setPath p x).emcy = s.emcy := rfl
@[simp] theorem State.setPath_mgrEvents (s : State) (p : Nat) (x : PathSt) : (s.setPath p x).mgrEvents = s.mgrEvents := rfl
@[simp] theorem State.setPath_out (s : State) (p : Nat) (x : PathSt) : (s.setPath p x).out = s.out := rfl
@[simp] theorem State.setPath_pending (s : State) (p : Nat) (x : PathSt) : (s.setPath p x).pending = s.pending := rfl
@[simp] theorem State.setPath_free (s : State) (p : Nat) (x : PathSt) : (s.setPath p x).free = s.free := rfl
@[simp] theorem State.setPath_core_of (s : State) (p : Nat) (x : PathSt) (q : Nat) : (s.setPath p x).core q = s.core q := rfl
@[simp] theorem State.setPath_slot_of (s : State) (p : Nat) (x : PathSt) (q : Nat) : (s.setPath p x).slot q = s.slot q := rfl
@[simp] theorem State.setPath_ctx_of (s : State) (p : Nat) (x : PathSt) (q : Nat) : (s.setPath p x).ctx q = s.ctx q := rfl
@[simp] theorem State.setPath_bin_of (s : State) (p : Nat) (x : PathSt) (q : Nat) : (s.setPath p x).bin q = s.bin q := rfl
@[simp] theorem State.setPath_glh_of (s : State) (p : Nat) (x : PathSt) (q : Nat) : (s.setPath p x).glh q = s.glh q := rfl
@[simp] theorem State.setPath_galr_of (s : State) (p : Nat) (x : PathSt) (q : Nat) : (s.setPath p x).galr q = s.galr q := rfl
@[simp] theorem State.setPath_reg_of (s : State) (p : Nat) (x : PathSt) (q : Nat) : (s.setPath p x).reg q = s.reg q := rfl
@[simp] theorem State.setPath_sys_of (s : State) (p : Nat) (x : PathSt) (q j : Nat) : (s.setPath p x).sys q j = s.sys q j := rfl
@[simp] theorem State.setPath_axr_of (s : State) (p : Nat) (x : PathSt) (q : Nat) : (s.setPath p x).axr q = s.axr q := rfl
@[simp] theorem State.setPath_obj_of (s : State) (p : Nat) (x : PathSt) (q j : Nat) : (s.setPath p x).obj q j = s.obj q j := rfl
@[simp] theorem State.setPath_barn_of (s : State) (p : Nat) (x : PathSt) (q : Nat) : (s.setPath p x).barn q = s.barn q := rfl
@[simp] theorem State.setPath_fnCfg_of (s : State) (p : Nat) (x : PathSt) (q : Nat) : (s.setPath p x).fnCfg q = s.fnCfg q := rfl
@[simp] theorem State.setPath_memWord_of (s : State) (p : Nat) (x : PathSt) (q : Nat) : (s.setPath p x).memWord q = s.memWord q := rfl

/-! setMemWord. -/

@[simp] theorem State.setMemWord_part (s : State) (a : Nat) (w : Word) : (s.setMemWord a w).part = s.part := rfl
@[simp] theorem State.setMemWord_dt (s : State) (a : Nat) (w : Word) : (s.setMemWord a w).dt = s.dt := rfl
@[simp] theorem State.setMemWord_dtRun (s : State) (a : Nat) (w : Word) : (s.setMemWord a w).dtRun = s.dtRun := rfl
@[simp] theorem State.setMemWord_mram (s : State) (a : Nat) (w : Word) : (s.setMemWord a w).mram = s.mram := rfl
@[simp] theorem State.setMemWord_planted (s : State) (a : Nat) (w : Word) : (s.setMemWord a w).planted = s.planted := rfl
@[simp] theorem State.setMemWord_barns (s : State) (a : Nat) (w : Word) : (s.setMemWord a w).barns = s.barns := rfl
@[simp] theorem State.setMemWord_llc (s : State) (a : Nat) (w : Word) : (s.setMemWord a w).llc = s.llc := rfl
@[simp] theorem State.setMemWord_hourCe (s : State) (a : Nat) (w : Word) : (s.setMemWord a w).hourCe = s.hourCe := rfl
@[simp] theorem State.setMemWord_scrubPos (s : State) (a : Nat) (w : Word) : (s.setMemWord a w).scrubPos = s.scrubPos := rfl
@[simp] theorem State.setMemWord_ctl (s : State) (a : Nat) (w : Word) : (s.setMemWord a w).ctl = s.ctl := rfl
@[simp] theorem State.setMemWord_posted (s : State) (a : Nat) (w : Word) : (s.setMemWord a w).posted = s.posted := rfl
@[simp] theorem State.setMemWord_sysregs (s : State) (a : Nat) (w : Word) : (s.setMemWord a w).sysregs = s.sysregs := rfl
@[simp] theorem State.setMemWord_cores (s : State) (a : Nat) (w : Word) : (s.setMemWord a w).cores = s.cores := rfl
@[simp] theorem State.setMemWord_slots (s : State) (a : Nat) (w : Word) : (s.setMemWord a w).slots = s.slots := rfl
@[simp] theorem State.setMemWord_ctxs (s : State) (a : Nat) (w : Word) : (s.setMemWord a w).ctxs = s.ctxs := rfl
@[simp] theorem State.setMemWord_fillNo (s : State) (a : Nat) (w : Word) : (s.setMemWord a w).fillNo = s.fillNo := rfl
@[simp] theorem State.setMemWord_rings (s : State) (a : Nat) (w : Word) : (s.setMemWord a w).rings = s.rings := rfl
@[simp] theorem State.setMemWord_wdogFrom (s : State) (a : Nat) (w : Word) : (s.setMemWord a w).wdogFrom = s.wdogFrom := rfl
@[simp] theorem State.setMemWord_tlbis (s : State) (a : Nat) (w : Word) : (s.setMemWord a w).tlbis = s.tlbis := rfl
@[simp] theorem State.setMemWord_patch (s : State) (a : Nat) (w : Word) : (s.setMemWord a w).patch = s.patch := rfl
@[simp] theorem State.setMemWord_jtagUnlocked (s : State) (a : Nat) (w : Word) : (s.setMemWord a w).jtagUnlocked = s.jtagUnlocked := rfl
@[simp] theorem State.setMemWord_bins (s : State) (a : Nat) (w : Word) : (s.setMemWord a w).bins = s.bins := rfl
@[simp] theorem State.setMemWord_gl (s : State) (a : Nat) (w : Word) : (s.setMemWord a w).gl = s.gl := rfl
@[simp] theorem State.setMemWord_gal (s : State) (a : Nat) (w : Word) : (s.setMemWord a w).gal = s.gal := rfl
@[simp] theorem State.setMemWord_galSeq (s : State) (a : Nat) (w : Word) : (s.setMemWord a w).galSeq = s.galSeq := rfl
@[simp] theorem State.setMemWord_axes (s : State) (a : Nat) (w : Word) : (s.setMemWord a w).axes = s.axes := rfl
@[simp] theorem State.setMemWord_cams (s : State) (a : Nat) (w : Word) : (s.setMemWord a w).cams = s.cams := rfl
@[simp] theorem State.setMemWord_camEdge (s : State) (a : Nat) (w : Word) : (s.setMemWord a w).camEdge = s.camEdge := rfl
@[simp] theorem State.setMemWord_netCams (s : State) (a : Nat) (w : Word) : (s.setMemWord a w).netCams = s.netCams := rfl
@[simp] theorem State.setMemWord_marks (s : State) (a : Nat) (w : Word) : (s.setMemWord a w).marks = s.marks := rfl
@[simp] theorem State.setMemWord_msLevel (s : State) (a : Nat) (w : Word) : (s.setMemWord a w).msLevel = s.msLevel := rfl
@[simp] theorem State.setMemWord_ms (s : State) (a : Nat) (w : Word) : (s.setMemWord a w).ms = s.ms := rfl
@[simp] theorem State.setMemWord_objs (s : State) (a : Nat) (w : Word) : (s.setMemWord a w).objs = s.objs := rfl
@[simp] theorem State.setMemWord_vfEnable (s : State) (a : Nat) (w : Word) : (s.setMemWord a w).vfEnable = s.vfEnable := rfl
@[simp] theorem State.setMemWord_numVfs (s : State) (a : Nat) (w : Word) : (s.setMemWord a w).numVfs = s.numVfs := rfl
@[simp] theorem State.setMemWord_d3hot (s : State) (a : Nat) (w : Word) : (s.setMemWord a w).d3hot = s.d3hot := rfl
@[simp] theorem State.setMemWord_fns (s : State) (a : Nat) (w : Word) : (s.setMemWord a w).fns = s.fns := rfl
@[simp] theorem State.setMemWord_xe (s : State) (a : Nat) (w : Word) : (s.setMemWord a w).xe = s.xe := rfl
@[simp] theorem State.setMemWord_xeTurns (s : State) (a : Nat) (w : Word) : (s.setMemWord a w).xeTurns = s.xeTurns := rfl
@[simp] theorem State.setMemWord_evenPass (s : State) (a : Nat) (w : Word) : (s.setMemWord a w).evenPass = s.evenPass := rfl
@[simp] theorem State.setMemWord_hallRst (s : State) (a : Nat) (w : Word) : (s.setMemWord a w).hallRst = s.hallRst := rfl
@[simp] theorem State.setMemWord_pdActive (s : State) (a : Nat) (w : Word) : (s.setMemWord a w).pdActive = s.pdActive := rfl
@[simp] theorem State.setMemWord_dict (s : State) (a : Nat) (w : Word) : (s.setMemWord a w).dict = s.dict := rfl
@[simp] theorem State.setMemWord_eni (s : State) (a : Nat) (w : Word) : (s.setMemWord a w).eni = s.eni := rfl
@[simp] theorem State.setMemWord_params (s : State) (a : Nat) (w : Word) : (s.setMemWord a w).params = s.params := rfl
@[simp] theorem State.setMemWord_line (s : State) (a : Nat) (w : Word) : (s.setMemWord a w).line = s.line := rfl
@[simp] theorem State.setMemWord_plant (s : State) (a : Nat) (w : Word) : (s.setMemWord a w).plant = s.plant := rfl
@[simp] theorem State.setMemWord_lineSnap (s : State) (a : Nat) (w : Word) : (s.setMemWord a w).lineSnap = s.lineSnap := rfl
@[simp] theorem State.setMemWord_camNets (s : State) (a : Nat) (w : Word) : (s.setMemWord a w).camNets = s.camNets := rfl
@[simp] theorem State.setMemWord_casc (s : State) (a : Nat) (w : Word) : (s.setMemWord a w).casc = s.casc := rfl
@[simp] theorem State.setMemWord_service (s : State) (a : Nat) (w : Word) : (s.setMemWord a w).service = s.service := rfl
@[simp] theorem State.setMemWord_life (s : State) (a : Nat) (w : Word) : (s.setMemWord a w).life = s.life := rfl
@[simp] theorem State.setMemWord_recorder (s : State) (a : Nat) (w : Word) : (s.setMemWord a w).recorder = s.recorder := rfl
@[simp] theorem State.setMemWord_emcy (s : State) (a : Nat) (w : Word) : (s.setMemWord a w).emcy = s.emcy := rfl
@[simp] theorem State.setMemWord_mgrEvents (s : State) (a : Nat) (w : Word) : (s.setMemWord a w).mgrEvents = s.mgrEvents := rfl
@[simp] theorem State.setMemWord_out (s : State) (a : Nat) (w : Word) : (s.setMemWord a w).out = s.out := rfl
@[simp] theorem State.setMemWord_pending (s : State) (a : Nat) (w : Word) : (s.setMemWord a w).pending = s.pending := rfl
@[simp] theorem State.setMemWord_free (s : State) (a : Nat) (w : Word) : (s.setMemWord a w).free = s.free := rfl
@[simp] theorem State.setMemWord_core_of (s : State) (a : Nat) (w : Word) (q : Nat) : (s.setMemWord a w).core q = s.core q := rfl
@[simp] theorem State.setMemWord_slot_of (s : State) (a : Nat) (w : Word) (q : Nat) : (s.setMemWord a w).slot q = s.slot q := rfl
@[simp] theorem State.setMemWord_ctx_of (s : State) (a : Nat) (w : Word) (q : Nat) : (s.setMemWord a w).ctx q = s.ctx q := rfl
@[simp] theorem State.setMemWord_bin_of (s : State) (a : Nat) (w : Word) (q : Nat) : (s.setMemWord a w).bin q = s.bin q := rfl
@[simp] theorem State.setMemWord_glh_of (s : State) (a : Nat) (w : Word) (q : Nat) : (s.setMemWord a w).glh q = s.glh q := rfl
@[simp] theorem State.setMemWord_galr_of (s : State) (a : Nat) (w : Word) (q : Nat) : (s.setMemWord a w).galr q = s.galr q := rfl
@[simp] theorem State.setMemWord_reg_of (s : State) (a : Nat) (w : Word) (q : Nat) : (s.setMemWord a w).reg q = s.reg q := rfl
@[simp] theorem State.setMemWord_sys_of (s : State) (a : Nat) (w : Word) (q j : Nat) : (s.setMemWord a w).sys q j = s.sys q j := rfl
@[simp] theorem State.setMemWord_axr_of (s : State) (a : Nat) (w : Word) (q : Nat) : (s.setMemWord a w).axr q = s.axr q := rfl
@[simp] theorem State.setMemWord_obj_of (s : State) (a : Nat) (w : Word) (q j : Nat) : (s.setMemWord a w).obj q j = s.obj q j := rfl
@[simp] theorem State.setMemWord_path_of (s : State) (a : Nat) (w : Word) (q : Nat) : (s.setMemWord a w).path q = s.path q := rfl
@[simp] theorem State.setMemWord_barn_of (s : State) (a : Nat) (w : Word) (q : Nat) : (s.setMemWord a w).barn q = s.barn q := rfl
@[simp] theorem State.setMemWord_fnCfg_of (s : State) (a : Nat) (w : Word) (q : Nat) : (s.setMemWord a w).fnCfg q = s.fnCfg q := rfl

/-! setBarn. -/

@[simp] theorem State.setBarn_part (s : State) (n : Nat) (b : BarnCache) : (s.setBarn n b).part = s.part := rfl
@[simp] theorem State.setBarn_dt (s : State) (n : Nat) (b : BarnCache) : (s.setBarn n b).dt = s.dt := rfl
@[simp] theorem State.setBarn_dtRun (s : State) (n : Nat) (b : BarnCache) : (s.setBarn n b).dtRun = s.dtRun := rfl
@[simp] theorem State.setBarn_mem (s : State) (n : Nat) (b : BarnCache) : (s.setBarn n b).mem = s.mem := rfl
@[simp] theorem State.setBarn_tags (s : State) (n : Nat) (b : BarnCache) : (s.setBarn n b).tags = s.tags := rfl
@[simp] theorem State.setBarn_mram (s : State) (n : Nat) (b : BarnCache) : (s.setBarn n b).mram = s.mram := rfl
@[simp] theorem State.setBarn_planted (s : State) (n : Nat) (b : BarnCache) : (s.setBarn n b).planted = s.planted := rfl
@[simp] theorem State.setBarn_llc (s : State) (n : Nat) (b : BarnCache) : (s.setBarn n b).llc = s.llc := rfl
@[simp] theorem State.setBarn_hourCe (s : State) (n : Nat) (b : BarnCache) : (s.setBarn n b).hourCe = s.hourCe := rfl
@[simp] theorem State.setBarn_scrubPos (s : State) (n : Nat) (b : BarnCache) : (s.setBarn n b).scrubPos = s.scrubPos := rfl
@[simp] theorem State.setBarn_ctl (s : State) (n : Nat) (b : BarnCache) : (s.setBarn n b).ctl = s.ctl := rfl
@[simp] theorem State.setBarn_posted (s : State) (n : Nat) (b : BarnCache) : (s.setBarn n b).posted = s.posted := rfl
@[simp] theorem State.setBarn_sysregs (s : State) (n : Nat) (b : BarnCache) : (s.setBarn n b).sysregs = s.sysregs := rfl
@[simp] theorem State.setBarn_cores (s : State) (n : Nat) (b : BarnCache) : (s.setBarn n b).cores = s.cores := rfl
@[simp] theorem State.setBarn_slots (s : State) (n : Nat) (b : BarnCache) : (s.setBarn n b).slots = s.slots := rfl
@[simp] theorem State.setBarn_ctxs (s : State) (n : Nat) (b : BarnCache) : (s.setBarn n b).ctxs = s.ctxs := rfl
@[simp] theorem State.setBarn_fillNo (s : State) (n : Nat) (b : BarnCache) : (s.setBarn n b).fillNo = s.fillNo := rfl
@[simp] theorem State.setBarn_rings (s : State) (n : Nat) (b : BarnCache) : (s.setBarn n b).rings = s.rings := rfl
@[simp] theorem State.setBarn_wdogFrom (s : State) (n : Nat) (b : BarnCache) : (s.setBarn n b).wdogFrom = s.wdogFrom := rfl
@[simp] theorem State.setBarn_tlbis (s : State) (n : Nat) (b : BarnCache) : (s.setBarn n b).tlbis = s.tlbis := rfl
@[simp] theorem State.setBarn_patch (s : State) (n : Nat) (b : BarnCache) : (s.setBarn n b).patch = s.patch := rfl
@[simp] theorem State.setBarn_jtagUnlocked (s : State) (n : Nat) (b : BarnCache) : (s.setBarn n b).jtagUnlocked = s.jtagUnlocked := rfl
@[simp] theorem State.setBarn_bins (s : State) (n : Nat) (b : BarnCache) : (s.setBarn n b).bins = s.bins := rfl
@[simp] theorem State.setBarn_gl (s : State) (n : Nat) (b : BarnCache) : (s.setBarn n b).gl = s.gl := rfl
@[simp] theorem State.setBarn_gal (s : State) (n : Nat) (b : BarnCache) : (s.setBarn n b).gal = s.gal := rfl
@[simp] theorem State.setBarn_galSeq (s : State) (n : Nat) (b : BarnCache) : (s.setBarn n b).galSeq = s.galSeq := rfl
@[simp] theorem State.setBarn_axes (s : State) (n : Nat) (b : BarnCache) : (s.setBarn n b).axes = s.axes := rfl
@[simp] theorem State.setBarn_cams (s : State) (n : Nat) (b : BarnCache) : (s.setBarn n b).cams = s.cams := rfl
@[simp] theorem State.setBarn_camEdge (s : State) (n : Nat) (b : BarnCache) : (s.setBarn n b).camEdge = s.camEdge := rfl
@[simp] theorem State.setBarn_netCams (s : State) (n : Nat) (b : BarnCache) : (s.setBarn n b).netCams = s.netCams := rfl
@[simp] theorem State.setBarn_marks (s : State) (n : Nat) (b : BarnCache) : (s.setBarn n b).marks = s.marks := rfl
@[simp] theorem State.setBarn_msLevel (s : State) (n : Nat) (b : BarnCache) : (s.setBarn n b).msLevel = s.msLevel := rfl
@[simp] theorem State.setBarn_ms (s : State) (n : Nat) (b : BarnCache) : (s.setBarn n b).ms = s.ms := rfl
@[simp] theorem State.setBarn_objs (s : State) (n : Nat) (b : BarnCache) : (s.setBarn n b).objs = s.objs := rfl
@[simp] theorem State.setBarn_vfEnable (s : State) (n : Nat) (b : BarnCache) : (s.setBarn n b).vfEnable = s.vfEnable := rfl
@[simp] theorem State.setBarn_numVfs (s : State) (n : Nat) (b : BarnCache) : (s.setBarn n b).numVfs = s.numVfs := rfl
@[simp] theorem State.setBarn_d3hot (s : State) (n : Nat) (b : BarnCache) : (s.setBarn n b).d3hot = s.d3hot := rfl
@[simp] theorem State.setBarn_fns (s : State) (n : Nat) (b : BarnCache) : (s.setBarn n b).fns = s.fns := rfl
@[simp] theorem State.setBarn_xe (s : State) (n : Nat) (b : BarnCache) : (s.setBarn n b).xe = s.xe := rfl
@[simp] theorem State.setBarn_xeTurns (s : State) (n : Nat) (b : BarnCache) : (s.setBarn n b).xeTurns = s.xeTurns := rfl
@[simp] theorem State.setBarn_evenPass (s : State) (n : Nat) (b : BarnCache) : (s.setBarn n b).evenPass = s.evenPass := rfl
@[simp] theorem State.setBarn_hallRst (s : State) (n : Nat) (b : BarnCache) : (s.setBarn n b).hallRst = s.hallRst := rfl
@[simp] theorem State.setBarn_pdActive (s : State) (n : Nat) (b : BarnCache) : (s.setBarn n b).pdActive = s.pdActive := rfl
@[simp] theorem State.setBarn_dict (s : State) (n : Nat) (b : BarnCache) : (s.setBarn n b).dict = s.dict := rfl
@[simp] theorem State.setBarn_eni (s : State) (n : Nat) (b : BarnCache) : (s.setBarn n b).eni = s.eni := rfl
@[simp] theorem State.setBarn_params (s : State) (n : Nat) (b : BarnCache) : (s.setBarn n b).params = s.params := rfl
@[simp] theorem State.setBarn_line (s : State) (n : Nat) (b : BarnCache) : (s.setBarn n b).line = s.line := rfl
@[simp] theorem State.setBarn_plant (s : State) (n : Nat) (b : BarnCache) : (s.setBarn n b).plant = s.plant := rfl
@[simp] theorem State.setBarn_lineSnap (s : State) (n : Nat) (b : BarnCache) : (s.setBarn n b).lineSnap = s.lineSnap := rfl
@[simp] theorem State.setBarn_camNets (s : State) (n : Nat) (b : BarnCache) : (s.setBarn n b).camNets = s.camNets := rfl
@[simp] theorem State.setBarn_casc (s : State) (n : Nat) (b : BarnCache) : (s.setBarn n b).casc = s.casc := rfl
@[simp] theorem State.setBarn_service (s : State) (n : Nat) (b : BarnCache) : (s.setBarn n b).service = s.service := rfl
@[simp] theorem State.setBarn_life (s : State) (n : Nat) (b : BarnCache) : (s.setBarn n b).life = s.life := rfl
@[simp] theorem State.setBarn_recorder (s : State) (n : Nat) (b : BarnCache) : (s.setBarn n b).recorder = s.recorder := rfl
@[simp] theorem State.setBarn_emcy (s : State) (n : Nat) (b : BarnCache) : (s.setBarn n b).emcy = s.emcy := rfl
@[simp] theorem State.setBarn_mgrEvents (s : State) (n : Nat) (b : BarnCache) : (s.setBarn n b).mgrEvents = s.mgrEvents := rfl
@[simp] theorem State.setBarn_out (s : State) (n : Nat) (b : BarnCache) : (s.setBarn n b).out = s.out := rfl
@[simp] theorem State.setBarn_pending (s : State) (n : Nat) (b : BarnCache) : (s.setBarn n b).pending = s.pending := rfl
@[simp] theorem State.setBarn_free (s : State) (n : Nat) (b : BarnCache) : (s.setBarn n b).free = s.free := rfl
@[simp] theorem State.setBarn_core_of (s : State) (n : Nat) (b : BarnCache) (q : Nat) : (s.setBarn n b).core q = s.core q := rfl
@[simp] theorem State.setBarn_slot_of (s : State) (n : Nat) (b : BarnCache) (q : Nat) : (s.setBarn n b).slot q = s.slot q := rfl
@[simp] theorem State.setBarn_ctx_of (s : State) (n : Nat) (b : BarnCache) (q : Nat) : (s.setBarn n b).ctx q = s.ctx q := rfl
@[simp] theorem State.setBarn_bin_of (s : State) (n : Nat) (b : BarnCache) (q : Nat) : (s.setBarn n b).bin q = s.bin q := rfl
@[simp] theorem State.setBarn_glh_of (s : State) (n : Nat) (b : BarnCache) (q : Nat) : (s.setBarn n b).glh q = s.glh q := rfl
@[simp] theorem State.setBarn_galr_of (s : State) (n : Nat) (b : BarnCache) (q : Nat) : (s.setBarn n b).galr q = s.galr q := rfl
@[simp] theorem State.setBarn_reg_of (s : State) (n : Nat) (b : BarnCache) (q : Nat) : (s.setBarn n b).reg q = s.reg q := rfl
@[simp] theorem State.setBarn_sys_of (s : State) (n : Nat) (b : BarnCache) (q j : Nat) : (s.setBarn n b).sys q j = s.sys q j := rfl
@[simp] theorem State.setBarn_axr_of (s : State) (n : Nat) (b : BarnCache) (q : Nat) : (s.setBarn n b).axr q = s.axr q := rfl
@[simp] theorem State.setBarn_obj_of (s : State) (n : Nat) (b : BarnCache) (q j : Nat) : (s.setBarn n b).obj q j = s.obj q j := rfl
@[simp] theorem State.setBarn_path_of (s : State) (n : Nat) (b : BarnCache) (q : Nat) : (s.setBarn n b).path q = s.path q := rfl
@[simp] theorem State.setBarn_fnCfg_of (s : State) (n : Nat) (b : BarnCache) (q : Nat) : (s.setBarn n b).fnCfg q = s.fnCfg q := rfl
@[simp] theorem State.setBarn_memWord_of (s : State) (n : Nat) (b : BarnCache) (q : Nat) : (s.setBarn n b).memWord q = s.memWord q := rfl

/-! setFn. -/

@[simp] theorem State.setFn_part (s : State) (f : Nat) (c : FnCfg) : (s.setFn f c).part = s.part := rfl
@[simp] theorem State.setFn_dt (s : State) (f : Nat) (c : FnCfg) : (s.setFn f c).dt = s.dt := rfl
@[simp] theorem State.setFn_dtRun (s : State) (f : Nat) (c : FnCfg) : (s.setFn f c).dtRun = s.dtRun := rfl
@[simp] theorem State.setFn_mem (s : State) (f : Nat) (c : FnCfg) : (s.setFn f c).mem = s.mem := rfl
@[simp] theorem State.setFn_tags (s : State) (f : Nat) (c : FnCfg) : (s.setFn f c).tags = s.tags := rfl
@[simp] theorem State.setFn_mram (s : State) (f : Nat) (c : FnCfg) : (s.setFn f c).mram = s.mram := rfl
@[simp] theorem State.setFn_planted (s : State) (f : Nat) (c : FnCfg) : (s.setFn f c).planted = s.planted := rfl
@[simp] theorem State.setFn_barns (s : State) (f : Nat) (c : FnCfg) : (s.setFn f c).barns = s.barns := rfl
@[simp] theorem State.setFn_llc (s : State) (f : Nat) (c : FnCfg) : (s.setFn f c).llc = s.llc := rfl
@[simp] theorem State.setFn_hourCe (s : State) (f : Nat) (c : FnCfg) : (s.setFn f c).hourCe = s.hourCe := rfl
@[simp] theorem State.setFn_scrubPos (s : State) (f : Nat) (c : FnCfg) : (s.setFn f c).scrubPos = s.scrubPos := rfl
@[simp] theorem State.setFn_ctl (s : State) (f : Nat) (c : FnCfg) : (s.setFn f c).ctl = s.ctl := rfl
@[simp] theorem State.setFn_posted (s : State) (f : Nat) (c : FnCfg) : (s.setFn f c).posted = s.posted := rfl
@[simp] theorem State.setFn_sysregs (s : State) (f : Nat) (c : FnCfg) : (s.setFn f c).sysregs = s.sysregs := rfl
@[simp] theorem State.setFn_cores (s : State) (f : Nat) (c : FnCfg) : (s.setFn f c).cores = s.cores := rfl
@[simp] theorem State.setFn_slots (s : State) (f : Nat) (c : FnCfg) : (s.setFn f c).slots = s.slots := rfl
@[simp] theorem State.setFn_ctxs (s : State) (f : Nat) (c : FnCfg) : (s.setFn f c).ctxs = s.ctxs := rfl
@[simp] theorem State.setFn_fillNo (s : State) (f : Nat) (c : FnCfg) : (s.setFn f c).fillNo = s.fillNo := rfl
@[simp] theorem State.setFn_rings (s : State) (f : Nat) (c : FnCfg) : (s.setFn f c).rings = s.rings := rfl
@[simp] theorem State.setFn_wdogFrom (s : State) (f : Nat) (c : FnCfg) : (s.setFn f c).wdogFrom = s.wdogFrom := rfl
@[simp] theorem State.setFn_tlbis (s : State) (f : Nat) (c : FnCfg) : (s.setFn f c).tlbis = s.tlbis := rfl
@[simp] theorem State.setFn_patch (s : State) (f : Nat) (c : FnCfg) : (s.setFn f c).patch = s.patch := rfl
@[simp] theorem State.setFn_jtagUnlocked (s : State) (f : Nat) (c : FnCfg) : (s.setFn f c).jtagUnlocked = s.jtagUnlocked := rfl
@[simp] theorem State.setFn_bins (s : State) (f : Nat) (c : FnCfg) : (s.setFn f c).bins = s.bins := rfl
@[simp] theorem State.setFn_gl (s : State) (f : Nat) (c : FnCfg) : (s.setFn f c).gl = s.gl := rfl
@[simp] theorem State.setFn_gal (s : State) (f : Nat) (c : FnCfg) : (s.setFn f c).gal = s.gal := rfl
@[simp] theorem State.setFn_galSeq (s : State) (f : Nat) (c : FnCfg) : (s.setFn f c).galSeq = s.galSeq := rfl
@[simp] theorem State.setFn_axes (s : State) (f : Nat) (c : FnCfg) : (s.setFn f c).axes = s.axes := rfl
@[simp] theorem State.setFn_cams (s : State) (f : Nat) (c : FnCfg) : (s.setFn f c).cams = s.cams := rfl
@[simp] theorem State.setFn_camEdge (s : State) (f : Nat) (c : FnCfg) : (s.setFn f c).camEdge = s.camEdge := rfl
@[simp] theorem State.setFn_netCams (s : State) (f : Nat) (c : FnCfg) : (s.setFn f c).netCams = s.netCams := rfl
@[simp] theorem State.setFn_marks (s : State) (f : Nat) (c : FnCfg) : (s.setFn f c).marks = s.marks := rfl
@[simp] theorem State.setFn_msLevel (s : State) (f : Nat) (c : FnCfg) : (s.setFn f c).msLevel = s.msLevel := rfl
@[simp] theorem State.setFn_ms (s : State) (f : Nat) (c : FnCfg) : (s.setFn f c).ms = s.ms := rfl
@[simp] theorem State.setFn_objs (s : State) (f : Nat) (c : FnCfg) : (s.setFn f c).objs = s.objs := rfl
@[simp] theorem State.setFn_vfEnable (s : State) (f : Nat) (c : FnCfg) : (s.setFn f c).vfEnable = s.vfEnable := rfl
@[simp] theorem State.setFn_numVfs (s : State) (f : Nat) (c : FnCfg) : (s.setFn f c).numVfs = s.numVfs := rfl
@[simp] theorem State.setFn_d3hot (s : State) (f : Nat) (c : FnCfg) : (s.setFn f c).d3hot = s.d3hot := rfl
@[simp] theorem State.setFn_xe (s : State) (f : Nat) (c : FnCfg) : (s.setFn f c).xe = s.xe := rfl
@[simp] theorem State.setFn_xeTurns (s : State) (f : Nat) (c : FnCfg) : (s.setFn f c).xeTurns = s.xeTurns := rfl
@[simp] theorem State.setFn_evenPass (s : State) (f : Nat) (c : FnCfg) : (s.setFn f c).evenPass = s.evenPass := rfl
@[simp] theorem State.setFn_hallRst (s : State) (f : Nat) (c : FnCfg) : (s.setFn f c).hallRst = s.hallRst := rfl
@[simp] theorem State.setFn_pdActive (s : State) (f : Nat) (c : FnCfg) : (s.setFn f c).pdActive = s.pdActive := rfl
@[simp] theorem State.setFn_dict (s : State) (f : Nat) (c : FnCfg) : (s.setFn f c).dict = s.dict := rfl
@[simp] theorem State.setFn_eni (s : State) (f : Nat) (c : FnCfg) : (s.setFn f c).eni = s.eni := rfl
@[simp] theorem State.setFn_params (s : State) (f : Nat) (c : FnCfg) : (s.setFn f c).params = s.params := rfl
@[simp] theorem State.setFn_line (s : State) (f : Nat) (c : FnCfg) : (s.setFn f c).line = s.line := rfl
@[simp] theorem State.setFn_plant (s : State) (f : Nat) (c : FnCfg) : (s.setFn f c).plant = s.plant := rfl
@[simp] theorem State.setFn_lineSnap (s : State) (f : Nat) (c : FnCfg) : (s.setFn f c).lineSnap = s.lineSnap := rfl
@[simp] theorem State.setFn_camNets (s : State) (f : Nat) (c : FnCfg) : (s.setFn f c).camNets = s.camNets := rfl
@[simp] theorem State.setFn_casc (s : State) (f : Nat) (c : FnCfg) : (s.setFn f c).casc = s.casc := rfl
@[simp] theorem State.setFn_service (s : State) (f : Nat) (c : FnCfg) : (s.setFn f c).service = s.service := rfl
@[simp] theorem State.setFn_life (s : State) (f : Nat) (c : FnCfg) : (s.setFn f c).life = s.life := rfl
@[simp] theorem State.setFn_recorder (s : State) (f : Nat) (c : FnCfg) : (s.setFn f c).recorder = s.recorder := rfl
@[simp] theorem State.setFn_emcy (s : State) (f : Nat) (c : FnCfg) : (s.setFn f c).emcy = s.emcy := rfl
@[simp] theorem State.setFn_mgrEvents (s : State) (f : Nat) (c : FnCfg) : (s.setFn f c).mgrEvents = s.mgrEvents := rfl
@[simp] theorem State.setFn_out (s : State) (f : Nat) (c : FnCfg) : (s.setFn f c).out = s.out := rfl
@[simp] theorem State.setFn_pending (s : State) (f : Nat) (c : FnCfg) : (s.setFn f c).pending = s.pending := rfl
@[simp] theorem State.setFn_free (s : State) (f : Nat) (c : FnCfg) : (s.setFn f c).free = s.free := rfl
@[simp] theorem State.setFn_core_of (s : State) (f : Nat) (c : FnCfg) (q : Nat) : (s.setFn f c).core q = s.core q := rfl
@[simp] theorem State.setFn_slot_of (s : State) (f : Nat) (c : FnCfg) (q : Nat) : (s.setFn f c).slot q = s.slot q := rfl
@[simp] theorem State.setFn_ctx_of (s : State) (f : Nat) (c : FnCfg) (q : Nat) : (s.setFn f c).ctx q = s.ctx q := rfl
@[simp] theorem State.setFn_bin_of (s : State) (f : Nat) (c : FnCfg) (q : Nat) : (s.setFn f c).bin q = s.bin q := rfl
@[simp] theorem State.setFn_glh_of (s : State) (f : Nat) (c : FnCfg) (q : Nat) : (s.setFn f c).glh q = s.glh q := rfl
@[simp] theorem State.setFn_galr_of (s : State) (f : Nat) (c : FnCfg) (q : Nat) : (s.setFn f c).galr q = s.galr q := rfl
@[simp] theorem State.setFn_reg_of (s : State) (f : Nat) (c : FnCfg) (q : Nat) : (s.setFn f c).reg q = s.reg q := rfl
@[simp] theorem State.setFn_sys_of (s : State) (f : Nat) (c : FnCfg) (q j : Nat) : (s.setFn f c).sys q j = s.sys q j := rfl
@[simp] theorem State.setFn_axr_of (s : State) (f : Nat) (c : FnCfg) (q : Nat) : (s.setFn f c).axr q = s.axr q := rfl
@[simp] theorem State.setFn_obj_of (s : State) (f : Nat) (c : FnCfg) (q j : Nat) : (s.setFn f c).obj q j = s.obj q j := rfl
@[simp] theorem State.setFn_path_of (s : State) (f : Nat) (c : FnCfg) (q : Nat) : (s.setFn f c).path q = s.path q := rfl
@[simp] theorem State.setFn_barn_of (s : State) (f : Nat) (c : FnCfg) (q : Nat) : (s.setFn f c).barn q = s.barn q := rfl
@[simp] theorem State.setFn_memWord_of (s : State) (f : Nat) (c : FnCfg) (q : Nat) : (s.setFn f c).memWord q = s.memWord q := rfl

/-! setMram. -/

@[simp] theorem State.setMram_part (s : State) (a : Nat) (b : Byte) : (s.setMram a b).part = s.part := rfl
@[simp] theorem State.setMram_dt (s : State) (a : Nat) (b : Byte) : (s.setMram a b).dt = s.dt := rfl
@[simp] theorem State.setMram_dtRun (s : State) (a : Nat) (b : Byte) : (s.setMram a b).dtRun = s.dtRun := rfl
@[simp] theorem State.setMram_mem (s : State) (a : Nat) (b : Byte) : (s.setMram a b).mem = s.mem := rfl
@[simp] theorem State.setMram_tags (s : State) (a : Nat) (b : Byte) : (s.setMram a b).tags = s.tags := rfl
@[simp] theorem State.setMram_planted (s : State) (a : Nat) (b : Byte) : (s.setMram a b).planted = s.planted := rfl
@[simp] theorem State.setMram_barns (s : State) (a : Nat) (b : Byte) : (s.setMram a b).barns = s.barns := rfl
@[simp] theorem State.setMram_llc (s : State) (a : Nat) (b : Byte) : (s.setMram a b).llc = s.llc := rfl
@[simp] theorem State.setMram_hourCe (s : State) (a : Nat) (b : Byte) : (s.setMram a b).hourCe = s.hourCe := rfl
@[simp] theorem State.setMram_scrubPos (s : State) (a : Nat) (b : Byte) : (s.setMram a b).scrubPos = s.scrubPos := rfl
@[simp] theorem State.setMram_ctl (s : State) (a : Nat) (b : Byte) : (s.setMram a b).ctl = s.ctl := rfl
@[simp] theorem State.setMram_posted (s : State) (a : Nat) (b : Byte) : (s.setMram a b).posted = s.posted := rfl
@[simp] theorem State.setMram_sysregs (s : State) (a : Nat) (b : Byte) : (s.setMram a b).sysregs = s.sysregs := rfl
@[simp] theorem State.setMram_cores (s : State) (a : Nat) (b : Byte) : (s.setMram a b).cores = s.cores := rfl
@[simp] theorem State.setMram_slots (s : State) (a : Nat) (b : Byte) : (s.setMram a b).slots = s.slots := rfl
@[simp] theorem State.setMram_ctxs (s : State) (a : Nat) (b : Byte) : (s.setMram a b).ctxs = s.ctxs := rfl
@[simp] theorem State.setMram_fillNo (s : State) (a : Nat) (b : Byte) : (s.setMram a b).fillNo = s.fillNo := rfl
@[simp] theorem State.setMram_rings (s : State) (a : Nat) (b : Byte) : (s.setMram a b).rings = s.rings := rfl
@[simp] theorem State.setMram_wdogFrom (s : State) (a : Nat) (b : Byte) : (s.setMram a b).wdogFrom = s.wdogFrom := rfl
@[simp] theorem State.setMram_tlbis (s : State) (a : Nat) (b : Byte) : (s.setMram a b).tlbis = s.tlbis := rfl
@[simp] theorem State.setMram_patch (s : State) (a : Nat) (b : Byte) : (s.setMram a b).patch = s.patch := rfl
@[simp] theorem State.setMram_jtagUnlocked (s : State) (a : Nat) (b : Byte) : (s.setMram a b).jtagUnlocked = s.jtagUnlocked := rfl
@[simp] theorem State.setMram_bins (s : State) (a : Nat) (b : Byte) : (s.setMram a b).bins = s.bins := rfl
@[simp] theorem State.setMram_gl (s : State) (a : Nat) (b : Byte) : (s.setMram a b).gl = s.gl := rfl
@[simp] theorem State.setMram_gal (s : State) (a : Nat) (b : Byte) : (s.setMram a b).gal = s.gal := rfl
@[simp] theorem State.setMram_galSeq (s : State) (a : Nat) (b : Byte) : (s.setMram a b).galSeq = s.galSeq := rfl
@[simp] theorem State.setMram_axes (s : State) (a : Nat) (b : Byte) : (s.setMram a b).axes = s.axes := rfl
@[simp] theorem State.setMram_cams (s : State) (a : Nat) (b : Byte) : (s.setMram a b).cams = s.cams := rfl
@[simp] theorem State.setMram_camEdge (s : State) (a : Nat) (b : Byte) : (s.setMram a b).camEdge = s.camEdge := rfl
@[simp] theorem State.setMram_netCams (s : State) (a : Nat) (b : Byte) : (s.setMram a b).netCams = s.netCams := rfl
@[simp] theorem State.setMram_marks (s : State) (a : Nat) (b : Byte) : (s.setMram a b).marks = s.marks := rfl
@[simp] theorem State.setMram_msLevel (s : State) (a : Nat) (b : Byte) : (s.setMram a b).msLevel = s.msLevel := rfl
@[simp] theorem State.setMram_ms (s : State) (a : Nat) (b : Byte) : (s.setMram a b).ms = s.ms := rfl
@[simp] theorem State.setMram_objs (s : State) (a : Nat) (b : Byte) : (s.setMram a b).objs = s.objs := rfl
@[simp] theorem State.setMram_vfEnable (s : State) (a : Nat) (b : Byte) : (s.setMram a b).vfEnable = s.vfEnable := rfl
@[simp] theorem State.setMram_numVfs (s : State) (a : Nat) (b : Byte) : (s.setMram a b).numVfs = s.numVfs := rfl
@[simp] theorem State.setMram_d3hot (s : State) (a : Nat) (b : Byte) : (s.setMram a b).d3hot = s.d3hot := rfl
@[simp] theorem State.setMram_fns (s : State) (a : Nat) (b : Byte) : (s.setMram a b).fns = s.fns := rfl
@[simp] theorem State.setMram_xe (s : State) (a : Nat) (b : Byte) : (s.setMram a b).xe = s.xe := rfl
@[simp] theorem State.setMram_xeTurns (s : State) (a : Nat) (b : Byte) : (s.setMram a b).xeTurns = s.xeTurns := rfl
@[simp] theorem State.setMram_evenPass (s : State) (a : Nat) (b : Byte) : (s.setMram a b).evenPass = s.evenPass := rfl
@[simp] theorem State.setMram_hallRst (s : State) (a : Nat) (b : Byte) : (s.setMram a b).hallRst = s.hallRst := rfl
@[simp] theorem State.setMram_pdActive (s : State) (a : Nat) (b : Byte) : (s.setMram a b).pdActive = s.pdActive := rfl
@[simp] theorem State.setMram_dict (s : State) (a : Nat) (b : Byte) : (s.setMram a b).dict = s.dict := rfl
@[simp] theorem State.setMram_eni (s : State) (a : Nat) (b : Byte) : (s.setMram a b).eni = s.eni := rfl
@[simp] theorem State.setMram_params (s : State) (a : Nat) (b : Byte) : (s.setMram a b).params = s.params := rfl
@[simp] theorem State.setMram_line (s : State) (a : Nat) (b : Byte) : (s.setMram a b).line = s.line := rfl
@[simp] theorem State.setMram_plant (s : State) (a : Nat) (b : Byte) : (s.setMram a b).plant = s.plant := rfl
@[simp] theorem State.setMram_lineSnap (s : State) (a : Nat) (b : Byte) : (s.setMram a b).lineSnap = s.lineSnap := rfl
@[simp] theorem State.setMram_camNets (s : State) (a : Nat) (b : Byte) : (s.setMram a b).camNets = s.camNets := rfl
@[simp] theorem State.setMram_casc (s : State) (a : Nat) (b : Byte) : (s.setMram a b).casc = s.casc := rfl
@[simp] theorem State.setMram_service (s : State) (a : Nat) (b : Byte) : (s.setMram a b).service = s.service := rfl
@[simp] theorem State.setMram_life (s : State) (a : Nat) (b : Byte) : (s.setMram a b).life = s.life := rfl
@[simp] theorem State.setMram_recorder (s : State) (a : Nat) (b : Byte) : (s.setMram a b).recorder = s.recorder := rfl
@[simp] theorem State.setMram_emcy (s : State) (a : Nat) (b : Byte) : (s.setMram a b).emcy = s.emcy := rfl
@[simp] theorem State.setMram_mgrEvents (s : State) (a : Nat) (b : Byte) : (s.setMram a b).mgrEvents = s.mgrEvents := rfl
@[simp] theorem State.setMram_out (s : State) (a : Nat) (b : Byte) : (s.setMram a b).out = s.out := rfl
@[simp] theorem State.setMram_pending (s : State) (a : Nat) (b : Byte) : (s.setMram a b).pending = s.pending := rfl
@[simp] theorem State.setMram_free (s : State) (a : Nat) (b : Byte) : (s.setMram a b).free = s.free := rfl
@[simp] theorem State.setMram_core_of (s : State) (a : Nat) (b : Byte) (q : Nat) : (s.setMram a b).core q = s.core q := rfl
@[simp] theorem State.setMram_slot_of (s : State) (a : Nat) (b : Byte) (q : Nat) : (s.setMram a b).slot q = s.slot q := rfl
@[simp] theorem State.setMram_ctx_of (s : State) (a : Nat) (b : Byte) (q : Nat) : (s.setMram a b).ctx q = s.ctx q := rfl
@[simp] theorem State.setMram_bin_of (s : State) (a : Nat) (b : Byte) (q : Nat) : (s.setMram a b).bin q = s.bin q := rfl
@[simp] theorem State.setMram_glh_of (s : State) (a : Nat) (b : Byte) (q : Nat) : (s.setMram a b).glh q = s.glh q := rfl
@[simp] theorem State.setMram_galr_of (s : State) (a : Nat) (b : Byte) (q : Nat) : (s.setMram a b).galr q = s.galr q := rfl
@[simp] theorem State.setMram_reg_of (s : State) (a : Nat) (b : Byte) (q : Nat) : (s.setMram a b).reg q = s.reg q := rfl
@[simp] theorem State.setMram_sys_of (s : State) (a : Nat) (b : Byte) (q j : Nat) : (s.setMram a b).sys q j = s.sys q j := rfl
@[simp] theorem State.setMram_axr_of (s : State) (a : Nat) (b : Byte) (q : Nat) : (s.setMram a b).axr q = s.axr q := rfl
@[simp] theorem State.setMram_obj_of (s : State) (a : Nat) (b : Byte) (q j : Nat) : (s.setMram a b).obj q j = s.obj q j := rfl
@[simp] theorem State.setMram_path_of (s : State) (a : Nat) (b : Byte) (q : Nat) : (s.setMram a b).path q = s.path q := rfl
@[simp] theorem State.setMram_barn_of (s : State) (a : Nat) (b : Byte) (q : Nat) : (s.setMram a b).barn q = s.barn q := rfl
@[simp] theorem State.setMram_fnCfg_of (s : State) (a : Nat) (b : Byte) (q : Nat) : (s.setMram a b).fnCfg q = s.fnCfg q := rfl
@[simp] theorem State.setMram_memWord_of (s : State) (a : Nat) (b : Byte) (q : Nat) : (s.setMram a b).memWord q = s.memWord q := rfl

/-! send. -/

@[simp] theorem State.send_part (s : State) (o : Out) : (s.send o).part = s.part := rfl
@[simp] theorem State.send_dt (s : State) (o : Out) : (s.send o).dt = s.dt := rfl
@[simp] theorem State.send_dtRun (s : State) (o : Out) : (s.send o).dtRun = s.dtRun := rfl
@[simp] theorem State.send_mem (s : State) (o : Out) : (s.send o).mem = s.mem := rfl
@[simp] theorem State.send_tags (s : State) (o : Out) : (s.send o).tags = s.tags := rfl
@[simp] theorem State.send_mram (s : State) (o : Out) : (s.send o).mram = s.mram := rfl
@[simp] theorem State.send_planted (s : State) (o : Out) : (s.send o).planted = s.planted := rfl
@[simp] theorem State.send_barns (s : State) (o : Out) : (s.send o).barns = s.barns := rfl
@[simp] theorem State.send_llc (s : State) (o : Out) : (s.send o).llc = s.llc := rfl
@[simp] theorem State.send_hourCe (s : State) (o : Out) : (s.send o).hourCe = s.hourCe := rfl
@[simp] theorem State.send_scrubPos (s : State) (o : Out) : (s.send o).scrubPos = s.scrubPos := rfl
@[simp] theorem State.send_ctl (s : State) (o : Out) : (s.send o).ctl = s.ctl := rfl
@[simp] theorem State.send_posted (s : State) (o : Out) : (s.send o).posted = s.posted := rfl
@[simp] theorem State.send_sysregs (s : State) (o : Out) : (s.send o).sysregs = s.sysregs := rfl
@[simp] theorem State.send_cores (s : State) (o : Out) : (s.send o).cores = s.cores := rfl
@[simp] theorem State.send_slots (s : State) (o : Out) : (s.send o).slots = s.slots := rfl
@[simp] theorem State.send_ctxs (s : State) (o : Out) : (s.send o).ctxs = s.ctxs := rfl
@[simp] theorem State.send_fillNo (s : State) (o : Out) : (s.send o).fillNo = s.fillNo := rfl
@[simp] theorem State.send_rings (s : State) (o : Out) : (s.send o).rings = s.rings := rfl
@[simp] theorem State.send_wdogFrom (s : State) (o : Out) : (s.send o).wdogFrom = s.wdogFrom := rfl
@[simp] theorem State.send_tlbis (s : State) (o : Out) : (s.send o).tlbis = s.tlbis := rfl
@[simp] theorem State.send_patch (s : State) (o : Out) : (s.send o).patch = s.patch := rfl
@[simp] theorem State.send_jtagUnlocked (s : State) (o : Out) : (s.send o).jtagUnlocked = s.jtagUnlocked := rfl
@[simp] theorem State.send_bins (s : State) (o : Out) : (s.send o).bins = s.bins := rfl
@[simp] theorem State.send_gl (s : State) (o : Out) : (s.send o).gl = s.gl := rfl
@[simp] theorem State.send_gal (s : State) (o : Out) : (s.send o).gal = s.gal := rfl
@[simp] theorem State.send_galSeq (s : State) (o : Out) : (s.send o).galSeq = s.galSeq := rfl
@[simp] theorem State.send_axes (s : State) (o : Out) : (s.send o).axes = s.axes := rfl
@[simp] theorem State.send_cams (s : State) (o : Out) : (s.send o).cams = s.cams := rfl
@[simp] theorem State.send_camEdge (s : State) (o : Out) : (s.send o).camEdge = s.camEdge := rfl
@[simp] theorem State.send_netCams (s : State) (o : Out) : (s.send o).netCams = s.netCams := rfl
@[simp] theorem State.send_marks (s : State) (o : Out) : (s.send o).marks = s.marks := rfl
@[simp] theorem State.send_msLevel (s : State) (o : Out) : (s.send o).msLevel = s.msLevel := rfl
@[simp] theorem State.send_ms (s : State) (o : Out) : (s.send o).ms = s.ms := rfl
@[simp] theorem State.send_objs (s : State) (o : Out) : (s.send o).objs = s.objs := rfl
@[simp] theorem State.send_vfEnable (s : State) (o : Out) : (s.send o).vfEnable = s.vfEnable := rfl
@[simp] theorem State.send_numVfs (s : State) (o : Out) : (s.send o).numVfs = s.numVfs := rfl
@[simp] theorem State.send_d3hot (s : State) (o : Out) : (s.send o).d3hot = s.d3hot := rfl
@[simp] theorem State.send_fns (s : State) (o : Out) : (s.send o).fns = s.fns := rfl
@[simp] theorem State.send_xe (s : State) (o : Out) : (s.send o).xe = s.xe := rfl
@[simp] theorem State.send_xeTurns (s : State) (o : Out) : (s.send o).xeTurns = s.xeTurns := rfl
@[simp] theorem State.send_evenPass (s : State) (o : Out) : (s.send o).evenPass = s.evenPass := rfl
@[simp] theorem State.send_hallRst (s : State) (o : Out) : (s.send o).hallRst = s.hallRst := rfl
@[simp] theorem State.send_pdActive (s : State) (o : Out) : (s.send o).pdActive = s.pdActive := rfl
@[simp] theorem State.send_dict (s : State) (o : Out) : (s.send o).dict = s.dict := rfl
@[simp] theorem State.send_eni (s : State) (o : Out) : (s.send o).eni = s.eni := rfl
@[simp] theorem State.send_params (s : State) (o : Out) : (s.send o).params = s.params := rfl
@[simp] theorem State.send_line (s : State) (o : Out) : (s.send o).line = s.line := rfl
@[simp] theorem State.send_plant (s : State) (o : Out) : (s.send o).plant = s.plant := rfl
@[simp] theorem State.send_lineSnap (s : State) (o : Out) : (s.send o).lineSnap = s.lineSnap := rfl
@[simp] theorem State.send_camNets (s : State) (o : Out) : (s.send o).camNets = s.camNets := rfl
@[simp] theorem State.send_casc (s : State) (o : Out) : (s.send o).casc = s.casc := rfl
@[simp] theorem State.send_service (s : State) (o : Out) : (s.send o).service = s.service := rfl
@[simp] theorem State.send_life (s : State) (o : Out) : (s.send o).life = s.life := rfl
@[simp] theorem State.send_recorder (s : State) (o : Out) : (s.send o).recorder = s.recorder := rfl
@[simp] theorem State.send_emcy (s : State) (o : Out) : (s.send o).emcy = s.emcy := rfl
@[simp] theorem State.send_mgrEvents (s : State) (o : Out) : (s.send o).mgrEvents = s.mgrEvents := rfl
@[simp] theorem State.send_pending (s : State) (o : Out) : (s.send o).pending = s.pending := rfl
@[simp] theorem State.send_free (s : State) (o : Out) : (s.send o).free = s.free := rfl
@[simp] theorem State.send_core_of (s : State) (o : Out) (q : Nat) : (s.send o).core q = s.core q := rfl
@[simp] theorem State.send_slot_of (s : State) (o : Out) (q : Nat) : (s.send o).slot q = s.slot q := rfl
@[simp] theorem State.send_ctx_of (s : State) (o : Out) (q : Nat) : (s.send o).ctx q = s.ctx q := rfl
@[simp] theorem State.send_bin_of (s : State) (o : Out) (q : Nat) : (s.send o).bin q = s.bin q := rfl
@[simp] theorem State.send_glh_of (s : State) (o : Out) (q : Nat) : (s.send o).glh q = s.glh q := rfl
@[simp] theorem State.send_galr_of (s : State) (o : Out) (q : Nat) : (s.send o).galr q = s.galr q := rfl
@[simp] theorem State.send_reg_of (s : State) (o : Out) (q : Nat) : (s.send o).reg q = s.reg q := rfl
@[simp] theorem State.send_sys_of (s : State) (o : Out) (q j : Nat) : (s.send o).sys q j = s.sys q j := rfl
@[simp] theorem State.send_axr_of (s : State) (o : Out) (q : Nat) : (s.send o).axr q = s.axr q := rfl
@[simp] theorem State.send_obj_of (s : State) (o : Out) (q j : Nat) : (s.send o).obj q j = s.obj q j := rfl
@[simp] theorem State.send_path_of (s : State) (o : Out) (q : Nat) : (s.send o).path q = s.path q := rfl
@[simp] theorem State.send_barn_of (s : State) (o : Out) (q : Nat) : (s.send o).barn q = s.barn q := rfl
@[simp] theorem State.send_fnCfg_of (s : State) (o : Out) (q : Nat) : (s.send o).fnCfg q = s.fnCfg q := rfl
@[simp] theorem State.send_memWord_of (s : State) (o : Out) (q : Nat) : (s.send o).memWord q = s.memWord q := rfl

/-! What an update writes. -/

@[simp] theorem State.core_setCore (s : State) (n m : Nat) (c : Core) :
    (s.setCore n c).core m = if m = n then c else s.core m := Laws.look_put _ _ _ _ _

@[simp] theorem State.slot_setSlot (s : State) (n m : Nat) (c : Slot) :
    (s.setSlot n c).slot m = if m = n then c else s.slot m := Laws.look_put _ _ _ _ _

@[simp] theorem State.ctx_setCtx (s : State) (n m : Nat) (c : SwCtx) :
    (s.setCtx n c).ctx m = if m = n then c else s.ctx m := Laws.look_put _ _ _ _ _

@[simp] theorem State.bin_setBin (s : State) (n m : Nat) (c : Bin) :
    (s.setBin n c).bin m = if m = n then c else s.bin m := Laws.look_put _ _ _ _ _

@[simp] theorem State.glh_setGl (s : State) (n m : Nat) (c : GlHall) :
    (s.setGl n c).glh m = if m = n then c else s.glh m := Laws.look_put _ _ _ _ _

@[simp] theorem State.galr_setGal (s : State) (n m : Nat) (c : GalRec) :
    (s.setGal n c).galr m = if m = n then c else s.galr m := Laws.look_put _ _ _ _ _

@[simp] theorem State.axr_setAxr (s : State) (n m : Nat) (c : AxRec) :
    (s.setAxr n c).axr m = if m = n then c else s.axr m := Laws.look_put _ _ _ _ _

@[simp] theorem State.path_setPath (s : State) (n m : Nat) (c : PathSt) :
    (s.setPath n c).path m = if m = n then c else s.path m := Laws.look_put _ _ _ _ _

@[simp] theorem State.barn_setBarn (s : State) (n m : Nat) (c : BarnCache) :
    (s.setBarn n c).barn m = if m = n then c else s.barn m := Laws.look_put _ _ _ _ _

@[simp] theorem State.fnCfg_setFn (s : State) (n m : Nat) (c : FnCfg) :
    (s.setFn n c).fnCfg m = if m = n then c else s.fnCfg m := Laws.look_put _ _ _ _ _

@[simp] theorem State.reg_setReg (s : State) (a b : Nat) (v : BitVec 64) :
    (s.setReg a v).reg b = if b = a then v else s.reg b := by
  by_cases h : b = a
  · subst h; rw [if_pos rfl]; simp only [State.reg, State.setReg, Laws.look_put, if_true]
  · rw [if_neg h]; exact Laws.look_put_other _ _ h

@[simp] theorem State.sys_setSys (s : State) (h k : Nat) (v : BitVec 64) : (s.setSys h k v).sys h k = v := by
  simp only [State.sys, State.setSys, Laws.look_put, if_true]

theorem State.sys_setSys_other (s : State) (h k h' k' : Nat) (v : BitVec 64) (e : h' * 256 + k' ≠ h * 256 + k) :
    (s.setSys h k v).sys h' k' = s.sys h' k' := Laws.look_put_other _ _ e

@[simp] theorem State.obj_setObj (s : State) (i k v : Nat) : (s.setObj i k v).obj i k = v := by
  simp only [State.obj, State.setObj, Laws.look_put, if_true]

/-! Fields of registers. -/

@[simp] theorem State.reg_setRf (s : State) (a hi lo x b : Nat) :
    (s.setRf a hi lo x).reg b = if b = a then setFld (s.reg a) hi lo x else s.reg b := by
  simp only [State.setRf, State.reg_setReg]

/-! Registers of a context. -/

@[simp] theorem State.regs_setRegs (s : State) (r : Run) (x : Regs) (g : BitVec 7) : (s.setRegs r x g).regs r = x := by
  simp only [State.regs, State.setRegs, State.slot_setSlot, if_true]

@[simp] theorem Regs.getW_putW (x : Regs) (n m : Nat) (v : Word) :
    (x.putW n v).getW m = if m = n then v else x.getW m := Laws.look_put _ _ _ _ _

end Sys2Proof.Machine
end

