-- ==== Sys2Proof/Laws/Issue.lean ====
section
/-! SUPPORT. What the shared operations of an instruction and of a register write do under the premises of Safety.lean. -/

namespace Sys2Proof.Machine

/-- An instruction that reaches its own effect. -/
theorem coreStep_issues {s t : State} {p stair : Nat} {i : Instr} {r : Run} {body : Run → State → Res (BitVec 44)}
    (h : Issues s p i stair r t) : s.coreStep p i stair body = (body r t).settle r (stSs (t.status r)) := by
  unfold State.coreStep
  simp only [h.runs, h.calm, h.acked, h.fetched, h.assigned]
  simp [Nat.not_lt.mpr h.allowed]

theorem typedFault_accepts {ok : Word → Bool} {w : Word} (h : Accepts ok w) : typedFault ok w = none := by
  simp [typedFault, h.1, h.2.1, h.2.2]

theorem orFault_none {α : Type} (s : State) (f : Res α) : orFault none s f = f := rfl

theorem drainPosted_none {s : State} {who : Initiator} {home : Nat} {last : Posted → Bool} (n : Nat)
    (h : s.posted.any (fun w => w.of who home) = false) : s.drainPosted who home last n = (false, s) := by
  have e : s.posted.find? (fun w => w.of who home) = none := by
    simp only [List.find?_eq_none]
    intro x hx hw
    have := List.any_eq_false.mp h x hx
    exact this hw
  cases n with
  | zero => rfl
  | succ n => simp only [State.drainPosted, e]

/-- A write that reaches its register. -/
theorem writeReg_admits {s : State} {who : Initiator} {off : Nat} {mask v : BitVec 64} (h : Admits s who off)
    (hd : (regDesc off).isNone = false) :
    s.writeReg who off mask v = s.flagged (s.blockWrite who off mask v) who off mask v := by
  simp only [State.writeReg]
  rw [drainPosted_none _ h.posted]
  simp [h.free, h.posted, State.applyReg, h.answers, h.reaches, h.present, hd]

theorem write64_admits {s : State} {who : Initiator} {off : Nat} {v : BitVec 64} (h : Admits s who off)
    (hd : (regDesc off).isNone = false) :
    s.write64 who off v = s.flagged (s.blockWrite who off full64 v) who off full64 v := writeReg_admits h hd

/-- A register outside the functions of DEV_OVR leaves no override flag. -/
theorem flagged_none {s t : State} {who : Initiator} {off : Nat} {mask v : BitVec 64} (h : regFn off = none) :
    s.flagged t who off mask v = t := by
  simp only [State.flagged, State.override, h, ite_self]

/-! Registers of the executing context. -/

@[simp] theorem State.regs_setW (s : State) (r : Run) (n : Nat) (w : Word) :
    (s.setW r n w).regs r = (s.regs r).putW n (strip (s.compat r.hall) w) := by
  simp only [State.setW, State.regs_setRegs]

@[simp] theorem State.regs_setStatus (s : State) (r : Run) (v : BitVec 64) :
    (s.setStatus r v).regs r = { s.regs r with status := v } := by
  simp only [State.setStatus, State.regs_setRegs]

@[simp] theorem State.regs_setCnt (s : State) (r : Run) (n : Nat) :
    (s.setCnt r n).regs r = { s.regs r with cnt := BitVec.ofNat 32 n } := by
  simp only [State.setCnt, State.regs_setRegs]

@[simp] theorem State.status_setW (s : State) (r : Run) (n : Nat) (w : Word) : (s.setW r n w).status r = s.status r := by
  simp only [State.status, State.regs_setW, Regs.putW]

@[simp] theorem State.nextPc_setW (s : State) (r : Run) (n : Nat) (w : Word) (i : Instr) :
    (s.setW r n w).nextPc r i = s.nextPc r i := by
  simp only [State.nextPc, State.regs_setW, Regs.putW]

@[simp] theorem State.nextPc_setStatus (s : State) (r : Run) (v : BitVec 64) (i : Instr) :
    (s.setStatus r v).nextPc r i = s.nextPc r i := by
  simp only [State.nextPc, State.regs_setStatus]

@[simp] theorem State.nextPc_setCnt (s : State) (r : Run) (n : Nat) (i : Instr) :
    (s.setCnt r n).nextPc r i = s.nextPc r i := by
  simp only [State.nextPc, State.regs_setCnt]

@[simp] theorem State.getW_setW (s : State) (r : Run) (n m : Nat) (w : Word) :
    (s.setW r n w).getW r m =
      if m = n then strip (s.compat r.hall) (strip (s.compat r.hall) w) else s.getW r m := by
  simp only [State.getW, State.regs_setW, Regs.getW_putW]
  split <;> rfl

theorem strip_strip (b : Bool) (w : Word) : strip b (strip b w) = strip b w := by
  cases b <;> simp [strip, BitVec.and_assoc]

end Sys2Proof.Machine
end

