-- ==== Sys2Proof/Laws/Route.lean ====
section
/-! SUPPORT. Which register a command's write reaches, and what the words of the commands carry. -/

namespace Sys2Proof.Machine

theorem full64_and (v : BitVec 64) : v &&& full64 = v := by unfold full64; exact BitVec.and_allOnes

/-- A write of EVR_CTX_CMD with a word of R168 is that context command. -/
theorem write64_ctxCmd {s : State} {who : Initiator} {op scn arg : Nat} {o : CtxOp} (h : Admits s who Reg.evrCtxCmd)
    (ho : ctxOpOf op = some o) (hop : op < 16) (hs : scn < 65536) (ha : arg < 2 ^ 32) :
    s.write64 who Reg.evrCtxCmd (ctxCmdWord op scn arg) = s.ctxCommand who o scn arg := by
  rw [write64_admits h rfl, flagged_none rfl]
  have e : s.blockWrite who Reg.evrCtxCmd full64 (ctxCmdWord op scn arg) =
      s.ctxCmdWrite who full64 (ctxCmdWord op scn arg) := rfl
  rw [e]
  have f1 : fld (ctxCmdWord op scn arg) 63 60 = op := by
    unfold ctxCmdWord
    rw [fld_setFld_other _ _ _ _ _ _ (by omega) (by omega), fld_setFld_other _ _ _ _ _ _ (by omega) (by omega),
      fld_setFld _ _ _ _ (by omega)]
    omega
  have f2 : fld (ctxCmdWord op scn arg) 43 32 = 0 := by
    unfold ctxCmdWord
    iterate 3 rw [fld_setFld_other _ _ _ _ _ _ (by omega) (by omega)]
    exact fld_zero _ _
  have f3 : fld (ctxCmdWord op scn arg) 59 44 = scn := by
    unfold ctxCmdWord
    rw [fld_setFld_other _ _ _ _ _ _ (by omega) (by omega), fld_setFld _ _ _ _ (by omega)]
    omega
  have f4 : fld (ctxCmdWord op scn arg) 31 0 = arg := by
    unfold ctxCmdWord
    rw [fld_setFld _ _ _ _ (by omega)]
    omega
  simp only [State.ctxCmdWrite, full64_and, f1, f2, f3, f4, ho, if_true]
  rw [if_neg (by decide), State.ctxCommand, Nat.mod_eq_of_lt hs]
  rfl

end Sys2Proof.Machine
end

