-- ==== Sys2Proof/WellFormed.lean ====
section
/-! DEFINITION. The commands whose operands lie in their ranges: what the sender of a command may name. A command outside its
ranges is refused here and reaches nothing in the machine (log entry 6); an encoding that no opcode map assigns is not
ill-formed: the machine raises ILLEGAL_ENCODING on it (R99). -/

namespace Sys2Proof

/-- A physical core number (R24). -/
def pcnOk (p : Nat) : Bool := decide (p < 72)
/-- A logical core number (R24). -/
def lcnOk (n : Nat) : Bool := decide (n < 64)
/-- A software context number (R160). -/
def scnOk (n : Nat) : Bool := decide (n < 65536)
/-- A context slot, as PCN × 64 + slot (R160). -/
def hcnOk (n : Nat) : Bool := decide (n < 4608)
/-- A hall (R12), or a function of the host, 0 the PF. -/
def hallOk (h : Nat) : Bool := decide (h < 64)
/-- An axis (spec/11_web_position.md). -/
def axisOk (x : Nat) : Bool := decide (x < 8)
/-- A cam output (spec/11_web_position.md). -/
def camOk (k : Nat) : Bool := decide (k < 64)
/-- A mark input (R361). -/
def markOk (m : Nat) : Bool := decide (m < 16)
/-- A mark-sensor channel, or a memory channel (R362, R508). -/
def channelOk (c : Nat) : Bool := decide (c < 8)
/-- A queue of a hall (spec/14_host_pcie.md). -/
def queueOk (q : Nat) : Bool := decide (q < 32)
/-- An offset into the DEVICE region, of a whole register (R44). -/
def offsetOk (a : Nat) : Bool := decide (a < 0x1000000) && decide (a % 8 = 0)
/-- A path of the dictionary: 0 the plant, 1 the manager, 2 + h hall h (R458). -/
def pathOk (n : Nat) : Bool := decide (n < 66)
/-- A port of the Cascade Link (R480). -/
def portOk (n : Nat) : Bool := decide (n < 2)
/-- A part of a cascade (R483). -/
def partOk (n : Nat) : Bool := decide (n < 8)
/-- An object index. -/
def indexOk (n : Nat) : Bool := decide (n < 65536)
/-- A subindex. -/
def subOk (n : Nat) : Bool := decide (n < 256)
/-- A bin (R304). -/
def binOk (n : Nat) : Bool := decide (n < 8192)
/-- A 4-bit number. -/
def nibbleOk (n : Nat) : Bool := decide (n < 16)
/-- A 32-bit argument. -/
def wordOk (n : Nat) : Bool := decide (n < 2 ^ 32)
/-- The mailbox of the manager, or the OD window of a hall (R437). -/
def boxOk (b : Option Nat) : Bool := b.all (fun h => decide (0 < h) && hallOk h)

/-- An agent of the part. -/
def Initiator.ok : Initiator → Bool
  | .ctx scn stair => scnOk scn && decide (stair < 3)
  | .engine e => decide (e < 8)
  | .gleaner b => decide (b < 8)
  | .vf h => decide (0 < h) && hallOk h
  | .pf | .coe | .jtag => true

/-- A cache of the part (R288, R289). -/
def CacheArray.ok : CacheArray → Bool
  | .crib p => pcnOk p
  | .barn b => decide (b < 8)
  | .llc n => nibbleOk n

/-- A monitor of the part (R500). -/
def Monitor.ok : Monitor → Bool
  | .core p => pcnOk p
  | .lane l => decide (l < 12)
  | .channel c => channelOk c
  | .row pa => decide (pa < 2 ^ 34)
  | .way slice w => nibbleOk slice && nibbleOk w
  | .ctxRow p slot => pcnOk p && decide (slot < 64)
  | .word a pa => a.ok && decide (pa < 2 ^ 34)
  | .entry a line => a.ok && decide (line < 2 ^ 26)
  | .coreState p => pcnOk p
  | .link port => decide (port < 5)
  | .ctxWord p slot => pcnOk p && decide (slot < 64)
  | .patchWord p addr => pcnOk p && decide (0x1800 ≤ addr) && decide (addr < 0x2000)

/-- The operands of a command lie in their ranges. -/
def WellFormed (i : Instr) : Bool :=
  match i with
  | .gadd p _ | .gsub p _ | .gmul p _ _ _ | .gaddi p _ | .gcmp p _ | .wcmp p _ | .mov p _ | .ldi p _
  | .ldk p _ _ | .ldik p _ _ _ | .tagi p _ _ _ | .typeq p _ _ _ | .tagw p _ _ _ | .br p _ | .bcond p _
  | .bnil p _ | .bnnil p _ | .tbr p _ _ _ _ | .jmp p _ | .callm p _ _ | .retm p | .brk p | .nop p | .rep p _ _
  | .ld p _ | .st p _ | .ldx p _ _ _ | .stx p _ _ _ | .ldsp p _ _ | .stsp p _ _ | .fence p | .car p _
  | .cdr p _ | .cons p _ _ _ | .rplaca p _ _ | .rplacd p _ _ | .memq p _ _ _ _ | .assq p _ _ _ _
  | .llen p _ _ _ | .vref p _ _ _ | .vset p _ _ _ | .vfill p _ _ _ _ | .vcopy p _ _ _ _ | .alloc p _ _ _ _ _
  | .gets p _ _ | .sets p _ _ | .scall p _ | .sret p | .xret p | .wget p _ _ | .wput p _ _ | .tlbwi p _ _
  | .tlbwr p _ | .tlbi p _ | .twalk p _ _ | .waitp p _ _ | .specOpen p _ _ | .specClose p | .alertDelivery p
  | .dispatch p | .preemption p | .quantumEnd p | .tlbiAck p | .illegalEncoding p | .patchCoreSwitch p
  | .cribDisable p | .cribEnable p | .maintDone p =>
      pcnOk p
  | .largeInitDone scn | .jtagHalt scn =>
      scnOk scn
  | .fill who scn arg =>
      who.ok && scnOk scn && wordOk arg
  | .spill who scn | .park who scn | .resume who scn | .cancel who scn | .create who scn | .retire who scn =>
      who.ok && scnOk scn
  | .setprio who scn prio =>
      who.ok && scnOk scn && wordOk prio
  | .post who scn bits =>
      who.ok && scnOk scn && wordOk bits
  | .fillOnDemand | .timerWake | .scrubRead | .memInj | .estimatorSample | .stopped | .specCheck
  | .remoteTimeout | .pfFlr | .perst | .version | .eventRead | .serviceStatus | .serviceRespare
  | .serviceRowspare | .servicePpr | .serviceWayspare | .serviceCtxrow | .serviceFreeze | .serviceUnfreeze
  | .cascadeStatus | .cascadePromote | .cascadeRetime | .cascadeRejoin | .commitBoundary | .lineCycleStart
  | .outputSnapshot | .frameReturn _ _ _ | .sync0 _ | .sm2Watchdog | .linkTrained _ | .syncSend | .syncLoss
  | .joinComplete | .respareGroup | .serviceDone | .hourlySummary | .recordWrite
  | .powerFail | .por _ _ _ | .pllLock _ | .memoryInitDone | .bootLoadDone _ _ _ | .tbLost | .heartbeatToggle
  | .heartbeatLost | .jtagDeviceReset _ _ _ | .stopReqNHigh | .patchWeChange _ | .plantProcessData _ =>
      true
  | .watchdog h | .gleanerTrace h | .finish h | .graceEnd h | .drainLimitEnd h | .hallResetDone h | .flr h
  | .hallCreate h | .hallStart h _ | .hallRemove h | .hallQuery h | .descriptorComplete h _ _ _ _ _ _ =>
      hallOk h
  | .alertRouteWrite who h _ | .watchdogKick who h | .cycleYoung who h | .cycleFull who h
  | .mirrorEnable who h _ | .hallCtrlCreate who h | .hallCtrlStart who h | .hallCtrlRemove who h
  | .hallDrainAck who h | .hqNotifySet who h _ =>
      who.ok && hallOk h
  | .registerScan hcn =>
      hcnOk hcn
  | .accessTimeout who off _ _ | .registerWrite who off _ _ =>
      who.ok && offsetOk off
  | .patchBegin who | .patchData who _ | .patchCheck who | .patchApply who | .releaseStop who | .abandon who _
  | .eclModeWrite who _ | .cascJoinWrite who _ | .promote who | .retime who | .rejoin who | .freeze who
  | .unfreeze who | .deviceReset who _ _ _ _ | .bootGo who | .readySet who | .kick who =>
      who.ok
  | .maintGo who p op _ =>
      who.ok && pcnOk p && decide (op < 4)
  | .assignRoot who h count _ bin | .assignPlain who h count _ bin | .release who h count bin =>
      who.ok && hallOk h && decide (count < 16384) && binOk bin
  | .armAck p h | .flip p h =>
      pcnOk p && hallOk h
  | .encoderEdge x _ | .ssiFrameStart x | .ssiFrame x _ _ _ | .extrapEnd x | .remoteAxisStale x =>
      axisOk x
  | .zIndex e =>
      axisOk e.axis
  | .recover who x | .iringWrite who x _ | .cascAxmapWrite who x _ =>
      who.ok && axisOk x
  | .swap who x count =>
      who.ok && axisOk x && decide (count < 2048)
  | .markEdge m ns _ =>
      markOk m && decide (ns < 5)
  | .msSample c value =>
      channelOk c && decide (value < 4096)
  | .camOnAt who k _ | .camOffAt who k _ | .camOnDt who k _ | .camOffDt who k _ | .flush who k | .now who k _ =>
      who.ok && camOk k
  | .camFire k =>
      camOk k
  | .iptrTail who x tail =>
      who.ok && axisOk x && decide (tail < 65536)
  | .stopReq (.pin _) =>
      true
  | .stopReq (.req who) =>
      who.ok
  | .hallSlotCmd who lcn first count h =>
      who.ok && lcnOk lcn && decide (first < 64) && decide (count < 128) && hallOk h
  | .hallDevmap who h j _ =>
      who.ok && hallOk h && nibbleOk j
  | .hallResetGo who h _ grace limit =>
      who.ok && hallOk h && decide (grace < 256) && decide (limit < 32)
  | .vfEnableWrite _ num =>
      decide (num < 65536)
  | .reqSeq box _ | .odRead box | .odWrite box =>
      boxOk box
  | .rspSeq scn box _ =>
      scnOk scn && boxOk box
  | .hallSetShare h id _ lcn _ =>
      hallOk h && decide (id < 256) && lcnOk lcn
  | .hallReset h _ grace limit =>
      hallOk h && decide (grace < 256) && decide (limit < 32)
  | .doorbell who h q tail =>
      who.ok && hallOk h && queueOk q && decide (tail < 65536)
  | .qCfgWrite who h q _ =>
      who.ok && hallOk h && queueOk q
  | .descriptorFetch h q _ =>
      hallOk h && queueOk q
  | .commitImmediate path | .commitNextCycle path | .commitNextPitch path | .discard path
  | .transitionStep path | .storeParameters path _ | .restoreDefaults path _ | .restoreCalibration path _
  | .stopObject path _ | .esmRequest path _ | .clearEmergency path _ | .patchUnlock path _ | .jtagUnlock path _
  | .commitTimeout path =>
      pathOk path
  | .clearOverride path j _ =>
      pathOk path && decide (j < 6)
  | .pdoMapping path index sub _ =>
      pathOk path && indexOk index && subOk sub
  | .sdoRequest _ index sub _ _ =>
      indexOk index && subOk sub
  | .alStateRequest q =>
      match q with
      | .al st => nibbleOk st
      | .sm k _ => decide (k < 4)
      | .fmmu k _ => decide (k < 3)
  | .syncCell src _ _ _ _ | .joinAnnouncement src _ =>
      partOk src.src && portOk src.port
  | .linkDelayMeasure port _ | .ringBreak port =>
      portOk port
  | .axisSampleCell port _ src a _ _ _ _ _ =>
      portOk port && partOk src && axisOk a
  | .handoffSend who tail =>
      who.ok && decide (tail < 65536)
  | .handoffStatus _ answer =>
      answer.all (fun a => portOk a.port)
  | .handoffReceive port _ cell =>
      portOk port && decide (cell.length = 8)
  | .respare who lcn =>
      who.ok && lcnOk lcn
  | .rowspare who sector =>
      who.ok && decide (sector < 2 ^ 34)
  | .ppr who ch entry =>
      who.ok && channelOk ch && nibbleOk entry
  | .wayspare who slice way =>
      who.ok && nibbleOk slice && nibbleOk way
  | .ctxrow who p slot =>
      who.ok && pcnOk p && decide (slot < 64)
  | .monitorSample m _ _ _ | .monitorHour m =>
      m.ok
  | .coreReset who p =>
      who.ok && pcnOk p
  | .tempSample raw =>
      decide (raw < 65536)
  | .jtagAccess _ pa _ =>
      decide (pa < 2 ^ 40)
  | .d3hot fn _ =>
      hallOk fn

end Sys2Proof
end

