-- ==== Sys2Proof/Tests/Slice0.lean ====
section
/-! SUPPORT. Tests: ill-formed commands that WellFormed refuses, parcels of the opcode maps, and for each statement with
hypotheses a small state that meets them, clause by clause, with what the command leaves there. -/



namespace Sys2Proof.Tests

set_option Elab.async false

open Sys2Proof.Machine

/-! Small states: SCN 7 of hall 0 runs in slot 5 of core 0, translation off, at PC 0x1000. -/

/-- Registers at a stair. -/
def regsAt (stair : Nat) (l : Table Word) : Regs :=
  { Regs.zero with pc := 0x1000, status := BitVec.ofNat 64 (0x80 + stair), w := l }

/-- The context's Run. -/
def r0 : Run := ⟨0, 5, 7, 0⟩

/-- A state whose caches have the line at PC. -/
def warm (s : State) : State := (s.fetchParcel r0 0x1000).2

/-- The state whose one context has registers x. -/
def runWith (x : Regs) : State :=
  warm { State.reset with
    slots := [(5, { Slot.reset with scn := some 7, regs := x })],
    ctxs := [(7, { SwCtx.reset with st := .running, hcn := 5, hall := 0 })],
    cores := [(0, { Core.reset with run := some 5, cribOn := false })] }

/-- An instruction issues in state s, which its fetch leaves as it is. -/
def issuesIn (s : State) (i : Instr) (k : Nat) : Bool :=
  decide (s.running 0 = some r0) && decide (s.nextAlert r0 = none) && !s.tlbis.any (fun j => j.core = 0) &&
    decide (s.fetchParcels r0 (s.regs r0).pc (parcelsOf i).length = (none, s)) && legal i &&
    decide (k ≤ stStair (s.status r0))

theorem issues_of {s : State} {i : Instr} {k : Nat} (h : issuesIn s i k = true) : Issues s 0 i k r0 s := by
  simp only [issuesIn, Bool.and_eq_true, decide_eq_true_eq, Bool.not_eq_true'] at h
  exact ⟨h.1.1.1.1.1, h.1.1.1.1.2, h.1.1.1.2, h.1.1.2, h.1.2, h.2⟩

theorem issues_two {s t : State} {i j : Instr} {k l : Nat} (h : (issuesIn s i k && issuesIn t j l) = true) :
    Issues s 0 i k r0 s ∧ Issues t 0 j l r0 t :=
  (Bool.and_eq_true_iff.mp h).imp issues_of issues_of

/-- A write of an initiator reaches a register. -/
def admitsIn (s : State) (who : Initiator) (off : Nat) : Bool :=
  !s.posted.any (fun w => w.of who (homeKey off)) && !s.stalled off && s.fnAnswers who && initReaches who off &&
    !s.absentUnit off

theorem admits_of {s : State} {who : Initiator} {off : Nat} (h : admitsIn s who off = true) : Admits s who off := by
  simp only [admitsIn, Bool.and_eq_true, Bool.not_eq_true'] at h
  exact ⟨h.1.1.1.1, h.1.1.1.2, h.1.1.2, h.1.2, h.2⟩

/-- A barn cache keeps no words beside MEMORY's. -/
def barnPlain (c : BarnCache) : Bool :=
  c.lines.all (fun e => e.2.secs.s0.alt.isEmpty && e.2.secs.s1.alt.isEmpty && e.2.secs.s2.alt.isEmpty && e.2.secs.s3.alt.isEmpty)

theorem look_all {α : Type} {d : α} {f : α → Bool} (hd : f d = true) :
    ∀ (t : Table α) (n : Nat), t.all (fun e => f e.2) = true → f (look d t n) = true
  | [], _, _ => hd
  | (k, v) :: t, n, h => by
    simp only [List.all_cons, Bool.and_eq_true] at h
    unfold look
    split
    · exact h.1
    · exact look_all hd t n h.2

theorem barnPlain_sec {c : BarnCache} (h : barnPlain c = true) (pa : Nat) : (c.sec pa).alt = [] := by
  unfold BarnCache.sec
  split
  · rfl
  · rename_i k _
    have g := look_all (d := BarnLine.none) (f := fun x => x.secs.s0.alt.isEmpty && x.secs.s1.alt.isEmpty &&
      x.secs.s2.alt.isEmpty && x.secs.s3.alt.isEmpty) rfl c.lines k h
    simp only [Bool.and_eq_true, List.isEmpty_iff] at g
    unfold Quad.get
    split
    · exact g.1.1.1
    · split
      · exact g.1.1.2
      · split
        · exact g.1.2
        · exact g.2

/-- Core p reads what MEMORY holds. -/
def faithfulIn (s : State) (p : Nat) : Bool :=
  s.planted.isEmpty && !bit (s.reg Reg.devMemInj) 0 && barnPlain (s.barn (barnOf p)) && !(s.core p).cribOn

theorem faithful_of {s : State} {p : Nat} (h : faithfulIn s p = true) : s.Faithful p := by
  simp only [faithfulIn, Bool.and_eq_true, Bool.not_eq_true', List.isEmpty_iff] at h
  exact ⟨⟨h.1.1.1, h.1.1.2⟩, barnPlain_sec h.1.2, fun g => by simp [h.2] at g⟩
/-- A result completes, with a property of what it delivers. -/
def okWith {α : Type} (x : Res α) (f : α → State → Bool) : Bool :=
  match x with
  | .ok a u => f a u
  | _ => false

theorem ok_of {α : Type} {x : Res α} {f : α → State → Bool} (h : okWith x f = true) :
    ∃ a u, x = .ok a u ∧ f a u = true := by
  cases x with
  | ok a u => exact ⟨a, u, rfl, h⟩
  | _ => cases h

/-- The state after a command. -/
def after (o : Host.Outcome State Fault Refusal) : State :=
  match o with
  | .next t => t
  | _ => State.reset

/-- Registers and objects for the instructions: w1 FIX 5, w2 FIX -3, w3 FLO 1.5, w4 a CONS, w5 NIL, w6 the largest FIX, w7 a
VEC of 4, w8 a BYTV of 12 bytes, w9 CHR, w10 FIX 1, w11 an even address, w31 SP. -/
def words : Table Word :=
  [(1, fix 5), (2, fix (-3)), (3, ⟨1, 0x3FF8000000000000⟩), (4, ⟨0x10, 0x2000⟩), (6, fix 0x7FFFFFFFFFFFFFFF),
   (7, ⟨0x11, 0x3000⟩), (8, ⟨0x12, 0x3100⟩), (9, ⟨2, 0x41⟩), (10, fix 1), (11, fix 0x4000), (31, fix 0x8000)]

/-- MEMORY of those objects. -/
def heap (s : State) : State :=
  (((((s.setMemWord 0x2000 (fix 5)).setMemWord 0x2008 nil).setMemWord 0x3000 ⟨0x30, 0x40000⟩).setMemWord 0x3008
    (fix 9)).setMemWord 0x3100 ⟨0x30, 0x30000⟩).setMemWord 0x3108 (fix 12)

/-- The state at a stair with those registers, NIL in w5. -/
def core (stair : Nat) : State := heap (runWith (regsAt stair (Machine.put Word.fix0 words 5 nil)))

/-! The instructions of a core. -/

theorem test_meets_gadd :
    Issues (core 0) 0 (.gadd 0 (.rr 1 2)) 0 r0 (core 0) ∧
    (((core 0).getW r0 1).tag = 0 ∧
      ((core 0).getW r0 2).tag = 0) ∧
    InFix (((core 0).getW r0 1).payload.toInt + ((core 0).getW r0 2).payload.toInt) :=
  ⟨issues_of (by decide +kernel), by decide +kernel, by unfold InFix; decide +kernel⟩

theorem test_meets_gsub :
    Issues (core 0) 0 (.gsub 0 (.rr 1 2)) 0 r0 (core 0) ∧
    (((core 0).getW r0 1).tag = 0 ∧
      ((core 0).getW r0 2).tag = 0) ∧
    InFix (((core 0).getW r0 1).payload.toInt - ((core 0).getW r0 2).payload.toInt) :=
  ⟨issues_of (by decide +kernel), by decide +kernel, by unfold InFix; decide +kernel⟩

theorem test_meets_gmul :
    Issues (core 0) 0 (.gmul 0 12 1 2) 0 r0 (core 0) ∧
    (((core 0).getW r0 1).tag = 0 ∧
      ((core 0).getW r0 2).tag = 0) ∧
    InFix (((core 0).getW r0 1).payload.toInt * ((core 0).getW r0 2).payload.toInt) :=
  ⟨issues_of (by decide +kernel), by decide +kernel, by unfold InFix; decide +kernel⟩

theorem test_meets_gaddi :
    Issues (core 0) 0 (.gaddi 0 (.ri7 6 0x7F)) 0 r0 (core 0) ∧
    ((core 0).getW r0 6).tag = 0 ∧
    InFix (((core 0).getW r0 6).payload.toInt + (AddImmForm.ri7 6 0x7F).imm.toInt) :=
  ⟨issues_of (by decide +kernel), by decide +kernel, by unfold InFix; decide +kernel⟩

theorem test_meets_gadd_overflow :
    Issues (core 0) 0 (.gadd 0 (.rr 6 1)) 0 r0 (core 0) ∧
    (((core 0).getW r0 6).tag = 0 ∧
      ((core 0).getW r0 1).tag = 0) ∧
    ¬ InFix (((core 0).getW r0 6).payload.toInt + ((core 0).getW r0 1).payload.toInt) :=
  ⟨issues_of (by decide +kernel), by decide +kernel, by unfold InFix; decide +kernel⟩

theorem test_meets_gsub_overflow :
    Issues (core 0) 0 (.gsub 0 (.rr 6 2)) 0 r0 (core 0) ∧
    (((core 0).getW r0 6).tag = 0 ∧
      ((core 0).getW r0 2).tag = 0) ∧
    ¬ InFix (((core 0).getW r0 6).payload.toInt - ((core 0).getW r0 2).payload.toInt) :=
  ⟨issues_of (by decide +kernel), by decide +kernel, by unfold InFix; decide +kernel⟩

theorem test_meets_gmul_gaddi_overflow :
    (Issues (core 0) 0 (.gmul 0 12 6 1) 0 r0 (core 0) ∧ Issues (core 0) 0 (.gaddi 0 (.ri7 6 1)) 0 r0 (core 0)) ∧
    ¬ InFix (((core 0).getW r0 6).payload.toInt * ((core 0).getW r0 1).payload.toInt) ∧
    ¬ InFix (((core 0).getW r0 6).payload.toInt + (AddImmForm.ri7 6 1).imm.toInt) ∧
    ((core 0).compat 0 = false ∧ ((after (exec (.gaddi 0 (.ri7 6 1)) (core 0))).getW r0 6) = fix 0x7FFFFFFFFFFFFFFF) :=
  ⟨issues_two (by decide +kernel), by unfold InFix; decide +kernel, by unfold InFix; decide +kernel, by decide +kernel⟩

theorem test_meets_float :
    (Issues (core 0) 0 (.gadd 0 (.rr 1 3)) 0 r0 (core 0) ∧ Issues (core 0) 0 (.gsub 0 (.rr 3 3)) 0 r0 (core 0)) ∧
    Issues (core 0) 0 (.gmul 0 12 3 1) 0 r0 (core 0) ∧
    fastType ((core 0).getW r0 1) = true ∧
    fastType ((core 0).getW r0 3) = true ∧
    ((core 0).getW r0 3).tag = 1 :=
  ⟨issues_two (by decide +kernel), issues_of (by decide +kernel), by decide +kernel⟩

theorem test_meets_assist :
    (Issues (core 0) 0 (.gadd 0 (.rr 9 1)) 0 r0 (core 0) ∧ Issues (core 0) 0 (.gsub 0 (.rr 1 9)) 0 r0 (core 0)) ∧
    (Issues (core 0) 0 (.gmul 0 12 9 3) 0 r0 (core 0) ∧ Issues (core 0) 0 (.gaddi 0 (.ri7 9 1)) 0 r0 (core 0)) ∧
    (Issues (core 0) 0 (.gaddi 0 (.ri7 3 1)) 0 r0 (core 0) ∧ Issues (core 0) 0 (.gcmp 0 (.rr 1 9)) 0 r0 (core 0)) ∧
    FirstSlow ((core 0).getW r0 9) ((core 0).getW r0 1) ((core 0).getW r0 9) ∧
    FirstSlow ((core 0).getW r0 1) ((core 0).getW r0 9) ((core 0).getW r0 9) :=
  ⟨issues_two (by decide +kernel), issues_two (by decide +kernel), issues_two (by decide +kernel), by unfold FirstSlow GenericOk; decide +kernel, by unfold FirstSlow GenericOk; decide +kernel⟩

theorem test_meets_gcmp :
    (Issues (core 0) 0 (.gcmp 0 (.rr 1 2)) 0 r0 (core 0) ∧ Issues (core 0) 0 (.gcmp 0 (.r 1 3)) 0 r0 (core 0)) ∧
    Issues (core 0) 0 (.wcmp 0 (.rr 9 5)) 0 r0 (core 0) ∧
    ((core 0).getW r0 1).tag = 0 ∧
    ((core 0).getW r0 2).tag = 0 ∧
    fastType ((core 0).getW r0 1) = true ∧
    fastType ((core 0).getW r0 3) = true ∧
    ((core 0).getW r0 3).tag = 1 :=
  ⟨issues_two (by decide +kernel), issues_of (by decide +kernel), by decide +kernel⟩

theorem test_meets_moves :
    (Issues (core 0) 0 (.mov 0 (.rr 1 4)) 0 r0 (core 0) ∧ Issues (core 0) 0 (.ldi 0 (.u 31 0xFFFFF)) 0 r0 (core 0)) ∧
    (Issues (core 0) 0 (.ldk 0 1 3) 0 r0 (core 0) ∧ Issues (core 0) 0 (.ldik 0 1 3 0xFFFF) 0 r0 (core 0)) ∧
    ((core 0).getW r0 1).tag = 0 :=
  ⟨issues_two (by decide +kernel), issues_two (by decide +kernel), by decide +kernel⟩

theorem test_meets_tagi :
    Issues (core 0) 0 (.tagi 0 1 9 2) 0 r0 (core 0) ∧
    (((core 0).getW r0 9).type ≠ 0x32 ∧
      (⟨(2 : BitVec 6).setWidth 8, ((core 0).getW r0 9).payload⟩ : Word).malformed = false) ∧
    Issues (core 0) 0 (.typeq 0 1 4 0x10) 0 r0 (core 0) :=
  ⟨issues_of (by decide +kernel), by decide +kernel, issues_of (by decide +kernel)⟩

theorem test_meets_tagw :
    Issues (core 1) 0 (.tagw 0 1 2 0x50) 1 r0 (core 1) ∧
    (core 1).barriers r0 = false :=
  ⟨issues_of (by decide +kernel), by decide +kernel⟩

theorem test_meets_branches :
    (Issues (core 0) 0 (.br 0 (.b11 0x400)) 0 r0 (core 0) ∧ Issues (core 0) 0 (.bcond 0 (.bc16 0 0x80)) 0 r0 (core 0)) ∧
    (Issues (core 0) 0 (.bnil 0 (.br7 5 3)) 0 r0 (core 0) ∧ Issues (core 0) 0 (.bnnil 0 (.bn 5 3)) 0 r0 (core 0)) ∧
    Issues (core 0) 0 (.tbr 0 4 0x10 true 5) 0 r0 (core 0) :=
  ⟨issues_two (by decide +kernel), issues_two (by decide +kernel), issues_of (by decide +kernel)⟩

theorem test_meets_jmp :
    Issues (core 0) 0 (.jmp 0 11) 0 r0 (core 0) ∧
    (((core 0).getW r0 11).tag = 0 ∧
      ((core 0).getW r0 11).payload.toNat % 2 = 0 ∧
      ((core 0).getW r0 11).payload.toNat < 2 ^ 44) ∧
    (∃ pc u, (core 0).target r0 ((core 0).getW r0 11) = .ok pc u ∧ true = true) :=
  ⟨issues_of (by decide +kernel), by decide +kernel, ok_of (by decide +kernel)⟩

theorem test_meets_callm :
    Issues (core 0) 0 (.callm 0 11 0x8001) 0 r0 (core 0) ∧
    (∃ pc u, (core 0).target r0 ((core 0).getW r0 11) = .ok pc u ∧
      ((u.getW r0 31).tag = 0 && decide (((u.regs r0).slim.toNat : Int) ≤ (u.getW r0 31).payload.toNat - 24) &&
        okWith (u.prepStores r0 (u.stack0 r0) (frameWords u r0 ((u.getW r0 31).payload.toNat - 24) 0x8001
          (u.nextPc r0 (.callm 0 11 0x8001)))) fun _ _ => true) = true) :=
  ⟨issues_of (by decide +kernel), ok_of (by decide +kernel)⟩

theorem test_meets_retm :
    Issues (core 0) 0 (.retm 0) 0 r0 (core 0) ∧
    ((core 0).getW r0 31).tag = 0 ∧
    (∃ w u, (core 0).load r0 ((core 0).getW r0 31).payload.toNat ((core 0).stack0 r0) = .ok w u ∧
      (retFrameOk w && okWith (u.loadWords r0 (((core 0).getW r0 31).payload.toNat + 8) (u.stack0 r0)
        (maskRegs (w.payload.extractLsb' 48 16)).length) fun _ _ => true) = true) :=
  ⟨issues_of (by decide +kernel), by decide +kernel, ok_of (by decide +kernel)⟩

theorem test_meets_scall :
    (core 0).specOf r0.scn = none ∧
    (Issues (core 0) 0 (.scall 0 false) 0 r0 (core 0) ∧ Issues (core 0) 0 (.scall 0 true) 0 r0 (core 0)) ∧
    stStair ((core 0).regs r0).status < 1 ∧
    ((core 0).regs r0).shuse.getLsbD 0 = false ∧
    ((core 0).regs r0).shuse.getLsbD 1 = false :=
  ⟨by decide +kernel, issues_two (by decide +kernel), by decide +kernel⟩

/-- The state at a stair with shadow set n used. -/
def inCall (stair : Nat) (use : BitVec 2) : State := runWith { regsAt stair words with shuse := use }

theorem test_meets_sret :
    Issues (inCall 1 1) 0 (.sret 0) 1 r0 (inCall 1 1) ∧
    (stStair ((inCall 1 1).regs r0).status = 1 ∧
      ((inCall 1 1).regs r0).shuse.getLsbD 0 = true) ∧
    Issues (inCall 2 2) 0 (.sret 0) 1 r0 (inCall 2 2) ∧
    stStair ((inCall 2 2).regs r0).status = 2 ∧
    ((inCall 2 2).regs r0).shuse.getLsbD 1 = true :=
  ⟨issues_of (by decide +kernel), by decide +kernel, issues_of (by decide +kernel), by decide +kernel⟩

theorem enters_of {s : State} {t : Trap} {pas : List Nat} {base : Int}
    (h : (decide (t.cause ≠ 0x0F ∧ t.cause ≠ 0x11 ∧ t.cause ≠ 0x17 ∧ t.ra = none ∧ t.stage = none) &&
      decide (s.specOf 7 = none) && !stSth (s.status r0) && !lcL3 (s.regs r0).landctl &&
      decide (lcUse (s.regs r0).landctl < 3) && !(s.core 0).patched && !s.compat 0 &&
      !bit (s.vmode r0 (stStair (s.status r0))) 0 && spOk ((s.regs r0).getW 31) (s.regs r0).slim.toNat &&
      decide (base = (((s.regs r0).getW 31).payload.toNat : Int) - 64) &&
      decide (s.framePas r0 (fld (s.vmode r0 (stStair (s.status r0))) 2 1) base 8 = .inl pas)) = true) :
    Enters s r0 t pas base := by
  simp only [Bool.and_eq_true, decide_eq_true_eq, Bool.not_eq_true'] at h
  exact ⟨⟨h.1.1.1.1.1.1.1.1.1.1, h.1.1.1.1.1.1.1.1.1.2, h.1.1.1.1.1.1.1.1.2, ⟨h.1.1.1.1.1.1.1.2, h.1.1.1.1.1.1.2⟩,
    h.1.1.1.1.1.2⟩, h.1.1.1.1.2, h.1.1.1.2, h.1.1.2, h.1.2, h.2⟩

theorem test_meets_causes :
    Issues (core 0) 0 (.brk 0) 0 r0 (core 0) ∧
    ((core 0).running 0 = some r0 ∧ (core 0).nextAlert r0 = none ∧ (core 0).illegalAt r0 = some (1, raw 0) ∧
      (core 0).fetchParcels r0 0x1000 1 = (none, core 0)) ∧
    Issues (core 0) 0 (.wget 0 1 0) 0 r0 (core 0) ∧
    stStair ((core 0).status r0) < stairOf (.wget 0 1 0) ∧
    Enters (core 0) r0 (mkTrap 0x14 0x1000 (raw 4)) [0x7FC0, 0x7FC8, 0x7FD0, 0x7FD8, 0x7FE0, 0x7FE8, 0x7FF0, 0x7FF8] 0x7FC0 ∧
    (((after (exec (.brk 0) (core 0))).getW r0 31) = fix 0x7FC0 ∧
      ((after (exec (.brk 0) (core 0))).regs r0).pc = 0x500) :=
  ⟨issues_of (by decide +kernel), by decide +kernel, issues_of (by decide +kernel), by decide +kernel, enters_of (by decide +kernel), by decide +kernel⟩

theorem test_meets_ldk_reserved :
    (core 0).running 0 = some r0 ∧
    (core 0).nextAlert r0 = none ∧
    (core 0).tlbis.any (fun j => j.core = 0) = false ∧
    (core 0).fetchParcels r0 ((core 0).regs r0).pc 1 = (none, core 0) ∧
    ((core 0).setMemWord 0x1000 (raw 0x3001)).parcelAt r0 0x1000 = 0b00110#5 ++ 0#3 ++ 0#4 ++ 1#4 ∧
    ((core 0).setMemWord 0x1000 (raw 0x3001)).running 0 = some r0 := by
  decide +kernel

/-- The state with CNT n. -/
def counted (n : Nat) : State := heap (runWith { regsAt 0 (Machine.put Word.fix0 words 5 nil) with cnt := BitVec.ofNat 32 n })

theorem test_meets_rep :
    (Issues (core 0) 0 (.nop 0) 0 r0 (core 0) ∧ Issues (core 0) 0 (.fence 0) 0 r0 (core 0)) ∧
    Issues (core 0) 0 (.rep 0 .nop none) 0 r0 (core 0) ∧
    ((core 0).regs r0).cnt = 0 ∧
    Issues (counted 1) 0 (.rep 0 (.mov (.rr 1 2)) none) 0 r0 (counted 1) ∧
    ((counted 1).regs r0).cnt = 1 ∧
    Issues (counted 2) 0 (.rep 0 .nop (some 0)) 0 r0 (counted 2) ∧
    ((counted 2).regs r0).cnt ≠ 0 ∧
    (∃ x u, (counted 2).repLoop r0 .nop ((counted 2).regs r0).cnt.toNat none = .ok x u ∧ true = true) :=
  ⟨issues_two (by decide +kernel), issues_of (by decide +kernel), by decide +kernel, issues_of (by decide +kernel), by decide +kernel, issues_of (by decide +kernel), by decide +kernel, ok_of (by decide +kernel)⟩

theorem test_meets_base :
    ((⟨0x32, 0⟩ : Word).type = 0x32 ∧
      stStair ((core 2).status r0) ≠ 0 ∧
      ((core 0).getW r0 31).type = 0 ∧
      stStair ((core 0).status r0) = 0 ∧
      (((core 0).regs r0).slim.toNat : Int) ≤ ((core 0).getW r0 31).payload.toNat + 8 * 0 ∧
      (((core 0).getW r0 31).payload.toNat : Int) + 8 * (-0x2000) < ((core 0).regs r0).slim.toNat ∧
      ((core 0).getW r0 4).type = 0x10 ∧
      (((core 0).getW r0 9).type ≠ 0x32 ∧ ((core 0).getW r0 9).type ≠ 0 ∧ ((core 0).getW r0 9).type ≠ 0x10 ∧ ((core 0).getW r0 9).type < 0x11) ∧
      (0x11 ≤ ((core 0).getW r0 7).type ∧ ((core 0).getW r0 7).type ≤ 0x18)) ∧
    (∃ hdr u, (core 0).loadAt r0 0 ((core 0).getW r0 7).payload.toNat false true = .ok hdr u ∧ decide (hdr.type = 0x30) = true) :=
  ⟨by decide +kernel, ok_of (by decide +kernel)⟩

theorem test_meets_ld :
    Issues (core 0) 0 (.ld 0 (.i 1 4 1)) 0 r0 (core 0) ∧
    (∃ b u, (core 0).baseAddr r0 ((core 0).getW r0 4) 1 (indexWord 1) false = .ok b u ∧
      okWith (u.load r0 b.1 b.2) (fun _ _ => true) = true) :=
  ⟨issues_of (by decide +kernel), ok_of (by decide +kernel)⟩

theorem test_meets_st :
    Issues (core 0) 0 (.st 0 (.ls 1 7 2)) 0 r0 (core 0) ∧
    (∃ b u, (core 0).baseAddr r0 ((core 0).getW r0 7) 2 (indexWord 2) true = .ok b u ∧
      okWith (u.store r0 b.1 ((core 0).getW r0 1) b.2) (fun _ _ => true) = true) :=
  ⟨issues_of (by decide +kernel), ok_of (by decide +kernel)⟩

theorem test_meets_ldx :
    Issues (core 0) 0 (.ldx 0 1 4 10) 0 r0 (core 0) ∧
    (∃ b u, (core 0).baseAddr r0 ((core 0).getW r0 4) 1 (indexWord 1) false = .ok b u ∧
      okWith (u.load r0 b.1 b.2) (fun _ _ => true) = true) ∧
    ((core 0).getW r0 10).type = 0 :=
  ⟨issues_of (by decide +kernel), ok_of (by decide +kernel), by decide +kernel⟩

theorem test_meets_stx :
    Issues (core 0) 0 (.stx 0 1 4 10) 0 r0 (core 0) ∧
    (∃ b u, (core 0).baseAddr r0 ((core 0).getW r0 4) 1 (indexWord 1) true = .ok b u ∧
      okWith (u.store r0 b.1 ((core 0).getW r0 1) b.2) (fun _ _ => true) = true) :=
  ⟨issues_of (by decide +kernel), ok_of (by decide +kernel)⟩

theorem test_meets_ldsp :
    Issues (core 0) 0 (.ldsp 0 1 7) 0 r0 (core 0) ∧
    (∃ b u, (core 0).baseAddr r0 ((core 0).getW r0 31) 7 (indexWord 7) false = .ok b u ∧
      okWith (u.load r0 b.1 b.2) (fun _ _ => true) = true) :=
  ⟨issues_of (by decide +kernel), ok_of (by decide +kernel)⟩

theorem test_meets_stsp :
    Issues (core 0) 0 (.stsp 0 1 7) 0 r0 (core 0) ∧
    (∃ b u, (core 0).baseAddr r0 ((core 0).getW r0 31) 7 (indexWord 7) true = .ok b u ∧
      okWith (u.store r0 b.1 ((core 0).getW r0 1) b.2) (fun _ _ => true) = true) :=
  ⟨issues_of (by decide +kernel), ok_of (by decide +kernel)⟩

theorem test_meets_access_frames :
    ((core 0).dataPa r0 (stStair ((core 0).status r0)) 0x2000 true false = .pa 0x2000 ∧
      (core 0).dataPa r0 (stStair ((core 0).status r0)) 0x2000 false false = .pa 0x2000 ∧
      regionOf (core 0).part 0x2000 = .memory ∧
      (core 0).barriers r0 = false ∧
      (core 0).specOf r0.scn = none) ∧
    (core 0).Faithful 0 :=
  ⟨by decide +kernel, faithful_of (by decide +kernel)⟩

theorem test_meets_cells :
    (Issues (core 0) 0 (.car 0 (.rr 1 5)) 0 r0 (core 0) ∧ Issues (core 0) 0 (.cdr 0 (.r 1 5)) 0 r0 (core 0)) ∧
    ((core 0).getW r0 5).isNil = true ∧
    (Issues (core 0) 0 (.car 0 (.rr 1 4)) 0 r0 (core 0) ∧ Issues (core 0) 0 (.cdr 0 (.rr 1 4)) 0 r0 (core 0)) ∧
    Accepts isCons ((core 0).getW r0 4) ∧
    (∃ x u, (core 0).load r0 ((core 0).getW r0 4).payload.toNat = .ok x u ∧ true = true) ∧
    (∃ x u, (core 0).load r0 (((core 0).getW r0 4).payload.toNat + 8) = .ok x u ∧ true = true) ∧
    (Issues (core 0) 0 (.rplaca 0 4 9) 0 r0 (core 0) ∧ Issues (core 0) 0 (.rplacd 0 4 9) 0 r0 (core 0)) ∧
    (∃ x u, (core 0).store r0 ((core 0).getW r0 4).payload.toNat ((core 0).getW r0 9) = .ok x u ∧ true = true) ∧
    (∃ x u, (core 0).store r0 (((core 0).getW r0 4).payload.toNat + 8) ((core 0).getW r0 9) = .ok x u ∧ true = true) :=
  ⟨issues_two (by decide +kernel), by decide +kernel, issues_two (by decide +kernel), ⟨by decide +kernel, by decide +kernel, by decide +kernel⟩, ok_of (by decide +kernel), ok_of (by decide +kernel), issues_two (by decide +kernel), ok_of (by decide +kernel), ok_of (by decide +kernel)⟩

/-- The state with an allocation region of 128 bytes. -/
def region : State := heap (runWith { regsAt 0 words with allocp := 0x5000, allocl := 0x5080, cnt := 3 })

theorem test_meets_cons :
    Issues (region) 0 (.cons 0 12 1 2) 0 r0 (region) ∧
    ((region.slot r0.hcn).unchecked = false ∧
      (region.regs r0).allocp.toNat + 16 ≤ (region.regs r0).allocl.toNat) ∧
    (∃ xs u, (region.checked r0).prepStores r0 false [(0x5000, region.getW r0 1), (0x5008, region.getW r0 2)] = .ok xs u ∧
      true = true) ∧
    ((after (exec (.cons 0 12 1 2) region)).regs r0).allocp = 0x5010 :=
  ⟨issues_of (by decide +kernel), by decide +kernel, ok_of (by decide +kernel), by decide +kernel⟩

theorem test_meets_memq_nil :
    (Issues (core 0) 0 (.memq 0 12 1 5 none) 0 r0 (core 0) ∧ Issues (core 0) 0 (.assq 0 12 1 5 none) 0 r0 (core 0)) ∧
    Issues (core 0) 0 (.llen 0 1 5 none) 0 r0 (core 0) ∧
    ((core 0).getW r0 5).isNil = true ∧
    Accepts (·.isFix) ((core 0).getW r0 1) :=
  ⟨issues_two (by decide +kernel), issues_of (by decide +kernel), by decide +kernel, ⟨by decide +kernel, by decide +kernel, by decide +kernel⟩⟩

theorem test_meets_memq :
    ((core 0).core 0).patched = false ∧
    (Issues (core 0) 0 (.memq 0 12 1 4 none) 0 r0 (core 0) ∧ Issues (core 0) 0 (.assq 0 12 1 4 none) 0 r0 (core 0)) ∧
    Issues (core 0) 0 (.llen 0 1 4 none) 0 r0 (core 0) ∧
    Accepts isCons ((core 0).getW r0 4) ∧
    (((core 0).regs r0).cnt = 0 ∧ ((core 0).getW r0 4).isNil = false) ∧
    Issues (counted 3) 0 (.memq 0 12 1 4 none) 0 r0 (counted 3) ∧
    (((counted 3).core 0).patched = false ∧
      ((counted 3).regs r0).cnt.toNat = 2 + 1) ∧
    (∃ e u, (counted 3).load r0 ((counted 3).getW r0 4).payload.toNat = .ok e u ∧ identical e ((counted 3).getW r0 1) = true) :=
  ⟨by decide +kernel, issues_two (by decide +kernel), issues_of (by decide +kernel), ⟨by decide +kernel, by decide +kernel, by decide +kernel⟩, by decide +kernel, issues_of (by decide +kernel), by decide +kernel, ok_of (by decide +kernel)⟩

/-- A list of one pair (w3: of FIX 5 and NIL) and a list of NIL, with CNT 3. -/
def pairs : State :=
  (((heap (runWith { regsAt 0 [(1, fix 5), (2, ⟨0x10, 0x2020⟩), (4, ⟨0x10, 0x2040⟩)] with cnt := 3 })).setMemWord 0x2020
    ⟨0x10, 0x2000⟩).setMemWord 0x2028 nil |>.setMemWord 0x2040 nil).setMemWord 0x2048 nil

theorem test_meets_assq :
    Issues pairs 0 (.assq 0 12 1 2 none) 0 r0 pairs ∧
    (pairs.core 0).patched = false ∧
    Accepts isCons (pairs.getW r0 2) ∧
    (∃ e u, pairs.load r0 (pairs.getW r0 2).payload.toNat = .ok e u ∧
      (!e.isNil && isCons e && okWith (u.load r0 e.payload.toNat) (fun c _ => identical c (pairs.getW r0 1))) = true) ∧
    (Issues pairs 0 (.assq 0 12 1 4 (some 1)) 0 r0 pairs ∧ Issues pairs 0 (.memq 0 12 1 4 (some 1)) 0 r0 pairs) ∧
    Accepts isCons (pairs.getW r0 4) ∧
    (∃ e u, pairs.load r0 (pairs.getW r0 4).payload.toNat = .ok e u ∧
      (e.isNil && !identical e (pairs.getW r0 1) && okWith (u.load r0 ((pairs.getW r0 4).payload.toNat + 8))
        (fun _ _ => true)) = true) :=
  ⟨issues_of (by decide +kernel), by decide +kernel, ⟨by decide +kernel, by decide +kernel, by decide +kernel⟩, ok_of (by decide +kernel), issues_two (by decide +kernel), ⟨by decide +kernel, by decide +kernel, by decide +kernel⟩, ok_of (by decide +kernel)⟩

theorem test_meets_llen :
    Issues (counted 3) 0 (.llen 0 1 4 (some 1)) 0 r0 (counted 3) ∧
    ((counted 3).regs r0).cnt.toNat = 2 + 1 ∧
    (∃ x u, (counted 3).load r0 (((counted 3).getW r0 4).payload.toNat + 8) = .ok x u ∧ true = true) :=
  ⟨issues_of (by decide +kernel), by decide +kernel, ok_of (by decide +kernel)⟩

theorem test_meets_vref :
    (Issues (core 0) 0 (.vref 0 12 7 10) 0 r0 (core 0) ∧ Issues (core 0) 0 (.vset 0 1 7 10) 0 r0 (core 0)) ∧
    Accepts isVectorObj ((core 0).getW r0 7) ∧
    Accepts (·.isFix) ((core 0).getW r0 10) ∧
    (∃ n u, (core 0).extent r0 ((core 0).getW r0 7) = .ok n u ∧
      (decide (((core 0).getW r0 10).payload.toInt < n) && okWith (u.readElement r0 ((core 0).getW r0 7) ((core 0).getW r0 10).payload.toNat) (fun _ _ => true) &&
        okWith (u.writeElement r0 ((core 0).getW r0 7) ((core 0).getW r0 10).payload.toNat ((core 0).getW r0 1)) (fun _ _ => true)) = true) :=
  ⟨issues_two (by decide +kernel), ⟨by decide +kernel, by decide +kernel, by decide +kernel⟩, ⟨by decide +kernel, by decide +kernel, by decide +kernel⟩, ok_of (by decide +kernel)⟩

theorem test_meets_vset_bytes :
    Issues (core 0) 0 (.vset 0 10 8 1) 0 r0 (core 0) ∧
    Accepts isVectorObj ((core 0).getW r0 8) ∧
    Accepts (·.isFix) ((core 0).getW r0 1) ∧
    (isBytes ((core 0).getW r0 8) = true ∧
      byteFault ((core 0).getW r0 10) = none) ∧
    (∃ n u, (core 0).extent r0 ((core 0).getW r0 8) = .ok n u ∧
      (decide (((core 0).getW r0 1).payload.toInt < n) && okWith (u.writeElement r0 ((core 0).getW r0 8) ((core 0).getW r0 1).payload.toNat ((core 0).getW r0 10)) (fun _ _ => true)) = true) :=
  ⟨issues_of (by decide +kernel), ⟨by decide +kernel, by decide +kernel, by decide +kernel⟩, ⟨by decide +kernel, by decide +kernel, by decide +kernel⟩, by decide +kernel, ok_of (by decide +kernel)⟩

theorem test_meets_vfill :
    Issues (counted 1) 0 (.vfill 0 1 7 10 none) 0 r0 (counted 1) ∧
    (((counted 1).core 0).patched = false ∧
      ((counted 1).regs r0).cnt = 1 ∧
      0 ≤ ((counted 1).getW r0 10).payload.toInt) ∧
    (∃ n u, (counted 1).extent r0 ((counted 1).getW r0 7) = .ok n u ∧
      (decide (((counted 1).getW r0 10).payload.toInt + 1 ≤ n) && decide (u.getW r0 10 = (counted 1).getW r0 10) &&
        okWith (u.writeElement r0 ((counted 1).getW r0 7) 1 ((counted 1).getW r0 1)) (fun _ _ => true)) = true) ∧
    ((after (exec (.vfill 0 1 7 10 none) (counted 1))).memWord 0x3010 = fix 5 ∧
      (after (exec (.vfill 0 1 7 10 none) (counted 1))).getW r0 10 = fix 2) :=
  ⟨issues_of (by decide +kernel), by decide +kernel, ok_of (by decide +kernel), by decide +kernel⟩

theorem test_meets_vcopy :
    Issues (counted 1) 0 (.vcopy 0 7 7 10 none) 0 r0 (counted 1) ∧
    (∃ n u, (counted 1).extent r0 ((counted 1).getW r0 7) = .ok n u ∧
      okWith (u.extent r0 ((counted 1).getW r0 7)) (fun m x => decide ((1 : Int) + 1 ≤ n) && decide ((0 : Int) + 1 ≤ m) &&
        okWith (x.readElement r0 ((counted 1).getW r0 7) 1) (fun w z =>
          okWith (z.writeElement r0 ((counted 1).getW r0 7) 0 w) (fun _ _ => true))) = true) ∧
    (after (exec (.vcopy 0 7 7 10 none) (counted 1))).getW r0 10 = fix (1 * 2 ^ 32 + 2) :=
  ⟨issues_of (by decide +kernel), ok_of (by decide +kernel), by decide +kernel⟩
/-! Allocation, special registers, the bank window, the TLB, waits and exceptions. -/

theorem test_meets_alloc :
    Issues region 0 (.alloc 0 12 10 0x11 false 0) 0 r0 region ∧
    ((region.getW r0 10).tag = 0 ∧
      lengthOk 0x11 (region.getW r0 10).payload.toNat = true ∧
      (region.getW r0 10).payload.toNat ≤ 511 ∧
      (region.slot r0.hcn).unchecked = false ∧
      (region.regs r0).allocp.toNat + 8 * ((region.getW r0 10).payload.toNat + 1) ≤ (region.regs r0).allocl.toNat) ∧
    (∃ x u, region.build r0 (.alloc 0 12 10 0x11 false 0) (region.regs r0).allocp.toNat 0x11 12 (freshWords 0x11 (region.getW r0 10).payload.toNat false 0) = .ok x u ∧ true = true) :=
  ⟨issues_of (by decide +kernel), by decide +kernel, ok_of (by decide +kernel)⟩

/-- SCN 7 waits for the initial slots of a large object. -/
def largeWait : State :=
  (core 0).setCtx 7 { (core 0).ctx 7 with st := .waiting, wait := some (.alloc (.large 12 ⟨0x11, 0x3000⟩)) }

theorem test_large_init :
    (largeWait.ctx 7).wait = some (.alloc (.large 12 ⟨0x11, 0x3000⟩)) ∧
    ((after (exec (.largeInitDone 7) largeWait)).ctx 7).wait = none ∧
    (after (exec (.largeInitDone 7) largeWait)).getW r0 12 = ⟨0x51, 0x3000⟩ := by
  decide +kernel

theorem test_meets_gets :
    Issues (core 1) 0 (.gets 0 1 0x58) 1 r0 (core 1) ∧
    getsStair 0x58 = 1 ∧
    (core 1).specOf r0.scn = none ∧
    specialValue (core 1) r0 0x58 = some 0 :=
  ⟨issues_of (by decide +kernel), by decide +kernel⟩

theorem test_meets_sets_cnt :
    Issues (core 0) 0 (.sets 0 0x01 1) (setsStair 0x01) r0 (core 0) ∧
    (core 0).specOf r0.scn = none ∧
    ((core 0).getW r0 1) = fix ((core 0).getW r0 1).payload ∧
    ((core 0).getW r0 1).payload.toNat < 2 ^ 32 :=
  ⟨issues_of (by decide +kernel), by decide +kernel⟩

theorem test_meets_sets_cnt_bounds :
    Issues (core 0) 0 (.sets 0 0x01 6) (setsStair 0x01) r0 (core 0) ∧
    (core 0).specOf r0.scn = none ∧
    ((core 0).getW r0 6) = fix ((core 0).getW r0 6).payload ∧
    2 ^ 32 ≤ ((core 0).getW r0 6).payload.toNat :=
  ⟨issues_of (by decide +kernel), by decide +kernel⟩

theorem test_meets_sets_slim :
    Issues (core 1) 0 (.sets 0 0x02 11) (setsStair 0x02) r0 (core 1) ∧
    (core 1).specOf r0.scn = none ∧
    ((core 1).getW r0 11) = fix ((core 1).getW r0 11).payload ∧
    (fld ((core 1).getW r0 11).payload 2 0 = 0 ∧ fld ((core 1).getW r0 11).payload 63 44 = 0) :=
  ⟨issues_of (by decide +kernel), by decide +kernel⟩

theorem test_meets_sets_allocp :
    Issues (core 1) 0 (.sets 0 0x03 11) (setsStair 0x03) r0 (core 1) ∧
    (core 1).specOf r0.scn = none ∧
    ((core 1).getW r0 11) = fix ((core 1).getW r0 11).payload ∧
    (fld ((core 1).getW r0 11).payload 2 0 = 0 ∧ fld ((core 1).getW r0 11).payload 63 44 = 0) :=
  ⟨issues_of (by decide +kernel), by decide +kernel⟩

theorem test_meets_sets_allocl :
    Issues (core 1) 0 (.sets 0 0x04 11) (setsStair 0x04) r0 (core 1) ∧
    (core 1).specOf r0.scn = none ∧
    ((core 1).getW r0 11) = fix ((core 1).getW r0 11).payload ∧
    (fld ((core 1).getW r0 11).payload 2 0 = 0 ∧ fld ((core 1).getW r0 11).payload 63 44 = 0) :=
  ⟨issues_of (by decide +kernel), by decide +kernel⟩

theorem test_meets_sets_landing :
    Issues (core 0) 0 (.sets 0 0x60 1) (setsStair 0x60) r0 (core 0) ∧
    (core 0).specOf r0.scn = none ∧
    ((core 0).getW r0 1) = fix ((core 0).getW r0 1).payload ∧
    0x60 ≤ 0x67 :=
  ⟨issues_of (by decide +kernel), by decide +kernel⟩

theorem test_meets_sets_status :
    Issues (core 0) 0 (.sets 0 0x00 1) (setsStair 0x00) r0 (core 0) ∧
    (core 0).specOf r0.scn = none ∧
    ((core 0).getW r0 1) = fix ((core 0).getW r0 1).payload ∧
    0x60 ≤ 0x67 :=
  ⟨issues_of (by decide +kernel), by decide +kernel⟩

theorem test_meets_sets_bankwin :
    Issues (core 1) 0 (.sets 0 0x58 1) (setsStair 0x58) r0 (core 1) ∧
    (core 1).specOf r0.scn = none ∧
    ((core 1).getW r0 1) = fix ((core 1).getW r0 1).payload ∧
    fld ((core 1).getW r0 1).payload 63 16 = 0 :=
  ⟨issues_of (by decide +kernel), by decide +kernel⟩

theorem test_meets_sets_bankwin_bounds :
    Issues (core 1) 0 (.sets 0 0x58 6) (setsStair 0x58) r0 (core 1) ∧
    (core 1).specOf r0.scn = none ∧
    ((core 1).getW r0 6) = fix ((core 1).getW r0 6).payload ∧
    fld ((core 1).getW r0 6).payload 63 16 ≠ 0 :=
  ⟨issues_of (by decide +kernel), by decide +kernel⟩

theorem test_meets_sets_msgp :
    Issues (core 0) 0 (.sets 0 0x5A 1) (setsStair 0x5A) r0 (core 0) ∧
    (core 0).specOf r0.scn = none ∧
    ((core 0).getW r0 1) = fix ((core 0).getW r0 1).payload ∧
    fld ((core 0).getW r0 1).payload 63 32 = 0 :=
  ⟨issues_of (by decide +kernel), by decide +kernel⟩

theorem test_meets_sets_vbase0 :
    Issues (core 1) 0 (.sets 0 0x41 11) (setsStair 0x41) r0 (core 1) ∧
    (core 1).specOf r0.scn = none ∧
    ((core 1).getW r0 11) = fix ((core 1).getW r0 11).payload ∧
    (core 1).sysBad 0x41 ((core 1).getW r0 11).payload = false :=
  ⟨issues_of (by decide +kernel), by decide +kernel⟩

theorem test_meets_sets_keep_d :
    Issues (core 2) 0 (.sets 0 0x82 1) (setsStair 0x82) r0 (core 2) ∧
    (core 2).specOf r0.scn = none ∧
    ((core 2).getW r0 1) = fix ((core 2).getW r0 1).payload ∧
    0x60 ≤ 0x67 :=
  ⟨issues_of (by decide +kernel), by decide +kernel⟩

/-- SCN 7 with its window on SCN 9, which is Parked in slot 6, or not filled. -/
def window (parked : Bool) : State :=
  let s := runWith { regsAt 2 words with bankwin := 9 }
  let s := s.setSlot 6 { Slot.reset with scn := some 9 }
  s.setCtx 9 { SwCtx.reset with st := if parked then .parked else .ready, hcn := 6, hall := 0 }

theorem test_meets_window :
    (Issues (window false) 0 (.wget 0 12 0x20) 1 r0 (window false) ∧ Issues (window false) 0 (.wput 0 0x01 1) 1 r0 (window false)) ∧
    (window false).specOf r0.scn = none ∧
    ((window false).regs r0).bankwin.toNat = 9 ∧
    (window false).windowForeign r0 9 = false ∧
    (window false).window 9 = .closed :=
  ⟨issues_two (by decide +kernel), by decide +kernel⟩

theorem test_meets_window_parked :
    (Issues (window true) 0 (.wget 0 12 0x20) 1 r0 (window true) ∧ Issues (window true) 0 (.wput 0 0x01 1) 1 r0 (window true)) ∧
    (window true).windowForeign r0 9 = false ∧
    (window true).window 9 = .parked 6 ∧
    stStair ((window true).status r0) = 2 ∧
    (((window true).slot 6).regs.selPut 0x01 (strip ((window true).compat ((window true).ctx 9).hall) ((window true).getW r0 1)) false).2 = false :=
  ⟨issues_two (by decide +kernel), by decide +kernel⟩

/-- TLB_STAGE of slot 5, live or not, with a leaf PTE in w12 and index 3 in w10. -/
def staged (live : Bool) : State :=
  let s := runWith (regsAt 2 [(10, fix 3), (12, raw 0xC000001000000010)])
  s.setCore 0 { s.core 0 with stage := setBit (setFld 0 47 42 5) 48 live }

theorem test_meets_tlbwi :
    (Issues (staged true) 0 (.tlbwi 0 12 10) 1 r0 (staged true) ∧ Issues (staged false) 0 (.tlbwi 0 12 10) 1 r0 (staged false)) ∧
    Issues (staged true) 0 (.tlbwr 0 12) 1 r0 (staged true) ∧
    ((staged true).specOf r0.scn = none ∧
      pteFault ((staged true).getW r0 12) = none ∧
      stStair ((staged true).status r0) = 2 ∧
      fld ((staged true).core 0).stage 51 50 < 3 ∧
      pteBad ((staged true).getW r0 12).payload (fld ((staged true).core 0).stage 51 50) = false ∧
      ((staged true).getW r0 10).tag = 0 ∧
      ((staged true).getW r0 10).payload.toNat < tlbSize (fld ((staged true).core 0).stage 49 49) ∧
      bit ((staged true).core 0).stage 48 = true ∧
      fld ((staged true).core 0).stage 47 42 = r0.hcn % 64 ∧
      bit ((staged false).core 0).stage 48 = false) ∧
    (∃ k, k < tlbSize 0 ∧ ((staged true).core 0).kept 0 k = false) :=
  ⟨issues_two (by decide +kernel), issues_of (by decide +kernel), by decide +kernel, ⟨0, by decide +kernel⟩⟩

/-- All entries of the data TLB are kept. -/
def allKept : State := (staged true).setCore 0 { (staged true).core 0 with keepD := BitVec.allOnes 64 }

theorem test_meets_tlbwr_kept :
    Issues allKept 0 (.tlbwr 0 12) 1 r0 allKept ∧
    (∀ k, k < tlbSize (fld (allKept.core 0).stage 49 49) → (allKept.core 0).kept (fld (allKept.core 0).stage 49 49) k = true) :=
  ⟨issues_of (by decide +kernel), by decide +kernel⟩

/-- A page table with a leaf at 0, or a root outside every region. -/
def tables (leaf : Bool) : State :=
  let s := runWith (regsAt 2 [(12, fix 0x4000)])
  if leaf then s.setMemWord 0 (raw 0xC000000000000010) else s.setSys 0 0x80 0xF000000000

theorem test_meets_twalk_true :
    Issues (tables true) 0 (.twalk 0 10 12) 1 r0 (tables true) ∧
    (tables true).specOf r0.scn = none ∧
    ((tables true).getW r0 12).type ≠ 0x32 ∧
    fld ((tables true).getW r0 12).payload 63 44 = 0 ∧
    (match ((tables true).walk 0 0 false 0x4000 (2 ^ 11 * fld ((tables true).sys 0 0x80) 39 11 + 8 * fld 0x4000#64 43 36) 0 3).1 with
      | .leaf _ _ => true
      | .fail _ _ => false) = true :=
  ⟨issues_of (by decide +kernel), by decide +kernel⟩

theorem test_meets_twalk_false :
    Issues (tables false) 0 (.twalk 0 10 12) 1 r0 (tables false) ∧
    (tables false).specOf r0.scn = none ∧
    ((tables false).getW r0 12).type ≠ 0x32 ∧
    fld ((tables false).getW r0 12).payload 63 44 = 0 ∧
    (match ((tables false).walk 0 0 false 0x4000 (2 ^ 11 * fld ((tables false).sys 0 0x80) 39 11 + 8 * fld 0x4000#64 43 36) 0 3).1 with
      | .leaf _ _ => true
      | .fail _ _ => false) = false :=
  ⟨issues_of (by decide +kernel), by decide +kernel⟩

/-- A TLBI scope in w12: all entries of hall 0. -/
def flush : State := runWith (regsAt 2 [(12, fix 0x1000000000000000)])

theorem test_meets_tlbi :
    Issues flush 0 (.tlbi 0 12) 1 r0 flush ∧
    flush.specOf r0.scn = none ∧
    flush.getW r0 12 = fix 0x1000000000000000 ∧
    (fld 0x1000000000000000#64 63 60 = 1 ∧ fld 0x1000000000000000#64 41 30 = 0) ∧
    stStair (flush.status r0) = 2 ∧
    (after (exec (.tlbi 0 12) flush)).tlbis.length = 1 :=
  ⟨issues_of (by decide +kernel), by decide +kernel⟩

/-- A TLBI that two cores must acknowledge. -/
def flushing : State := { flush with tlbis := [⟨0, 7, 0x1000000000000000, [1, 2]⟩] }

theorem test_tlbi_ack :
    flushing.tlbis.map (fun j => j.left) = [[1, 2]] ∧
    (after (exec (.tlbiAck 1) flushing)).tlbis.map (fun j => j.left) = [[2]] := by
  decide +kernel

/-- Axis 0 tracked by hall 0, a POS ahead of it in w12, one behind it in w11, NIL in w5. -/
def waiting (gallery : Bool) : State :=
  let s := runWith (regsAt 0 [(5, nil), (11, ⟨4, 0⟩), (12, ⟨4, 0x20000⟩)])
  let s := (s.setReg (Reg.axPos 0) 0x10000).setRf (Reg.axCfg 0) 63 62 1
  if gallery then s else { s with part := { s.part with variant := .nrm8616 } }

theorem test_meets_waitp :
    (Issues (waiting true) 0 (.waitp 0 10 11) 0 r0 (waiting true) ∧ Issues (waiting true) 0 (.waitp 0 10 12) 0 r0 (waiting true)) ∧
    stSth ((waiting true).status r0) = false ∧
    (waiting true).specOf r0.scn = none ∧
    (waiting true).posFault 0 ((waiting true).getW r0 11) = none ∧
    (waiting true).posFault 0 ((waiting true).getW r0 12) = none ∧
    (waiting true).posAhead ((waiting true).getW r0 11).payload ≤ 0 ∧
    0 < (waiting true).posAhead ((waiting true).getW r0 12).payload :=
  ⟨issues_two (by decide +kernel), by decide +kernel⟩

theorem test_meets_spec :
    Issues (waiting false) 0 (.specOpen 0 12 5) 0 r0 (waiting false) ∧
    ((waiting false).posFault 0 ((waiting false).getW r0 12) = none ∧
      ((waiting false).getW r0 5).isNil = true ∧
      (waiting false).part.hasGallery = false ∧
      ((waiting false).ctx 7).reopens = [] ∧
      0 < (waiting false).posAhead ((waiting false).getW r0 12).payload) ∧
    (Issues (waiting true) 0 (.specOpen 0 11 5) 0 r0 (waiting true) ∧ Issues (waiting true) 0 (.specClose 0) 0 r0 (waiting true)) :=
  ⟨issues_of (by decide +kernel), by decide +kernel, issues_two (by decide +kernel)⟩

/-- SCN 7 with speculation 0 open. -/
def inSpec : State :=
  let s := waiting true
  { s with gal := [(0, { GalRec.reset with st := .opened, scn := 7, key := 0x20000 })] }

theorem test_meets_spec_close :
    Issues inSpec 0 (.specClose 0) 0 r0 inSpec ∧
    inSpec.specOf 7 ≠ none :=
  ⟨issues_of (by decide +kernel), by decide +kernel⟩

theorem test_meets_entry :
    (core 1).specOf 7 = none ∧
    stSth ((core 1).regs r0).status = false ∧
    (mkTrap 0x14 0x1000 (raw 4)).ra = none ∧
    (mkTrap 0x14 0x1000 (raw 4)).stage = none ∧
    lcL3 ((core 1).regs r0).landctl = false ∧
    lcUse ((core 1).regs r0).landctl < 3 ∧
    (core 1).compat 0 = false ∧
    bit ((core 1).vmode r0 1) 0 = false ∧
    spOk (((core 1).regs r0).getW 31) ((core 1).regs r0).slim.toNat = true ∧
    (match (core 1).framePas r0 (fld ((core 1).vmode r0 1) 2 1) 0x7FC0 8 with
      | .inl _ => true
      | .inr _ => false) = true := by
  decide +kernel

/-- SCN 7 in a handler that an exception entered. -/
def handler : State := (core 1).take r0 (mkTrap 0x14 0x1000 (raw 4))

theorem test_xret :
    handler.running 0 = some r0 ∧
    (handler.regs r0).pc ≠ 0x1000 ∧
    stToff (handler.status r0) = false := by
  decide +kernel

/-- The handler with translation off again. -/
def inHandler : State :=
  let s := handler.setSlot 5 { handler.slot 5 with regs := { (handler.slot 5).regs with status := (handler.slot 5).regs.status ||| 0x80 } }
  (s.fetchParcel r0 (s.regs r0).pc).2

theorem test_meets_xret :
    Issues inHandler 0 (.xret 0) 0 r0 inHandler ∧
    (inHandler.specOf 7 = none ∧
      inHandler.landing r0 = .own 0 ∧
      (stSs (inHandler.status r0) = false ∧ stSth (inHandler.status r0) = false) ∧
      lcDepth (inHandler.regs r0).landctl = 0 ∧
      ((after (exec (.xret 0) inHandler)).regs r0).pc = 0x1000) ∧
    Issues (core 1) 0 (.xret 0) 0 r0 (core 1) ∧
    (core 1).landing r0 = .none :=
  ⟨issues_of (by decide +kernel), by decide +kernel, issues_of (by decide +kernel), by decide +kernel⟩

/-- SCN 7 with a DEBUG alert pending, unmasked. -/
def alerted : State := (core 1).setCtx 7 { (core 1).ctx 7 with pend := 0x10 }

theorem test_meets_alert :
    (core 1).running 0 = some r0 ∧
    (core 1).nextAlert r0 = none ∧
    alerted.running 0 = some r0 ∧
    alerted.nextAlert r0 = some 4 ∧
    (stSth (alerted.status r0) = false ∧ lcL3 (alerted.regs r0).landctl = false) ∧
    (alerted.specOf 7 = none ∧ (alerted.ctx 7).st = .running ∧ alerted.tlbis = []) ∧
    (alerted.enter r0 (mkTrap 0x24 0 (look Word.fix0 (alerted.ctx 7).alertWord 4))).1 = true := by
  decide +kernel

/-- SCN 7 Ready, Running or waiting for DT 100 in slot 5 of core 0, SCN 8 Ready at a priority in slot 6. -/
def ready (st : CtxState) (prio : Nat) : State :=
  let s := runWith (regsAt 0 words)
  let s := s.setCtx 7 { s.ctx 7 with st := st, prio := 2, wait := if st = .waiting then some (.timer 100) else none }
  let s := s.setSlot 6 { Slot.reset with scn := some 8, scan := true }
  let s := s.setCtx 8 { SwCtx.reset with st := .ready, hcn := 6, hall := 0, prio := prio }
  { (s.setCore 0 { s.core 0 with run := if st = .running then some 5 else none }).setRf (Reg.ctxSched 0) 15 0 1 with dt := 200 }

theorem test_dispatch :
    (ready .ready 1).coreFree 0 = true ∧
    (ready .ready 1).pickCtx 0 = some 7 ∧
    (ready .ready 1).readyOn 0 = [7, 8] ∧
    ((after (exec (.dispatch 0) (ready .ready 1))).core 0).run = some 5 := by
  decide +kernel

theorem test_preemption :
    (ready .running 3).running 0 = some r0 ∧
    (ready .running 3).pcnOf ((ready .running 3).ctx 7).hcn = 0 ∧
    (ready .running 3).topReady 0 = some 3 ∧
    ((ready .running 3).ctx 7).prio = 2 ∧
    ((after (exec (.preemption 0) (ready .running 3))).ctx 7).st = .ready := by
  decide +kernel

theorem test_quantum_end :
    (ready .running 2).running 0 = some r0 ∧
    (ready .running 2).rf (Reg.ctxSched 0) 15 0 ≠ 0 ∧
    (8 ∈ (ready .running 2).readyOn 0 ∧ ((ready .running 2).ctx 8).prio = ((ready .running 2).ctx 7).prio) ∧
    ((after (exec (.quantumEnd 0) (ready .running 2))).ctx 7).st = .ready := by
  decide +kernel

theorem test_timer_wake :
    (ready .waiting 1).waiters (ready .waiting 1).timerDue = [7] ∧
    ((after (exec .timerWake (ready .waiting 1))).slot 5).regs.pc = 0x1004 ∧
    ((after (exec .timerWake (ready .waiting 1))).ctx 7).st = .ready ∧
    (ready .ready 1).waiters (ready .ready 1).timerDue = [] ∧
    (((ready .ready 1).slot 6).scan = true ∧ ((ready .ready 1).slot 5).scan = false ∧ ((ready .ready 1).slot 6).scn = some 8) := by
  decide +kernel

/-- Hall 3 with a watchdog of 1 ms, at a DT. -/
def watched (dt : BitVec 64) : State := { State.reset.setRf (Reg.evrAlertRoute 3) 15 0 1 with dt := dt }

theorem test_watchdog :
    (watched 0).rf (Reg.evrAlertRoute 3) 15 0 ≠ 0 ∧
    look 0 (watched 1000000).wdogFrom 3 + 1000000 * 1 ≤ (watched 1000000).dt.toNat ∧
    look 0 (after (exec (.watchdog 3) (watched 1000000))).wdogFrom 3 = 1000000 ∧
    (after (exec (.watchdog 3) (watched 999999))).wdogFrom = [] := by
  decide +kernel

/-- SCN 9 Spilled, with its fill wanted. -/
def wanted : State :=
  State.reset.setCtx 9 { SwCtx.reset with st := .spilled, resume := .ready, homeLcn := 0xFF, desc := 0x10000, fillPending := true }

theorem test_fill_on_demand :
    (wanted.fillsDue).map (·.1) = [9] := by
  decide +kernel

/-! Allocation and special registers, clause by clause. -/

/-- The region with a LENGTH in w10 that its type forbids, and one of 600 words with a quota of two bins. -/
def regionFor (n : Nat) : State :=
  (runWith { regsAt 0 [(10, fixN n)] with allocp := 0x5000, allocl := 0x5080 }).setReg (Reg.glHall 0) (setFld 0 55 42 4)

theorem test_meets_alloc_bounds :
    Issues (regionFor 4) 0 (.alloc 0 12 10 0x13 false 0) 0 r0 (regionFor 4) ∧
    ((regionFor 4).getW r0 10).tag = 0 ∧
    lengthOk 0x13 ((regionFor 4).getW r0 10).payload.toNat = false :=
  ⟨issues_of (by decide +kernel), by decide +kernel⟩

theorem test_meets_alloc_small :
    Issues region 0 (.alloc 0 12 10 0x11 false 0) 0 r0 region ∧
    (region.slot r0.hcn).unchecked = false ∧
    (∃ xs u, (region.checked r0).prepStores r0 false (((List.range 2).zip (freshWords 0x11 1 false 0)).map
      (fun e => (((0x5000 + 8 * e.1 : Nat) : Int), e.2))) = .ok xs u ∧ true = true) :=
  ⟨issues_of (by decide +kernel), by decide +kernel, ok_of (by decide +kernel)⟩

theorem test_meets_alloc_large :
    Issues (regionFor 600) 0 (.alloc 0 12 10 0x11 false 0) 0 r0 (regionFor 600) ∧
    (511 < ((regionFor 600).getW r0 10).payload.toNat ∧ lengthOk 0x11 600 = true ∧ (8 * (600 + 1) - 1) / binSize + 1 = 1) ∧
    ((regionFor 600).mayTake 0 1 = true ∧ (regionFor 600).specOf 7 = none) ∧
    (regionFor 600).freeRuns 1 ≠ [] ∧
    (fld ((regionFor 600).reg (Reg.glHall 0)) 41 34 = 0 ∧ fld ((regionFor 600).reg (Reg.glHall 0)) 33 27 = 0) :=
  ⟨issues_of (by decide +kernel), by decide +kernel⟩

theorem test_meets_large_init :
    (((largeWait.ctx 7).st = .waiting ∧ (largeWait.ctx 7).deferred = [] ∧ largeWait.compat 0 = false) ∧
      (largeWait.heapPa 0 ⟨0x11, 0x3000⟩ = 0x3000 ∧ hdrLen (largeWait.memWord 0x3000) = 4)) ∧
    largeWait.NoErrors ∧
    ((largeWait.slot 5).regs.pc = 0x1000 ∧ stSs (largeWait.slot 5).regs.status = false) ∧
    ((after (exec (.largeInitDone 7) largeWait)).memWord 0x3008 = nil ∧ (after (exec (.largeInitDone 7) largeWait)).memWord 0x3028 = fix 0) ∧
    ((after (exec (.largeInitDone 7) largeWait)).slot 5).regs.pc = 0x1004 :=
  ⟨by decide +kernel, by unfold State.NoErrors; decide +kernel, by decide +kernel⟩

theorem test_meets_gets_landing :
    Issues (core 0) 0 (.gets 0 1 0x60) (getsStair 0x60) r0 (core 0) ∧
    (core 0).landing r0 = .none ∧
    Issues (core 2) 0 (.gets 0 1 0x84) (getsStair 0x84) r0 (core 2) :=
  ⟨issues_of (by decide +kernel), by decide +kernel, issues_of (by decide +kernel)⟩

/-- A state at a stair, at DT 100, with a word in w1. -/
def writing (stair : Nat) (v : BitVec 64) : State := { runWith (regsAt stair [(1, fix v)]) with dt := 100 }

theorem test_meets_sets_misaligned :
    Issues (writing 1 0x4004) 0 (.sets 0 0x03 1) (setsStair 0x03) r0 (writing 1 0x4004) ∧
    ((writing 1 0x4004).specOf 7 = none ∧ ((writing 1 0x4004).getW r0 1) = fix 0x4004) ∧
    fld 0x4004#64 2 0 ≠ 0 :=
  ⟨issues_of (by decide +kernel), by decide +kernel⟩

theorem test_meets_sets_frame :
    Issues (writing 2 0x4000) 0 (.sets 0 0x68 1) (setsStair 0x68) r0 (writing 2 0x4000) ∧
    ((writing 2 0x4000).specOf 7 = none ∧ ((writing 2 0x4000).getW r0 1) = fix 0x4000) ∧
    alignedOk 0x4000 = true :=
  ⟨issues_of (by decide +kernel), by decide +kernel⟩

theorem test_meets_sets_past_wait :
    Issues (writing 0 0x1000000000000032) 0 (.sets 0 0x59 1) (setsStair 0x59) r0 (writing 0 0x1000000000000032) ∧
    ((writing 0 0x1000000000000032).specOf 7 = none ∧ ((writing 0 0x1000000000000032).getW r0 1) = fix 0x1000000000000032) ∧
    fld 0x1000000000000032#64 63 60 = 1 ∧
    fld 0x1000000000000032#64 59 0 ≤ (writing 0 0x1000000000000032).dt.toNat :=
  ⟨issues_of (by decide +kernel), by decide +kernel⟩

theorem test_meets_sets_later_wait :
    Issues (writing 0 0x1000000000000065) 0 (.sets 0 0x59 1) (setsStair 0x59) r0 (writing 0 0x1000000000000065) ∧
    ((writing 0 0x1000000000000065).specOf 7 = none ∧ ((writing 0 0x1000000000000065).getW r0 1) = fix 0x1000000000000065) ∧
    (writing 0 0x1000000000000065).dt.toNat < fld 0x1000000000000065#64 59 0 ∧
    stSth ((writing 0 0x1000000000000065).status r0) = false :=
  ⟨issues_of (by decide +kernel), by decide +kernel⟩

theorem test_meets_sets_landctl :
    Issues (writing 2 0x0201) 0 (.sets 0 0x5B 1) (setsStair 0x5B) r0 (writing 2 0x0201) ∧
    ((writing 2 0x0201).specOf 7 = none ∧ ((writing 2 0x0201).getW r0 1) = fix 0x0201) ∧
    (fld 0x0201#64 63 16 = 0 ∧ fld 0x0201#64 7 3 = 0) :=
  ⟨issues_of (by decide +kernel), by decide +kernel⟩

theorem test_meets_sets_vmode0 :
    Issues (writing 1 4) 0 (.sets 0 0x40 1) (setsStair 0x40) r0 (writing 1 4) ∧
    ((writing 1 4).specOf 7 = none ∧ ((writing 1 4).getW r0 1) = fix 4) ∧
    ((writing 1 4).sysBad 0x40 4 = false ∧ (writing 1 4).resetting 0 = false ∧ (writing 1 4).compat 0 = false) :=
  ⟨issues_of (by decide +kernel), by decide +kernel⟩

theorem test_meets_sets_vmode2 :
    Issues (writing 2 4) 0 (.sets 0 0x44 1) (setsStair 0x44) r0 (writing 2 4) ∧
    ((writing 2 4).specOf 7 = none ∧ ((writing 2 4).getW r0 1) = fix 4) ∧
    (writing 2 4).sysBad 0x44 4 = false :=
  ⟨issues_of (by decide +kernel), by decide +kernel⟩

theorem test_meets_sets_sth_base :
    Issues (writing 2 0x8000) 0 (.sets 0 0x50 1) (setsStair 0x50) r0 (writing 2 0x8000) ∧
    ((writing 2 0x8000).specOf 7 = none ∧ ((writing 2 0x8000).getW r0 1) = fix 0x8000) ∧
    (writing 2 0x8000).sysBad 0x50 0x8000 = false ∧
    bit ((writing 2 0x8000).reg (Reg.coreSthBase 0)) 63 = false ∧
    fld 0x8000#64 39 0 < (writing 2 0x8000).part.memSize :=
  ⟨issues_of (by decide +kernel), by decide +kernel⟩

theorem test_meets_sets_sth_sp :
    Issues (writing 2 0x8000) 0 (.sets 0 0x51 1) (setsStair 0x51) r0 (writing 2 0x8000) ∧
    ((writing 2 0x8000).specOf 7 = none ∧ ((writing 2 0x8000).getW r0 1) = fix 0x8000) ∧
    (writing 2 0x8000).sysBad 0x51 0x8000 = false :=
  ⟨issues_of (by decide +kernel), by decide +kernel⟩

theorem test_meets_sets_stage :
    Issues (writing 2 0x0004000000000000) 0 (.sets 0 0x81 1) (setsStair 0x81) r0 (writing 2 0x0004000000000000) ∧
    ((writing 2 0x0004000000000000).specOf 7 = none ∧ ((writing 2 0x0004000000000000).getW r0 1) = fix 0x0004000000000000) ∧
    fld 0x0004000000000000#64 51 50 ≠ 3 ∧
    stStair ((writing 2 0x0004000000000000).status r0) = 2 :=
  ⟨issues_of (by decide +kernel), by decide +kernel⟩

theorem test_meets_sets_keep_i :
    Issues (writing 2 0xFFFFFFFF) 0 (.sets 0 0x84 1) (setsStair 0x84) r0 (writing 2 0xFFFFFFFF) ∧
    ((writing 2 0xFFFFFFFF).specOf 7 = none ∧ ((writing 2 0xFFFFFFFF).getW r0 1) = fix 0xFFFFFFFF) ∧
    fld 0xFFFFFFFF#64 47 32 = 0 :=
  ⟨issues_of (by decide +kernel), by decide +kernel⟩

theorem test_meets_sets_bounds :
    Issues (writing 2 0x100000000) 0 (.sets 0 0x84 1) (setsStair 0x84) r0 (writing 2 0x100000000) ∧
    ((writing 2 0x100000000).specOf 7 = none ∧ ((writing 2 0x100000000).getW r0 1) = fix 0x100000000) ∧
    (writing 2 0x100000000).sysBad 0x84 0x100000000 = true :=
  ⟨issues_of (by decide +kernel), by decide +kernel⟩

/-- Hall 0 RESETTING in GRACE. -/
def gracing : State := (writing 1 0x4000).setReg (Reg.hallState 0) (setFld (setFld 0 63 61 3) 60 58 1)

theorem test_meets_sets_resetting :
    Issues gracing 0 (.sets 0 0x41 1) (setsStair 0x41) r0 gracing ∧
    (sysHallDomain 0x41 = true ∧ gracing.sysBad 0x41 0x4000 = false ∧ gracing.resetting 0 = true) :=
  ⟨issues_of (by decide +kernel), by decide +kernel⟩

/-! The window, the TLB and waits, clause by clause. -/

/-- At stair 1 or 2, the window on SCN 9, of another hall or Spilled to 0x6000. -/
def windowOn (stair hall : Nat) : State :=
  let s := runWith { regsAt stair words with bankwin := 9 }
  s.setCtx 9 { SwCtx.reset with st := .spilled, desc := 0x6000, hall := hall }

theorem test_meets_window_foreign :
    (Issues (windowOn 1 3) 0 (.wget 0 12 0x20) 1 r0 (windowOn 1 3) ∧ Issues (windowOn 1 3) 0 (.wput 0 0x01 1) 1 r0 (windowOn 1 3)) ∧
    (windowOn 1 3).windowForeign r0 9 = true :=
  ⟨issues_two (by decide +kernel), by decide +kernel⟩

theorem test_meets_window_spilled :
    (Issues (windowOn 2 0) 0 (.wget 0 12 0x03) 1 r0 (windowOn 2 0) ∧ Issues (windowOn 2 0) 0 (.wput 0 0x03 1) 1 r0 (windowOn 2 0)) ∧
    ((windowOn 2 0).windowForeign r0 9 = false ∧ (windowOn 2 0).window 9 = .spilled 0x6000 ∧ ((windowOn 2 0).ctx 9).pend = 0) ∧
    (windowOn 2 0).NoErrors ∧
    (((windowOn 2 0).agentLoad 0x6028).1.isPtr = false ∧ ((windowOn 2 0).getW r0 1).isPtr = false) ∧
    (after (exec (.wput 0 0x03 1) (windowOn 2 0))).memWord 0x6028 = fix 5 :=
  ⟨issues_two (by decide +kernel), by decide +kernel, by unfold State.NoErrors; decide +kernel, by decide +kernel⟩

/-- At stair 1, TLB_STAGE live or not; index 3 kept; a PTE with a reserved bit in w13. -/
def stagedAt (live : Bool) : State :=
  let s := runWith (regsAt 1 [(10, fix 3), (12, raw 0x4000001000000010), (13, raw 0xC000001000001010)])
  s.setCore 0 { s.core 0 with stage := setBit (setFld 0 47 42 5) 48 live, keepD := 8 }

theorem test_meets_tlbwi_kept :
    Issues (stagedAt true) 0 (.tlbwi 0 12 10) 1 r0 (stagedAt true) ∧
    ((stStair ((stagedAt true).status r0) = 1 ∧ ((stagedAt true).core 0).kept 0 3 = true) ∧
      bit ((stagedAt true).getW r0 12).payload 63 = false ∧
      pteFault ((stagedAt true).getW r0 12) = none) ∧
    Issues (stagedAt false) 0 (.tlbwr 0 12) 1 r0 (stagedAt false) :=
  ⟨issues_of (by decide +kernel), by decide +kernel, issues_of (by decide +kernel)⟩

/-- The staged PTE with a reserved bit. -/
def badPte : State :=
  let s := staged true
  s.setSlot 5 { s.slot 5 with regs := (s.slot 5).regs.putW 12 (raw 0xC000001000001010) }

theorem test_meets_tlbwi_bad :
    Issues badPte 0 (.tlbwi 0 12 10) 1 r0 badPte ∧
    (pteFault (badPte.getW r0 12) = none ∧ bit (badPte.getW r0 12).payload 63 = true) ∧
    pteBad (badPte.getW r0 12).payload (fld (badPte.core 0).stage 51 50) = true :=
  ⟨issues_of (by decide +kernel), by decide +kernel⟩

theorem test_meets_tlbi_ack :
    flushing.storersOn 1 = [] ∧ (∃ q, q ∈ [1, 2] ∧ q ≠ 1) := ⟨by decide +kernel, 2, by decide, by decide⟩

/-- A TLBI that one core must still acknowledge. -/
def lastAck : State := { flush with tlbis := [⟨0, 7, 0x1000000000000000, [1]⟩] }

theorem test_tlbi_last_ack :
    (lastAck.running 0 = some r0 ∧ lastAck.storersOn 1 = [] ∧ stSs (lastAck.status r0) = false) ∧
    (after (exec (.tlbiAck 1) lastAck)).tlbis = [] ∧
    ((after (exec (.tlbiAck 1) lastAck)).regs r0).pc = 0x1004 := by
  decide +kernel

/-- A SPEC.OPEN that a discard restarts. -/
def restarted (k : Nat) : State := (waiting true).setCtx 7 { (waiting true).ctx 7 with reopens := [(entryLevel ((waiting true).regs r0).landctl, 0x1000, k)] }

theorem test_meets_spec_again :
    (Issues (restarted 1) 0 (.specOpen 0 12 5) 0 r0 (restarted 1) ∧ Issues (restarted 2) 0 (.specOpen 0 12 5) 0 r0 (restarted 2)) ∧
    ((restarted 1).reopening r0 = 1 ∧ (restarted 2).reopening r0 = 2 ∧ stSth ((restarted 1).status r0) = false) ∧
    0 < (restarted 1).posAhead ((restarted 1).getW r0 12).payload :=
  ⟨issues_two (by decide +kernel), by decide +kernel⟩

theorem test_meets_spec_opens :
    Issues (waiting true) 0 (.specOpen 0 12 5) 0 r0 (waiting true) ∧
    ((waiting true).reopening r0 = 0 ∧ (waiting true).part.hasGallery = true ∧ (waiting true).compat 0 = false) ∧
    (((waiting true).galr 3).st = .free ∧ (waiting true).galOpen < 1024) :=
  ⟨issues_of (by decide +kernel), by decide +kernel⟩

/-- SCN 7 in the stairhead, with a POS ahead in w12. -/
def atTop : State :=
  (waiting true).setSlot 5 { (waiting true).slot 5 with regs := { ((waiting true).slot 5).regs with status := 0x182 } }

theorem test_meets_waitp_stairhead :
    Issues atTop 0 (.waitp 0 10 12) 0 r0 atTop ∧
    stSth (atTop.status r0) = true ∧
    0 < atTop.posAhead (atTop.getW r0 12).payload :=
  ⟨issues_of (by decide +kernel), by decide +kernel⟩

/-! Entries and returns, clause by clause. -/

/-- SCN 7 in a compatible hall. -/
def compatEntry : State := (core 0).setRf (Reg.hallState 0) 57 57 1

theorem test_meets_entry_compatible :
    Raises compatEntry r0 (mkTrap 0x14 0x1000 (raw 4)) ∧
    (stStair (compatEntry.status r0) = 0 ∧ compatEntry.compat 0 = true ∧ spOk ((compatEntry.regs r0).getW 31) (compatEntry.regs r0).slim.toNat = true) ∧
    compatEntry.framePas r0 (fld (compatEntry.vmode r0 0) 2 1) 0x7FC0 8 = .inl [0x7FC0, 0x7FC8, 0x7FD0, 0x7FD8, 0x7FE0, 0x7FE8, 0x7FF0, 0x7FF8] ∧
    ((compatEntry.take r0 (mkTrap 0x14 0x1000 (raw 4))).regs r0).pc = 0x280 :=
  ⟨⟨by decide +kernel, by decide +kernel, by decide +kernel, by decide +kernel, by decide +kernel⟩, by decide +kernel⟩

/-- SCN 7 with VMODE0.MODE 1 and the descriptor of cause 0x14, whose handler is at 0x9000, on the stack in use, or on stair 1's. -/
def entryDesc (own : Bool) : State :=
  let s := ((core 0).setSys 0 0x40 1).setSys 0 0x41 0x4000
  let s := if own then s else s.setSys 0 0x49 (setFld 0x20000 58 54 12)
  (s.setMemWord 0x4140 (raw (setFld (setBit (setBit 0x9000 47 true) 46 !own) 45 44 (if own then 0 else 1)))).setMemWord 0x4148 (raw 0)

theorem test_meets_entry_entryDesc_true :
    Raises (entryDesc true) r0 (mkTrap 0x14 0x1000 (raw 4)) ∧
    (bit ((entryDesc true).vmode r0 0) 0 = true ∧ (entryDesc true).compat 0 = false ∧ (entryDesc true).vbase r0 0 + 16 * 0x14 = 0x4140) ∧
    (match (entryDesc true).vectorWord r0 1 0x4140 with
      | (.inl w0, u) => (match u.vectorWord r0 1 0x4148 with
        | (.inl w1, _) => !descriptorBad 0 w0.payload w1.payload && decide (fld w0.payload 45 44 = 0) &&
            decide (bit w0.payload 46 = false)
        | _ => false)
      | _ => false) = true ∧
    (((entryDesc true).take r0 (mkTrap 0x14 0x1000 (raw 4))).regs r0).pc = 0x9000 :=
  ⟨⟨by decide +kernel, by decide +kernel, by decide +kernel, by decide +kernel, by decide +kernel⟩, by decide +kernel⟩

theorem test_meets_entry_entryDesc_false :
    Raises (entryDesc false) r0 (mkTrap 0x14 0x1000 (raw 4)) ∧
    (bit ((entryDesc false).vmode r0 0) 0 = true ∧ (entryDesc false).compat 0 = false ∧ (entryDesc false).vbase r0 0 + 16 * 0x14 = 0x4140) ∧
    (match (entryDesc false).vectorWord r0 1 0x4140 with
      | (.inl w0, u) => (match u.vectorWord r0 1 0x4148 with
        | (.inl w1, v) => !descriptorBad 0 w0.payload w1.payload && decide (fld w0.payload 45 44 = 1) &&
            decide (bit w0.payload 46 = true) &&
            decide (0 ≤ v.ssp r0 1) && spOk (fix (BitVec.ofInt 64 (v.ssp r0 1))) (v.sspBottom r0 1)
        | _ => false)
      | _ => false) = true ∧
    (((entryDesc false).take r0 (mkTrap 0x14 0x1000 (raw 4))).regs r0).pc = 0x9000 :=
  ⟨⟨by decide +kernel, by decide +kernel, by decide +kernel, by decide +kernel, by decide +kernel⟩, by decide +kernel⟩

/-- SCN 7 with landing L3 in use, or a bad SP, on a core with or without a stairhead. -/
def failing (l3 locked : Bool) : State :=
  let x := regsAt 0 [(31, if l3 then fix 0x8000 else fix 1)]
  let s := runWith { x with landctl := if l3 then 4 else 0 }
  if locked then (s.setReg (Reg.coreSthBase 0) 0x8000000000009000).setReg (Reg.coreSthSpInit 0) 0xA000 else s

theorem test_meets_stairhead_true_true :
    ((failing true true).specOf 7 = none ∧ ((failing true true).core 0).patched = false ∧ stSth ((failing true true).status r0) = false) ∧
    (failing true true).Faithful 0 ∧
    (lcL3 ((failing true true).regs r0).landctl = true ∧ lcUse ((failing true true).regs r0).landctl < 3) ∧
    bit ((failing true true).reg (Reg.coreSthBase 0)) 63 = true ∧
    ((((failing true true).take r0 (mkTrap 0x14 0x1000 (raw 4))).regs r0).pc = 0x9000 ∧ (((failing true true).take r0 (mkTrap 0x14 0x1000 (raw 4))).regs r0).getW 31 = fixN 0x9FC0) ∧
    ((failing true true).take r0 (mkTrap 0x14 0x1000 (raw 4))).rf (Reg.coreSthCause 0) 63 60 = 3 :=
  ⟨by decide +kernel, faithful_of (by decide +kernel), by decide +kernel⟩

theorem test_meets_stairhead_true_false :
    ((failing true false).specOf 7 = none ∧ ((failing true false).core 0).patched = false ∧ stSth ((failing true false).status r0) = false) ∧
    (failing true false).Faithful 0 ∧
    (lcL3 ((failing true false).regs r0).landctl = true ∧ lcUse ((failing true false).regs r0).landctl < 3) ∧
    bit ((failing true false).reg (Reg.coreSthBase 0)) 63 = false ∧
    (((failing true false).take r0 (mkTrap 0x14 0x1000 (raw 4))).core 0).halt = some 2 :=
  ⟨by decide +kernel, faithful_of (by decide +kernel), by decide +kernel⟩

theorem test_meets_stairhead_false_true :
    ((failing false true).specOf 7 = none ∧ ((failing false true).core 0).patched = false ∧ stSth ((failing false true).status r0) = false) ∧
    (failing false true).Faithful 0 ∧
    (lcL3 ((failing false true).regs r0).landctl = false ∧ lcUse ((failing false true).regs r0).landctl < 3) ∧
    bit ((failing false true).reg (Reg.coreSthBase 0)) 63 = true ∧
    (spOk (((failing false true).regs r0).getW 31) ((failing false true).regs r0).slim.toNat = false ∧ bit ((failing false true).vmode r0 0) 0 = false) ∧
    ((((failing false true).take r0 (mkTrap 0x14 0x1000 (raw 4))).regs r0).pc = 0x9000 ∧ (((failing false true).take r0 (mkTrap 0x14 0x1000 (raw 4))).regs r0).getW 31 = fixN 0x9FC0) ∧
    ((failing false true).take r0 (mkTrap 0x14 0x1000 (raw 4))).rf (Reg.coreSthCause 0) 63 60 = 2 :=
  ⟨by decide +kernel, faithful_of (by decide +kernel), by decide +kernel⟩

theorem test_meets_stairhead_false_false :
    ((failing false false).specOf 7 = none ∧ ((failing false false).core 0).patched = false ∧ stSth ((failing false false).status r0) = false) ∧
    (failing false false).Faithful 0 ∧
    (lcL3 ((failing false false).regs r0).landctl = false ∧ lcUse ((failing false false).regs r0).landctl < 3) ∧
    bit ((failing false false).reg (Reg.coreSthBase 0)) 63 = false ∧
    (spOk (((failing false false).regs r0).getW 31) ((failing false false).regs r0).slim.toNat = false ∧ bit ((failing false false).vmode r0 0) 0 = false) ∧
    (((failing false false).take r0 (mkTrap 0x14 0x1000 (raw 4))).core 0).halt = some 2 :=
  ⟨by decide +kernel, faithful_of (by decide +kernel), by decide +kernel⟩

/-- SCN 7 in the stairhead. -/
def inStairhead : State :=
  let s := ((failing true true).take r0 (mkTrap 0x14 0x1000 (raw 4)))
  (s.fetchParcel r0 (s.regs r0).pc).2

theorem test_meets_xret_stairhead :
    Issues inStairhead 0 (.xret 0) 0 r0 inStairhead ∧
    (inStairhead.landing r0 = .ls ∧ inStairhead.specOf 7 = none ∧ (inStairhead.core 0).lsLf = 0x9FC0) ∧
    ((inStairhead.ctx 7).fillAgain = false ∧ (inStairhead.ctx 7).busy = [] ∧ stSs (inStairhead.status r0) = false) ∧
    (((after (exec (.xret 0) inStairhead)).regs r0).pc = 0x1000 ∧ (after (exec (.xret 0) inStairhead)).getW r0 31 = fix 0x8000) ∧
    ((inStairhead.take r0 (mkTrap 0x14 0x1000 (raw 4))).core 0).halt = some 1 :=
  ⟨issues_of (by decide +kernel), by decide +kernel⟩

/-- The handler with a landing still to be filled; and with a frame whose word 0 is no FIX. -/
def toFill : State := inHandler.setSlot 5 { inHandler.slot 5 with regs := { (inHandler.slot 5).regs with landctl := (inHandler.slot 5).regs.landctl ||| 0x0100 } }

theorem test_meets_xret_fill :
    Issues toFill 0 (.xret 0) 0 r0 toFill ∧
    (toFill.landing r0 = .own 0 ∧ lcDepth (toFill.regs r0).landctl ≠ 0) :=
  ⟨issues_of (by decide +kernel), by decide +kernel⟩

/-- The frame with a word 0 that is no FIX. -/
def badFrame : State := inHandler.setMemWord (((inHandler.regs r0).getLf 0).toNat) nil

theorem test_meets_xret_bad :
    Issues badFrame 0 (.xret 0) 0 r0 badFrame ∧
    badFrame.landing r0 = .own 0 ∧
    (∃ x u, badFrame.loadAt r0 1 (((badFrame.regs r0).getLf 0).toNat + 0) false true = .ok x u ∧ decide (x.tag ≠ 0) = true) ∧
    ((after (exec (.xret 0) badFrame)).regs r0).pc = 0xC0 :=
  ⟨issues_of (by decide +kernel), by decide +kernel, ok_of (by decide +kernel), by decide +kernel⟩

theorem test_meets_alert_entry :
    Enters alerted r0 (mkTrap 0x24 0 (look Word.fix0 (alerted.ctx 7).alertWord 4)) [0x7FC0, 0x7FC8, 0x7FD0, 0x7FD8, 0x7FE0, 0x7FE8, 0x7FF0, 0x7FF8] 0x7FC0 ∧
    (((after (exec (.nop 0) alerted)).regs r0).pc = 0x900 ∧ ((after (exec (.alertDelivery 0) alerted)).ctx 7).pend = 0) :=
  ⟨enters_of (by decide +kernel), by decide +kernel⟩

/-! Context commands and register writes, by SCN 7 of hall 0. -/

/-- SCN 9 of hall 0 in a state, in slot 6. -/
def scn9 (st resume : CtxState) (w : Option Wait) : State :=
  let s := (core 2).setSlot 6 { Slot.reset with scn := if st = .spilled then none else some 9, regs := regsAt 0 words }
  s.setCtx 9 { SwCtx.reset with st := st, resume := resume, hcn := 6, hall := 0, wait := w, homeLcn := 0xFF, desc := 0x10000 }

theorem test_fill :
    Admits (scn9 .ready .ready none) (.ctx 7 2) Reg.evrCtxCmd ∧
    (scn9 .spilled .ready none).mayCommand (.ctx 7 2) .fill 9 = true ∧
    ((scn9 .spilled .ready none).fillSlot 9 none).isSome = true ∧
    ((after (exec (.fill (.ctx 7 2) 9 0xFF) (scn9 .spilled .ready none))).ctx 9).st ≠ .spilled ∧
    ((after (exec (.fill (.ctx 7 2) 9 0xFF) (scn9 .ready .ready none))).ctx 9).result = 2 :=
  ⟨admits_of (by decide +kernel), by decide +kernel⟩

theorem test_spill :
    (scn9 .parked .ready none).mayCommand (.ctx 7 2) .spill 9 = true ∧
    (scn9 .parked .ready none).specOf 9 = none ∧
    (((after (exec (.spill (.ctx 7 2) 9) (scn9 .parked .ready none))).ctx 9).st = .spilled ∧ ((after (exec (.spill (.ctx 7 2) 9) (scn9 .parked .ready none))).ctx 9).resume = .parked) ∧
    ((after (exec (.spill (.ctx 7 2) 11) (scn9 .parked .ready none))).ctx 11).result = 5 := by
  decide +kernel

theorem test_park :
    (scn9 .waiting .ready (some (.timer 5))).mayCommand (.ctx 7 2) .park 9 = true ∧
    ((after (exec (.park (.ctx 7 2) 9) (scn9 .waiting .ready (some (.timer 5))))).ctx 9).st = .parked ∧
    ((after (exec (.park (.ctx 7 2) 9) (scn9 .ready .ready none))).ctx 9).st = .parked := by
  decide +kernel

theorem test_resume :
    (scn9 .parked .ready none).mayCommand (.ctx 7 2) .resume 9 = true ∧
    ((after (exec (.resume (.ctx 7 2) 9) (scn9 .parked .ready none))).ctx 9).st = .ready ∧
    (((scn9 .ready .ready none).setCtx 9 { (scn9 .ready .ready none).ctx 9 with st := .running }).ctx 9).st = .running := by
  decide +kernel

theorem test_setprio :
    (scn9 .ready .ready none).mayCommand (.ctx 7 2) .setprio 9 = true ∧
    ((after (exec (.setprio (.ctx 7 2) 9 7) (scn9 .ready .ready none))).ctx 9).prio = 7 := by
  decide +kernel

theorem test_post :
    (scn9 .ready .ready none).mayCommand (.ctx 7 2) .post 9 = true ∧
    ((after (exec (.post (.ctx 7 2) 9 0x80000001) (scn9 .ready .ready none))).slot 6).regs.msgp = 0x80000001 := by
  decide +kernel

theorem test_cancel_timer :
    (scn9 .waiting .ready (some (.timer 5))).mayCommand (.ctx 7 2) .cancel 9 = true ∧
    ((scn9 .waiting .ready (some (.timer 5))).ctx 9).wait = some (.timer 5) ∧
    stSs ((scn9 .waiting .ready (some (.timer 5))).slot 6).regs.status = false ∧
    (((after (exec (.cancel (.ctx 7 2) 9) (scn9 .waiting .ready (some (.timer 5))))).ctx 9).st = .ready ∧ ((after (exec (.cancel (.ctx 7 2) 9) (scn9 .waiting .ready (some (.timer 5))))).ctx 9).wait = none ∧ ((after (exec (.cancel (.ctx 7 2) 9) (scn9 .waiting .ready (some (.timer 5))))).slot 6).regs.pc = 0x1004) := by
  decide +kernel

theorem test_cancel_doorbell :
    (scn9 .waiting .ready (some (.doorbell 0))).mayCommand (.ctx 7 2) .cancel 9 = true ∧
    ((scn9 .waiting .ready (some (.doorbell 0))).ctx 9).wait = some (.doorbell 0) ∧
    stSs ((scn9 .waiting .ready (some (.doorbell 0))).slot 6).regs.status = false ∧
    (((after (exec (.cancel (.ctx 7 2) 9) (scn9 .waiting .ready (some (.doorbell 0))))).ctx 9).st = .ready ∧ ((after (exec (.cancel (.ctx 7 2) 9) (scn9 .waiting .ready (some (.doorbell 0))))).ctx 9).wait = none ∧ ((after (exec (.cancel (.ctx 7 2) 9) (scn9 .waiting .ready (some (.doorbell 0))))).slot 6).regs.pc = 0x1004) := by
  decide +kernel

theorem test_cancel_message :
    (scn9 .waiting .ready (some (.message 1))).mayCommand (.ctx 7 2) .cancel 9 = true ∧
    ((scn9 .waiting .ready (some (.message 1))).ctx 9).wait = some (.message 1) ∧
    stSs ((scn9 .waiting .ready (some (.message 1))).slot 6).regs.status = false ∧
    (((after (exec (.cancel (.ctx 7 2) 9) (scn9 .waiting .ready (some (.message 1))))).ctx 9).st = .ready ∧ ((after (exec (.cancel (.ctx 7 2) 9) (scn9 .waiting .ready (some (.message 1))))).ctx 9).wait = none ∧ ((after (exec (.cancel (.ctx 7 2) 9) (scn9 .waiting .ready (some (.message 1))))).slot 6).regs.pc = 0x1004) := by
  decide +kernel

theorem test_cancel_transfer :
    (scn9 .waiting .ready (some (.transfer 0 1))).mayCommand (.ctx 7 2) .cancel 9 = true ∧
    ((scn9 .waiting .ready (some (.transfer 0 1))).ctx 9).wait = some (.transfer 0 1) ∧
    stSs ((scn9 .waiting .ready (some (.transfer 0 1))).slot 6).regs.status = false ∧
    (((after (exec (.cancel (.ctx 7 2) 9) (scn9 .waiting .ready (some (.transfer 0 1))))).ctx 9).st = .ready ∧ ((after (exec (.cancel (.ctx 7 2) 9) (scn9 .waiting .ready (some (.transfer 0 1))))).ctx 9).wait = none ∧ ((after (exec (.cancel (.ctx 7 2) 9) (scn9 .waiting .ready (some (.transfer 0 1))))).slot 6).regs.pc = 0x1004) := by
  decide +kernel

theorem test_cancel_position :
    (scn9 .waiting .ready (some (.position 0 3))).mayCommand (.ctx 7 2) .cancel 9 = true ∧
    ((scn9 .waiting .ready (some (.position 0 3))).ctx 9).wait = some (.position 0 3) ∧
    stSs ((scn9 .waiting .ready (some (.position 0 3))).slot 6).regs.status = false ∧
    (((after (exec (.cancel (.ctx 7 2) 9) (scn9 .waiting .ready (some (.position 0 3))))).ctx 9).st = .ready ∧ ((after (exec (.cancel (.ctx 7 2) 9) (scn9 .waiting .ready (some (.position 0 3))))).ctx 9).wait = none ∧ ((after (exec (.cancel (.ctx 7 2) 9) (scn9 .waiting .ready (some (.position 0 3))))).slot 6).regs.pc = 0x1004) ∧
    ((after (exec (.cancel (.ctx 7 2) 9) (scn9 .waiting .ready (some (.position 0 3))))).slot 6).regs.getW 3 = unbound := by
  decide +kernel

theorem test_cancel_outcome :
    (scn9 .waiting .ready (some (.outcome true))).mayCommand (.ctx 7 2) .cancel 9 = true ∧
    ((scn9 .waiting .ready (some (.outcome true))).ctx 9).wait = some (.outcome true) ∧
    stSs ((scn9 .waiting .ready (some (.outcome true))).slot 6).regs.status = false ∧
    (((after (exec (.cancel (.ctx 7 2) 9) (scn9 .waiting .ready (some (.outcome true))))).ctx 9).result = 2 ∧ ((after (exec (.cancel (.ctx 7 2) 9) (scn9 .waiting .ready (some (.outcome true))))).ctx 9).st = .waiting) := by
  decide +kernel

theorem test_cancel_alloc :
    (scn9 .waiting .ready (some (.alloc (.large 3 nil)))).mayCommand (.ctx 7 2) .cancel 9 = true ∧
    ((scn9 .waiting .ready (some (.alloc (.large 3 nil)))).ctx 9).wait = some (.alloc (.large 3 nil)) ∧
    stSs ((scn9 .waiting .ready (some (.alloc (.large 3 nil)))).slot 6).regs.status = false ∧
    (((after (exec (.cancel (.ctx 7 2) 9) (scn9 .waiting .ready (some (.alloc (.large 3 nil)))))).ctx 9).result = 2 ∧ ((after (exec (.cancel (.ctx 7 2) 9) (scn9 .waiting .ready (some (.alloc (.large 3 nil)))))).ctx 9).st = .waiting) := by
  decide +kernel

theorem test_cancel_spilled :
    (scn9 .spilled .waiting (some (.timer 5))).mayCommand (.ctx 7 2) .cancel 9 = true ∧
    (((scn9 .spilled .waiting (some (.timer 5))).ctx 9).st = .spilled ∧ ((scn9 .spilled .waiting (some (.timer 5))).ctx 9).resume = .waiting) ∧
    ((after (exec (.cancel (.ctx 7 2) 9) (scn9 .ready .ready none))).ctx 9).result = 2 := by
  decide +kernel

/-- A good descriptor of hall 0 for SCN 9, and its CTXTAB entry. -/
def described : State :=
  let s := (core 2).setRf Reg.evrCtxtab 39 19 1
  let s := s.setMemWord (0x80000 + 72) (raw 0x8000000000010000)
  let s := s.setMemWord 0x10000 ⟨0x30, 0x20000000005F0000⟩
  s.setMemWord (descSlot 0x10000 0) (fix 0xFF15)

theorem test_create :
    described.mayCommand (.ctx 7 2) .create 9 = true ∧
    Admits described (.ctx 7 2) Reg.evrCtxCmd ∧
    (described.ctx 9).st = .none ∧
    bit (described.agentLoad (2 ^ 19 * described.rf Reg.evrCtxtab 39 19 + 72)).1.payload 63 = true ∧
    described.hallCreated 0 = true ∧
    createFault 64 (described.memWord 0x10000) (described.memWord (descSlot 0x10000 0)) = none ∧
    (((after (exec (.create (.ctx 7 2) 9) described)).ctx 9).st = .spilled ∧ ((after (exec (.create (.ctx 7 2) 9) described)).ctx 9).prio = 5) ∧
    ((after (exec (.create (.ctx 7 2) 9) (scn9 .ready .ready none))).ctx 9).result = 2 :=
  ⟨by decide +kernel, admits_of (by decide +kernel), by decide +kernel⟩

theorem test_retire :
    (scn9 .spilled .parked none).mayCommand (.ctx 7 2) .retire 9 = true ∧
    ((after (exec (.retire (.ctx 7 2) 9) (scn9 .spilled .parked none))).ctx 9).st = .none ∧
    ((after (exec (.retire (.ctx 7 2) 9) (scn9 .spilled .ready none))).ctx 9).result = 2 := by
  decide +kernel

theorem test_context_refused :
    Admits (scn9 .ready .ready none) (.ctx 12 0) Reg.evrCtxCmd ∧
    (scn9 .ready .ready none).mayCommand (.ctx 12 0) .fill 9 = false ∧
    (scn9 .ready .ready none).mayCommand (.ctx 12 0) .retire 9 = false :=
  ⟨admits_of (by decide +kernel), by decide +kernel⟩

theorem test_field_write :
    regDesc Reg.evrCtxtab ≠ none ∧
    (RegDesc.mk "x" 0 8 1 8 1 0 .device .fab [⟨63, 32, .rw, 0, [(1, 5)]⟩, ⟨7, 0, .w1c, 0, []⟩]).write 0x1000000FF full64 0x600000001 = ⟨0x1000000FE, 0, true⟩ := by
  decide +kernel

theorem test_register_write :
    Admits State.reset .pf Reg.evrCtxtab ∧
    (State.reset.privileged .pf = true ∧
      State.reset.privileged (.ctx 3 0) = false) ∧
    Admits State.reset (.ctx 3 0) Reg.evrCtxtab ∧
    (after (exec (.registerWrite .pf Reg.evrCtxtab full64 0x80000) State.reset)).reg Reg.evrCtxtab = 0x80000 ∧
    regDesc 0x500 = none ∧
    (after (exec (.registerWrite .pf 0x500 full64 0) State.reset)).rf Reg.devRsvWrites 31 0 = 1 :=
  ⟨admits_of (by decide +kernel), by decide +kernel, admits_of (by decide +kernel), by decide +kernel⟩

theorem test_absent_unit :
    ({ State.reset with part := { State.reset.part with variant := .nrm8616 } } : State).absentUnit Reg.cascJoin = true ∧
    (({ State.reset with part := { State.reset.part with variant := .nrm8616 } } : State).readReg .pf Reg.cascJoin).1 = 0 ∧
    (after (exec (.registerWrite .pf Reg.cascJoin full64 1) { State.reset with part := { State.reset.part with variant := .nrm8616 } })).rf Reg.devRsvWrites 55 32 = Reg.cascJoin := by
  decide +kernel

theorem test_bins :
    State.reset.part.nbins = 8192 ∧
    (State.reset.binOf 0x3FFFFFFFF) = State.reset.bin 8191 ∧
    ({ State.reset with part := { State.reset.part with variant := .nrm8616 } } : State).absentUnit (Reg.binEntry 2048) = true ∧
    ({ State.reset with part := { State.reset.part with variant := .nrm8616 } } : State).absentUnit (Reg.binEntry 2047) = false := by
  decide +kernel

theorem test_alert_route :
    Admits State.reset .pf (Reg.evrAlertRoute 63) ∧
    State.reset.kernelOrPf .pf = true ∧
    State.reset.resetting 63 = false ∧
    (after (exec (.alertRouteWrite .pf 63 0x8000000000000009) State.reset)).rf (Reg.evrAlertRoute 63) 15 0 = 9 ∧
    look 0 (after (exec (.watchdogKick .pf 3) (watched 7))).wdogFrom 3 = 7 :=
  ⟨admits_of (by decide +kernel), by decide +kernel⟩

/-- A posted write of SCN 7 waits. -/
def posted : State := { core 1 with posted := [⟨.ctx 7 1, Reg.cascJoin, full64, 5, 5, 0⟩] }

theorem test_access_timeout :
    (State.reset.abandoned .pf Reg.cascJoin false).2.rf Reg.devXstat 63 63 = 1 ∧
    ((after (exec (.accessTimeout .pf Reg.cascJoin false 0) State.reset))).out.head? = some (Out.completion .pf 0 full64) ∧
    ((core 1).abandoned (.ctx 7 1) 0x20 false).2.runOf 7 = some r0 ∧
    posted.posted.find? (fun x => x.who.same (.ctx 7 1) && x.off = Reg.cascJoin) = some ⟨.ctx 7 1, Reg.cascJoin, full64, 5, 5, 0⟩ ∧
    (after (exec (.accessTimeout (.ctx 7 1) Reg.cascJoin true 0) posted)).posted = [] := by
  decide +kernel

/-- An open patch gate, with a staging buffer. -/
def gateOpen (staging : List Byte) : State :=
  { core 2 with part := { (core 2).part with patchWe := true }, patch := { (core 2).patch with unlocked := true, staging := staging } }

theorem test_patch_gate :
    Admits (gateOpen []) (.ctx 7 2) Reg.devPatchCtrl ∧
    Admits (gateOpen []) (.ctx 7 2) Reg.devPatchData ∧
    (gateOpen []).patchGate = true ∧
    (core 2).patchGate = false ∧
    (imgFault 0 []).isSome = true ∧
    (after (exec (.patchData (.ctx 7 2) 0x0102030405060708) (gateOpen []))).patch.staging.length = 8 ∧
    (after (exec (.patchData (.ctx 7 2) 0x0102030405060708) (gateOpen []))).patch.staging.head? = some 8 ∧
    (after (exec (.patchData (.ctx 7 2) 0) (core 2))).rf Reg.devPatchStat 28 24 = 1 ∧
    (after (exec (.patchApply (.ctx 7 2)) (gateOpen []))).rf Reg.devPatchStat 28 24 = 11 ∧
    (after (exec (.patchBegin (.ctx 7 2)) (gateOpen [1]))).patch.staging = [] ∧
    (after (exec (.patchCheck (.ctx 7 2)) (gateOpen []))).rf Reg.devPatchStat 30 30 = 0 :=
  ⟨admits_of (by decide +kernel), admits_of (by decide +kernel), by decide +kernel⟩

/-- The gate open and the image checked. -/
def checked : State := (gateOpen []).setRf Reg.devPatchStat 30 30 1

theorem test_patch_apply :
    checked.rf Reg.devPatchStat 30 30 = 1 ∧
    checked.part.pcns.head? = some 0 ∧
    checked.patchAtOnce 0 = false ∧
    (after (exec (.patchApply (.ctx 7 2)) checked)).patch.left.length = 72 := by
  decide +kernel

/-- A switch under way to cores 1 and 2. -/
def switching : State := { core 2 with patch := { (core 2).patch with left := [1, 2] } }

theorem test_patch_switch :
    (switching.patchAtOnce 2 = false ∧ switching.running 1 = none) ∧
    (after (exec (.patchCoreSwitch 1) switching)).patch.left = [2] := by
  decide +kernel

/-- Core 0 with its Crib on and EN written. -/
def crib (on : Bool) (en : Nat) : State :=
  ((core 0).setCore 0 { (core 0).core 0 with cribOn := on }).setRf (Reg.cribCtrl 0) 0 0 en

theorem test_crib_enable :
    (crib true 0).part.hasPcn 0 = true ∧
    ((crib true 0).core 0).dirtySectors = [] ∧
    (crib true 0).specOnCore 0 = false ∧
    ((after (exec (.cribDisable 0) (crib true 0))).core 0).cribOn = false ∧
    ((after (exec (.cribEnable 0) (crib false 1))).core 0).cribOn = true := by
  decide +kernel

/-- The same with a speculation of SCN 7 open. -/
def cribSpec : State := { crib true 0 with gal := [(0, { GalRec.reset with st := .opened, scn := 7 })] }

theorem test_crib_refused :
    ((cribSpec.ctx 7).st = .running ∧ cribSpec.pcnOf (cribSpec.ctx 7).hcn = 0) ∧
    cribSpec.specOnCore 0 = true ∧
    ((after (exec (.cribDisable 0) cribSpec)).core 0).cribOn = true ∧
    (after (exec (.cribDisable 0) cribSpec)).rf (Reg.cribStat 0) 62 62 = 1 := by
  decide +kernel

/-- A range of one sector for core 0. -/
def ranged : State := (core 0).setRf (Reg.cribMaintEnd 0) 39 6 1

theorem test_maint :
    Admits ranged .pf (Reg.cribMaintCtrl 0) ∧
    (ranged.core 0).maint = none ∧
    ranged.rf (Reg.cribMaintStart 0) 39 6 < ranged.rf (Reg.cribMaintEnd 0) 39 6 ∧
    ((after (exec (.maintGo .pf 0 1 false) ranged)).core 0).maint.isSome = true ∧
    ((after (exec (.maintDone 0) (after (exec (.maintGo .pf 0 1 false) ranged)))).core 0).maint = none :=
  ⟨admits_of (by decide +kernel), by decide +kernel⟩

/-- Scrubbing on, at a sector; or an error armed. -/
def scrubbing (pos : Nat) : State := { State.reset.setRf Reg.devMemScrub 17 17 1 with scrubPos := pos }

theorem test_scrub :
    (1 + 1) * 64 < (scrubbing 1).part.memSize ∧
    (scrubbing 1).rf Reg.devMemScrub 17 17 = 1 ∧
    (after (exec (.scrubRead) (scrubbing 1))).scrubPos = 2 ∧
    (after (exec (.scrubRead) (scrubbing ((scrubbing 1).part.memSize / 64 - 1)))).scrubPos = 0 := by
  decide +kernel

/-! The Granary and the Gleaner. -/

/-- Quotas for hall 3, whose cycle may run. -/
def granary : State :=
  let s := (core 2).setRf (Reg.hallState 3) 63 61 2
  ((s.setRf (Reg.glHall 3) 55 42 8).setRf (Reg.glHall 3) 63 56 1)

theorem test_granary :
    Admits granary (.ctx 7 2) Reg.glCmd ∧
    granary.isCtxOf (.ctx 7 2) 0 = true ∧
    granary.hallCreated 3 = true ∧
    granary.allFree 8191 1 = true ∧
    granary.reserveBins + 1 ≤ granary.freeCount ∧
    granary.binsUsed 3 + 1 ≤ granary.binQuota 3 ∧
    ((after (exec (.assignRoot (.ctx 7 2) 3 1 false 8191) granary)).bin 8191).kind = .root ∧
    ((after (exec (.assignPlain (.ctx 7 2) 3 1 false 100) granary)).bin 100).kind = .plain ∧
    (after (exec (.assignRoot (.ctx 7 2) 5 1 false 100) granary)).rf Reg.glCmdStat 59 56 = 6 ∧
    granary.hallCreated 5 = false :=
  ⟨admits_of (by decide +kernel), by decide +kernel⟩

/-- Bin 100 given to hall 3. -/
def given : State := after (exec (.assignRoot (.ctx 7 2) 3 1 false 100) granary)

/-- Hall 3 compatible with a bin of it at 100; and in a cycle. -/
def compatible : State := given.setRf (Reg.hallState 3) 57 57 1

theorem test_release :
    Admits compatible (.ctx 7 2) Reg.glCmd ∧
    ((compatible.bin 100).hall = 3 ∧ (compatible.bin 100).kind = .root) ∧
    compatible.mayCycle 3 = false ∧
    ((after (exec (.release (.ctx 7 2) 3 1 100) compatible)).bin 100).kind = .free :=
  ⟨admits_of (by decide +kernel), by decide +kernel⟩

theorem test_cycle :
    Admits given (.ctx 7 2) Reg.glCmd ∧
    (given.mayCycle 3 = true ∧ given.resetting 3 = false) ∧
    (2 ≤ given.freeCount ∧ 2 ≤ given.reserveBins ∧ 2 ≤ given.freeBins.length) :=
  ⟨admits_of (by decide +kernel), by decide +kernel⟩

/-- Hall 3 in a phase with acknowledgements of ARM and of the flip. -/
def phased (ph : Phase) (a f : List Nat) : State :=
  granary.setGl 3 { GlHall.reset with phase := ph, armAcks := a, flipAcks := f, marking := true }

theorem test_arm_ack :
    (((phased .arm [] []).glh 3).phase = .arm ∧ (phased .arm [] []).part.hasPcn 5 = true) ∧
    (((after (exec (.armAck 5 3) (phased .arm [] []))).glh 3).phase = .arm ∧ ((after (exec (.armAck 5 3) (phased .arm [] []))).glh 3).armAcks = [5]) ∧
    ((after (exec (.armAck 5 3) (phased .arm [] []))).core 5).armed = [3] ∧
    ((after (exec (.armAck 0 3) (phased .arm (State.reset.part.pcns.drop 1) []))).glh 3).phase = .flip := by
  decide +kernel

theorem test_flip :
    (((phased .flip [] [0, 1]).glh 3).phase = .flip ∧ (phased .flip [] [0, 1]).part.hasPcn 2 = true ∧ 2 ∉ ((phased .flip [] [0, 1]).glh 3).flipAcks) ∧
    (3 ∉ ((phased .flip [] [0, 1]).core 2).flipped ∧ (phased .flip [] [0, 1]).slotsOf 2 3 = []) ∧
    (∀ k, k < 2 % 9 → 2 / 9 * 9 + k ∈ ((phased .flip [] [0, 1]).glh 3).flipAcks) ∧
    (phased .flip [] [0, 1]).part.pcns.all (2 :: ((phased .flip [] [0, 1]).glh 3).flipAcks).contains = false ∧
    ((after (exec (.flip 2 3) (phased .flip [] [0, 1]))).glh 3).flipAcks = [2, 0, 1] ∧
    3 ∈ ((after (exec (.flip 2 3) (phased .flip [] [0, 1]))).core 2).flipped := by
  decide +kernel

theorem test_flip_last :
    (((phased .flip [] ((List.range 72).filter (· ≠ 71))).glh 3).phase = .flip ∧ (phased .flip [] ((List.range 72).filter (· ≠ 71))).part.hasPcn 71 = true) ∧
    (phased .flip [] ((List.range 72).filter (· ≠ 71))).part.pcns.all (71 :: ((phased .flip [] ((List.range 72).filter (· ≠ 71))).glh 3).flipAcks).contains = true ∧
    (((after (exec (.flip 71 3) (phased .flip [] ((List.range 72).filter (· ≠ 71))))).glh 3).phase = .trace ∧ ((after (exec (.flip 71 3) (phased .flip [] ((List.range 72).filter (· ≠ 71))))).glh 3).goodY = !((phased .flip [] ((List.range 72).filter (· ≠ 71))).glh 3).goodY) := by
  decide +kernel

/-- Hall 3 tracing, with a record and words of its ROOT bin 100. -/
def tracing (snap : List Word) (queue : List (Nat × BitVec 6)) (root : Option Word) : State :=
  let s := ((given.setRf (Reg.glHall 3) 41 34 0).setRf (Reg.glHall 3) 33 27 0).setGl 3 { GlHall.reset with phase := .trace, marking := true, full := false, snapshot := snap, queue := queue }
  match root with
  | none => s
  | some w => s.setMemWord (binSize * 100) w

theorem test_trace_root :
    ((tracing [] [] (some ⟨0x91, 0x100C800040⟩)).glh 3).phase = .trace ∧
    (tracing [] [] (some ⟨0x91, 0x100C800040⟩)).rootSlot 3 = some (binSize * 100) := by
  decide +kernel

theorem test_trace_snapshot :
    ((tracing [fix 5] [] none).rootSlot 3 = none ∧ (tracing [fix 5] [] none).isHeap 3 (fix 5) = false) ∧
    ((tracing [fix 5] [] none).glh 3).snapshot = [fix 5] ∧
    ((after (exec (.gleanerTrace 3) (tracing [fix 5] [] none))).glh 3).snapshot = [] := by
  decide +kernel

theorem test_trace_queue :
    ((tracing [] [(0x3000, 0x11)] none).rootSlot 3 = none ∧ (tracing [] [(0x3000, 0x11)] none).galRoot 3 = none) ∧
    ((tracing [] [(0x3000, 0x11)] none).glh 3).queue = [(0x3000, 0x11)] ∧
    ((after (exec (.gleanerTrace 3) (tracing [] [(0x3000, 0x11)] none))).glh 3).queue = [] := by
  decide +kernel

theorem test_finish :
    (tracing [] [] none).traceDone 3 = true ∧
    (tracing [] [] none).binsOf 3 (fun b => b.state = .fromSet) = [] ∧
    (((tracing [] [] none).glh 3).full = false ∧ ((tracing [] [] none).glh 3).held = none) ∧
    ((tracing [] [] none).rf (Reg.glHall 3) 41 34 = 0 ∧ (tracing [] [] none).rf (Reg.glHall 3) 33 27 = 0) ∧
    ((after (exec (.finish 3) (tracing [] [] none))).glh 3).phase = .idle ∧
    given.traceDone 3 = false := by
  decide +kernel

/-! The same rules, clause by clause. -/

theorem test_meets_fill :
    Fillable (scn9 .spilled .ready none) 9 0 ∧
    (scn9 .spilled .ready none).mayCommand (.ctx 7 2) .fill 9 = true ∧
    (scn9 .spilled .ready none).fillSlot 9 none = some 0 ∧
    (scn9 .spilled .ready none).fillSlot 9 (some 200) = none ∧
    ((after (exec (.fill (.ctx 7 2) 9 200) (scn9 .spilled .ready none))).ctx 9).result = 3 ∧
    (((after (exec (.fill (.ctx 7 2) 9 0xFF) (scn9 .spilled .ready none))).ctx 9).hcn, ((after (exec (.fill (.ctx 7 2) 9 0xFF) (scn9 .spilled .ready none))).ctx 9).result) = (0, 0) :=
  ⟨⟨by decide +kernel, by decide +kernel, faithful_of (by decide +kernel), by decide +kernel, Or.inr (fun k _ u =>
    (by decide +kernel : ∀ k, k < 87 → ((scn9 .spilled .ready none).memWord (descSlot ((scn9 .spilled .ready none).ctx 9).desc k)).isPtr = false) k (by omega))⟩, by decide +kernel⟩

theorem test_meets_spill :
    (scn9 .parked .ready none).Faithful 0 ∧
    (((scn9 .parked .ready none).core ((scn9 .parked .ready none).pcnOf 6)).patched = false ∧ (scn9 .parked .ready none).compat 0 = false) ∧
    ((List.range 87).all (fun k => !(((scn9 .parked .ready none).slot 6).regs.selWord (slotSel k)).isPtr || k = 0 || decide (k = 5 ∨ k = 8 ∨ k = 9)) = true) :=
  ⟨faithful_of (by decide +kernel), by decide +kernel⟩

/-- SCN 9 Parked with plain registers, two groups of them dirty. -/
def plain9 : State :=
  (scn9 .parked .ready none).setSlot 6 { Slot.reset with scn := some 9, dirty := 0x9, regs := regsAt 0 [(1, fix 5)] }

theorem test_meets_spill_plain :
    plain9.mayCommand (.ctx 7 2) .spill 9 = true ∧
    plain9.Faithful 0 ∧
    (∀ k, 1 ≤ k → k ≤ 86 → ((plain9.slot 6).regs.selWord (slotSel k)).isPtr = false) ∧
    ((after (exec (.spill (.ctx 7 2) 9) plain9)).memWord (descSlot 0x10000 2), (after (exec (.spill (.ctx 7 2) 9) plain9)).memWord (descSlot 0x10000 0)) = (fix 5, fix 0xFF10) :=
  ⟨by decide +kernel, faithful_of (by decide +kernel), fun k _ u =>
    (by decide +kernel : ∀ k, k < 87 → ((plain9.slot 6).regs.selWord (slotSel k)).isPtr = false) k (by omega), by decide +kernel⟩

/-- SCN 9 running on core 1. -/
def runs9 : State :=
  let s := (((core 2).setRf (Reg.hallShare 0) 63 48 0).setSlot 70 { Slot.reset with scn := some 9, regs := regsAt 0 words }).setCore 1 { Core.reset with run := some 70, cribOn := false }
  s.setCtx 9 { SwCtx.reset with st := .running, hcn := 70, hall := 0 }

theorem test_meets_park_running :
    runs9.mayCommand (.ctx 7 2) .park 9 = true ∧
    (runs9.running 1 = some ⟨1, 70, 9, 0⟩ ∧ runs9.pcnOf 70 = 1 ∧ stSth (runs9.slot 70).regs.status = false) ∧
    (((after (exec (.park (.ctx 7 2) 9) runs9)).ctx 9).st = .parked ∧ ((after (exec (.park (.ctx 7 2) 9) runs9)).core 1).run = none) := by
  decide +kernel

theorem test_meets_resume_spilled :
    (scn9 .spilled .parked none).mayCommand (.ctx 7 2) .resume 9 = true ∧
    (scn9 .spilled .parked none).NoErrors ∧
    (after (exec (.resume (.ctx 7 2) 9) (scn9 .spilled .parked none))).memWord (descSlot 0x10000 0) = fix 0xFF20 ∧
    (after (exec (.setprio (.ctx 7 2) 9 7) (scn9 .spilled .parked none))).memWord (descSlot 0x10000 0) = fix 0xFF17 :=
  ⟨by decide +kernel, by unfold State.NoErrors; decide +kernel, by decide +kernel⟩

theorem test_meets_post_wakes :
    (scn9 .waiting .ready (some (.message 6))).mayCommand (.ctx 7 2) .post 9 = true ∧
    Waits (scn9 .waiting .ready (some (.message 6))) 9 (.message 6) ∧
    (((after (exec (.post (.ctx 7 2) 9 3) (scn9 .waiting .ready (some (.message 6))))).slot 6).regs.wait = 0x3000000000000002 ∧ ((after (exec (.post (.ctx 7 2) 9 3) (scn9 .waiting .ready (some (.message 6))))).slot 6).regs.msgp = 1) :=
  ⟨by decide +kernel, ⟨by decide +kernel, by decide +kernel, by decide +kernel⟩, by decide +kernel⟩

theorem test_meets_cancel_spilled :
    (scn9 .spilled .waiting (some (.timer 5))).mayCommand (.ctx 7 2) .cancel 9 = true ∧
    (scn9 .spilled .waiting (some (.timer 5))).NoErrors ∧
    (((scn9 .spilled .waiting (some (.timer 5))).memWord (descSlot 0x10000 33)).type ≠ 0x32 ∧ stSs ((scn9 .spilled .waiting (some (.timer 5))).memWord (descSlot 0x10000 34)).payload = false) ∧
    (((after (exec (.cancel (.ctx 7 2) 9) (scn9 .spilled .waiting (some (.timer 5))))).ctx 9).st = .spilled ∧ ((after (exec (.cancel (.ctx 7 2) 9) (scn9 .spilled .waiting (some (.timer 5))))).ctx 9).resume = .ready) ∧
    ((after (exec (.cancel (.ctx 7 2) 9) (scn9 .spilled .waiting (some (.timer 5))))).memWord (descSlot 0x10000 41) = fixN 0 ∧ (after (exec (.cancel (.ctx 7 2) 9) (scn9 .spilled .waiting (some (.timer 5))))).memWord (descSlot 0x10000 33) = fix 4) :=
  ⟨by decide +kernel, by unfold State.NoErrors; decide +kernel, by decide +kernel⟩

/-- SCN 9 in a speculation. -/
def spec9 : State := { scn9 .ready .ready none with gal := [(0, { GalRec.reset with st := .opened, scn := 9 })] }

theorem test_meets_deferred :
    spec9.mayCommand (.ctx 7 2) .spill 9 = true ∧
    spec9.mayCommand (.ctx 7 2) .park 9 = true ∧
    spec9.specOf 9 ≠ none ∧
    (((after (exec (.park (.ctx 7 2) 9) spec9)).ctx 9).result = 4 ∧ ((after (exec (.park (.ctx 7 2) 9) spec9)).ctx 9).deferred = [.park]) := by
  decide +kernel

theorem test_meets_create_parts :
    fld (described.memWord (descSlot 0x10000 0)).payload 6 4 = 1 ∧
    ((after (exec (.create (.ctx 7 2) 9) described)).ctx 9).resume = .parked ∧
    fld ((described.setMemWord (descSlot 0x10000 0) (fix 0xFF25)).memWord (descSlot 0x10000 0)).payload 6 4 = 2 ∧
    ((after (exec (.create (.ctx 7 2) 9) (described.setMemWord (descSlot 0x10000 0) (fix 0xFF25)))).ctx 9).resume = .ready := by
  decide +kernel

theorem test_meets_dispatch :
    ((((ready .ready 1).ctx 7).hall, ((ready .ready 1).ctx 7).prio) = (0, 2) ∧
      (((ready .ready 1).slot 5).scan = false ∧ ((ready .ready 1).glh 0).phase ≠ .flip)) ∧
    (∀ m n, m ∈ (ready .ready 1).readyOn 0 → n ∈ (ready .ready 1).readyOn 0 → ((ready .ready 1).ctx m).hcn % 64 = ((ready .ready 1).ctx n).hcn % 64 → m = n) ∧
    ((ready .running 1).coreFree 0 = false ∧ stSth ((ready .running 3).status r0) = false) ∧
    (State.reset.coreFree 0 = true ∧ State.reset.readyOn 0 = []) :=
  ⟨by decide +kernel, by
    have e : (ready .ready 1).readyOn 0 = [7, 8] := by decide +kernel
    rw [e]
    intro m n a b
    simp only [List.mem_cons, List.not_mem_nil, or_false] at a b
    rcases a with rfl | rfl <;> rcases b with rfl | rfl <;> decide +kernel, by decide +kernel⟩

theorem test_meets_fill_on_demand :
    ((scn9 .spilled .ready none).fillsShut = [] ∧ (scn9 .spilled .ready none).fillsDue = [(9, 0)]) ∧
    Fillable (scn9 .spilled .ready none) 9 0 ∧
    (((after (exec (.fillOnDemand) (scn9 .spilled .ready none))).ctx 9).st, ((after (exec (.fillOnDemand) (scn9 .spilled .ready none))).ctx 9).hcn) = (.ready, 0) :=
  ⟨by decide +kernel, ⟨by decide +kernel, by decide +kernel, faithful_of (by decide +kernel), by decide +kernel, Or.inr (fun k _ u =>
    (by decide +kernel : ∀ k, k < 87 → ((scn9 .spilled .ready none).memWord (descSlot ((scn9 .spilled .ready none).ctx 9).desc k)).isPtr = false) k (by omega))⟩, by decide +kernel⟩

theorem test_meets_timer :
    Waits (ready .waiting 1) 7 (.timer 100) := ⟨by decide +kernel, by decide +kernel, by decide +kernel⟩

/-- Hall 3 with a watchdog, its route to SCN 9 of hall 3, or none and hall 0 routed to SCN 7. -/
def routed (own : Bool) : State :=
  let s := (core 0).setCtx 9 { SwCtx.reset with st := .ready, hcn := 70, hall := 3 }
  let s := (s.setReg (Reg.evrAlertRoute 3) (if own then 0x8000090000000001 else 1)).setReg (Reg.evrAlertRoute 0) 0x8000070000000000
  { s with dt := 1000000 }

theorem test_meets_watchdog :
    ((routed true).route 3 = some 9 ∧ (routed false).route 3 = none ∧ (routed false).route 0 = some 7) ∧
    ((((after (exec (.watchdog 3) (routed true)))).ctx 9).pend = 2 ∧ (((after (exec (.watchdog 3) (routed false)))).ctx 7).pend = 8) := by
  decide +kernel

/-- SCN 9 in slot 6 waits for its scan, with a stale pointer of hall 0 in w4 and a FIX in w1. -/
def scanned : State :=
  let s := ((core 2).setBin 100 { (core 2).bin 100 with hall := 0, kind := .old }).setGl 0 { (core 2).glh 0 with goodO := true }
  let s := s.setSlot 6 { Slot.reset with scn := some 9, scan := true, regs := regsAt 0 [(1, fix 5), (4, ⟨0x51, 0xC800000⟩)] }
  s.setCtx 9 { SwCtx.reset with st := .ready, hcn := 6, hall := 0 }

theorem test_meets_scan :
    ((scanned.slot 6).scan = true ∧ (scanned.core 0).patched = false ∧ (scanned.core 0).halt = none ∧ scanned.specOf 9 = none) ∧
    scanned.isHeap 0 ⟨0x51, 0xC800000⟩ = true ∧
    (((after (exec (.registerScan 6) scanned)).slot 6).scan = false ∧ ((after (exec (.registerScan 6) scanned)).slot 6).regs.getW 1 = fix 5) := by
  decide +kernel

theorem test_meets_write_clauses :
    (State.reset.privileged .pf, State.reset.privileged (.vf 3)) = (true, false) ∧
    (after (exec (.registerWrite .pf Reg.evrCtxtab full64 0x80001) State.reset)).rf Reg.devRsvWrites 31 0 = 1 ∧
    (after (exec (.registerWrite (.ctx 3 0) Reg.evrCtxtab full64 0x80000) State.reset)).rf Reg.devErrsum 15 0 = 0 := by
  decide +kernel

theorem test_timeout_clauses :
    ((after (exec (.accessTimeout (.vf 3) Reg.cascJoin true 0) State.reset)).rf Reg.devXstat 62 62 = 1 ∧ (after (exec (.accessTimeout (.vf 3) Reg.cascJoin true 0) State.reset)).rf Reg.devXstat 55 32 = Reg.cascJoin) ∧
    (after (exec (.accessTimeout .pf 0x20 false 0) (after (exec (.accessTimeout .pf Reg.cascJoin true 0) State.reset)))).rf Reg.devXstat 15 0 = 2 := by
  decide +kernel

/-- A core in a handler, whose switch is due. -/
def dueSwitch : State := { switching with patch := { switching.patch with image := [] } }.setRf Reg.devPatchStat 31 31 1

theorem test_meets_switch :
    (dueSwitch.patch.left = [1, 2] ∧ dueSwitch.patchBusy = true ∧ dueSwitch.running 1 = none) ∧
    dueSwitch.stalledWriters = [] ∧
    (after (exec (.patchCoreSwitch 2) dueSwitch)).patch.left = [1, 2] := by
  decide +kernel

/-- Core 0 with its Crib on and one entry: line 0x20, sector 0 in M; EN as written, a maintenance over it or not. -/
def dirty (en : Nat) (m : Option Maint) : State :=
  let s := ((crib true en).setRf (Reg.cribCtrl 0) 1 1 0).coreStore 0 .mut 0x2000 (fix 9)
  s.setCore 0 { s.core 0 with maint := m }

theorem test_meets_crib_dirty :
    (((dirty 0 none).core 0).dirtySectors.length = 1 ∧ ((dirty 0 none).core 0).cribOn = true ∧ (dirty 0 none).rf (Reg.cribCtrl 0) 0 0 = 0 ∧ (dirty 0 none).specOnCore 0 = false) ∧
    ((after (exec (.cribDisable 0) (dirty 0 none))).rf (Reg.cribStat 0) 55 48 = 1 ∧ (after (exec (.cribDisable 0) (dirty 0 none))).rf (Reg.cribStat 0) 63 63 = 1) ∧
    ((after (exec (.cribDisable 0) (dirty 0 none))).memWord 0x2000 = fix 5 ∧ (dirty 0 none).memWord 0x2000 = fix 9) := by
  decide +kernel

theorem test_meets_maint_1 :
    ((((dirty 1 (some ⟨1, 0x2000, 0x2100⟩)).core 0).crib.map Prod.fst).length = 1 ∧ ((dirty 1 (some ⟨1, 0x2000, 0x2100⟩)).core 0).cribOn = true) ∧
    ((dirty 1 (some ⟨1, 0x2000, 0x2100⟩)).core 0).crib.all (fun e => e.2.valid && decide (e.2.line = 0x20) && decide (e.1 < 48)) = true ∧
    (((after (exec (.maintDone 0) (dirty 1 (some ⟨1, 0x2000, 0x2100⟩)))).core 0).maint = none ∧ (after (exec (.maintDone 0) (dirty 1 (some ⟨1, 0x2000, 0x2100⟩)))).rf (Reg.cribMaintStat 0) 62 62 = 1) ∧
    ((after (exec (.maintDone 0) (dirty 1 (some ⟨1, 0x2000, 0x2100⟩)))).rf (Reg.cribMaintStat 0) 39 32 = 1 ∧ (after (exec (.maintDone 0) (dirty 1 (some ⟨1, 0x2000, 0x2100⟩)))).rf (Reg.cribMaintStat 0) 55 48 = 0 ∧ (after (exec (.maintDone 0) (dirty 1 (some ⟨1, 0x2000, 0x2100⟩)))).memWord 0x2000 = fix 9) := by
  decide +kernel

theorem test_meets_maint_2 :
    ((((dirty 1 (some ⟨2, 0x2000, 0x2100⟩)).core 0).crib.map Prod.fst).length = 1 ∧ ((dirty 1 (some ⟨2, 0x2000, 0x2100⟩)).core 0).cribOn = true) ∧
    ((dirty 1 (some ⟨2, 0x2000, 0x2100⟩)).core 0).crib.all (fun e => e.2.valid && decide (e.2.line = 0x20) && decide (e.1 < 48)) = true ∧
    (((after (exec (.maintDone 0) (dirty 1 (some ⟨2, 0x2000, 0x2100⟩)))).core 0).maint = none ∧ (after (exec (.maintDone 0) (dirty 1 (some ⟨2, 0x2000, 0x2100⟩)))).rf (Reg.cribMaintStat 0) 62 62 = 1) ∧
    ((after (exec (.maintDone 0) (dirty 1 (some ⟨2, 0x2000, 0x2100⟩)))).rf (Reg.cribMaintStat 0) 39 32 = 0 ∧ (after (exec (.maintDone 0) (dirty 1 (some ⟨2, 0x2000, 0x2100⟩)))).rf (Reg.cribMaintStat 0) 55 48 = 1 ∧ (after (exec (.maintDone 0) (dirty 1 (some ⟨2, 0x2000, 0x2100⟩)))).memWord 0x2000 = fix 5) := by
  decide +kernel

theorem test_meets_maint_3 :
    ((((dirty 1 (some ⟨3, 0x2000, 0x2100⟩)).core 0).crib.map Prod.fst).length = 1 ∧ ((dirty 1 (some ⟨3, 0x2000, 0x2100⟩)).core 0).cribOn = true) ∧
    ((dirty 1 (some ⟨3, 0x2000, 0x2100⟩)).core 0).crib.all (fun e => e.2.valid && decide (e.2.line = 0x20) && decide (e.1 < 48)) = true ∧
    (((after (exec (.maintDone 0) (dirty 1 (some ⟨3, 0x2000, 0x2100⟩)))).core 0).maint = none ∧ (after (exec (.maintDone 0) (dirty 1 (some ⟨3, 0x2000, 0x2100⟩)))).rf (Reg.cribMaintStat 0) 62 62 = 1) ∧
    ((after (exec (.maintDone 0) (dirty 1 (some ⟨3, 0x2000, 0x2100⟩)))).rf (Reg.cribMaintStat 0) 39 32 = 1 ∧ (after (exec (.maintDone 0) (dirty 1 (some ⟨3, 0x2000, 0x2100⟩)))).rf (Reg.cribMaintStat 0) 55 48 = 0 ∧ (after (exec (.maintDone 0) (dirty 1 (some ⟨3, 0x2000, 0x2100⟩)))).memWord 0x2000 = fix 9) := by
  decide +kernel

/-- An error armed for the sector that the Crib holds in M. -/
def armedError : State :=
  ((dirty 1 none).setReg Reg.devMemInj (setFld (setFld (setFld 1 39 6 0x80) 63 62 2) 61 56 39))

theorem test_meets_mem_inj :
    (armedError.rf Reg.devMemInj 0 0 = 1 ∧ armedError.heldModified 0x2000 = true) ∧
    ((after (exec (.memInj) armedError)).planted = [(0x80, [(39, 0xFFFF), (0, 0xFFFF)])] ∧ (after (exec (.memInj) armedError)).rf Reg.devMemInj 0 0 = 0) := by
  decide +kernel

theorem test_meets_enable :
    (crib false 1).NoErrors ∧
    (((crib false 1).core 0).cribOn = false ∧ (crib false 1).rf (Reg.cribCtrl 0) 0 0 = 1) :=
  ⟨by unfold State.NoErrors; decide +kernel, by decide +kernel⟩

theorem test_maint_rejected :
    (core 0).rf (Reg.cribMaintEnd 0) 39 6 ≤ (core 0).rf (Reg.cribMaintStart 0) 39 6 ∧
    (after (exec (.maintGo .pf 0 1 false) (core 0))).rf (Reg.cribMaintStat 0) 61 61 = 1 := by
  decide +kernel

theorem test_meets_write_refused :
    (cribSpec.privileged .pf = true ∧ (cribSpec.setRf (Reg.cribCtrl 0) 0 0 1).rf (Reg.cribCtrl 0) 0 0 = 1) ∧
    Admits (cribSpec.setRf (Reg.cribCtrl 0) 0 0 1) .pf (Reg.cribCtrl 0) ∧
    ((after (exec (.registerWrite .pf (Reg.cribCtrl 0) full64 0) (cribSpec.setRf (Reg.cribCtrl 0) 0 0 1))).rf (Reg.cribCtrl 0) 0 0, (after (exec (.registerWrite .pf (Reg.cribCtrl 0) full64 0) (cribSpec.setRf (Reg.cribCtrl 0) 0 0 1))).rf (Reg.cribStat 0) 62 62) = (1, 1) :=
  ⟨by decide +kernel, admits_of (by decide +kernel), by decide +kernel⟩

/-- Hall 3 in a phase other than IDLE, not compatible. -/
def busyHall : State := granary.setGl 3 { GlHall.reset with phase := .trace, held := some true }

theorem test_meets_cycle_held :
    (busyHall.hallCreated 3 = true ∧ busyHall.resetting 3 = false ∧ busyHall.compat 3 = false) ∧
    (((after (exec (.cycleYoung (.ctx 7 2) 3) busyHall)).glh 3).held = some true ∧ (after (exec (.cycleYoung (.ctx 7 2) 3) busyHall)).rf Reg.glCmdStat 59 56 = 1) ∧
    (given.mayCycle 3 = true ∧ (given.glh 3).metas = []) := by
  decide +kernel

theorem test_meets_plain :
    given.allFree 200 1 = true ∧ (after (exec (.assignPlain (.ctx 7 2) 3 1 false 200) given)).rf Reg.glCmdStat 12 0 = 200 := by
  decide +kernel

/-- Hall 3 flips; SCN 9 of it is Ready in slot 133 of core 2. -/
def flipping : State :=
  let s := (phased .flip [] [0, 1]).setSlot 133 { Slot.reset with scn := some 9, regs := regsAt 0 words }
  s.setCtx 9 { SwCtx.reset with st := .ready, hcn := 133, hall := 3 }

theorem test_meets_flip_slot :
    (flipping.slotsOf 2 3 = [133] ∧ (flipping.core 2).halt = none ∧ (flipping.core 2).run ≠ some 133) ∧
    (((after (exec (.flip 2 3) flipping)).slot 133).scan = true ∧ ((after (exec (.flip 2 3) flipping)).glh 3).flipAcks = [0, 1]) := by
  decide +kernel

/-- Hall 3 traces; its ROOT holds a pointer to an object of OLD bin 101, marked or foreign; and the same word in an object of its queue. -/
def rooted (inQueue mark : Bool) : State :=
  let s := (tracing [] (if inQueue then [(binSize * 101 + 0x100, 0x11)] else []) none).setBin 101 { given.bin 101 with hall := if mark then 3 else 5, kind := .old }
  let s := s.setGl 3 { s.glh 3 with marks := [(binSize * 101, 0x11)], goodO := true, full := true }
  let w : Word := ⟨0x51, BitVec.ofNat 64 (s.wbase 3 + binSize * 101)⟩
  if inQueue then (s.setMemWord (binSize * 101 + 0x100) ⟨0x30, 0x10000⟩).setMemWord (binSize * 101 + 0x108) w
  else s.setMemWord (binSize * 100 + 8) w

theorem test_meets_trace_root :
    (rooted false true).NoErrors ∧
    (rooted false true).rootSlot 3 = some (binSize * 100 + 8) ∧
    ((rooted false true).isHeap 3 ((rooted false true).memWord (binSize * 100 + 8)) = true ∧ ((rooted false true).binOf ((rooted false true).heapPa 3 ((rooted false true).memWord (binSize * 100 + 8)))).state ≠ .fromSet) ∧
    (after (exec (.gleanerTrace 3) (rooted false true))).stale .engine 3 ((after (exec (.gleanerTrace 3) (rooted false true))).memWord (binSize * 100 + 8)) = false :=
  ⟨by unfold State.NoErrors; decide +kernel, by decide +kernel⟩

theorem test_meets_trace_foreign :
    ((rooted false false).rootSlot 3 = some (binSize * 100 + 8) ∧ (rooted false false).isHeap 3 ((rooted false false).memWord (binSize * 100 + 8)) = false) ∧
    ((after (exec (.gleanerTrace 3) (rooted false false))).memWord (binSize * 100 + 8)).type = 0x32 := by
  decide +kernel

theorem test_meets_trace_queue :
    ((rooted true true).rootSlot 3 = none ∧ (rooted true true).galRoot 3 = none ∧ objSize 0x11 ((rooted true true).memWord (binSize * 101 + 0x100)) = 16) ∧
    (rooted true true).wantsHeal 3 (binSize * 101 + 0x108) = true ∧
    (rooted true true).isHeap 3 ((rooted true true).memWord (binSize * 101 + 0x108)) = true ∧
    (((after (exec (.gleanerTrace 3) (rooted true true))).glh 3).queue = [] ∧ (after (exec (.gleanerTrace 3) (rooted true true))).stale .engine 3 ((after (exec (.gleanerTrace 3) (rooted true true))).memWord (binSize * 101 + 0x108)) = false) := by
  decide +kernel

/-- Hall 3 at the end of a trace, with bin 101 in its relocation set, holding a STAY object or none. -/
def ending (stays : Bool) : State := (tracing [] [] none).setBin 101 { given.bin 101 with hall := 3, kind := .eden, state := .fromSet, stays := stays }

theorem test_meets_finish_true :
    ((ending true).traceDone 3 = true ∧ (ending true).binsOf 3 (fun b => b.state = .fromSet) = [101] ∧ (ending true).holdsPinned 101 = false) ∧
    ((after (exec (.finish 3) (ending true))).bin 101).kind = .old := by
  decide +kernel

theorem test_meets_finish_false :
    ((ending false).traceDone 3 = true ∧ (ending false).binsOf 3 (fun b => b.state = .fromSet) = [101] ∧ (ending false).holdsPinned 101 = false) ∧
    ((after (exec (.finish 3) (ending false))).bin 101).kind = .free := by
  decide +kernel

/-! The web. -/

/-- Nothing but axis x moves. -/
def aloneIn (s : State) (x : Nat) : Bool :=
  decide (s.ringSize x = 0) && decide (s.pitchLen x = 0) && (s.axr x).tabWait.isNone && s.gal.isEmpty && s.ctxs.all (fun c => c.2.wait.isNone)

theorem alone_of {s : State} {x : Nat} (h : aloneIn s x = true) : AxisAlone s x := by
  simp only [aloneIn, Bool.and_eq_true, decide_eq_true_eq, List.isEmpty_iff, List.all_eq_true] at h
  obtain ⟨⟨⟨⟨a, b⟩, e⟩, c⟩, d⟩ := h
  refine ⟨a, b, by simpa using e, ?_, ?_⟩
  · intro i g m _
    rw [c] at m
    cases m
  · intro n c k m e
    have := d _ m
    cases hw : c.wait <;> simp_all

/-- Axis 1 in a mode with a base of 10 counts, at DT 2000000. -/
def axis (mode : Nat) (r : AxRec) : State :=
  let s := { (core 2).setRf (Reg.axCfg 1) 63 62 mode with dt := 2000000 }
  let s := s.setRf (Reg.axCfg 1) 31 0 100
  let s := (s.setRf (Reg.axCfg 1) 60 60 1).setRf (Reg.axCfg 1) 47 32 0x0201
  let s := (s.setRf (Reg.axSsi 1) 63 57 24).setRf (Reg.axSsi 1) 23 0 50
  (s.setReg (Reg.axPos 1) r.base).setAxr 1 r

/-- Ten counts. -/
def ten : AxRec := { AxRec.reset with base := 0xA0000 }

theorem test_encoder_edge :
    AxisAlone (axis 1 ten) 1 ∧
    ((axis 1 ten).axLoss 1 = false ∧ (axis 1 ten).decodes 1 1 = true) ∧
    (9 < 5 * (axis 1 ten).rf (Reg.axCfg 1) 47 40 ∧ 5 * (axis 1 ten).rf (Reg.axCfg 1) 47 40 ≤ 10) ∧
    (((axis 1 ten).axr 1).pinA = false ∧ ((axis 1 ten).axr 1).pinB = false) ∧
    (after (exec (.encoderEdge 1 ⟨true, false, 9, 9⟩) (axis 1 ten))).reg (Reg.axPos 1) = 0xA0000 ∧
    (after (exec (.encoderEdge 1 ⟨true, false, 10, 10⟩) (axis 1 ten))).reg (Reg.axPos 1) = 0xB0000 ∧
    (after (exec (.encoderEdge 1 ⟨true, true, 10, 9⟩) (axis 1 ten))).reg (Reg.axPos 1) = 0xB0000 ∧
    (after (exec (.encoderEdge 1 ⟨false, true, 10, 10⟩) (axis 1 ten))).reg (Reg.axPos 1) = 0x90000 ∧
    (after (exec (.encoderEdge 1 ⟨false, true, 10, 10⟩) (axis 1 ten))).rf (Reg.axStat 1) 60 60 = 1 ∧
    (after (exec (.encoderEdge 1 ⟨true, true, 10, 10⟩) (after (exec (.encoderEdge 1 ⟨true, false, 10, 10⟩) (axis 1 ten))))).reg (Reg.axPos 1) = 0xC0000 ∧
    (((after (exec (.encoderEdge 1 ⟨true, false, 10, 10⟩) (axis 1 ten))).axr 1).pinA = true ∧ ((after (exec (.encoderEdge 1 ⟨true, false, 10, 10⟩) (axis 1 ten))).axr 1).pinB = false) ∧
    (after (exec (.encoderEdge 1 ⟨false, false, 10, 10⟩) (axis 1 ten))).reg (Reg.axPos 1) = 0xA0000 :=
  ⟨alone_of (by decide +kernel), by decide +kernel⟩

/-- Axis 1 in loss, counting edges. -/
def lostQuad : State := (axis 1 ten).setRf (Reg.axStat 1) 63 63 1

theorem test_encoder_lost :
    AxisAlone lostQuad 1 ∧
    (lostQuad.axLoss 1 = true ∧ lostQuad.decodes 1 1 = true) ∧
    (after (exec (.encoderEdge 1 ⟨true, false, 10, 10⟩) lostQuad)).reg (Reg.axPos 1) = 0xA0000 ∧
    ((after (exec (.encoderEdge 1 ⟨true, false, 10, 10⟩) lostQuad)).axr 1).pinA = true :=
  ⟨alone_of (by decide +kernel), by decide +kernel⟩

theorem test_encoder_illegal :
    AxisAlone (axis 1 ten) 1 ∧
    AxisAlone (axis 1 { ten with ill := [1999999] }) 1 ∧
    (2000000 :: ((axis 1 ten).axr 1).ill.filter (fun u => 2000000 < u + 1000000)).length ≤ (axis 1 ten).rf (Reg.axCfg 1) 39 32 ∧
    ((after (exec (.encoderEdge 1 ⟨true, true, 10, 10⟩) (axis 1 ten))).axr 1).ill = [2000000] ∧
    (axis 1 { ten with ill := [1999999] }).rf (Reg.axCfg 1) 39 32 < (2000000 :: ((axis 1 { ten with ill := [1999999] }).axr 1).ill.filter (fun u => 2000000 < u + 1000000)).length ∧
    ((after (exec (.encoderEdge 1 ⟨true, true, 10, 10⟩) (axis 1 { ten with ill := [1999999] }))).axLoss 1 = true ∧ (after (exec (.encoderEdge 1 ⟨true, true, 10, 10⟩) (axis 1 { ten with ill := [1999999] }))).rf (Reg.axStat 1) 59 56 = 1) :=
  ⟨alone_of (by decide +kernel), alone_of (by decide +kernel), by decide +kernel⟩

theorem test_z_index :
    (axis 1 ten).rf (Reg.axCfg 1) 60 60 = 1 ∧
    ((axis 1 ten).axr 1).zref = none ∧
    ((after (exec (.zIndex ⟨1, 10⟩) (axis 1 ten))).axr 1).zref = some 10 ∧
    (signed 48 (10 + 2 ^ 48 - 110 % 2 ^ 48)).natAbs % 100 = 0 ∧
    (after (exec (.zIndex ⟨1, 10⟩) (axis 1 { ten with zref := some 110 }))).rf (Reg.axStat 1) 47 32 = 0 ∧
    (after (exec (.zIndex ⟨1, 10⟩) (axis 1 { ten with zref := some 9 }))).rf (Reg.axStat 1) 47 32 = 1 := by
  decide +kernel

theorem test_ssi_start :
    AxisAlone (axis 2 ten) 1 ∧
    ((axis 2 ten).decodes 1 2 = true ∧ (axis 2 ten).axLoss 1 = false) ∧
    (((axis 2 ten).axr 1).ssiStart = none ∧ ((axis 2 ten).axr 1).ssiNext ≤ (axis 2 ten).dt.toNat) ∧
    ((after (exec (.ssiFrameStart 1) (axis 2 ten))).axr 1).ssiStart = some 2000000 :=
  ⟨alone_of (by decide +kernel), by decide +kernel⟩

theorem test_ssi_frame :
    AxisAlone (axis 2 { ten with ssiStart := some 1900000, ssi := 100, bad := 1 }) 1 ∧
    ((after (exec (.ssiFrame 1 130 false false) (axis 2 { ten with ssiStart := some 1900000, ssi := 100, bad := 1 }))).axr 1).bad = 2 ∧
    ((after (exec (.ssiFrame 1 151 true false) (axis 2 { ten with ssiStart := some 1900000, ssi := 100, bad := 1 }))).axr 1).bad = 2 ∧
    (after (exec (.ssiFrame 1 130 true true) (axis 2 { ten with ssiStart := some 1900000, ssi := 100, bad := 2 }))).rf (Reg.axStat 1) 59 56 = 2 ∧
    (after (exec (.ssiFrame 1 300 true false) (axis 2 { ten with ssiStart := some 1900000, ssi := 100, bad := 2 }))).rf (Reg.axStat 1) 59 56 = 3 ∧
    ((after (exec (.ssiFrame 1 150 true false) (axis 2 { ten with ssiStart := some 1900000, ssi := 100, bad := 2 }))).reg (Reg.axPos 1) = 0x3C0000 ∧ ((after (exec (.ssiFrame 1 150 true false) (axis 2 { ten with ssiStart := some 1900000, ssi := 100, bad := 2 }))).axr 1).ssi = 150) ∧
    ((after (exec (.ssiFrame 1 99 true false) (axis 2 { ten with ssiStart := some 1900000, ssi := 100, bad := 2 }))).axr 1).bad = 0 :=
  ⟨alone_of (by decide +kernel), by decide +kernel⟩

/-- Axis 1 in loss, extrapolated or not. -/
def lost (mode : Nat) (ex : Nat) (at_ : Nat) : State :=
  (({ axis mode { ten with lossDt := at_ } with dt := 30000000 }).setRf (Reg.axStat 1) 63 63 1).setRf (Reg.axStat 1) 62 62 ex

theorem test_extrap_end :
    AxisAlone (lost 1 1 10) 1 ∧
    1 < (lost 1 1 10).part.axes ∧
    ((lost 1 1 10).axActive 1 = true ∧ (lost 1 1 10).axExtrap 1 = true) ∧
    10 + 1000000 * (lost 1 1 10).rf (Reg.axCfg 1) 57 48 ≤ (lost 1 1 10).dt.toNat ∧
    ((after (exec (.extrapEnd 1) (lost 1 1 10))).axExtrap 1 = false ∧ (after (exec (.extrapEnd 1) (lost 1 1 10))).axVel 1 = 0) ∧
    (lost 1 1 20000000).dt.toNat < 20000000 + 1000000 * (lost 1 1 20000000).rf (Reg.axCfg 1) 57 48 ∧
    (after (exec (.extrapEnd 1) (lost 1 1 20000000))).axExtrap 1 = true :=
  ⟨alone_of (by decide +kernel), by decide +kernel⟩

theorem test_recover :
    Admits (lost 1 0 10) (.ctx 7 2) (Reg.axCtrl 1) ∧
    (lost 1 0 10).kernelOrPf (.ctx 7 2) = true ∧
    ((lost 1 0 10).axLoss 1 = true ∧ (lost 1 0 10).remoteAxis 1 = false ∧ (lost 1 0 10).axMode 1 ≠ 2) ∧
    (after (exec (.recover (.ctx 7 2) 1) (lost 1 0 10))).axLoss 1 = false ∧
    ((lost 2 0 10).axLoss 1 = true ∧ (lost 2 0 10).axMode 1 = 2) ∧
    ((after (exec (.recover (.ctx 7 2) 1) (lost 2 0 10))).axr 1).recov = true ∧
    (after (exec (.recover (.ctx 7 2) 1) (axis 1 ten))).axes = (axis 1 ten).axes :=
  ⟨admits_of (by decide +kernel), by decide +kernel⟩

theorem test_estimator :
    (∀ y, y < (axis 1 ten).part.axes → AxisAlone (axis 1 ten) y) ∧
    ((axis 1 ten).cams = [] ∧ (axis 1 ten).stopState ≠ 1) :=
  ⟨fun y hy => alone_of ((by decide +kernel : ∀ y, y < (axis 1 ten).part.axes → aloneIn (axis 1 ten) y = true) y hy), by decide +kernel⟩

/-- A shadow table of one or two points of axis 1 and a pitch length in force. -/
def pitched (len lenp : Nat) : State :=
  let s := (axis 1 ten).setRf (Reg.axPitchLen 1) 47 0 len
  let s := s.setRf (Reg.axPitchLenp 1) 47 0 lenp
  (s.setReg (Reg.ptabShadow 1 0) 0x40000).setReg (Reg.ptabShadow 1 1) 0x50000

theorem test_swap :
    Admits (pitched 0 0x200000) (.ctx 7 2) (Reg.axPtabCtrl 1) ∧
    (pitched 0x100000 0x200000).pitchLen 1 ≠ 0 ∧
    ((after (exec (.swap (.ctx 7 2) 1 2) (pitched 0x100000 0x200000))).rf (Reg.axPtabCtrl 1) 63 63 = 1 ∧ (after (exec (.swap (.ctx 7 2) 1 2) (pitched 0x100000 0x200000))).rf (Reg.devOvr 1) 9 9 = 1) ∧
    ((pitched 0 0x40000).pitchLen 1 = 0 ∧ (pitched 0 0x40000).shadowOk 1 1 = false) ∧
    (after (exec (.swap (.ctx 7 2) 1 1) (pitched 0 0x40000))).rf (Reg.axPtabCtrl 1) 62 62 = 1 ∧
    ((pitched 0 0x200000).pitchLen 1 = 0 ∧ (pitched 0 0x200000).shadowOk 1 2 = true ∧ (pitched 0 0x200000).reg (Reg.axPitchAdj 1) = 0) ∧
    (fld ((pitched 0 0x200000).reg (Reg.ptabShadow 1 0)) 47 0 ≠ 0 ∧ keysRise (pitched 0 0x200000).ctl = true) ∧
    ((after (exec (.swap (.ctx 7 2) 1 2) (pitched 0 0x200000))).reg (Reg.ptabActive 1 1) = 0x50000 ∧ (after (exec (.swap (.ctx 7 2) 1 2) (pitched 0 0x200000))).rf (Reg.axPtabCtrl 1) 36 26 = 2) ∧
    (after (exec (.swap (.ctx 7 2) 1 2) (pitched 0 0x200000))).reg (Reg.axPitchLen 1) = 0x200000 :=
  ⟨admits_of (by decide +kernel), by decide +kernel⟩

/-- Mark input 9 counts rising edges, with a filter of 25 ns. -/
def marked (last : Nat) : State :=
  let s := ((axis 1 ten).setRf (Reg.markCfg 9) 59 59 1).setRf (Reg.markCfg 9) 63 61 1
  { s.setRf (Reg.markCfg 9) 57 50 5 with marks := if last = 0 then [] else [(9, last)] }

theorem test_mark_edge :
    ((marked 0).rf (Reg.markCfg 9) 58 58 = 0 ∧ (marked 0).mirrorHalls 9 = []) ∧
    ((marked 0).rf (Reg.markCfg 9) 59 59 = 1 ∧ look 0 (marked 0).marks 9 = 0) ∧
    (after (exec (.markEdge 9 4 true) (marked 0))).reg (Reg.markDt 9) = 2000004 ∧
    (after (exec (.markEdge 9 4 true) (marked 0))).reg (Reg.markPos 9) = 0x20000000000A0000 ∧
    look 0 (marked 1999976).marks 9 - 1 + 5 * 5 ≤ 2000000 ∧
    (after (exec (.markEdge 9 0 true) (marked 1999976))).rf (Reg.markStat 9) 63 32 = 1 ∧
    (marked 0).rf (Reg.markCfg 9) 60 60 = 0 ∧
    (after (exec (.markEdge 9 0 false) (marked 0))).rf (Reg.markStat 9) 31 16 = 1 := by
  decide +kernel

/-- MS channel 2 with thresholds 100 and 200. -/
def channel (level : Bool) : State :=
  let s := ((axis 1 ten).setRf (Reg.msCfg 2) 63 63 1).setRf (Reg.msCfg 2) 55 44 200
  { s.setRf (Reg.msCfg 2) 43 32 100 with ms := if level then [(2, [⟨1, 300, true⟩])] else [] }

theorem test_ms_sample :
    ((channel false).rf (Reg.msCfg 2) 63 63 = 1 ∧ (channel false).rf (Reg.markCfg 10) 58 58 = 0) ∧
    (look [] (after (exec (.msSample 2 200) (channel false))).ms 2).head? = some ⟨2000000, 200, true⟩ ∧
    (look [] (after (exec (.msSample 2 101) (channel true))).ms 2).head? = some ⟨2000000, 101, true⟩ ∧
    (look [] (after (exec (.msSample 2 100) (channel true))).ms 2).head? = some ⟨2000000, 100, false⟩ ∧
    (after (exec (.msSample 2 4295) (channel false))).rf (Reg.msVal 2) 11 0 = 199 := by
  decide +kernel

/-- Axis 1 in loss on SSI, where RECOVER waits. -/
def ssiWaiting : State := (axis 2 { ten with ssiStart := some 1900000, ssi := 100, recov := true }).setRf (Reg.axStat 1) 63 63 1

/-- The same with its bit. -/
def recovering : State := ssiWaiting.setRf (Reg.axCtrl 1) 0 0 1

theorem test_ssi_recover :
    AxisAlone recovering 1 ∧
    (recovering.axLoss 1 = true ∧ recovering.decodes 1 2 = true ∧ (recovering.axr 1).recov = true) ∧
    (after (exec (.ssiFrame 1 130 true false) recovering)).axLoss 1 = false ∧
    ((after (exec (.ssiFrame 1 130 true false) recovering)).rf (Reg.axCtrl 1) 0 0 = 0 ∧ ((after (exec (.ssiFrame 1 130 true false) recovering)).axr 1).recov = false) ∧
    ((after (exec (.ssiFrame 1 130 false false) recovering)).axr 1).bad = 1 ∧
    (after (exec (.recover (.ctx 7 2) 1) (lost 2 0 10))).rf (Reg.axCtrl 1) 0 0 = 1 ∧
    ((lost 2 0 10).axLoss 1 = true ∧ ((lost 2 0 10).axr 1).recov = false) ∧
    ((after (exec (.ssiFrame 1 150 true false) ((lost 2 0 10).setAxr 1 { ten with ssiStart := some 1900000 }))).reg (Reg.axPos 1) = 0xA0000 ∧ ((after (exec (.ssiFrame 1 150 true false) ((lost 2 0 10).setAxr 1 { ten with ssiStart := some 1900000 }))).axr 1).ssiStart = none) :=
  ⟨alone_of (by decide +kernel), by decide +kernel⟩

theorem test_ssi_still :
    AxisAlone ((axis 2 { ten with ssiStart := some 1900000, ssi := 100, bad := 1 }).setRf (Reg.axSsi 1) 57 57 1) 1 ∧
    ((∀ e, e ∈ (((axis 2 { ten with ssiStart := some 1900000, ssi := 100, bad := 1 }).setRf (Reg.axSsi 1) 57 57 1).axr 1).past → e.till ≤ 2000000) ∧ ((axis 2 { ten with ssiStart := some 1900000, ssi := 100, bad := 1 }).setRf (Reg.axSsi 1) 57 57 1).rf (Reg.axSsi 1) 57 57 = 1 ∧ ((axis 2 { ten with ssiStart := some 1900000, ssi := 100, bad := 1 }).setRf (Reg.axSsi 1) 57 57 1).decodes 1 2 = true) ∧
    unGray 86 24 = 100 ∧
    ((after (exec (.ssiFrame 1 86 true false) ((axis 2 { ten with ssiStart := some 1900000, ssi := 100, bad := 1 }).setRf (Reg.axSsi 1) 57 57 1))).reg (Reg.axPos 1) = 0xA0000 ∧ ((after (exec (.ssiFrame 1 86 true false) ((axis 2 { ten with ssiStart := some 1900000, ssi := 100, bad := 1 }).setRf (Reg.axSsi 1) 57 57 1))).axr 1).chgDt = 0) :=
  ⟨alone_of (by decide +kernel), by decide +kernel⟩

theorem test_swap_override :
    (after (exec (.swap (.ctx 7 2) 1 2) (pitched 0 0x200000))).rf (Reg.devOvr 1) 9 9 = 1 ∧ ((after (exec (.swap (.ctx 7 2) 1 2) (pitched 0 0x200000))).axr 1).nextPt = 0 := by
  decide +kernel

/-- MS channel 2 drives mark input 10, which counts both edges; a sample of 50 was taken 100 ns ago. -/
def driving (v : Nat) (level : Bool) : State :=
  let s := ((channel false).setRf (Reg.markCfg 10) 63 58 0x0F)
  { s with ms := [(2, [⟨1999900, v, level⟩])] }

theorem test_ms_drives :
    ((driving 50 false).rf (Reg.markCfg 10) 58 58 = 1 ∧ (driving 50 false).mirrorHalls 10 = []) ∧
    ((driving 50 false).rf (Reg.markCfg 10) 59 59 = 1 ∧ (driving 50 false).rf (Reg.markCfg 10) 60 60 = 1 ∧ look 0 (driving 50 false).marks 10 = 0) ∧
    1999900 + (200 - 50) * (2000000 - 1999900) / (350 - 50) = 1999950 ∧
    (after (exec (.msSample 2 350) (driving 50 false))).reg (Reg.markDt 10) = 1999950 ∧
    (after (exec (.msSample 2 350) (driving 50 false))).rf (Reg.markStat 10) 15 15 = 1 ∧
    1999900 + (300 - 100) * (2000000 - 1999900) / (300 - 50) = 1999980 ∧
    (after (exec (.msSample 2 50) (driving 300 true))).reg (Reg.markDt 10) = 1999980 ∧
    (after (exec (.markEdge 10 4 true) (driving 50 false))).reg (Reg.markDt 10) = 0 := by
  decide +kernel

/-! Cam outputs, item rings, the stop state. -/

/-- Output 3 of hall 0 with a queue, axis 0 shared with hall 0, at DT 1000. -/
def cam (q : List CamAct) : State :=
  let s := { (core 2).setReg (Reg.hallShare 0) 0xFF00 with dt := 1000 }
  s.setCamQ 3 q

theorem test_cam_at :
    Admits (cam []) (.ctx 7 2) (Reg.camOnAt 3) ∧
    Admits (cam []) (.ctx 7 2) (Reg.camOffAt 3) ∧
    ((cam []).withheld = false ∧ (cam []).camWriter (.ctx 7 2) 3 = true) ∧
    (((cam []).camQ 3).length < 32 ∧ (cam []).seesAxis ((cam []).camOwner 3) (posAxis 0x50000) = true ∧ (cam []).posAhead 0x50000 ≠ -(2 ^ 60)) ∧
    (after (exec (.camOnAt (.ctx 7 2) 3 0x50000) (cam []))).camQ 3 = [⟨true, some 0x50000, none⟩] ∧
    (after (exec (.camOffAt (.ctx 7 2) 3 0x50000) (cam []))).camQ 3 = [⟨false, some 0x50000, none⟩] :=
  ⟨admits_of (by decide +kernel), admits_of (by decide +kernel), by decide +kernel⟩

theorem test_cam_dt :
    Admits (cam []) (.ctx 7 2) (Reg.camOnDt 3) ∧
    Admits (cam []) (.ctx 7 2) (Reg.camOffDt 3) ∧
    (cam []).dt.toNat ≤ 1000 ∧
    (after (exec (.camOnDt (.ctx 7 2) 3 1000) (cam []))).camQ 3 = [⟨true, none, some 1000⟩] ∧
    (after (exec (.camOffDt (.ctx 7 2) 3 1000) (cam []))).camQ 3 = [⟨false, none, some 1000⟩] ∧
    (after (exec (.camOffDt (.ctx 7 2) 3 999) (cam []))).rf (Reg.camStat 3) 57 42 = 1 :=
  ⟨admits_of (by decide +kernel), admits_of (by decide +kernel), by decide +kernel⟩

theorem test_cam_full :
    Admits (cam (List.replicate 32 ⟨true, none, some 2000⟩)) (.ctx 7 2) (Reg.camOnAt 3) ∧
    Admits (cam (List.replicate 32 ⟨true, none, some 2000⟩)) (.ctx 7 2) (Reg.camOnDt 3) ∧
    32 ≤ ((cam (List.replicate 32 ⟨true, none, some 2000⟩)).camQ 3).length ∧
    (after (exec (.camOnAt (.ctx 7 2) 3 0x50000) (cam (List.replicate 32 ⟨true, none, some 2000⟩)))).rf (Reg.camStat 3) 41 26 = 1 ∧
    (after (exec (.camOnDt (.ctx 7 2) 3 5000) (cam (List.replicate 32 ⟨true, none, some 2000⟩)))).rf (Reg.camStat 3) 41 26 = 1 :=
  ⟨admits_of (by decide +kernel), admits_of (by decide +kernel), by decide +kernel⟩

/-- Actions at DT 900, 1500 and 900 in output 3. -/
def cf2 : State := cam [⟨true, none, some 900⟩, ⟨true, none, some 1500⟩, ⟨false, none, some 900⟩]

theorem test_cam_ctrl :
    Admits cf2 (.ctx 7 2) (Reg.camCtrl 3) ∧
    (cf2.camWriter (.ctx 7 2) 3 = true ∧ cf2.withheld = false) ∧
    ((after (exec (.flush (.ctx 7 2) 3) cf2)).camQ 3 = [] ∧ (after (exec (.flush (.ctx 7 2) 3) cf2)).rf (Reg.camStat 3) 63 58 = 0) ∧
    (after (exec (.now (.ctx 7 2) 3 true) cf2)).rf (Reg.camCfg 3) 0 0 = 1 ∧
    (cf2.setRf Reg.cascState 63 60 3).withheld = true ∧
    (after (exec (.now (.ctx 7 2) 3 true) (cf2.setRf Reg.cascState 63 60 3))).rf (Reg.camCfg 3) 0 0 = 0 :=
  ⟨admits_of (by decide +kernel), by decide +kernel⟩

theorem test_cam_fire :
    firstFire (cf2.camQ 3) = some 900 ∧
    (((cf2.camQ 3).filter (fun a => a.fire = some 900)).map CamAct.level).getLast? = some false ∧
    (after (exec (.camFire 3) cf2)).camQ 3 = [⟨true, none, some 1500⟩] ∧
    firstFire ((cam (List.replicate 32 ⟨true, none, some 2000⟩)).camQ 3) = some 2000 ∧
    ((after (exec (.camFire 3) (cam (List.replicate 32 ⟨true, none, some 2000⟩)))).camQ 3).length = 32 ∧
    firstFire ((cam []).camQ 3) = none := by
  decide +kernel

/-- A WITHHELD part. -/
def cw3 : State := (cam []).setRf Reg.cascState 63 60 3

theorem test_cam_refused :
    (cw3.withheld = true ∧ cw3.camWriter (.ctx 7 2) 3 = true) ∧
    Admits cw3 (.ctx 7 2) (Reg.camOnAt 3) ∧
    Admits cw3 (.ctx 7 2) (Reg.camOnDt 3) ∧
    ((after (exec (.camOnAt (.ctx 7 2) 3 0x50000) cw3)).rf (Reg.camStat 3) 41 26 = 1 ∧ (after (exec (.camOnAt (.ctx 7 2) 3 0x50000) cw3)).out = [.event 0 "CAM_REFUSED" 3]) ∧
    (after (exec (.camOnDt (.ctx 7 2) 3 5000) cw3)).rf (Reg.camStat 3) 41 26 = 1 ∧
    ((cam []).seesAxis 0 (posAxis 0xE000000000000000) = false ∨ (cam []).posAhead 0x1000000000000000 = -(2 ^ 60)) :=
  ⟨by decide +kernel, admits_of (by decide +kernel), admits_of (by decide +kernel), by decide +kernel⟩

theorem test_cam_late :
    (cam []).rf (Reg.camCfg 3) 54 54 = 0 ∧
    (after (exec (.camOnDt (.ctx 7 2) 3 999) (cam []))).rf (Reg.camCfg 3) 0 0 = 1 ∧
    ((cam []).camNet 3 = false ∧ (after (exec (.camOnDt (.ctx 7 2) 3 2000) (cam []))).out = []) := by
  decide +kernel

/-- Three actions at DT 900. -/
def collide : State := cam [⟨true, none, some 900⟩, ⟨false, none, some 900⟩, ⟨true, none, some 900⟩]

theorem test_cam_collide :
    ((edges (decide (collide.rf (Reg.camCfg 3) 0 0 = 1)) [true, false, true]).1 = 3 ∧ look 0 collide.camEdge 3 = 0) ∧
    (after (exec (.camFire 3) collide)).rf (Reg.camStat 3) 25 10 = 2 ∧
    ({ collide with camEdge := [(3, 901)] } : State).withheld = false ∧
    (after (exec (.camFire 3) { collide with camEdge := [(3, 901)] })).rf (Reg.camStat 3) 25 10 = 3 := by
  decide +kernel

/-- Axis 1 with a ring of 2 ^ n entries in bin 100, TAIL and HEAD. -/
def ring (n tail head : Nat) : State :=
  let s := (given.setRf (Reg.axIring 1) 57 53 n).setRf (Reg.axIring 1) 63 58 3
  (s.setRf (Reg.axIptr 1) 63 48 tail).setRf (Reg.axIptr 1) 47 32 head

/-- A ring of hall 3 with 2 ^ n entries at a bin. -/
def ringWord (n bin : Nat) : BitVec 64 := setFld (setFld (setFld 0 63 58 3) 57 53 n) 39 4 (bin * 131072)

theorem test_iring :
    Admits (ring 0 0 0) (.ctx 7 2) (Reg.axIring 1) ∧
    (ring 0 0 0).kernelOrPf (.ctx 7 2) = true ∧
    (ringWord 16 100 &&& ~~~(fmask 63 53 ||| fmask 39 4) = 0 ∧ 4 ≤ fld (ringWord 16 100) 57 53 ∧ fld (ringWord 16 100) 57 53 ≤ 16) ∧
    ((ring 0 0 0).ringSize 1 = 0 ∧ (ring 0 0 0).ringPlaced (ringWord 16 100) = true) ∧
    ((after (exec (.iringWrite (.ctx 7 2) 1 (ringWord 16 100)) (ring 0 0 0))).ringSize 1 = 16 ∧ (after (exec (.iringWrite (.ctx 7 2) 1 (ringWord 16 100)) (ring 0 0 0))).ringHall 1 = 3) ∧
    (ring 0 0 0).ringPlaced (ringWord 16 101) = false ∧
    (after (exec (.iringWrite (.ctx 7 2) 1 (ringWord 16 101)) (ring 0 0 0))).rf (Reg.axIptr 1) 0 0 = 1 ∧
    (ring 4 14 5).ringSize 1 = 4 ∧
    (after (exec (.iringWrite (.ctx 7 2) 1 (ringWord 5 100)) (ring 4 14 5))).rf (Reg.axIptr 1) 0 0 = 1 :=
  ⟨admits_of (by decide +kernel), by decide +kernel⟩

/-- Station 2 follows axis 1 from entry 6 on. -/
def stationed : State :=
  let s := (ring 4 14 5).setRf (Reg.axStn 1 2) 63 63 1
  s.setAxr 1 { AxRec.reset with cursors := [(2, 7)] }

theorem test_iptr_stations :
    (stationed.stationsOn 1 = [2] ∧ stationed.cursor 1 2 = 6) ∧
    Admits stationed (.ctx 7 2) (Reg.axIptr 1) ∧
    stationed.tailWriter (.ctx 7 2) 1 = true ∧
    (14 ≠ 4 ∧ ringGap 14 4 16 ≤ (5 + 2 * 16 - 14 - 1) % 16) ∧
    ((after (exec (.iptrTail (.ctx 7 2) 1 4) stationed)).rf (Reg.axIptr 1) 63 48 = 4 ∧ (after (exec (.iptrTail (.ctx 7 2) 1 4) stationed)).rf (Reg.axIptr 1) 47 32 = 6) ∧
    (5 + ([ringGap 5 6 16].foldl min (ringGap 5 4 16))) % 16 = 6 ∧
    ((after (exec (.iptrTail (.ctx 7 2) 1 14) stationed)).rf (Reg.axIptr 1) 0 0 = 0 ∧ (after (exec (.iptrTail (.ctx 7 2) 1 14) stationed)).rf (Reg.axIptr 1) 47 32 = 5) :=
  ⟨by decide +kernel, admits_of (by decide +kernel), by decide +kernel⟩

theorem test_iring_stations :
    (stationed.setRf (Reg.axIring 1) 57 53 0).ringSize 1 = 0 ∧
    (after (exec (.iringWrite (.ctx 7 2) 1 (ringWord 4 100)) (stationed.setRf (Reg.axIring 1) 57 53 0))).cursor 1 2 = 0 ∧
    (fld (ringWord 4 100) 39 4 ≠ (ring 4 0 0).rf (Reg.axIring 1) 39 4) ∧
    (after (exec (.iringWrite (.ctx 7 2) 1 (ringWord 4 100)) (ring 4 0 0))).rf (Reg.axIptr 1) 0 0 = 1 := by
  decide +kernel

theorem test_iptr :
    Admits (ring 4 14 5) (.ctx 7 2) (Reg.axIptr 1) ∧
    (ring 4 14 5).tailWriter (.ctx 7 2) 1 = true ∧
    (ringGap 14 4 16 ≤ (5 + 2 * 16 - 14 - 1) % 16 ∧ (ring 4 14 5).stationsOn 1 = []) ∧
    (after (exec (.iptrTail (.ctx 7 2) 1 4) (ring 4 14 5))).rf (Reg.axIptr 1) 63 48 = 4 ∧
    (5 + 2 * 16 - 14 - 1) % 16 < ringGap 14 5 16 ∧
    (after (exec (.iptrTail (.ctx 7 2) 1 5) (ring 4 14 5))).rf (Reg.axIptr 1) 0 0 = 1 ∧
    (after (exec (.iptrTail (.ctx 7 2) 1 16) (ring 4 14 5))).rf (Reg.axIptr 1) 0 0 = 1 ∧
    (after (exec (.iptrTail (.ctx 7 2) 1 0) (ring 0 0 0))).rf (Reg.axIptr 1) 0 0 = 0 ∧
    (after (exec (.iptrTail (.ctx 7 2) 1 1) (ring 0 0 0))).rf (Reg.axIptr 1) 0 0 = 1 :=
  ⟨admits_of (by decide +kernel), by decide +kernel⟩

/-- A stop state, its pin, and axis 0 in the coast profile, still since DT 0, at DT 10000000. -/
def stop (st pin : Nat) : State :=
  let s := ((core 2).setRf Reg.axStop 63 62 st).setRf Reg.axStop 61 61 pin
  { s with dt := 10000000, axes := [(0, { AxRec.reset with still := some 0, dec := 1 })], objs := [(0x2740 * 256 + 1, 1)] }

theorem test_stop_req :
    Admits (stop 0 0) (.ctx 7 2) Reg.axStop ∧
    ((stop 0 0).stopState = 0 ∧ (stop 0 0).kernelOrPf (.ctx 7 2) = true) ∧
    ((after (exec (.stopReq (.pin 1300)) (stop 0 0))).stopState = 1 ∧ (after (exec (.stopReq (.pin 1300)) (stop 0 0))).rf Reg.axStop 61 61 = 1) ∧
    ((after (exec (.stopReq (.req (.ctx 7 2))) (stop 0 0))).rf Reg.axStop 60 60 = 1 ∧ (after (exec (.stopReq (.req (.ctx 7 2))) (stop 0 0))).reg Reg.axStopDt = 10000000) ∧
    (after (exec (.stopReq (.pin 1300)) (stop 2 0))).stopState = 2 :=
  ⟨admits_of (by decide +kernel), by decide +kernel⟩

/-- COAST with REQ set. -/
def stopAsked : State := (stop 1 0).setRf Reg.axStop 60 60 1

theorem test_stop_release :
    ((stop 2 0).stopState ≠ 0 ∧ (stop 2 0).rf Reg.axStop 61 61 = 0) ∧
    (after (exec (.releaseStop (.ctx 7 2)) (stop 2 0))).stopState = 0 ∧
    (stop 1 1).rf Reg.axStop 61 61 = 1 ∧
    ((after (exec (.releaseStop (.ctx 7 2)) (stop 1 1))).rf Reg.axStop 58 58 = 1 ∧ (after (exec (.releaseStop (.ctx 7 2)) (stop 1 1))).stopState = 1) ∧
    (after (exec (.stopReqNHigh) (stop 1 1))).life.stopHigh = some 10000000 := by
  decide +kernel

/-- STOP_REQ_N has been high since DT 10000000 with a filter of 100 × 5 ns, at a DT (R374). -/
def releasing (dt : BitVec 64) : State :=
  { (stop 1 1).setRf Reg.axStop 57 48 100 with dt := dt, dtRun := true, life := { (stop 1 1).life with stopHigh := some 10000000 } }

theorem test_stop_filter :
    (releasing 5).stopFilt = 500 ∧
    (after (exec (.stopReq (.pin 499)) (((releasing 5).setRf Reg.axStop 61 61 0).setRf Reg.axStop 63 62 0))).stopState = 0 ∧
    (after (exec (.stopReq (.pin 500)) (((releasing 5).setRf Reg.axStop 61 61 0).setRf Reg.axStop 63 62 0))).stopState = 1 ∧
    (after (step (releasing 10000494))).rf Reg.axStop 61 61 = 1 ∧
    (after (step (releasing 10000495))).rf Reg.axStop 61 61 = 0 := by
  decide +kernel

theorem test_stop_again :
    Admits (stop 2 0) (.ctx 7 2) Reg.axStop ∧
    ((stop 2 0).stopState ≠ 0 ∧
      ((after (exec (.stopReq (.req (.ctx 7 2))) (stop 2 0))).rf Reg.axStop 60 60 = 1 ∧ (after (exec (.stopReq (.req (.ctx 7 2))) (stop 2 0))).stopState = 2)) ∧
    Admits stopAsked (.ctx 7 2) Reg.axStop ∧
    (stopAsked.stopState ≠ 0 ∧ stopAsked.rf Reg.axStop 61 60 ≠ 0) ∧
    ((after (exec (.releaseStop (.ctx 7 2)) stopAsked)).rf Reg.axStop 58 58 = 1 ∧ (after (exec (.releaseStop (.ctx 7 2)) stopAsked)).rf Reg.axStop 60 60 = 1 ∧ (after (exec (.releaseStop (.ctx 7 2)) stopAsked)).stopState = 1) ∧
    ((stop 0 0).stopState = 0 ∧ (stop 0 0).rf Reg.axStop 60 60 = 0) ∧
    (after (exec (.releaseStop (.ctx 7 2)) (stop 0 0))).rf Reg.axStop 58 58 = 1 :=
  ⟨admits_of (by decide +kernel), by decide +kernel, admits_of (by decide +kernel), by decide +kernel⟩

theorem test_still_moving :
    ({ stop 1 1 with axes := [(0, { AxRec.reset with still := some 5, dec := 1 })] } : State).dt.toNat < 5 + 10000000 ∧
    (after (exec (.stopped) { stop 1 1 with axes := [(0, { AxRec.reset with still := some 5, dec := 1 })] })).stopState = 1 ∧
    (after (exec (.stopped) { stop 1 1 with axes := [] })).stopState = 1 := by
  decide +kernel

theorem test_stopped :
    (List.range (stop 1 1).part.axes).filter (fun x => ((stop 1 1).axr x).dec ≠ 0) = [0] ∧
    (((stop 1 1).axr 0).still = some 0 ∧ 0 + 10000000 ≤ (stop 1 1).dt.toNat) ∧
    (after (exec (.stopped) (stop 1 1))).stopState = 2 ∧
    (after (exec (.stopped) (stop 0 1))).stopState = 0 := by
  decide +kernel

/-! The Gallery and the halls. -/

/-- SCN 9 Ready in slot 6 with a speculation. -/
def specs (g : GalRec) : State :=
  let s := scn9 .ready .ready none
  { s with gal := [(0, { g with hall := 0, scn := 9, seq := 1 })], dt := 1000000000 }

theorem test_spec_check :
    (specs { GalRec.reset with st := .opened }).checkDue = [] ∧
    (specs { GalRec.reset with st := .crossed, lines := [(0x60, ⟨0, [(3, fix 5)]⟩)] }).checkDue = [0] ∧
    (((specs { GalRec.reset with st := .crossed, lines := [(0x60, ⟨0, [(3, fix 5)]⟩)] }).ctx 9).st = .ready ∧ ((specs { GalRec.reset with st := .crossed, lines := [(0x60, ⟨0, [(3, fix 5)]⟩)] }).ctx 9).deferred = [] ∧ ((specs { GalRec.reset with st := .crossed, lines := [(0x60, ⟨0, [(3, fix 5)]⟩)] }).ctx 9).wait = none) ∧
    (((specs { GalRec.reset with st := .crossed, lines := [(0x60, ⟨0, [(3, fix 5)]⟩)] }).galr 0).conflict = false ∧ ((specs { GalRec.reset with st := .crossed, lines := [(0x60, ⟨0, [(3, fix 5)]⟩)] }).galr 0).held = false) ∧
    (((specs { GalRec.reset with st := .crossed, lines := [(0x60, ⟨0, [(3, fix 5)]⟩)] }).galr 0).lines = [(0x60, ⟨0, [(3, fix 5)]⟩)] ∧ (fix 5).isPtr = false ∧ (specs { GalRec.reset with st := .crossed, lines := [(0x60, ⟨0, [(3, fix 5)]⟩)] }).planted = []) ∧
    ((after (exec (.specCheck) (specs { GalRec.reset with st := .crossed, lines := [(0x60, ⟨0, [(3, fix 5)]⟩)] }))).memWord 0x6018 = fix 5 ∧ (after (exec (.specCheck) (specs { GalRec.reset with st := .crossed, lines := [(0x60, ⟨0, [(3, fix 5)]⟩)] }))).galr 0 = GalRec.reset) ∧
    ((specs { GalRec.reset with st := .crossed, conflict := true }).checkDue = [0] ∧ ((specs { GalRec.reset with st := .crossed, conflict := true }).galr 0).conflict = true ∧ ((specs { GalRec.reset with st := .crossed, conflict := true }).galr 0).lines = []) ∧
    (after (exec (.specCheck) (specs { GalRec.reset with st := .crossed, conflict := true }))).rf (Reg.galHstat 0) 15 12 = 1 := by
  decide +kernel

theorem test_spec_held :
    ((specs { GalRec.reset with st := .crossed, held := true, item := some 0x3008 }).checkDue = [0] ∧ ((specs { GalRec.reset with st := .crossed, held := true, item := some 0x3008 }).galr 0).held = true ∧ ((specs { GalRec.reset with st := .crossed, held := true, item := some 0x3008 }).galr 0).lines = []) ∧
    (specs { GalRec.reset with st := .crossed, held := true, item := some 0x3008 }).NoErrors ∧
    (after (exec (.specCheck) (specs { GalRec.reset with st := .crossed, held := true, item := some 0x3008 }))).memWord 0x3008 = ⟨((specs { GalRec.reset with st := .crossed, held := true, item := some 0x3008 }).memWord 0x3008).tag, ((specs { GalRec.reset with st := .crossed, held := true, item := some 0x3008 }).memWord 0x3008).payload ||| 0x20⟩ ∧
    ((after (exec (.specCheck) (specs { GalRec.reset with st := .crossed, held := true, item := some 0x3008 }))).memWord 0x3008 ≠ (specs { GalRec.reset with st := .crossed, held := true, item := some 0x3008 }).memWord 0x3008 ∧ ((specs { GalRec.reset with st := .crossed, held := true, item := some 0x3008 }).memWord 0x3008).tag.extractLsb' 0 6 ≠ 0x32) :=
  ⟨by decide +kernel, by unfold State.NoErrors; decide +kernel, by decide +kernel⟩

/-- SCN 9 waits for the outcome of its speculation. -/
def awaiting (b : Bool) : State :=
  let s := scn9 .waiting .waiting (some (.outcome b))
  { s with gal := [(0, { GalRec.reset with hall := 0, scn := 9, seq := 1, st := .crossed })], dt := 1000000000 }

theorem test_spec_outcome :
    (((awaiting true).checkDue = [0] ∧ ((awaiting true).ctx 9).st = .waiting ∧ ((awaiting true).ctx 9).wait = some (.outcome true) ∧ ((awaiting true).ctx 9).deferred = []) ∧
      stSs ((awaiting true).slot ((awaiting true).ctx 9).hcn).regs.status = false) ∧
    (awaiting true).NoErrors ∧
    (((after (exec (.specCheck) (awaiting true))).ctx 9).st = .ready ∧ ((after (exec (.specCheck) (awaiting true))).ctx 9).wait = none) ∧
    (((after (exec (.specCheck) (awaiting true))).slot 6).regs.pc = ((awaiting true).slot 6).regs.pc + 4 ∧ ((after (exec (.specCheck) (awaiting false))).slot 6).regs.pc = ((awaiting true).slot 6).regs.pc) :=
  ⟨by decide +kernel, by unfold State.NoErrors; decide +kernel, by decide +kernel⟩

theorem test_abandon :
    Admits (specs { GalRec.reset with st := .opened }) (.ctx 7 2) Reg.galCmd ∧
    (specs { GalRec.reset with st := .opened }).kernelOrPf (.ctx 7 2) = true ∧
    (specs { GalRec.reset with st := .opened }).speckRec 1024 = some 0 ∧
    (after (exec (.abandon (.ctx 7 2) 1024) (specs { GalRec.reset with st := .opened }))).rf (Reg.galHstat 0) 15 12 = 5 ∧
    (specs { GalRec.reset with st := .opened }).speckRec 1025 = none ∧
    (after (exec (.abandon (.ctx 7 2) 1025) (specs { GalRec.reset with st := .opened }))).gal = (specs { GalRec.reset with st := .opened }).gal :=
  ⟨admits_of (by decide +kernel), by decide +kernel⟩

theorem test_remote_timeout :
    (((specs { GalRec.reset with st := .crossed, remote := true }).setRf Reg.cascTime 63 63 1).suspect = true ∧ (((specs { GalRec.reset with st := .crossed, remote := true }).setRf Reg.cascTime 63 63 1).galr 0).st = .crossed ∧ (((specs { GalRec.reset with st := .crossed, remote := true }).setRf Reg.cascTime 63 63 1).galr 0).remote = true) ∧
    0 + 100000 * ((specs { GalRec.reset with st := .crossed, remote := true }).setRf Reg.cascTime 63 63 1).rf Reg.galCfg 15 0 ≤ ((specs { GalRec.reset with st := .crossed, remote := true }).setRf Reg.cascTime 63 63 1).dt.toNat ∧
    (after (exec (.remoteTimeout) ((specs { GalRec.reset with st := .crossed, remote := true }).setRf Reg.cascTime 63 63 1))).rf (Reg.galHstat 0) 15 12 = 4 ∧
    ({ (specs { GalRec.reset with st := .crossed, remote := true }) with dt := 5 } : State).dt.toNat < 0 + 100000 * (specs { GalRec.reset with st := .crossed, remote := true }).rf Reg.galCfg 15 0 ∧
    ((after (exec (.remoteTimeout) { (specs { GalRec.reset with st := .crossed, remote := true }) with dt := 5 })).galr 0).st = .crossed := by
  decide +kernel

theorem test_mirror :
    Admits given (.ctx 7 2) (Reg.galMirror 3) ∧
    (given.resetting 3 = false ∧ given.reg (Reg.galMsel 3) = 0) ∧
    given.mirrorOk 3 (setFld (setBit 0 63 true) 39 11 102401) = true ∧
    ((after (exec (.mirrorEnable (.ctx 7 2) 3 102401) given)).rf (Reg.galMirror 3) 63 63 = 1 ∧ (after (exec (.mirrorEnable (.ctx 7 2) 3 102401) given)).rf (Reg.devOvr 4) 3 3 = 1) ∧
    given.mirrorOk 3 (setFld (setBit 0 63 true) 39 11 102400) = false ∧
    (after (exec (.mirrorEnable (.ctx 7 2) 3 102400) given)).rf (Reg.galMirror 3) 63 63 = 0 :=
  ⟨admits_of (by decide +kernel), by decide +kernel⟩

/-- Mark input 9 is selected for the mirror of hall 3. -/
def mirrored : State := (given.setReg (Reg.markPos 9) 0x20000000000A0000).setReg (Reg.galMsel 3) (setBit 0 9 true)

theorem test_mirror_mark :
    ((given.setReg (Reg.markPos 9) 0x20000000000A0000).setReg (Reg.galMsel 3) (setBit 0 9 true)).reg (Reg.galMsel 3) = setBit 0 9 true ∧
    mirrored.NoErrors ∧
    (mirrored.rf (Reg.galMirror 3) 63 63 = 0 ∧ mirrored.mirrorOk 3 (setFld (setBit 0 63 true) 39 11 102401) = true) ∧
    (after (exec (.mirrorEnable (.ctx 7 2) 3 102401) mirrored)).memWord (2048 * 102401 + 64 * 9) = posW 0x20000000000A0000 ∧
    (after (exec (.mirrorEnable (.ctx 7 2) 3 102401) mirrored)).memWord (2048 * 102401 + 64 * 9 + 24) = fixN 0 :=
  ⟨by decide +kernel, by unfold State.NoErrors; decide +kernel, by decide +kernel⟩

/-- Hall 3 in a state and phase, its function enabled or not. -/
def hall (st ph : Nat) (on : Bool) : State :=
  let s := ((core 2).setRf (Reg.hallState 3) 63 61 st).setRf (Reg.hallState 3) 60 58 ph
  { s with vfEnable := on, numVfs := 3, dt := 1000 }

theorem test_hall_ctrl :
    Admits (hall 0 0 true) (.ctx 7 2) (Reg.hallCtrl 3) ∧
    (hall 0 0 true).isCtxOf (.ctx 7 2) 0 = true ∧
    (after (exec (.hallCtrlCreate (.ctx 7 2) 3) (hall 0 0 true))).hstate 3 = 1 ∧
    (hall 1 0 true).vfOn 3 = true ∧
    (after (exec (.hallCtrlStart (.ctx 7 2) 3) (hall 1 0 true))).hstate 3 = 2 ∧
    (hall 1 0 false).vfOn 3 = false ∧
    (after (exec (.hallCtrlStart (.ctx 7 2) 3) (hall 1 0 false))).rf (Reg.hallCtrl 3) 3 0 = 2 ∧
    (after (exec (.hallCtrlRemove (.ctx 7 2) 3) (hall 1 0 true))).hstate 3 = 0 ∧
    (after (exec (.hallCtrlCreate (.ctx 7 2) 3) (hall 2 0 true))).rf (Reg.hallCtrl 3) 3 0 = 1 ∧
    (after (exec (.hallCtrlStart (.ctx 7 2) 3) (hall 2 0 true))).rf (Reg.hallCtrl 3) 3 0 = 1 ∧
    (after (exec (.hallCtrlRemove (.ctx 7 2) 3) (hall 0 0 true))).rf (Reg.hallCtrl 3) 3 0 = 1 :=
  ⟨admits_of (by decide +kernel), by decide +kernel⟩

theorem test_hall_remove_shares :
    fld (regReset (hall 1 0 true).part (Reg.hallShare 3)) 63 48 = (after (exec (.hallCtrlRemove (.ctx 7 2) 3) ((hall 1 0 true).setReg (Reg.hallShare 3) 0xFFFF000000000000))).rf (Reg.hallShare 3) 63 48 ∧
    (after (exec (.hallCtrlRemove (.ctx 7 2) 3) ((hall 1 0 true).setReg (Reg.hallDevmap 3 5) 7))).reg (Reg.hallDevmap 3 5) = 0 ∧
    ((hall 1 0 true).rf (Reg.hallCfg 3) 0 0 = 0 ∨ ((hall 1 0 true).glh 3).metas = []) := by
  decide +kernel

theorem test_hall_slots :
    Admits (hall 2 0 true) (.ctx 7 2) Reg.hallSlotCmd ∧
    (0 < (hall 2 0 true).part.cores ∧ (hall 2 0 true).hallCreated 3 = true) ∧
    (((hall 2 0 true).slot 5).scn = some 7 ∧ ((hall 2 0 true).slot 6).scn = none) ∧
    ((after (exec (.hallSlotCmd (.ctx 7 2) 0 5 2 3) (hall 2 0 true))).slot 5).pend = some 3 ∧
    ((after (exec (.hallSlotCmd (.ctx 7 2) 0 5 2 3) (hall 2 0 true))).slot 6).owner = 3 ∧
    (after (exec (.hallSlotCmd (.ctx 7 2) 0 63 2 3) (hall 2 0 true))).rf Reg.hallSlotStat 62 60 = 2 ∧
    (after (exec (.hallSlotCmd (.ctx 7 2) 0 5 2 3) (hall 0 0 true))).rf Reg.hallSlotStat 62 60 = 2 :=
  ⟨admits_of (by decide +kernel), by decide +kernel⟩

theorem test_hall_devmap :
    Admits (hall 2 0 true) (.ctx 7 2) (Reg.hallDevmap 3 1) ∧
    Admits (hall 2 0 true) (.ctx 7 2) (Reg.hallDevmap 3 12) ∧
    (after (exec (.hallDevmap (.ctx 7 2) 3 1 7) (hall 2 0 true))).reg (Reg.hallDevmap 3 1) = 7 ∧
    (after (exec (.hallDevmap (.ctx 7 2) 3 12 7) (hall 2 0 true))).reg (Reg.hallDevmap 3 12) = 0 :=
  ⟨admits_of (by decide +kernel), admits_of (by decide +kernel), by decide +kernel⟩

/-- Nothing of hall h is at work. -/
def idleIn (s : State) (h : Nat) : Bool :=
  s.ctxs.all (fun c => decide (c.2.hall ≠ h)) && s.gal.isEmpty && s.xe.isEmpty && !s.boxBusy (some h) && (s.glh h).metas.isEmpty

theorem idle_of {s : State} {h : Nat} (e : idleIn s h = true) : HallIdle s h := by
  simp only [idleIn, Bool.and_eq_true, List.isEmpty_iff, List.all_eq_true, decide_eq_true_eq, Bool.not_eq_true'] at e
  obtain ⟨⟨⟨⟨a, b⟩, c⟩, d⟩, m⟩ := e
  refine ⟨fun n x i => a _ i, ?_, ?_, d, m⟩
  · intro i g y
    rw [b] at y
    cases y
  · intro o y
    rw [c] at y
    cases y

theorem test_hall_reset :
    Admits (hall 2 0 true) (.ctx 7 2) (Reg.hallReset 3) ∧
    HallIdle (hall 2 0 true) 3 ∧
    ((hall 2 0 true).route 3 = none ∧ (hall 2 0 true).route 0 = none) ∧
    (after (exec (.hallResetGo (.ctx 7 2) 3 true 1 1) (hall 0 0 true))).rf (Reg.hallReset 3) 61 61 = 1 ∧
    ((after (exec (.hallResetGo (.ctx 7 2) 3 false 1 1) (hall 2 0 true))).hstate 3 = 3 ∧ (after (exec (.hallResetGo (.ctx 7 2) 3 false 1 1) (hall 2 0 true))).hphase 3 = 1) ∧
    ((after (exec (.hallResetGo (.ctx 7 2) 3 true 1 1) (hall 2 0 true))).hstate 3 = 3 ∧ (after (exec (.hallResetGo (.ctx 7 2) 3 true 1 1) (hall 2 0 true))).hphase 3 = 5) :=
  ⟨admits_of (by decide +kernel), idle_of (by decide +kernel), by decide +kernel⟩

theorem test_hall_reset_phases :
    Admits (hall 3 1 true) (.ctx 7 2) (Reg.hallDrainAck 3) ∧
    HallIdle (hall 3 1 true) 3 ∧
    HallIdle (hall 3 3 true) 3 ∧
    ((hall 3 1 true).hstate 3 = 3 ∧ (hall 3 1 true).hphase 3 = 1) ∧
    (after (exec (.hallDrainAck (.ctx 7 2) 3) (hall 3 1 true))).hphase 3 = 3 ∧
    (look ⟨0, 0⟩ (hall 3 1 true).hallRst 3).deadline ≤ 1000 ∧
    (after (exec (.graceEnd 3) (hall 3 1 true))).hphase 3 = 3 ∧
    (after (exec (.drainLimitEnd 3) (hall 3 3 true))).hphase 3 = 5 ∧
    ((after (exec (.hallResetDone 3) (hall 3 5 true))).hstate 3 = 1 ∧ (after (exec (.hallResetDone 3) (hall 3 5 true))).hphase 3 = 0) :=
  ⟨admits_of (by decide +kernel), idle_of (by decide +kernel), idle_of (by decide +kernel), by decide +kernel⟩

theorem test_hall_reset_early :
    ({ (hall 3 1 true) with hallRst := [(3, ⟨5000, 0⟩)] } : State).dt.toNat < 5000 ∧
    (after (exec (.graceEnd 3) { (hall 3 1 true) with hallRst := [(3, ⟨5000, 0⟩)] })).hphase 3 = 1 ∧
    (after (exec (.hallResetDone 3) (hall 2 0 true))).hstate 3 = 2 := by
  decide +kernel

/-- A descriptor of a hall. -/
def working (h : Nat) : XeOp := ⟨h, 0, 0, 0, 0, false, [], true, 0, 0, 0, false⟩

theorem test_hall_reset_more :
    ((after (exec (.hallResetGo (.ctx 7 2) 3 false 7 7) (hall 3 1 true))).hstate 3 = 3 ∧ (after (exec (.hallResetGo (.ctx 7 2) 3 false 7 7) (hall 3 1 true))).hphase 3 = 1) ∧
    (after (exec (.hallResetGo (.ctx 7 2) 3 true 1 1) (hall 3 1 true))).hphase 3 = 5 ∧
    (hall 3 1 true).rf (Reg.hallState 3) 55 55 = 0 ∧
    ((∀ o, o ∈ (hall 3 3 true).xe → o.hall ≠ 3) ∧ (hall 3 3 true).boxBusy (some 3) = false) ∧
    (after (exec (.hallResetDone 3) (hall 3 3 true))).hstate 3 = 1 ∧
    (after (exec (.hallResetDone 3) { (hall 3 3 true) with xe := [working 3] })).hphase 3 = 3 ∧
    ((after (exec (.hallDrainAck (.ctx 7 2) 3) (hall 2 0 true))).hstate 3 = 2 ∧ (after (exec (.hallDrainAck (.ctx 7 2) 3) (hall 2 0 true))).hphase 3 = 0) := by
  decide +kernel

theorem test_flr_config :
    (({ (hall 2 0 true) with fns := [(3, { FnCfg.reset with master := true })] } : State).fnCfg 3).master = true ∧
    ((after (exec (.flr 3) { (hall 2 0 true) with fns := [(3, { FnCfg.reset with master := true })] })).fnCfg 3) = FnCfg.reset ∧
    (after (exec (.flr 3) (hall 1 0 false))).hstate 3 = 1 := by
  decide +kernel

theorem test_flr :
    HallIdle (hall 2 0 true) 3 ∧
    (hall 2 0 true).vfOn 3 = true ∧
    ((after (exec (.flr 3) (hall 2 0 true))).hphase 3 = 5 ∧ (after (exec (.flr 3) (hall 2 0 true))).rf (Reg.hallState 3) 56 56 = 1) ∧
    (after (exec (.flr 3) (hall 1 0 false))).hstate 3 = 1 :=
  ⟨idle_of (by decide +kernel), by decide +kernel⟩

theorem test_functions :
    (∀ h, 1 ≤ h → h ≤ (hall 0 0 true).part.hallMax → (hall 0 0 true).hstate h = 0) ∧
    (after (exec (.vfEnableWrite true 2) (hall 0 0 true))).numVfs = 2 ∧
    (after (exec (.vfEnableWrite true 64) (hall 0 0 true))).numVfs = 3 ∧
    ((after (exec (.pfFlr) (hall 0 0 true))).numVfs = 0 ∧ (after (exec (.pfFlr) (hall 0 0 true))).vfEnable = false) ∧
    (after (exec (.perst) (hall 0 0 true))).vfEnable = false ∧
    (after (exec (.d3hot 2 (.power true)) (hall 0 0 true))).d3hot = [2] ∧
    (after (exec (.d3hot 4 (.power true)) (hall 0 0 true))).d3hot = [] ∧
    (∀ o, o ∈ (hall 0 0 true).xe → o.hall = 0) :=
  ⟨fun h a b => (by decide +kernel : ∀ h, h < (hall 0 0 true).part.hallMax + 1 → 1 ≤ h → (hall 0 0 true).hstate h = 0) h (Nat.lt_succ_of_le b) a, by decide +kernel⟩

/-- Function 2 with a configuration. -/
def fnd (c : FnCfg) : State := { hall 0 0 true with fns := [(2, c)] }

theorem test_function_config :
    ((fnd FnCfg.reset).vfOn 2 = true ∧ (fnd FnCfg.reset).vfOn 4 = false) ∧
    ((after (exec (.d3hot 2 (.master true)) (fnd FnCfg.reset))).fnCfg 2).master = true ∧
    (((after (exec (.d3hot 2 (.msixControl true true)) (fnd FnCfg.reset))).fnCfg 2).msixOn = true ∧ ((after (exec (.d3hot 2 (.msixControl true true)) (fnd FnCfg.reset))).fnCfg 2).msixMask = true) ∧
    (63 < 64 ∧ ((after (exec (.d3hot 2 (.vector 63 false)) (fnd FnCfg.reset))).fnCfg 2).unmasked = [63]) ∧
    (after (exec (.d3hot 2 (.vector 64 false)) (fnd FnCfg.reset))).fns = [(2, FnCfg.reset)] ∧
    (fnd { FnCfg.reset with master := true, msixOn := true, msixMask := false, pending := [9] }).requests 2 = true ∧
    ((after (exec (.d3hot 2 (.vector 9 false)) (fnd { FnCfg.reset with master := true, msixOn := true, msixMask := false, pending := [9] }))).out = [.msix 2 9] ∧ ((after (exec (.d3hot 2 (.vector 9 false)) (fnd { FnCfg.reset with master := true, msixOn := true, msixMask := false, pending := [9] }))).fnCfg 2).pending = []) ∧
    ((after (exec (.d3hot 2 (.control .tag10 true)) (fnd FnCfg.reset))).featureOn 2 .tag10 = true ∧ (after (exec (.d3hot 2 (.control .tag10 true)) (fnd FnCfg.reset))).featureOn 2 .aer = false) ∧
    (after (exec (.d3hot 2 (.control .aspm true)) (fnd FnCfg.reset))).fns = [(2, FnCfg.reset)] ∧
    ((after (exec (.d3hot 2 (.read)) (fnd FnCfg.reset))).out.head?.map (fun o => match o with | .cfgRead 2 hd cap cfg => decide (hd.device = 0xFFFF) && cap.isNone && cfg.payload == 128 | _ => false)) = some true ∧
    ((after (exec (.vfEnableWrite false 3) (fnd { FnCfg.reset with master := true, msixOn := true, msixMask := false, pending := [9] }))).fnCfg 2) = FnCfg.reset := by
  decide +kernel

/-! Mailboxes, the dictionary and the host queues. -/

/-- The device kernel runs. -/
def up (s : State) : State := s.setRf Reg.devState 63 60 2

/-- Request 5 of a code and length is outstanding in a box, with words after the first. -/
def asked (b : Option Nat) (code len : Nat) (ws : List (Nat × BitVec 64)) (s : State) : State :=
  let s := (s.setRf (boxCtrl b) 63 48 5).setRf (boxCtrl b) 47 32 4
  ws.foldl (fun s w => s.setReg (boxReq b w.1) w.2) ((up s).setReg (boxReq b 0) (setFld (setFld 0 63 48 code) 47 32 len))

/-- The PF signals vector 0, or holds it pending. -/
def told (s : State) : State :=
  s.setFn 0 { FnCfg.reset with master := true, msixOn := true, msixMask := false, unmasked := [0] }

/-- Vector 0 of the PF masked. -/
def hidden (s : State) : State := s.setFn 0 { FnCfg.reset with master := true, msixOn := true, msixMask := false }

/-- The same, answered. -/
def answered (b : Option Nat) (code len : Nat) (ws : List (Nat × BitVec 64)) (s : State) : State :=
  (asked b code len ws s).setRf (boxCtrl b) 47 32 5

theorem test_box_req :
    Admits (answered none 2 8 [] (hall 2 0 true)) Initiator.pf (boxCtrl none) ∧
    Admits (asked none 2 8 [] (hall 2 0 true)) Initiator.pf (boxCtrl none) ∧
    (answered none 2 8 [] (hall 2 0 true)).hstate 3 = 2 ∧
    ((answered none 2 8 [] (hall 2 0 true)).boxBusy none = false ∧ (6 : BitVec 16).toNat ≠ (answered none 2 8 [] (hall 2 0 true)).rf (boxCtrl none) 47 32) ∧
    (knownCode none ((answered none 2 8 [] (hall 2 0 true)).boxCode none) = true ∧ (answered none 2 8 [] (hall 2 0 true)).boxLen none ≤ 4088) ∧
    ((after (exec (.reqSeq none 6) (answered none 2 8 [] (hall 2 0 true)))).boxBusy none = true ∧ (after (exec (.reqSeq none 6) (answered none 2 8 [] (hall 2 0 true)))).out.length = 1) ∧
    (asked none 2 8 [] (hall 2 0 true)).boxBusy none = true ∧
    ((after (exec (.reqSeq none 6) (asked none 2 8 [] (hall 2 0 true)))).rf (boxCtrl none) 30 30 = 1 ∧ (after (exec (.reqSeq none 6) (asked none 2 8 [] (hall 2 0 true)))).rf (boxCtrl none) 63 48 = 5) :=
  ⟨admits_of (by decide +kernel), admits_of (by decide +kernel), by decide +kernel⟩

theorem test_box_bad :
    Admits (answered none 0x7F 8 [] (hall 2 0 true)) Initiator.pf (boxCtrl none) ∧
    Admits (answered none 2 4089 [] (hall 2 0 true)) Initiator.pf (boxCtrl none) ∧
    (knownCode none ((answered none 0x7F 8 [] (hall 2 0 true)).boxCode none) = false ∧ (answered none 0x7F 8 [] (hall 2 0 true)).boxBusy none = false) ∧
    ((after (exec (.reqSeq none 6) (answered none 0x7F 8 [] (hall 2 0 true)))).rf (boxRsp none 0) 15 0 = 6 ∧ (after (exec (.reqSeq none 6) (answered none 0x7F 8 [] (hall 2 0 true)))).rf (boxRsp none 0) 63 48 = 0x7F) ∧
    (knownCode none ((answered none 2 4089 [] (hall 2 0 true)).boxCode none) = true ∧ 4088 < (answered none 2 4089 [] (hall 2 0 true)).boxLen none) ∧
    ((after (exec (.reqSeq none 6) (answered none 2 4089 [] (hall 2 0 true)))).rf (boxRsp none 0) 15 0 = 7 ∧ (after (exec (.reqSeq none 6) (answered none 2 4089 [] (hall 2 0 true)))).boxBusy none = false) ∧
    (5 : BitVec 16).toNat = (answered none 2 8 [] (hall 2 0 true)).rf (boxCtrl none) 47 32 ∧
    ((after (exec (.reqSeq none 5) (answered none 2 8 [] (hall 2 0 true)))).boxBusy none = false ∧ (after (exec (.reqSeq none 5) (answered none 2 8 [] (hall 2 0 true)))).out = []) :=
  ⟨admits_of (by decide +kernel), admits_of (by decide +kernel), by decide +kernel⟩

theorem test_box_rsp :
    Admits (asked none 2 8 [] (hall 2 0 true)) (.ctx 7 2) (boxCtrl none) ∧
    (asked none 2 8 [] (hall 2 0 true)).isCtxOf (.ctx 7 2) 0 = true ∧
    (after (exec (.rspSeq 7 none 5) (asked none 2 8 [] (hall 2 0 true)))).boxBusy none = false :=
  ⟨admits_of (by decide +kernel), by decide +kernel⟩

theorem test_window_req :
    Admits (answered (some 3) 2 8 [] (hall 2 0 true)) (Initiator.vf 3) (boxCtrl (some 3)) ∧
    Admits (asked (some 3) 2 8 [] (hall 2 0 true)) (Initiator.vf 3) (boxCtrl (some 3)) ∧
    (answered (some 3) 2 8 [] (hall 2 0 true)).hstate 3 = 2 ∧
    ((answered (some 3) 2 8 [] (hall 2 0 true)).boxBusy (some 3) = false ∧ (6 : BitVec 16).toNat ≠ (answered (some 3) 2 8 [] (hall 2 0 true)).rf (boxCtrl (some 3)) 47 32) ∧
    (knownCode (some 3) ((answered (some 3) 2 8 [] (hall 2 0 true)).boxCode (some 3)) = true ∧ (answered (some 3) 2 8 [] (hall 2 0 true)).boxLen (some 3) ≤ 4088) ∧
    ((after (exec (.reqSeq (some 3) 6) (answered (some 3) 2 8 [] (hall 2 0 true)))).boxBusy (some 3) = true ∧ (after (exec (.reqSeq (some 3) 6) (answered (some 3) 2 8 [] (hall 2 0 true)))).out.length = 1) ∧
    (asked (some 3) 2 8 [] (hall 2 0 true)).boxBusy (some 3) = true ∧
    ((after (exec (.reqSeq (some 3) 6) (asked (some 3) 2 8 [] (hall 2 0 true)))).rf (boxCtrl (some 3)) 30 30 = 1 ∧ (after (exec (.reqSeq (some 3) 6) (asked (some 3) 2 8 [] (hall 2 0 true)))).rf (boxCtrl (some 3)) 63 48 = 5) :=
  ⟨admits_of (by decide +kernel), admits_of (by decide +kernel), by decide +kernel⟩

theorem test_window_bad :
    Admits (answered (some 3) 0x7F 8 [] (hall 2 0 true)) (Initiator.vf 3) (boxCtrl (some 3)) ∧
    Admits (answered (some 3) 2 4089 [] (hall 2 0 true)) (Initiator.vf 3) (boxCtrl (some 3)) ∧
    (knownCode (some 3) ((answered (some 3) 0x7F 8 [] (hall 2 0 true)).boxCode (some 3)) = false ∧ (answered (some 3) 0x7F 8 [] (hall 2 0 true)).boxBusy (some 3) = false) ∧
    ((after (exec (.reqSeq (some 3) 6) (answered (some 3) 0x7F 8 [] (hall 2 0 true)))).rf (boxRsp (some 3) 0) 15 0 = 6 ∧ (after (exec (.reqSeq (some 3) 6) (answered (some 3) 0x7F 8 [] (hall 2 0 true)))).rf (boxRsp (some 3) 0) 63 48 = 0x7F) ∧
    (knownCode (some 3) ((answered (some 3) 2 4089 [] (hall 2 0 true)).boxCode (some 3)) = true ∧ 4088 < (answered (some 3) 2 4089 [] (hall 2 0 true)).boxLen (some 3)) ∧
    ((after (exec (.reqSeq (some 3) 6) (answered (some 3) 2 4089 [] (hall 2 0 true)))).rf (boxRsp (some 3) 0) 15 0 = 7 ∧ (after (exec (.reqSeq (some 3) 6) (answered (some 3) 2 4089 [] (hall 2 0 true)))).boxBusy (some 3) = false) ∧
    (5 : BitVec 16).toNat = (answered (some 3) 2 8 [] (hall 2 0 true)).rf (boxCtrl (some 3)) 47 32 ∧
    ((after (exec (.reqSeq (some 3) 5) (answered (some 3) 2 8 [] (hall 2 0 true)))).boxBusy (some 3) = false ∧ (after (exec (.reqSeq (some 3) 5) (answered (some 3) 2 8 [] (hall 2 0 true)))).out = []) :=
  ⟨admits_of (by decide +kernel), admits_of (by decide +kernel), by decide +kernel⟩

theorem test_window_rsp :
    Admits (asked (some 3) 2 8 [] (hall 2 0 true)) (.ctx 7 2) (boxCtrl (some 3)) ∧
    (asked (some 3) 2 8 [] (hall 2 0 true)).isCtxOf (.ctx 7 2) 0 = true ∧
    (after (exec (.rspSeq 7 (some 3) 5) (asked (some 3) 2 8 [] (hall 2 0 true)))).boxBusy (some 3) = false :=
  ⟨admits_of (by decide +kernel), by decide +kernel⟩

theorem test_hall_create :
    3 ≤ (hall 0 0 true).part.hallMax ∧
    ((asked none 16 0 [] (hall 0 0 true)).boxBusy none = true ∧ (asked none 16 0 [] (hall 0 0 true)).boxCode none = 0x10 ∧ (asked none 16 0 [] (hall 0 0 true)).hstate 3 = 0) ∧
    ((after (exec (.hallCreate 3) (asked none 16 0 [] (hall 0 0 true)))).hstate 3 = 1 ∧ (after (exec (.hallCreate 3) (asked none 16 0 [] (hall 0 0 true)))).rf (boxRsp none 0) 15 0 = 0) ∧
    (after (exec (.hallCreate 3) (asked none 16 0 [] (hall 1 0 true)))).rf (boxRsp none 0) 15 0 = 1 ∧
    (after (exec (.hallCreate ((hall 1 0 true).part.hallMax + 1)) (asked none 16 0 [] (hall 1 0 true)))).rf (boxRsp none 0) 15 0 = 5 ∧
    (after (exec (.hallRemove 3) (hall 1 0 true))).hstate 3 = 1 := by
  decide +kernel

theorem test_hall_share :
    ((asked none 17 0 [] (hall 1 0 true)).hallCreated 3 = true ∧ (asked none 17 0 [] (hall 1 0 true)).rf (Reg.devOvr 5) 3 3 = 0) ∧
    (after (exec (.hallSetShare 3 2 65535 0 0) (asked none 17 0 [] (hall 1 0 true)))).rf (Reg.hallShare 3) 63 48 = 65535 ∧
    (after (exec (.hallSetShare 3 2 65536 0 0) (asked none 17 0 [] (hall 1 0 true)))).rf (boxRsp none 0) 15 0 = 3 ∧
    ((asked none 17 0 [] (hall 1 0 true)).setRf (Reg.devOvr 5) 3 3 1).rf (Reg.devOvr 5) 3 3 = 1 ∧
    (after (exec (.hallSetShare 3 2 5 0 0) ((asked none 17 0 [] (hall 1 0 true)).setRf (Reg.devOvr 5) 3 3 1))).rf (boxRsp none 0) 15 0 = 1 := by
  decide +kernel

theorem test_hall_shares :
    (after (exec (.hallSetShare 3 5 8192 0 0) (asked none 17 0 [] (hall 1 0 true)))).rf (Reg.hallShare 3) 47 34 = 8192 ∧
    (after (exec (.hallSetShare 3 5 8193 0 0) (asked none 17 0 [] (hall 1 0 true)))).rf (boxRsp none 0) 15 0 = 3 ∧
    (after (exec (.hallSetShare 3 6 255 0 0) (asked none 17 0 [] (hall 1 0 true)))).rf (Reg.hallShare 3) 33 26 = 255 ∧
    (after (exec (.hallSetShare 3 6 256 0 0) (asked none 17 0 [] (hall 1 0 true)))).rf (boxRsp none 0) 15 0 = 3 ∧
    (after (exec (.hallSetShare 3 6 0 0 0) (asked none 17 0 [] (hall 1 0 true)))).rf (boxRsp none 0) 15 0 = 3 ∧
    (after (exec (.hallSetShare 3 8 255 0 0) (asked none 17 0 [] (hall 1 0 true)))).rf (Reg.hallShare 3) 15 8 = 255 ∧
    (after (exec (.hallSetShare 3 8 256 0 0) (asked none 17 0 [] (hall 1 0 true)))).rf (boxRsp none 0) 15 0 = 3 ∧
    (after (exec (.hallSetShare 3 3 (asked none 17 0 [] (hall 1 0 true)).part.nbins 0 0) (asked none 17 0 [] (hall 1 0 true)))).rf (Reg.glHall 3) 55 42 = (asked none 17 0 [] (hall 1 0 true)).part.nbins ∧
    (after (exec (.hallSetShare 3 3 ((asked none 17 0 [] (hall 1 0 true)).part.nbins + 1) 0 0) (asked none 17 0 [] (hall 1 0 true)))).rf (boxRsp none 0) 15 0 = 3 ∧
    (after (exec (.hallSetShare 3 0xA 255 0 0) (asked none 17 0 [] (hall 1 0 true)))).rf (Reg.glHall 3) 63 56 = 255 ∧
    (after (exec (.hallSetShare 3 0xA 256 0 0) (asked none 17 0 [] (hall 1 0 true)))).rf (boxRsp none 0) 15 0 = 3 ∧
    (after (exec (.hallSetShare 3 4 (asked none 17 0 [] (hall 1 0 true)).part.galLines 0 0) (asked none 17 0 [] (hall 1 0 true)))).rf (Reg.galHall 3) 47 32 = (asked none 17 0 [] (hall 1 0 true)).part.galLines ∧
    (after (exec (.hallSetShare 3 4 ((asked none 17 0 [] (hall 1 0 true)).part.galLines + 1) 0 0) (asked none 17 0 [] (hall 1 0 true)))).rf (boxRsp none 0) 15 0 = 3 ∧
    (after (exec (.hallSetShare 3 0xB 1 0 0) (asked none 17 0 [] (hall 1 0 true)))).rf (Reg.hallCfg 3) 0 0 = 1 ∧
    (after (exec (.hallSetShare 3 0xB 2 0 0) (asked none 17 0 [] (hall 1 0 true)))).rf (boxRsp none 0) 15 0 = 3 ∧
    (after (exec (.hallSetShare 3 0 1 0 0) (asked none 17 0 [] (hall 1 0 true)))).rf (boxRsp none 0) 15 0 = 3 ∧
    (after (exec (.hallSetShare 3 0xC 1 0 0) (asked none 17 0 [] (hall 1 0 true)))).rf (boxRsp none 0) 15 0 = 3 ∧
    (after (exec (.hallSetShare 3 2 65536 0 0) ((asked none 17 0 [] (hall 1 0 true)).setRf (Reg.devOvr 5) 3 3 1))).rf (boxRsp none 0) 15 0 = 3 ∧
    ((asked none 17 0 [] (hall 0 0 true)).hallCreated 3 = false ∧ (after (exec (.hallSetShare 3 2 5 0 0) (asked none 17 0 [] (hall 0 0 true)))).rf (boxRsp none 0) 15 0 = 5) := by
  decide +kernel

theorem test_hall_start_refused :
    ((after (exec (.hallStart 3 none) (asked none 18 0 [] (hall 2 0 true)))).rf (boxRsp none 0) 15 0 = 1 ∧ 2 ≤ (asked none 18 0 [] (hall 2 0 true)).hstate 3) ∧
    ((asked none 19 0 [] (hall 2 0 true)).route 3 = none ∧ (asked none 19 0 [] (hall 2 0 true)).route 0 = none) ∧
    ((after (exec (.hallReset 3 0 255 30) (asked none 19 0 [] (hall 2 0 true)))).hphase 3 = 1 ∧ (look ⟨0, 0⟩ (after (exec (.hallReset 3 0 255 30) (asked none 19 0 [] (hall 2 0 true)))).hallRst 3).deadline = 255001000) ∧
    ((after (exec (.hallSetShare 3 2 5 0 0) (hall 1 0 true))).hstate 3 = 1 ∧ (after (exec (.hallReset 3 1 1 1) (hall 2 0 true))).hstate 3 = 2 ∧ (after (exec (.hallQuery 3) (hall 2 0 true))).hstate 3 = 2) ∧
    (after (exec (.hallCreate 3) ((asked none 16 0 [] (hall 0 0 true)).setRf (Reg.glHall 3) 63 42 9))).rf (Reg.glHall 3) 63 42 = 0 := by
  decide +kernel

theorem test_hall_start :
    ((asked none 18 0 [] (hall 1 0 true)).hstate 3 = 1 ∧ (asked none 18 0 [] (hall 1 0 true)).vfOn 3 = true) ∧
    (after (exec (.hallStart 3 none) (asked none 18 0 [] (hall 1 0 true)))).hstate 3 = 2 ∧
    (asked none 18 0 [] (hall 1 0 false)).vfOn 3 = false ∧
    (after (exec (.hallStart 3 none) (asked none 18 0 [] (hall 1 0 false)))).rf (boxRsp none 0) 15 0 = 2 := by
  decide +kernel

theorem test_hall_reset_request :
    HallIdle (asked none 19 0 [] (hall 2 0 true)) 3 ∧
    ((asked none 19 0 [] (hall 2 0 true)).hstate 3 = 2 ∧ (asked none 19 0 [] (hall 2 0 true)).boxCode none = 0x13) ∧
    (after (exec (.hallReset 3 1 255 30) (asked none 19 0 [] (hall 2 0 true)))).hphase 3 = 5 ∧
    (after (exec (.hallReset 3 2 255 30) (asked none 19 0 [] (hall 2 0 true)))).rf (boxRsp none 0) 15 0 = 3 :=
  ⟨idle_of (by decide +kernel), by decide +kernel⟩

theorem test_hall_remove :
    (((asked none 20 0 [] (hall 1 0 true)).setReg (Reg.glHall 3) 0).hstate 3 = 1 ∧ ((asked none 20 0 [] (hall 1 0 true)).setReg (Reg.glHall 3) 0).binsOf 3 (fun b => b.kind = .root || b.kind = .plain) = []) ∧
    (((asked none 20 0 [] (hall 1 0 true)).setReg (Reg.glHall 3) 0).rf (Reg.glHall 3) 41 34 = 0 ∧ ((asked none 20 0 [] (hall 1 0 true)).setReg (Reg.glHall 3) 0).rf (Reg.glHall 3) 33 27 = 0) ∧
    (after (exec (.hallRemove 3) ((asked none 20 0 [] (hall 1 0 true)).setReg (Reg.glHall 3) 0))).hstate 3 = 0 ∧
    (after (exec (.hallRemove 3) (asked none 20 0 [] (hall 2 0 true)))).rf (boxRsp none 0) 15 0 = 1 := by
  decide +kernel

theorem test_hall_query :
    ((asked none 21 0 [] (hall 1 0 true)).hallCreated 3 = true ∧ (asked none 21 0 [] (hall 1 0 true)).hallCreated 4 = false) ∧
    (after (exec (.hallQuery 3) (asked none 21 0 [] (hall 1 0 true)))).rf (boxRsp none 0) 47 32 = 80 ∧
    (after (exec (.hallQuery 3) ((asked none 21 0 [] (hall 1 0 true)).setRf (Reg.glHall 3) 55 42 8))).reg (boxRsp none 4) = 8 ∧
    (after (exec (.hallQuery 4) (asked none 21 0 [] (hall 1 0 true)))).rf (boxRsp none 0) 15 0 = 5 := by
  decide +kernel

theorem test_version :
    ((asked none 1 0 [] (core 2)).boxBusy none = true ∧ (asked none 1 0 [] (core 2)).boxCode none = 1) ∧
    ((told (asked none 1 0 [] (core 2))).signals 0 0 = true ∧ (after (exec (.version) (told (asked none 1 0 [] (core 2))))).out = [.msix 0 0]) ∧
    ((hidden (asked none 1 0 [] (core 2))).withholds 0 0 = true ∧ ((after (exec (.version) (hidden (asked none 1 0 [] (core 2))))).fnCfg 0).pending = [0] ∧ (after (exec (.version) (hidden (asked none 1 0 [] (core 2))))).out = []) := by
  decide +kernel

theorem test_event_read :
    ({ (asked none 32 8 [(1, 1)] (core 2)) with mgrEvents := [⟨1, 2, 3, 4, 9⟩, ⟨5, 6, 7, 8, 9⟩] } : State).boxCode none = 0x20 ∧
    (after (exec (.eventRead) { (asked none 32 8 [(1, 1)] (core 2)) with mgrEvents := [⟨1, 2, 3, 4, 9⟩, ⟨5, 6, 7, 8, 9⟩] })).mgrEvents = [⟨5, 6, 7, 8, 9⟩] ∧
    (after (exec (.eventRead) { (asked none 32 8 [(1, 1)] (core 2)) with mgrEvents := [⟨1, 2, 3, 4, 9⟩, ⟨5, 6, 7, 8, 9⟩] })).reg (boxRsp none 1) = 1 ∧
    (after (exec (.eventRead) { (asked none 32 8 [(1, 1)] (core 2)) with mgrEvents := [⟨1, 2, 3, 4, 9⟩, ⟨5, 6, 7, 8, 9⟩] })).rf (boxRsp none 2) 63 48 = 9 := by
  decide +kernel

/-- A SERVICE request. -/
def service (sub : Nat) (arg : BitVec 64) (s : State) : State :=
  asked none 0x30 24 [(1, BitVec.ofNat 64 sub), (2, arg)] s

/-- The seed of barn 0 ready and prepared. -/
def seeded : State :=
  let s := ((core 2).setRf (Reg.seedSlot 8) 63 61 2).setRf (Reg.coreSthBase 8) 63 63 1
  s.setReg (Reg.coreSthSpInit 8) 0x8000

theorem test_service_status :
    ((service 1 0 (core 2)).boxCode none = 0x30 ∧ (service 1 0 (core 2)).rf (boxReq none 1) 7 0 = 1) ∧
    (after (exec (.serviceStatus) (service 1 0 (core 2)))).boxBusy none = false := by
  decide +kernel

theorem test_service_2 :
    ((service 2 0 seeded).rf Reg.seedCmdStat 63 63 = 0 ∧ (service 2 0 seeded).rf (boxReq none 2) 33 0 = 0) ∧
    (service 2 0 seeded).seedCheck 1 0 = 0 ∧
    ((after (exec (.serviceRespare) (service 2 0 seeded))).rf Reg.seedCmdStat 63 63 = 1 ∧ (after (exec (.serviceRespare) (service 2 0 seeded))).service.cmd = some (seedWord 1 0)) ∧
    (service 2 500 (core 2)).seedCheck 1 500 = 2 ∧
    (after (exec (.serviceRespare) (service 2 500 (core 2)))).rf (boxRsp none 0) 15 0 = 3 := by
  decide +kernel

theorem test_service_3 :
    ((service 3 0 (core 2)).rf Reg.seedCmdStat 63 63 = 0 ∧ (service 3 0 (core 2)).rf (boxReq none 2) 33 0 = 0) ∧
    (service 3 0 (core 2)).seedCheck 2 0 = 0 ∧
    ((after (exec (.serviceRowspare) (service 3 0 (core 2)))).rf Reg.seedCmdStat 63 63 = 1 ∧ (after (exec (.serviceRowspare) (service 3 0 (core 2)))).service.cmd = some (seedWord 2 0)) := by
  decide +kernel

theorem test_service_4 :
    ((service 4 0 ((core 2).setRf (Reg.seedMem 0) 48 48 1)).rf Reg.seedCmdStat 63 63 = 0 ∧ (service 4 0 ((core 2).setRf (Reg.seedMem 0) 48 48 1)).rf (boxReq none 2) 33 0 = 0) ∧
    (service 4 0 ((core 2).setRf (Reg.seedMem 0) 48 48 1)).seedCheck 3 0 = 0 ∧
    ((after (exec (.servicePpr) (service 4 0 ((core 2).setRf (Reg.seedMem 0) 48 48 1)))).rf Reg.seedCmdStat 63 63 = 1 ∧ (after (exec (.servicePpr) (service 4 0 ((core 2).setRf (Reg.seedMem 0) 48 48 1)))).service.cmd = some (seedWord 3 0)) := by
  decide +kernel

theorem test_service_5 :
    ((service 5 0 (core 2)).rf Reg.seedCmdStat 63 63 = 0 ∧ (service 5 0 (core 2)).rf (boxReq none 2) 33 0 = 0) ∧
    (service 5 0 (core 2)).seedCheck 4 0 = 0 ∧
    ((after (exec (.serviceWayspare) (service 5 0 (core 2)))).rf Reg.seedCmdStat 63 63 = 1 ∧ (after (exec (.serviceWayspare) (service 5 0 (core 2)))).service.cmd = some (seedWord 4 0)) := by
  decide +kernel

theorem test_service_6 :
    ((service 6 64 (core 2)).rf Reg.seedCmdStat 63 63 = 0 ∧ (service 6 64 (core 2)).rf (boxReq none 2) 33 0 = 64) ∧
    (service 6 64 (core 2)).seedCheck 5 64 = 0 ∧
    ((after (exec (.serviceCtxrow) (service 6 64 (core 2)))).rf Reg.seedCmdStat 63 63 = 1 ∧ (after (exec (.serviceCtxrow) (service 6 64 (core 2)))).service.cmd = some (seedWord 5 64)) := by
  decide +kernel

theorem test_service_recorder :
    (service 7 0 (core 2)).recorder.queue.length < 64 ∧
    ((after (exec (.serviceFreeze) (service 7 0 (core 2)))).recorder.queue.map (·.code)) = [3] ∧
    (after (exec (.serviceUnfreeze) (service 8 0 (core 2)))).recorder.frozen = none := by
  decide +kernel

/-- A CASCADE request in a state. -/
def cascade (sub st : Nat) : State :=
  asked none 0x40 8 [(1, BitVec.ofNat 64 sub)] ((core 2).setRf Reg.cascState 63 60 st)

theorem test_cascade_status :
    ((cascade 1 4).boxCode none = 0x40 ∧ (cascade 1 4).rf (boxReq none 1) 7 0 = 1) ∧
    (after (exec (.cascadeStatus) (cascade 1 4))).rf (boxRsp none 0) 47 32 = 16 := by
  decide +kernel

theorem test_cascade_promote :
    ((cascade 2 4).part.hasCascade = true ∧ (cascade 2 4).cascSt = 4 ∧ (cascade 2 4).cascPresent ((cascade 2 4).rf Reg.cascState 52 50) = false) ∧
    (after (exec (.cascadePromote) (cascade 2 4))).cascSt = 5 ∧
    (cascade 2 6).cascSt = 6 ∧
    (after (exec (.cascadePromote) (cascade 2 5))).rf (boxRsp none 0) 15 0 = 1 ∧
    ({ (cascade 2 4) with part := { (cascade 2 4).part with variant := .nrm8616 } } : State).part.hasCascade = false ∧
    (after (exec (.cascadePromote) { (cascade 2 4) with part := { (cascade 2 4).part with variant := .nrm8616 } })).rf (boxRsp none 0) 15 0 = 1 := by
  decide +kernel

/-- A RETIME request of a part whose time is suspect. -/
def late3 : State := { (cascade 3 4).setRf Reg.cascTime 63 63 1 with casc := { Casc.reset with lastOff := 999999 } }

theorem test_cascade_retime :
    (late3.rf Reg.cascTime 63 63 = 1 ∧ late3.casc.lastOff.natAbs < 1000000) ∧
    (after (exec (.cascadeRetime) late3)).casc.retime = true := by
  decide +kernel

theorem test_cascade_rejoin :
    (cascade 4 3).cascSt = 3 ∧
    (after (exec (.cascadeRejoin) (cascade 4 3))).cascSt = 2 ∧
    (cascade 4 6).cascSt = 6 := by
  decide +kernel

theorem test_od_read_1 :
    ((asked none 2 8 [(1, 536936704)] (hall 2 0 true)).boxBusy none = true ∧ (asked none 2 8 [(1, 536936704)] (hall 2 0 true)).boxCode none = 2 ∧ (asked none 2 8 [(1, 536936704)] (hall 2 0 true)).pathOpen 1 = true) ∧
    ((asked none 2 8 [(1, 536936704)] (hall 2 0 true)).rf (boxReq none 1) 31 16 = 0x2001 ∧ (asked none 2 8 [(1, 536936704)] (hall 2 0 true)).rf (boxReq none 1) 15 8 = 1 ∧ (asked none 2 8 [(1, 536936704)] (hall 2 0 true)).rf (boxReq none 1) 0 0 = 0) ∧
    ((odEntry (asked none 2 8 [(1, 536936704)] (hall 2 0 true)).part 0x2001 1).size = 1 ∧ (asked none 2 8 [(1, 536936704)] (hall 2 0 true)).odReadBad 1 0x2001 1 = 0) ∧
    (after (exec (.odRead none) (asked none 2 8 [(1, 536936704)] (hall 2 0 true)))).rf (boxRsp none 0) 15 0 = 0 ∧
    ((odEntry (asked none 2 8 [(1, 536987648)] (hall 2 0 true)).part 0x2001 200).size = 1 ∧ (asked none 2 8 [(1, 536987648)] (hall 2 0 true)).odReadBad 1 0x2001 200 = 0x06090011) ∧
    (after (exec (.odRead none) (asked none 2 8 [(1, 536987648)] (hall 2 0 true)))).reg (boxRsp none 1) = 0x06090011 := by
  decide +kernel

theorem test_od_read_5 :
    ((asked (some 3) 2 8 [(1, 536936704)] (hall 2 0 true)).boxBusy (some 3) = true ∧ (asked (some 3) 2 8 [(1, 536936704)] (hall 2 0 true)).boxCode (some 3) = 2 ∧ (asked (some 3) 2 8 [(1, 536936704)] (hall 2 0 true)).pathOpen 5 = true) ∧
    ((asked (some 3) 2 8 [(1, 536936704)] (hall 2 0 true)).rf (boxReq (some 3) 1) 31 16 = 0x2001 ∧ (asked (some 3) 2 8 [(1, 536936704)] (hall 2 0 true)).rf (boxReq (some 3) 1) 15 8 = 1 ∧ (asked (some 3) 2 8 [(1, 536936704)] (hall 2 0 true)).rf (boxReq (some 3) 1) 0 0 = 0) ∧
    ((odEntry (asked (some 3) 2 8 [(1, 536936704)] (hall 2 0 true)).part 0x2001 1).size = 1 ∧ (asked (some 3) 2 8 [(1, 536936704)] (hall 2 0 true)).odReadBad 5 0x2001 1 = 0) ∧
    (after (exec (.odRead (some 3)) (asked (some 3) 2 8 [(1, 536936704)] (hall 2 0 true)))).rf (boxRsp (some 3) 0) 15 0 = 0 ∧
    ((odEntry (asked (some 3) 2 8 [(1, 536987648)] (hall 2 0 true)).part 0x2001 200).size = 1 ∧ (asked (some 3) 2 8 [(1, 536987648)] (hall 2 0 true)).odReadBad 5 0x2001 200 = 0x06090011) ∧
    (after (exec (.odRead (some 3)) (asked (some 3) 2 8 [(1, 536987648)] (hall 2 0 true)))).reg (boxRsp (some 3) 1) = 0x06090011 := by
  decide +kernel

theorem test_od_write :
    ((asked none 3 12 [(1, 1543504384), (2, 77)] (hall 2 0 true)).boxCode none = 3 ∧ (odEntry (asked none 3 12 [(1, 1543504384), (2, 77)] (hall 2 0 true)).part 0x5C00 2).size = 4) ∧
    ((asked none 3 12 [(1, 1543504384), (2, 77)] (hall 2 0 true)).odWriteBad 1 0x5C00 2 ((asked none 3 12 [(1, 1543504384), (2, 77)] (hall 2 0 true)).boxValue none) = 0 ∧ isCommand 0x5C00 = false) ∧
    (((after (exec (.odWrite none) (asked none 3 12 [(1, 1543504384), (2, 77)] (hall 2 0 true)))).path 1).pend.map (·.value)) = [77] ∧
    stageFits (((asked none 3 12 [(1, 1543504384), (2, 77)] (hall 2 0 true)).path 1).whole (stagePut ((asked none 3 12 [(1, 1543504384), (2, 77)] (hall 2 0 true)).path 1).pend { index := 0x5C00, sub := 2, value := 77, bytes := [] })) = true ∧
    (asked none 3 9 [(1, 536936704), (2, 77)] (hall 2 0 true)).odWriteBad 1 0x2001 1 ((asked none 3 9 [(1, 536936704), (2, 77)] (hall 2 0 true)).boxValue none) = 0x06010002 ∧
    (after (exec (.odWrite none) (asked none 3 9 [(1, 536936704), (2, 77)] (hall 2 0 true)))).reg (boxRsp none 1) = 0x06010002 := by
  decide +kernel

theorem test_sdo :
    (((up (core 2)).setRf Reg.ecpStat 63 60 2).pathOpen 0 = true ∧ (up (core 2)).pathOpen 0 = false) ∧
    (((up (core 2)).setRf Reg.ecpStat 63 60 2).odWriteBad 0 0x5C00 2 [1, 2, 0, 0] = 0 ∧ ((up (core 2)).setRf Reg.ecpStat 63 60 2).odWriteBad 0 0x5C00 2 [1, 2] = 0x06070013 ∧ ((up (core 2)).setRf Reg.ecpStat 63 60 2).odReadBad 0 0x5C00 2 = 0) ∧
    (((after (exec (.sdoRequest .download 0x5C00 2 false [1, 2, 0, 0]) ((up (core 2)).setRf Reg.ecpStat 63 60 2))).path 0).pend.map (·.value)) = [513] ∧
    (after (exec (.sdoRequest .download 0x5C00 2 false [1, 2]) ((up (core 2)).setRf Reg.ecpStat 63 60 2))).out = [.sdo 0x06070013 []] ∧
    (after (exec (.sdoRequest .upload 0x2740 2 false []) (((up State.reset).setObj 0x2740 2 5).setRf Reg.ecpStat 63 60 2))).out = [.sdo 0 [5]] ∧
    ((after (exec (.sdoRequest .download 0x5C00 2 false [1, 2, 0, 0]) (up (core 2)))).path 0).pend = [] ∧
    (after (exec (.sdoRequest .object 0x5C00 2 false []) ((up (core 2)).setRf Reg.ecpStat 63 60 2))).out = [.odInfo 0 [0x5C00, subTop (core 2).part 0x5C00]] ∧
    (after (exec (.sdoRequest .entry 0x5C00 2 false []) ((up (core 2)).setRf Reg.ecpStat 63 60 2))).out = [.odInfo 0 [0x5C00, 2, 4, 0]] ∧
    (after (exec (.sdoRequest .object 0x5FFF 2 false []) ((up (core 2)).setRf Reg.ecpStat 63 60 2))).out = [.odInfo 0x06020000 []] ∧
    ((core 2).setRf Reg.ecpStat 63 60 2).pathOpen 0 = false := by
  decide +kernel

/-- Queue 4 of running hall 3 with a size, enabled, TAIL and HEAD. -/
def queued (en size tail head : Nat) : State :=
  let s := (hall 2 0 true).setFn 3 { FnCfg.reset with master := true, msixOn := true, msixMask := false, unmasked := [4, 63] }
  let s := (s.setRf (Reg.qCfg 3 4) 59 56 size).setRf (Reg.qCfg 3 4) 63 63 en
  ((s.setRf (Reg.qPtr 3 4) 63 48 tail).setRf (Reg.qPtr 3 4) 47 32 head).setRf (Reg.hallShare 3) 47 34 8

theorem test_doorbell :
    Admits (queued 1 4 0 0) (Initiator.vf 3) (Reg.qPtr 3 4) ∧
    ((queued 1 4 0 0).hstate 3 = 2 ∧ 15 < 2 ^ (queued 1 4 0 0).rf (Reg.qCfg 3 4) 59 56 ∧ (queued 1 4 0 0).rf (Reg.qCfg 3 4) 62 62 = 0) ∧
    ((after (exec (.doorbell (.vf 3) 3 4 15) (queued 1 4 0 0))).rf (Reg.qPtr 3 4) 63 48 = 15 ∧ 100 ∈ (after (exec (.doorbell (.vf 3) 3 4 15) (queued 1 4 0 0))).rings) ∧
    (after (exec (.doorbell (.vf 3) 3 4 16) (queued 1 4 0 0))).rf (Reg.qPtr 3 4) 63 48 = 0 :=
  ⟨admits_of (by decide +kernel), by decide +kernel⟩

/-- SCN 9 of hall 3 waits for a doorbell of queue 4. -/
def ringing (w : Wait) (en : Nat) : State :=
  let s := ((queued 1 4 0 0).setRf (Reg.qCfg 3 4) 63 62 en).setSlot 6 { Slot.reset with scn := some 9, regs := regsAt 0 words }
  s.setCtx 9 { SwCtx.reset with st := .waiting, hcn := 6, hall := 3, wait := some w, homeLcn := 0xFF }

theorem test_doorbell_wakes :
    (ringing (.doorbell 4) 2).waiters (fun c w => c.hall = 3 && w = .doorbell 4) = [9] ∧
    Admits (ringing (.doorbell 4) 2) (Initiator.vf 3) (Reg.qPtr 3 4) ∧
    (((after (exec (.doorbell (.vf 3) 3 4 15) (ringing (.doorbell 4) 2))).ctx 9).st = .ready ∧ (after (exec (.doorbell (.vf 3) 3 4 15) (ringing (.doorbell 4) 2))).rings = []) ∧
    (((ringing (.doorbell 4) 2).ctx 9).deferred = [] ∧ stSs ((ringing (.doorbell 4) 2).slot 6).regs.status = false) ∧
    (ringing (.doorbell 4) 3).rf (Reg.qCfg 3 4) 63 62 = 3 ∧
    (after (exec (.doorbell (.vf 3) 3 4 15) (ringing (.doorbell 4) 3))).rf (Reg.qPtr 3 4) 47 32 = 15 :=
  ⟨by decide +kernel, admits_of (by decide +kernel), by decide +kernel⟩

theorem test_q_cfg :
    Admits (queued 0 4 3 2) (Initiator.vf 3) (Reg.qCfg 3 4) ∧
    Admits (queued 0 4 3 2) .pf (Reg.qCfg 3 4) ∧
    ((queued 0 4 3 2).rf (Reg.qCfg 3 4) 63 63 = 0 ∧ fld (setFld (setFld 0 63 63 1) 59 56 12) 63 63 = 1 ∧ fld (setFld (setFld 0 63 63 1) 59 56 12) 59 56 = 12 ∧ fld (setFld (setFld 0 63 63 1) 59 56 12) 52 0 = 0 ∧ fld (setFld (setFld 0 63 63 1) 59 56 12) 60 60 = 0) ∧
    ((after (exec (.qCfgWrite (.vf 3) 3 4 (setFld (setFld 0 63 63 1) 59 56 12)) (queued 0 4 3 2))).reg (Reg.qPtr 3 4) = 0 ∧ (after (exec (.qCfgWrite (.vf 3) 3 4 (setFld (setFld 0 63 63 1) 59 56 12)) (queued 0 4 3 2))).rf (Reg.qCfg 3 4) 59 56 = 12) :=
  ⟨admits_of (by decide +kernel), admits_of (by decide +kernel), by decide +kernel⟩

theorem test_hq_notify :
    Admits (core 2) (.ctx 7 2) (Reg.hqNotify 0) ∧
    (((core 2).hstate 0 = 2 ∧ (core 2).isCtxOf (.ctx 7 2) 0 = true) ∧
      bit ((after (exec (.hqNotifySet (.ctx 7 2) 0 0x20000000) (core 2))).reg (Reg.hqNotify 0)) 29 = true ∧
      ((queued 1 4 0 0).signals 3 63 = true ∧ (queued 1 4 0 0).withholds 3 62 = true)) ∧
    Admits (ringing (.doorbell 4) 2) (.ctx 9 1) (Reg.hqNotify 3) ∧
    (ringing (.doorbell 4) 2).isCtxOf (.ctx 9 1) 3 = true ∧
    (((after (exec (.hqNotifySet (.ctx 9 1) 3 0x30000000) (ringing (.doorbell 4) 2))).out.contains (.msix 3 63)) = true ∧ ((after (exec (.hqNotifySet (.ctx 9 1) 3 0x30000000) (ringing (.doorbell 4) 2))).fnCfg 3).pending = [62]) :=
  ⟨admits_of (by decide +kernel), by decide +kernel, admits_of (by decide +kernel), by decide +kernel⟩

theorem test_descriptor_fetch :
    ((queued 1 4 3 15).fetchable 3 4 = true ∧ (queued 1 4 0 0).fetchable 3 4 = false) ∧
    (after (exec (.descriptorFetch 3 4 none) (queued 1 4 3 15))).rf (Reg.qCfg 3 4) 60 60 = 1 ∧
    (queued 1 4 3 15).xeOps 3 < (queued 1 4 3 15).rf (Reg.hallShare 3) 47 34 ∧
    (badDescriptor ⟨3, 4, 0, 1, 15, true, [setFld 0 63 40 0, 0, 0, 0], true, 0, 0, 0, false⟩ = false ∧ badDescriptor ⟨3, 4, 0, 1, 15, true, [setFld 0 63 40 0, 0, 0, setFld 0 40 40 1], true, 0, 0, 0, false⟩ = true) ∧
    (((after (exec (.descriptorFetch 3 4 (some [setFld 0 63 40 0, 0, 0, 0])) (queued 1 4 3 15))).xe.map (fun o => (o.status, o.counted))) = [(0, true)] ∧ (after (exec (.descriptorFetch 3 4 (some [setFld 0 63 40 0, 0, 0, 0])) (queued 1 4 3 15))).rf (Reg.qPtr 3 4) 47 32 = 0) ∧
    ((after (exec (.descriptorFetch 3 4 (some [setFld 0 63 40 0, 0, 0, setFld 0 40 40 1])) (queued 1 4 3 15))).xe.map (·.status)) = [5] ∧
    ((after (exec (.descriptorFetch 3 4 (some [setFld 0 63 40 0, 0, 0, 0])) ((queued 1 4 3 15).setRf (Reg.hallShare 3) 47 34 0))).xe.map (fun o => (o.status, o.counted))) = [(3, false)] ∧
    ((queued 1 4 3 15).setRf (Reg.hallShare 3) 47 34 0).rf (Reg.hallShare 3) 47 34 ≤ ((queued 1 4 3 15).setRf (Reg.hallShare 3) 47 34 0).xeOps 3 := by
  decide +kernel

/-- Two queues of hall 3 with entries on one engine are served in turn (R441). -/
theorem test_round_robin :
    let s := (((queued 1 4 3 0).setReg (Reg.qCfg 3 9) ((queued 1 4 3 0).reg (Reg.qCfg 3 4))).setRf (Reg.qPtr 3 9) 63 48 3)
    let t := after (exec (.descriptorFetch 3 4 (some [0, 0, 0, 0])) s)
    (s.fetchable 3 4 = true ∧ s.fetchable 3 9 = false) ∧ (t.fetchable 3 4 = false ∧ t.fetchable 3 9 = true) := by
  decide +kernel

/-- A descriptor of that queue at its engine, with a status. -/
def moving (st : Nat) : State :=
  { queued 1 4 3 3 with xe := [⟨3, 4, 0, 1, 2, true, [0, 0, 0, 0], true, st, 0, 0, false⟩] }

/-- A descriptor that moves one word of WIRE mode, in or out. -/
def wiring (inn : Bool) : State :=
  let o : XeOp := ⟨3, 4, 0, 1, 2, true, [setFld (setFld (setBit 0 7 true) 63 40 16) 3 3 (if inn then 1 else 0), 0x9000, 0, 0], true, 0, 0x5000, 8, false⟩
  { (queued 1 4 3 3).setMemWord 0x5008 (fix 77) with xe := [o] }

theorem test_descriptor_wire :
    (((wiring true).xeNext 3 0).isSome = true ∧ (wiring true).xeOn 3 = true ∧ (wiring true).compat 3 = false) ∧
    ((wiring true).xe.all (fun o => o.mode = 0 && o.len = 16 && o.inbound && !(wiring true).xeFenced o) = true ∧ (wiring false).xe.all (fun o => !o.inbound) = true) ∧
    ((wiring true).planted = [] ∧ bit ((wiring true).reg Reg.devMemInj) 0 = false) ∧
    ((after (exec (.descriptorComplete 3 0 (wireBytes (fix 99)) 16 false false []) (wiring true))).memWord 0x5008 = fix 99 ∧ (after (exec (.descriptorComplete 3 0 (wireBytes (fix 99)) 16 false false []) (wiring true))).rf (Reg.xeHcnt 3 0) 31 0 = 1) ∧
    ((after (exec (.descriptorComplete 3 0 (wireBytes (fix 99)) 16 false false []) (wiring true))).out.contains (.hostRead 3 0x9000 16) = true ∧ (after (exec (.descriptorComplete 3 0 (wireBytes (fix 99)) 16 false false []) (wiring true))).out.head? = some (.msix 3 4)) ∧
    ((after (exec (.descriptorComplete 3 0 [] 16 false false []) (wiring false))).out.contains (.hostWrite 3 0x9000 (wireBytes (fix 77))) = true ∧ (after (exec (.descriptorComplete 3 0 [] 16 false false []) (wiring false))).xe = []) := by
  decide +kernel

theorem test_descriptor_image :
    (XeOp.mk 3 4 0 1 15 true [setFld (setFld 0 63 40 16) 5 4 2, 0, 0, 0] true 0 0 0 false).mode = 2 ∧
    (badDescriptor ⟨3, 4, 0, 1, 15, true, [setFld (setFld 0 63 40 16) 5 4 2, 0x9000, 0, 0], true, 0, 0, 0, false⟩ = false ∧ (queued 1 4 3 15).rf (Reg.qCfg 3 4) 61 61 = 0) ∧
    ((after (exec (.descriptorFetch 3 4 (some [setFld (setFld 0 63 40 16) 5 4 2, 0x9000, 0, 0])) (queued 1 4 3 15))).xe.map (·.status)) = [6] ∧
    (after (exec (.descriptorFetch 3 4 none) (queued 1 4 3 15))).out.contains (.hostRead 3 480 32) = true := by
  decide +kernel

theorem test_descriptor_complete :
    (moving 5).xeNext 3 0 = some ⟨3, 4, 0, 1, 2, true, [0, 0, 0, 0], true, 5, 0, 0, false⟩ ∧
    ((moving 5).xeOn 3 = true ∧ (moving 5).xeFenced ⟨3, 4, 0, 1, 2, true, [0, 0, 0, 0], true, 5, 0, 0, false⟩ = false) ∧
    (XeOp.mk 3 4 0 1 2 true [0, 0, 0, 0] true 0 0 0 false).len = 0 ∧
    (moving 5).ctxs.all (fun c => c.2.wait.isNone) = true ∧
    (after (exec (.descriptorComplete 3 0 [] 0 false false []) (moving 5))).xe = [] ∧
    (after (exec (.descriptorComplete 3 0 [] 0 false false []) (moving 0))).rf (Reg.xeHcnt 3 0) 31 0 = 1 ∧
    (moving 0).xeNext 3 1 = none := by
  decide +kernel

/-! Commits, command objects and the networks. -/

/-- One age threshold staged on the manager path, with a commit in progress or not. -/
def staged1 (c : Option Commit) (s : State) : State :=
  (up s).setPath 1 { PathSt.reset with pend := [⟨0x5C00, 2, 900, []⟩], commit := c }

theorem test_commit :
    ((staged1 none (core 2)).pathOpen 1 = true ∧ ((staged1 none (core 2)).path 1).pend = [⟨0x5C00, 2, 900, []⟩]) ∧
    (staged1 none (core 2)).commitBad 1 [⟨0x5C00, 2, 900, []⟩] 0 0 = none ∧
    ((after (exec (.commitImmediate 1) (staged1 none (core 2)))).rf (Reg.ageThr 1) 31 0 = 900 ∧ ((after (exec (.commitImmediate 1) (staged1 none (core 2)))).path 1).status = 3) ∧
    ((after (exec (.discard 1) (staged1 none (core 2)))).path 1).pend = [] := by
  decide +kernel

theorem test_commit_armed :
    ((staged1 none (((core 2).setRf Reg.eclCyc 63 55 32).setRf Reg.eclCfg 63 62 1)).commitBad 1 [⟨0x5C00, 2, 900, []⟩] 1 0 = none ∧ (staged1 none (((core 2).setRf Reg.eclCyc 63 55 32).setRf Reg.eclCfg 63 62 1)).linePeriod ≠ 0) ∧
    (((after (exec (.commitNextCycle 1) (staged1 none (((core 2).setRf Reg.eclCyc 63 55 32).setRf Reg.eclCfg 63 62 1)))).path 1).commit.map (·.boundary)) = some 1 ∧
    ((staged1 none ((core 2).setRf (Reg.axPitchLen 0) 47 0 0x10000)).commitBad 1 [⟨0x5C00, 2, 900, []⟩] 2 0 = none ∧ (staged1 none ((core 2).setRf (Reg.axPitchLen 0) 47 0 0x10000)).pitchLen 0 ≠ 0) ∧
    (((after (exec (.commitNextPitch 1) (staged1 none ((core 2).setRf (Reg.axPitchLen 0) 47 0 0x10000)))).path 1).commit.map (·.boundary)) = some 2 := by
  decide +kernel

/-- A write staged that an override refuses. -/
def refusedSet : State :=
  ((up (core 2)).setRf (Reg.devOvr 1) 0 0 1).setPath 1 { PathSt.reset with pend := [⟨0x4100, 1, 5, []⟩] }

theorem test_commit_refused :
    (refusedSet.commitBad 1 (refusedSet.path 1).pend 0 0).isSome = true ∧
    (((after (exec (.commitImmediate 1) refusedSet)).path 1).status = 4 ∧ ((after (exec (.commitImmediate 1) refusedSet)).path 1).badAbort = 0x08000022) := by
  decide +kernel

theorem test_commit_boundary :
    ((staged1 (some ⟨2, 0, 0, 0, 0, 0, [⟨0x5C00, 2, 900, []⟩], []⟩) { (core 2) with dt := 2000000000 }).path 1).commit.isSome = true ∧
    (staged1 (some ⟨2, 0, 0, 0, 0, 0, [⟨0x5C00, 2, 900, []⟩], []⟩) { (core 2) with dt := 2000000000 }).armedBy (staged1 (some ⟨2, 0, 0, 0, 0, 0, [⟨0x5C00, 2, 900, []⟩], []⟩) { (core 2) with dt := 2000000000 }).boundaryReached = [(1, ⟨2, 0, 0, 0, 0, 0, [⟨0x5C00, 2, 900, []⟩], []⟩)] ∧
    (after (exec (.commitBoundary) (staged1 (some ⟨2, 0, 0, 0, 0, 0, [⟨0x5C00, 2, 900, []⟩], []⟩) { (core 2) with dt := 2000000000 }))).rf (Reg.ageThr 1) 31 0 = 900 ∧
    (staged1 none (core 2)).armedBy (staged1 none (core 2)).boundaryReached = [] ∧
    ((after (exec (.discard 1) (staged1 (some ⟨2, 0, 0, 0, 0, 0, [⟨0x5C00, 2, 900, []⟩], []⟩) { (core 2) with dt := 2000000000 }))).path 1).pend = [⟨0x5C00, 2, 900, []⟩] := by
  decide +kernel

theorem test_commit_timeout :
    (((staged1 (some ⟨2, 0, 0, 0, 0, 0, [⟨0x5C00, 2, 900, []⟩], []⟩) { (core 2) with dt := 2000000000 }).setRf (Reg.axPitchLen 0) 47 0 0x10000).pitchWaits 0 = true ∧ ((staged1 (some ⟨2, 0, 0, 0, 0, 0, [⟨0x5C00, 2, 900, []⟩], []⟩) { (core 2) with dt := 2000000000 }).setRf (Reg.axPitchLen 0) 47 0 0x10000).boundaryReached ⟨2, 0, 0, 0, 0, 0, [⟨0x5C00, 2, 900, []⟩], []⟩ = false) ∧
    0 + 1000000 * (((staged1 (some ⟨2, 0, 0, 0, 0, 0, [⟨0x5C00, 2, 900, []⟩], []⟩) { (core 2) with dt := 2000000000 }).setRf (Reg.axPitchLen 0) 47 0 0x10000).path 1).timeout ≤ ((staged1 (some ⟨2, 0, 0, 0, 0, 0, [⟨0x5C00, 2, 900, []⟩], []⟩) { (core 2) with dt := 2000000000 }).setRf (Reg.axPitchLen 0) 47 0 0x10000).dt.toNat ∧
    ((after (exec (.commitTimeout 1) ((staged1 (some ⟨2, 0, 0, 0, 0, 0, [⟨0x5C00, 2, 900, []⟩], []⟩) { (core 2) with dt := 2000000000 }).setRf (Reg.axPitchLen 0) 47 0 0x10000))).path 1).badAbort = 0x08000022 ∧
    ((after (exec (.commitTimeout 1) { ((staged1 (some ⟨2, 0, 0, 0, 0, 0, [⟨0x5C00, 2, 900, []⟩], []⟩) { (core 2) with dt := 2000000000 }).setRf (Reg.axPitchLen 0) 47 0 0x10000) with dt := 5 })).path 1).commit.isSome = true := by
  decide +kernel

theorem test_transition :
    [(⟨0x4181, 1, 0, natBytes 8 0x777 ++ natBytes 8 0x888⟩ : Staged)].find? (fun e => e.index = 0x4180 + 1) = some ⟨0x4181, 1, 0, natBytes 8 0x777 ++ natBytes 8 0x888⟩ ∧
    (((after (exec (.transitionStep 1) (staged1 (some ⟨0, 0, 0, 0, 0, 0, [⟨0x4181, 1, 0, natBytes 8 0x777 ++ natBytes 8 0x888⟩], [.bank 1 0, .hall true]⟩) (core 2)))).path 1).trDone = 1 ∧ (after (exec (.transitionStep 1) (staged1 (some ⟨0, 0, 0, 0, 0, 0, [⟨0x4181, 1, 0, natBytes 8 0x777 ++ natBytes 8 0x888⟩], [.bank 1 0, .hall true]⟩) (core 2)))).reg (Reg.ptabShadow 1 1) = 0x888) ∧
    (((after (exec (.transitionStep 1) (staged1 (some ⟨0, 0, 0, 0, 0, 0, [⟨0x4181, 1, 0, natBytes 8 0x777 ++ natBytes 8 0x888⟩], [.bank 1 0, .hall true]⟩) (core 2)))).path 1).commit.map (·.steps)) = some [.hall true] := by
  decide +kernel

theorem test_command_objects :
    (after (exec (.storeParameters 1 0x65766173) (up (core 2)))).params.isSome = true ∧
    (after (exec (.storeParameters 1 0x65766172) (up (core 2)))).params = none ∧
    ((up (core 2)).calOverridden = false ∧ ((up (core 2)).setRf (Reg.devOvr 1) 0 0 1).calOverridden = true) ∧
    ((up (core 2)).stopState = 0 ∧ (after (exec (.stopObject 1 1) (up (core 2)))).stopState = 1) ∧
    ((up (stop 2 0)).rf Reg.axStop 61 60 = 0 ∧ (after (exec (.stopObject 1 2) (up (stop 2 0)))).stopState = 0) ∧
    (after (exec (.esmRequest 1 8) (up (core 2)))).obj 0x2A11 1 = 8 ∧
    (after (exec (.clearEmergency 1 1) { (up (core 2)) with emcy := ⟨5, [], none⟩ })).emcy.obj1001 = 0 ∧
    (after (exec (.clearOverride 1 5 6) ((up (core 2)).setReg (Reg.devOvr 5) 6))).reg (Reg.devOvr 5) = 0 ∧
    (after (exec (.patchUnlock 1 0x68637470) (up (core 2)))).patch.unlocked = true ∧
    (after (exec (.patchUnlock 1 5) (up (core 2)))).patch.unlocked = false ∧
    (after (exec (.jtagUnlock 1 0x6A746167) (up (core 2)))).jtagUnlocked = true := by
  decide +kernel

theorem test_pdo_mapping :
    (((up (core 2)).setRf Reg.ecpStat 63 60 2).plantAl = 2 ∧ mappable true 0x60000120 = true) ∧
    (after (exec (.pdoMapping 0 0x1600 1 0x60000120) ((up (core 2)).setRf Reg.ecpStat 63 60 2))).obj 0x1600 1 = 0x60000120 ∧
    ((up (core 2)).setRf Reg.ecpStat 63 60 8).plantAl = 8 ∧
    (after (exec (.pdoMapping 0 0x1600 1 0x60000120) ((up (core 2)).setRf Reg.ecpStat 63 60 8))).out = [.sdo 0x08000022 []] := by
  decide +kernel

/-- The line on or off, with a cycle open or not. -/
def line (mode : Nat) (open_ : Bool) : State :=
  let s := (((core 2).setRf Reg.eclCfg 63 62 mode).setRf (Reg.devOvr 0) 3 3 1).setRf Reg.eclCyc 63 55 32
  { s with line := { s.line with sent := if open_ then some 0 else none } }

theorem test_line :
    ((line 0 false).lineOn = false ∧ (line 1 false).lineOn = true) ∧
    ((after (exec (.lineCycleStart) (line 0 false))).lineOpen = false ∧ (after (exec (.lineCycleStart) (line 1 false))).lineOpen = true) ∧
    (∀ k, k < (line 1 false).part.cams → (line 1 false).rf (Reg.eclCamnet k) 63 63 = 0) := by
  decide +kernel

/-- Datagram 5, an LWR of two bytes at image offset 8 in frame 2, leaves at LBASE + 8 (R469). -/
theorem test_line_frame :
    let s := (line 1 false).setReg (Reg.eclFt 5) (setFld (setFld (setFld (setFld (setFld 0 63 63 1) 59 56 2) 55 48 11) 44 34 2) 31 20 8)
    s.gramsOf 2 = [5] ∧ (after (exec .lineCycleStart s)).out =
      [.lineClock [0] 0 (some (s.dt + s.reg Reg.eclDcOfs)), .lineFrame [0] (s.dt.toNat / s.linePeriod) 2 [⟨11, 0x10008, [0, 0]⟩]] := by
  decide +kernel

theorem test_frame_return :
    (∀ i, i < 64 → (line 1 true).rf (Reg.eclFt i) 63 63 = 0) ∧
    ((line 1 true).lineOpen = true ∧ (line 1 true).rf Reg.eclStat 60 60 = 0 ∧ (line 1 true).rf Reg.eclCfg 63 62 = 1) ∧
    ((after (exec (.frameReturn [] none ⟨none, none, none⟩) (line 1 true))).rf Reg.eclCyc 31 0 = 1 ∧ (after (exec (.frameReturn [] none ⟨none, none, none⟩) (line 1 true))).lineOpen = false) ∧
    (after (exec (.frameReturn [] none ⟨none, none, none⟩) (line 1 false))).rf Reg.eclCyc 31 0 = 0 := by
  decide +kernel

theorem test_ecl_mode :
    Admits (line 0 false) (.ctx 7 2) Reg.eclCfg ∧
    ((line 0 false).privileged (.ctx 7 2) = true ∧ (line 0 false).lineBad = false) ∧
    (fld (setFld (setFld 0 63 62 1) 31 0 9) 63 62 = 1 ∧ fld (setFld (setFld 0 63 62 1) 31 0 9) 59 32 = 0 ∧ (line 0 false).rf (Reg.devOvr 0) 3 3 = 1) ∧
    (after (exec (.eclModeWrite (.ctx 7 2) (setFld (setFld 0 63 62 1) 31 0 9)) (line 0 false))).rf Reg.eclCfg 63 62 = 1 ∧
    (after (exec (.eclModeWrite (.ctx 7 2) (setFld (setFld 0 63 62 1) 31 0 9)) ((line 0 false).setRf (Reg.devOvr 0) 3 3 0))).rf (Reg.devOvr 0) 3 3 = 1 ∧
    (((line 0 false).setRf (Reg.eclFt 0) 63 63 1).setRf Reg.eclCyc 63 55 0).lineBad = true ∧
    (after (exec (.eclModeWrite (.ctx 7 2) (setFld (setFld 0 63 62 1) 31 0 9)) (((line 0 false).setRf (Reg.eclFt 0) 63 63 1).setRf Reg.eclCyc 63 55 0))).rf Reg.eclStat 59 59 = 1 :=
  ⟨admits_of (by decide +kernel), by decide +kernel⟩

theorem test_al_state :
    (alAllowed ((core 2).setRf Reg.ecpStat 63 60 2).plantAl 4 = true ∧ ((core 2).setRf Reg.ecpStat 63 60 2).emcy.burst = none) ∧
    (after (exec (.alStateRequest (.al 4)) ((core 2).setRf Reg.ecpStat 63 60 2))).plantAl = 4 ∧
    alAllowed ((core 2).setRf Reg.ecpStat 63 60 2).plantAl 8 = false ∧
    ((after (exec (.alStateRequest (.al 8)) ((core 2).setRf Reg.ecpStat 63 60 2))).plantAl = 2 ∧ (after (exec (.alStateRequest (.al 8)) ((core 2).setRf Reg.ecpStat 63 60 2))).rf Reg.ecpStat 47 32 = 0x11) ∧
    ((after (exec (.sm2Watchdog) ((core 2).setRf Reg.ecpStat 63 60 8))).plantAl = 4 ∧ (after (exec (.sm2Watchdog) ((core 2).setRf Reg.ecpStat 63 60 8))).rf Reg.ecpStat 47 32 = 0x1B) ∧
    (after (exec (.sm2Watchdog) ((core 2).setRf Reg.ecpStat 63 60 2))).plantAl = 2 ∧
    (after (exec (.sync0 5) ((core 2).setRf Reg.ecpStat 63 60 2))).reg Reg.ecpDcPlant = 5 := by
  decide +kernel

/-- The plant in a state, with one entry of 0x6000 and of 0x6100 mapped. -/
def plant (al : Nat) : State :=
  let s := (core 2).setRf Reg.ecpStat 63 60 al
  let s := ((s.setObj 0x1C12 0 1).setObj 0x1C12 1 0x1600).setObj 0x1600 0 1
  let s := (s.setObj 0x1600 1 0x60000320).setObj 0x1C13 0 1
  ((s.setObj 0x1C13 1 0x1A00).setObj 0x1A00 0 1).setObj 0x1A00 1 0x61000120

theorem test_process_data :
    ((plant 8).plantAl = 8 ∧ (plant 8).pdoMap 0x1C12 = [0x60000000 + 0x100 * 3 + 32]) ∧
    (after (exec (.plantProcessData [1, 2, 3, 4]) (plant 8))).reg (Reg.ecpRxd 2) = 0x04030201 ∧
    ((plant 4).plantAl = 4 ∧ (plant 4).pdoMap 0x1C13 = [0x61000120]) ∧
    (after (exec (.plantProcessData [1, 2, 3, 4]) (plant 4))).out = [.plantFrame [0, 0, 0, 0]] ∧
    (after (exec (.plantProcessData [1, 2, 3, 4]) (plant 2))).out = [] := by
  decide +kernel

/-! The Cascade Link. -/

/-- The part at a state of CASC_STATE with master 3 and epoch 9, at DT 2000000, and what its unit keeps. -/
def casc (st : Nat) (c : Casc) : State :=
  let s := ((core 2).setRf Reg.cascState 63 60 st).setRf Reg.cascState 52 50 3
  { s.setRf Reg.cascState 31 16 9 with dt := 2000000, casc := c }

theorem test_link :
    ((casc 1 { Casc.reset with trained := true }).part.hasCascade = true ∧ 3 ≠ (casc 1 { Casc.reset with trained := true }).cascId) ∧
    (after (exec (.linkTrained true) (casc 1 { Casc.reset with trained := true }))).rf Reg.cascState 41 41 = 1 ∧
    (after (exec (.ringBreak 1) (casc 1 { Casc.reset with trained := true }))).rf Reg.cascState 15 0 = 1 ∧
    look 0 (after (exec (.linkDelayMeasure 3 30) (casc 1 { Casc.reset with trained := true }))).casc.delays 1 = 30 ∧
    (after (exec (.syncSend) (casc 5 { Casc.reset with trained := true }))).out.length = 1 ∧
    (after (exec (.syncSend) (casc 4 { Casc.reset with trained := true }))).out = [] := by
  decide +kernel

theorem test_sync_cell :
    (((casc 1 { Casc.reset with trained := true }).dt.toNat : Int) - (1999000 : Int) - (100 : Int)).natAbs < 1000000 ∧
    ((after (exec (.syncCell ⟨3, 0, 0⟩ 10 1999000 100 (casc 1 { Casc.reset with trained := true }).joinVals) (casc 1 { Casc.reset with trained := true }))).cascSt = 2 ∧ (after (exec (.syncCell ⟨3, 0, 0⟩ 10 1999000 100 (casc 1 { Casc.reset with trained := true }).joinVals) (casc 1 { Casc.reset with trained := true }))).rf Reg.cascState 31 16 = 10) ∧
    ((casc 4 { Casc.reset with trained := true }).cascSt = 4 ∧ (casc 4 { Casc.reset with trained := true }).rf Reg.cascState 52 50 = 3 ∧ (casc 4 { Casc.reset with trained := true }).rf Reg.cascState 31 16 = 9) ∧
    ((after (exec (.syncCell ⟨3, 0, 0⟩ 9 1999800 100 []) (casc 4 { Casc.reset with trained := true }))).rf Reg.cascTime 31 0 = 100 ∧ (after (exec (.syncCell ⟨3, 0, 0⟩ 9 1999800 100 []) (casc 4 { Casc.reset with trained := true }))).dt = 2000000) ∧
    (after (exec (.syncCell ⟨3, 0, 0⟩ 9 2000000 100 []) (casc 4 { Casc.reset with trained := true }))).casc.lastOff = -100 ∧
    (after (exec (.syncCell ⟨(casc 4 { Casc.reset with trained := true }).cascId, 0, 0⟩ 9 5 5 []) (casc 4 { Casc.reset with trained := true }))).cascSt = 3 := by
  decide +kernel

theorem test_no_link :
    ({ (casc 1 { Casc.reset with trained := true }) with part := { (casc 1 { Casc.reset with trained := true }).part with variant := .nrm8616 } } : State).part.hasCascade = false ∧
    ((after (exec (.linkTrained true) ({ (casc 1 { Casc.reset with trained := true }) with part := { (casc 1 { Casc.reset with trained := true }).part with variant := .nrm8616 } } : State))).rf Reg.cascState 41 41 = 0 ∧ (after (exec (.syncSend) ({ (casc 1 { Casc.reset with trained := true }) with part := { (casc 1 { Casc.reset with trained := true }).part with variant := .nrm8616 } } : State))).out = [] ∧ (after (exec (.syncCell ⟨3, 0, 0⟩ 10 1999000 100 []) ({ (casc 1 { Casc.reset with trained := true }) with part := { (casc 1 { Casc.reset with trained := true }).part with variant := .nrm8616 } } : State))).cascSt = 1) := by
  decide +kernel

theorem test_sync_old :
    ((casc 4 { Casc.reset with trained := true }).cascSt = 4 ∧ 2 ≠ (casc 4 { Casc.reset with trained := true }).rf Reg.cascState 52 50 ∧ 8 < (casc 4 { Casc.reset with trained := true }).rf Reg.cascState 31 16) ∧
    (look 0 (after (exec (.syncCell ⟨2, 0, 0⟩ 9 1999800 100 []) (casc 4 { Casc.reset with trained := true }))).casc.heard 2 = 2000001 ∧ (after (exec (.syncCell ⟨2, 0, 0⟩ 9 1999800 100 []) (casc 4 { Casc.reset with trained := true }))).casc.lastSync = none) ∧
    (look 0 (after (exec (.syncCell ⟨3, 0, 0⟩ 8 1999800 100 []) (casc 4 { Casc.reset with trained := true }))).casc.heard 3 = 2000001 ∧ (after (exec (.syncCell ⟨3, 0, 0⟩ 8 1999800 100 []) (casc 4 { Casc.reset with trained := true }))).casc.lastSync = none) ∧
    ((after (exec (.syncLoss) (casc 4 { Casc.reset with trained := true }))).cascSt = 4 ∧ (casc 4 { Casc.reset with trained := true }).casc.lastSync = none ∧ (casc 4 { Casc.reset with trained := true }).casc.tolFrom = none) ∧
    (after (exec (.joinComplete) (casc 4 { Casc.reset with trained := true }))).cascSt = 4 := by
  decide +kernel

theorem test_sync_loss :
    (after (exec (.syncLoss) (casc 4 { Casc.reset with lastSync := some 1900000 }))).cascSt = 6 ∧
    (after (exec (.syncLoss) (casc 4 { Casc.reset with lastSync := some 1900001 }))).cascSt = 4 ∧
    (after (exec (.joinComplete) (casc 2 { Casc.reset with tolFrom := some 1000000 }))).cascSt = 4 ∧
    (after (exec (.joinComplete) (casc 2 { Casc.reset with tolFrom := some 1000001 }))).cascSt = 2 := by
  decide +kernel

theorem test_join :
    Admits (casc 1 { Casc.reset with trained := true }) (.ctx 7 2) Reg.cascJoin ∧
    (casc 1 { Casc.reset with trained := true }).kernelOrPf (.ctx 7 2) = true ∧
    (after (exec (.cascJoinWrite (.ctx 7 2) 0x5000000000007) (casc 1 { Casc.reset with trained := true }))).reg Reg.cascJoin = 0x5000000000007 ∧
    (after (exec (.joinAnnouncement ⟨3, 0, 0⟩ [1, 2, 3, 4, 5]) (casc 1 { Casc.reset with trained := true }))).casc.masterJoin = [1, 2, 3, 4] ∧
    ((after (exec (.joinAnnouncement ⟨2, 0, 0⟩ [1, 2, 3, 4]) (casc 1 { Casc.reset with trained := true }))).casc.masterJoin = [] ∧ look 0 (after (exec (.joinAnnouncement ⟨2, 0, 0⟩ [1, 2, 3, 4]) (casc 1 { Casc.reset with trained := true }))).casc.heard 2 = 2000001) :=
  ⟨admits_of (by decide +kernel), by decide +kernel⟩

theorem test_join_write :
    Admits (casc 2 { Casc.reset with trained := true }) (.ctx 7 2) Reg.cascJoin ∧
    (((after (exec (.cascJoinWrite (.ctx 7 2) 0x5000000000007) (casc 2 { Casc.reset with trained := true }))).out.length, (after (exec (.cascJoinWrite (.ctx 7 2) 0x5000000000007) (casc 2 { Casc.reset with trained := true }))).cascSt) = (1, 2) ∧
      (casc 4 { Casc.reset with masterJoin := [(casc 1 { Casc.reset with trained := true }).part.stepping.toNat, (casc 1 { Casc.reset with trained := true }).rf Reg.devPatchStat 63 32, 5, 7] }).casc.masterJoin = [(casc 4 { Casc.reset with masterJoin := [(casc 1 { Casc.reset with trained := true }).part.stepping.toNat, (casc 1 { Casc.reset with trained := true }).rf Reg.devPatchStat 63 32, 5, 7] }).part.stepping.toNat, (casc 4 { Casc.reset with masterJoin := [(casc 1 { Casc.reset with trained := true }).part.stepping.toNat, (casc 1 { Casc.reset with trained := true }).rf Reg.devPatchStat 63 32, 5, 7] }).rf Reg.devPatchStat 63 32, 5, 7]) ∧
    Admits (casc 4 { Casc.reset with masterJoin := [(casc 1 { Casc.reset with trained := true }).part.stepping.toNat, (casc 1 { Casc.reset with trained := true }).rf Reg.devPatchStat 63 32, 5, 7] }) (.ctx 7 2) Reg.cascJoin ∧
    ((after (exec (.cascJoinWrite (.ctx 7 2) 0x5000000000007) (casc 4 { Casc.reset with masterJoin := [(casc 1 { Casc.reset with trained := true }).part.stepping.toNat, (casc 1 { Casc.reset with trained := true }).rf Reg.devPatchStat 63 32, 5, 7] }))).out.length, (after (exec (.cascJoinWrite (.ctx 7 2) 0x5000000000007) (casc 4 { Casc.reset with masterJoin := [(casc 1 { Casc.reset with trained := true }).part.stepping.toNat, (casc 1 { Casc.reset with trained := true }).rf Reg.devPatchStat 63 32, 5, 7] }))).cascSt) = (1, 4) ∧
    ((after (exec (.cascJoinWrite (.ctx 7 2) 0x6000000000007) (casc 4 { Casc.reset with masterJoin := [(casc 1 { Casc.reset with trained := true }).part.stepping.toNat, (casc 1 { Casc.reset with trained := true }).rf Reg.devPatchStat 63 32, 5, 7] }))).cascSt, (after (exec (.cascJoinWrite (.ctx 7 2) 0x6000000000007) (casc 4 { Casc.reset with masterJoin := [(casc 1 { Casc.reset with trained := true }).part.stepping.toNat, (casc 1 { Casc.reset with trained := true }).rf Reg.devPatchStat 63 32, 5, 7] }))).rf Reg.cascState 59 56) = (3, 3) :=
  ⟨admits_of (by decide +kernel), by decide +kernel, admits_of (by decide +kernel), by decide +kernel⟩

theorem test_join_announced :
    (2 ≠ (casc 4 { Casc.reset with trained := true }).rf Reg.cascState 52 50 ∧ (casc 4 { Casc.reset with trained := true }).joinReason = 0 ∧ (after (exec (.joinAnnouncement ⟨2, 0, 0⟩ [1, 2, 3, 4]) (casc 4 { Casc.reset with trained := true }))).casc.masterJoin = []) ∧
    (casc 4 { Casc.reset with trained := true }).joinVals = [(casc 4 { Casc.reset with trained := true }).part.stepping.toNat, (casc 4 { Casc.reset with trained := true }).rf Reg.devPatchStat 63 32, 0, 0] ∧
    ((after (exec (.joinAnnouncement ⟨3, 0, 0⟩ [(casc 4 { Casc.reset with trained := true }).part.stepping.toNat, (casc 4 { Casc.reset with trained := true }).rf Reg.devPatchStat 63 32, 9, 0]) (casc 4 { Casc.reset with trained := true }))).cascSt, (after (exec (.joinAnnouncement ⟨3, 0, 0⟩ [(casc 4 { Casc.reset with trained := true }).part.stepping.toNat, (casc 4 { Casc.reset with trained := true }).rf Reg.devPatchStat 63 32, 9, 0]) (casc 4 { Casc.reset with trained := true }))).rf Reg.cascState 59 56) = (3, 3) ∧
    (after (exec (.joinAnnouncement ⟨3, 0, 0⟩ [(casc 4 { Casc.reset with trained := true }).part.stepping.toNat, (casc 4 { Casc.reset with trained := true }).rf Reg.devPatchStat 63 32, 0, 0]) (casc 4 { Casc.reset with trained := true }))).cascSt = 4 := by
  decide +kernel

theorem test_axmap :
    Admits (casc 4 { Casc.reset with trained := true }) (.ctx 7 2) (Reg.cascAxmap 1) ∧
    ((casc 4 { Casc.reset with trained := true }).axMode 1 = 0 ∧ (casc 4 { Casc.reset with trained := true }).rf (Reg.cascAxmap 1) 63 63 = 0 ∧ fld (setFld (setFld (setFld 0 63 63 1) 62 60 3) 59 57 5) 63 63 = 1 ∧ fld (setFld (setFld (setFld 0 63 63 1) 62 60 3) 59 57 5) 54 0 = 0) ∧
    ((after (exec (.cascAxmapWrite (.ctx 7 2) 1 (setFld (setFld (setFld 0 63 63 1) 62 60 3) 59 57 5)) (casc 4 { Casc.reset with trained := true }))).remoteAxis 1 = true ∧ (after (exec (.cascAxmapWrite (.ctx 7 2) 1 (setFld (setFld (setFld 0 63 63 1) 62 60 3) 59 57 5)) (casc 4 { Casc.reset with trained := true }))).rf (Reg.cascAxmap 1) 59 57 = 5) :=
  ⟨admits_of (by decide +kernel), by decide +kernel⟩

/-- Axis 1 remote, axis 5 of part 3, with a sample cell at a DT. -/
def remote (cell : Nat) : State :=
  ((casc 4 Casc.reset).setReg (Reg.cascAxmap 1) (setFld (setFld (setFld 0 63 63 1) 62 60 3) 59 57 5)).setAxr 1 { AxRec.reset with cellDt := cell }

theorem test_axmap_own :
    Admits (remote 5) (.ctx 7 2) (Reg.cascAxmap 1) ∧
    (fld (0 : BitVec 64) 63 63 = 0 ∧ (after (exec (.cascAxmapWrite (.ctx 7 2) 1 0) (remote 5))).remoteAxis 1 = false) ∧
    Admits ((casc 4 Casc.reset).setRf (Reg.axCfg 1) 63 62 1) (.ctx 7 2) (Reg.cascAxmap 1) ∧
    (((casc 4 Casc.reset).setRf (Reg.axCfg 1) 63 62 1).axMode 1 ≠ 0 ∧ (after (exec (.cascAxmapWrite (.ctx 7 2) 1 (setFld (setFld (setFld 0 63 63 1) 62 60 3) 59 57 5)) ((casc 4 Casc.reset).setRf (Reg.axCfg 1) 63 62 1))).remoteAxis 1 = false) :=
  ⟨admits_of (by decide +kernel), by decide +kernel, admits_of (by decide +kernel), by decide +kernel⟩

theorem test_axis_cell_lost :
    (((({ (remote 5) with axes := [(1, { AxRec.reset with cellDt := 5, recov := false })] } : State).setRf (Reg.axStat 1) 63 63 1).axLoss 1 = true ∧ ((({ (remote 5) with axes := [(1, { AxRec.reset with cellDt := 5, recov := false })] } : State).setRf (Reg.axStat 1) 63 63 1).axr 1).recov = false) ∧
      ((after (exec (.axisSampleCell 0 0 3 5 0x70000 0x10 0x20 2000000 ⟨true, false⟩) (({ (remote 5) with axes := [(1, { AxRec.reset with cellDt := 5, recov := false })] } : State).setRf (Reg.axStat 1) 63 63 1))).axLoss 1 = true ∧ ((after (exec (.axisSampleCell 0 0 3 5 0x70000 0x10 0x20 2000000 ⟨true, false⟩) (({ (remote 5) with axes := [(1, { AxRec.reset with cellDt := 5, recov := false })] } : State).setRf (Reg.axStat 1) 63 63 1))).axr 1).cellDt = 2000000 ∧ (after (exec (.axisSampleCell 0 0 3 5 0x70000 0x10 0x20 2000000 ⟨true, false⟩) (({ (remote 5) with axes := [(1, { AxRec.reset with cellDt := 5, recov := false })] } : State).setRf (Reg.axStat 1) 63 63 1))).rf (Reg.cascAxmap 1) 56 55 = 2)) ∧
    AxisAlone (({ (remote 5) with axes := [(1, { AxRec.reset with cellDt := 5, recov := true })] } : State).setRf (Reg.axStat 1) 63 63 1) 1 ∧
    ((after (exec (.axisSampleCell 0 0 3 5 0x70000 0x10 0x20 2000000 ⟨false, false⟩) (({ (remote 5) with axes := [(1, { AxRec.reset with cellDt := 5, recov := true })] } : State).setRf (Reg.axStat 1) 63 63 1))).axLoss 1 = false ∧ (after (exec (.axisSampleCell 0 0 3 5 0x70000 0x10 0x20 2000000 ⟨false, false⟩) (({ (remote 5) with axes := [(1, { AxRec.reset with cellDt := 5, recov := true })] } : State).setRf (Reg.axStat 1) 63 63 1))).reg (Reg.axPos 1) = 0x70000) ∧
    (towards 0x70000 65536000000000 1000 = 0x7FFFF ∧ (after (exec (.axisSampleCell 0 0 3 5 0x70000 65536000000000 0x20 1999000 ⟨false, false⟩) (({ (remote 5) with axes := [(1, { AxRec.reset with cellDt := 5, recov := true })] } : State).setRf (Reg.axStat 1) 63 63 1))).reg (Reg.axPos 1) = 0x7FFFF) ∧
    ((({ (remote 5) with axes := [(1, { AxRec.reset with cellDt := 5, recov := false })] } : State).setRf (Reg.axStat 1) 63 63 1).part.axes ≤ 8 ∧ (after (exec (.remoteAxisStale 2) (({ (remote 5) with axes := [(1, { AxRec.reset with cellDt := 5, recov := false })] } : State).setRf (Reg.axStat 1) 63 63 1))).axLoss 2 = false) :=
  ⟨by decide +kernel, alone_of (by decide +kernel), by decide +kernel⟩

theorem test_axis_cell :
    AxisAlone (remote 1990001) 1 ∧
    ((remote 1990001).remoteAxis 1 = true ∧ (remote 1990001).axLoss 1 = false ∧ (remote 1990001).rf (Reg.cascAxmap 1) 62 60 = 3 ∧ (remote 1990001).rf (Reg.cascAxmap 1) 59 57 = 5) ∧
    (List.range (remote 1990001).part.axes).all (fun y => y = 1 || !(remote 1990001).remoteAxis y) = true ∧
    ((after (exec (.axisSampleCell 0 0 3 5 0x70000 0x10 0x20 2000000 ⟨false, false⟩) (remote 1990001))).reg (Reg.axPos 1) = 0x70000 ∧ ((after (exec (.axisSampleCell 0 0 3 5 0x70000 0x10 0x20 2000000 ⟨false, false⟩) (remote 1990001))).axr 1).chgDt = 2000000) ∧
    (remote 1990001).rf (Reg.cascAxmap 1) 55 55 = 0 ∧
    (after (exec (.remoteAxisStale 1) (remote 1990001))).axLoss 1 = false ∧
    (after (exec (.remoteAxisStale 1) (remote 1990000))).axLoss 1 = true :=
  ⟨alone_of (by decide +kernel), by decide +kernel⟩

/-- A ring of 4 cells in bin 100 of hall 3 with TAIL 2, and cells sent. -/
def hand (l : List HandOut) (expect : List (Nat × Nat × Nat)) (st : Nat) : State :=
  let s := (given.setRf (Reg.cascHoring 0) 57 54 2).setRf (Reg.cascHoring 0) 31 4 51200
  let s := ((s.setRf (Reg.cascHoring 0) 53 38 50).setRf (Reg.cascHoptr 0) 63 48 2).setRf Reg.cascState 63 60 st
  { s with casc := { Casc.reset with handOut := l, expect := expect } }

theorem test_handoff_send :
    Admits (hand [] [] 4) (.ctx 7 2) (Reg.cascHoptr 0) ∧
    ((hand [] [] 4).hoSize 0 = 4 ∧ (hand [] [] 4).rf (Reg.cascHoptr 0) 63 48 = 2) ∧
    (after (exec (.handoffSend (.ctx 7 2) 2) (hand [] [] 4))).rf (Reg.cascHoptr 0) 47 32 = 2 ∧
    (after (exec (.handoffSend (.ctx 7 2) 4) (hand [] [] 4))).rf (Reg.cascHoptr 0) 0 0 = 1 :=
  ⟨admits_of (by decide +kernel), by decide +kernel⟩

/-- A clone cell from part 3 to this part. -/
def clone : List Word :=
  [fixN (3 * 2 ^ 60 + 3 * 2 ^ 54), fixN 11, fixN 12, fixN 0, fixN 0, fixN 0, fixN 0, fixN 0]

/-- A cell of a kind for part 3 at TAIL, part 3 heard, a number of cells without an answer. -/
def sending (n : Nat) : State :=
  let s := (hand (List.replicate n ⟨0, 3, 0⟩) [] 4).setMemWord 0xC800080 (fixN (3 * 2 ^ 60 + 3 * 2 ^ 57))
  let s := s.setRf (Reg.cascHoptr 0) 47 32 2
  { s with casc := { s.casc with heard := [(3, 1)] } }

theorem test_handoff_sent :
    Admits (sending 1023) (.ctx 7 2) (Reg.cascHoptr 0) ∧
    ((sending 1023).hoCell 0 2 = 0xC800080 ∧ 2 ≤ (sending 1023).hoSize 0 ∧ (sending 1023).cascPresent 3 = true ∧ (sending 1023).cascSt ≠ 3) ∧
    (((List.range 8).map (fun k => (sending 0).memWord ((sending 0).hoCell 0 2 + 8 * k))).any hoBadWord = false ∧ hoKind ((sending 0).memWord 0xC800080) = 3 ∧ fld ((sending 0).memWord 0xC800080).payload 59 57 = 3) ∧
    ((after (exec (.handoffSend (.ctx 7 2) 3) (sending 0))).casc.handOut.length, (after (exec (.handoffSend (.ctx 7 2) 3) (sending 0))).casc.hoWait) = (1, []) ∧
    ((after (exec (.handoffSend (.ctx 7 2) 3) (sending 1024))).casc.handOut.length, (after (exec (.handoffSend (.ctx 7 2) 3) (sending 1024))).casc.hoWait) = (1024, [2]) ∧
    ((after (exec (.handoffSend (.ctx 7 2) 3) (sending 1023))).casc.handOut.length, (after (exec (.handoffSend (.ctx 7 2) 3) (sending 1023))).rf (Reg.cascHoptr 0) 63 48) = (1024, 3) :=
  ⟨admits_of (by decide +kernel), by decide +kernel⟩

/-- The receive ring with HEAD, and identities. -/
def taking (head : Nat) (expect : List (Nat × Nat × Nat)) : State :=
  let s := (hand [] expect 4).setRf (Reg.cascHoring 1) 57 54 2
  ((s.setRf (Reg.cascHoring 1) 31 4 51201).setRf (Reg.cascHoring 1) 53 38 50).setRf (Reg.cascHoptr 1) 47 32 head

/-- A cell of a kind from part 3 to this part. -/
def cellOf (k : Nat) : List Word := fixN (k * 2 ^ 60 + 3 * 2 ^ 54) :: clone.drop 1

/-- The answer k to a cell of a kind from part 3. -/
def tells (kind : Nat) (k : BitVec 64) : Out → Bool
  | .cell "status" 0 3 _ data => data = [((cellOf kind).headD Word.fix0).payload, k]
  | _ => false

theorem test_handoff_taken :
    (hoKind ((cellOf 1).headD Word.fix0) = 1 ∧ hoKind ((cellOf 2).headD Word.fix0) = 2 ∧ (cellOf 2).length = 8) ∧
    ((taking 3 []).hoSize 1 = 4 ∧ ((taking 3 []).ctx ((taking 3 []).rf (Reg.cascHoring 1) 53 38)).st = .none) ∧
    ((after (exec (.handoffReceive 0 0 (cellOf 1)) (taking 3 []))).casc.expect, (after (exec (.handoffReceive 0 0 (cellOf 1)) (taking 3 []))).rf (Reg.cascHoptr 1) 63 48) = ([(3, 11, 12)], 1) ∧
    ((after (exec (.handoffReceive 0 0 (cellOf 1)) (taking 3 []))).memWord 0xC801000 = fixN (2 ^ 60 + 3 * 2 ^ 54 + 1) ∧ (after (exec (.handoffReceive 0 0 (cellOf 1)) (taking 3 []))).memWord 0xC801008 = fixN 11) ∧
    ((after (exec (.handoffReceive 0 0 (cellOf 2)) (taking 3 [(3, 11, 12)]))).casc.expect, (after (exec (.handoffReceive 0 0 (cellOf 2)) (taking 3 [(3, 11, 12)]))).rf (Reg.cascHoptr 1) 63 48) = ([], 1) ∧
    (after (exec (.handoffReceive 0 0 (cellOf 1)) (taking 1 []))).out.head?.any (tells 1 3) = true ∧
    (after (exec (.handoffReceive 0 0 (cellOf 1)) (taking 3 [(3, 11, 12)]))).out.head?.any (tells 1 6) = true ∧
    (((after (exec (.handoffReceive 0 0 (cellOf 2)) (taking 3 []))).out.head?.any (tells 2 2) = true) ∧ (after (exec (.handoffReceive 0 0 (cellOf 2)) (taking 3 []))).rf (Reg.cascHoptr 1) 31 16 = 1) := by
  decide +kernel

theorem test_handoff_receive :
    ((hand [] [] 4).cascId = 0 ∧ fld (Word.payload (clone.headD Word.fix0)) 59 57 = 0 ∧ fld (clone.headD Word.fix0).payload 56 54 = 3 ∧ clone.length = 8 ∧ hoKind (clone.headD Word.fix0) = 3) ∧
    ((3, 11, 12) ∈ (hand [] [(3, 11, 12)] 4).casc.expect ∧ (3, 11, 12) ∉ (hand [] [] 4).casc.expect) ∧
    (after (exec (.handoffReceive 0 0 clone) (hand [] [(3, 11, 12)] 4))).casc.expect = [] ∧
    (after (exec (.handoffReceive 0 0 clone) (hand [] [] 4))).out.length = (hand [] [] 4).out.length + 1 ∧
    (after (exec (.handoffReceive 0 0 clone) (hand [] [(3, 11, 12)] 3))).casc.expect = [(3, 11, 12)] ∧
    (after (exec (.handoffReceive 0 0 [fixN (2 ^ 57)]) (hand [] [] 4))).out = (hand [] [] 4).out := by
  decide +kernel

theorem test_handoff_status :
    ((hand [⟨1, 3, 0⟩] [] 4).casc.handOut.find? (fun o => o.entry = 1) = some ⟨1, 3, 0⟩ ∧ (hand [⟨1, 3, 0⟩] [] 4).casc.handOut.find? (fun o => o.entry = 2) = none) ∧
    (((hand [⟨1, 3, 0⟩] [] 4).memWord ((hand [⟨1, 3, 0⟩] [] 4).hoCell 0 1)).type ≠ 0x32 ∧ (hand [⟨1, 3, 0⟩] [] 4).planted = [] ∧ ((hand [⟨1, 3, 0⟩] [] 4).ctx 50).st = .none) ∧
    (hand [⟨1, 3, 0⟩] [] 4).rf (Reg.cascHoring 0) 53 38 = 50 ∧
    (fld ((after (exec (.handoffStatus 1 (some ⟨6, 0, 0⟩)) (hand [⟨1, 3, 0⟩] [] 4))).memWord 0xC800040).payload 7 0 = 6 ∧ (after (exec (.handoffStatus 1 (some ⟨6, 0, 0⟩)) (hand [⟨1, 3, 0⟩] [] 4))).casc.handOut = []) := by
  decide +kernel

theorem test_handoff_silent :
    (({ (hand [⟨1, 3, 0⟩] [] 4) with dt := 1000000 } : State).casc.hoWait = [] ∧ ({ (hand [⟨1, 3, 0⟩] [] 4) with dt := 1000000 } : State).dt.toNat = 0 + 1000000) ∧
    fld ((after (exec (.handoffStatus 1 none) { (hand [⟨1, 3, 0⟩] [] 4) with dt := 1000000 })).memWord 0xC800040).payload 7 0 = 4 ∧
    (after (exec (.handoffStatus 1 none) { (hand [⟨1, 3, 0⟩] [] 4) with dt := 999999 })).casc.handOut.length = 1 := by
  decide +kernel

theorem test_casc_cmd :
    Admits (casc 4 { Casc.reset with trained := true }) (.ctx 7 2) Reg.cascCmd ∧
    (casc 4 { Casc.reset with trained := true }).cascPresent 3 = false ∧
    ((after (exec (.promote (.ctx 7 2)) (casc 4 { Casc.reset with trained := true }))).cascSt = 5 ∧ (after (exec (.promote (.ctx 7 2)) (casc 4 { Casc.reset with trained := true }))).rf Reg.cascState 31 16 = 10) ∧
    (after (exec (.promote (.ctx 7 2)) (casc 5 { Casc.reset with trained := true }))).rf Reg.cascCmd 3 0 = 1 ∧
    ((casc 4 { Casc.reset with heard := [(3, 2000001)] }).cascPresent 3 = true ∧ (after (exec (.promote (.ctx 7 2)) (casc 4 { Casc.reset with heard := [(3, 2000001)] }))).cascSt = 4) ∧
    (after (exec (.retime (.ctx 7 2)) ((casc 4 { Casc.reset with trained := true, lastOff := 999999 }).setRf Reg.cascTime 63 63 1))).casc.retime = true ∧
    (after (exec (.rejoin (.ctx 7 2)) (casc 3 { Casc.reset with trained := true }))).cascSt = 2 ∧
    (after (exec (.rejoin (.ctx 7 2)) (casc 4 { Casc.reset with trained := true }))).rf Reg.cascCmd 3 0 = 1 :=
  ⟨admits_of (by decide +kernel), by decide +kernel⟩

/-! Service, monitors, recorder. -/

theorem test_seed_respare :
    Admits seeded (.ctx 7 2) Reg.seedCmd ∧
    (seeded.privileged (.ctx 7 2) = true ∧ seeded.seedCheck 1 0 = 0) ∧
    (after (exec (.respare (.ctx 7 2) 0) ((core 2).setRf Reg.seedCmdStat 63 63 1))).service.hit = true ∧
    (after (exec (.respare (.ctx 7 2) 0) seeded)).service.cmd = some (seedWord 1 0) ∧
    ((after (exec (.respare (.ctx 7 2) 63) (core 2))).rf Reg.seedCmdStat 59 56 ≠ 0 ∧ (after (exec (.respare (.ctx 7 2) 63) (core 2))).service.cmd = none) :=
  ⟨admits_of (by decide +kernel), by decide +kernel⟩

theorem test_seed_rowspare :
    Admits (core 2) (.ctx 7 2) Reg.seedCmd ∧
    ((core 2).privileged (.ctx 7 2) = true ∧ (core 2).seedCheck 2 5 = 0) ∧
    (after (exec (.rowspare (.ctx 7 2) 5) ((core 2).setRf Reg.seedCmdStat 63 63 1))).service.hit = true ∧
    (after (exec (.rowspare (.ctx 7 2) 5) (core 2))).service.cmd = some (seedWord 2 5) ∧
    ((after (exec (.rowspare (.ctx 7 2) 0x3FFFFFFFF) (core 2))).rf Reg.seedCmdStat 59 56 ≠ 0 ∧ (after (exec (.rowspare (.ctx 7 2) 0x3FFFFFFFF) (core 2))).service.cmd = none) :=
  ⟨admits_of (by decide +kernel), by decide +kernel⟩

theorem test_seed_ppr :
    Admits ((core 2).setRf (Reg.seedMem 1) 50 50 1) (.ctx 7 2) Reg.seedCmd ∧
    (((core 2).setRf (Reg.seedMem 1) 50 50 1).privileged (.ctx 7 2) = true ∧ ((core 2).setRf (Reg.seedMem 1) 50 50 1).seedCheck 3 18 = 0) ∧
    (after (exec (.ppr (.ctx 7 2) 1 2) ((core 2).setRf Reg.seedCmdStat 63 63 1))).service.hit = true ∧
    (after (exec (.ppr (.ctx 7 2) 1 2) ((core 2).setRf (Reg.seedMem 1) 50 50 1))).service.cmd = some (seedWord 3 18) ∧
    ((after (exec (.ppr (.ctx 7 2) 1 3) (core 2))).rf Reg.seedCmdStat 59 56 ≠ 0 ∧ (after (exec (.ppr (.ctx 7 2) 1 3) (core 2))).service.cmd = none) :=
  ⟨admits_of (by decide +kernel), by decide +kernel⟩

theorem test_seed_wayspare :
    Admits (core 2) (.ctx 7 2) Reg.seedCmd ∧
    ((core 2).privileged (.ctx 7 2) = true ∧ (core 2).seedCheck 4 35 = 0) ∧
    (after (exec (.wayspare (.ctx 7 2) 2 3) ((core 2).setRf Reg.seedCmdStat 63 63 1))).service.hit = true ∧
    (after (exec (.wayspare (.ctx 7 2) 2 3) (core 2))).service.cmd = some (seedWord 4 35) :=
  ⟨admits_of (by decide +kernel), by decide +kernel⟩

theorem test_seed_ctxrow :
    Admits (core 2) (.ctx 7 2) Reg.seedCmd ∧
    ((core 2).privileged (.ctx 7 2) = true ∧ (core 2).seedCheck 5 66 = 0) ∧
    (after (exec (.ctxrow (.ctx 7 2) 1 2) ((core 2).setRf Reg.seedCmdStat 63 63 1))).service.hit = true ∧
    (after (exec (.ctxrow (.ctx 7 2) 1 2) (core 2))).service.cmd = some (seedWord 5 66) ∧
    ((after (exec (.ctxrow (.ctx 7 2) 0 5) (core 2))).rf Reg.seedCmdStat 59 56 ≠ 0 ∧ (after (exec (.ctxrow (.ctx 7 2) 0 5) (core 2))).service.cmd = none) :=
  ⟨admits_of (by decide +kernel), by decide +kernel⟩

/-- A seed command in progress, with GROUPS. -/
def serving (op arg groups : Nat) (s : State) : State :=
  { (s.setRf Reg.seedCmdStat 63 63 1).setRf Reg.seedCmdStat 51 48 groups with service := { s.service with cmd := some (seedWord op arg) } }

theorem test_respare_group :
    ((serving 1 1 7 (core 2)).core ((serving 1 1 7 (core 2)).pcnOfLcn 1)).run = none ∧
    (after (exec (.respareGroup) (serving 1 1 7 (core 2)))).rf Reg.seedCmdStat 51 48 = 8 := by
  decide +kernel

theorem test_service_done :
    ((serving 1 1 8 (core 2)).rf Reg.devCoreRst 56 56 = 0 ∧ (serving 1 1 8 (core 2)).pcnOfLcn 1 = 1 ∧ ((serving 1 1 8 (core 2)).core 1).dirtySectors = []) ∧
    ((after (exec (.serviceDone) (serving 1 1 8 (core 2)))).pcnOfLcn 1 = 8 ∧ (after (exec (.serviceDone) (serving 1 1 8 (core 2)))).service.log.length = 1) ∧
    (serving 2 5 8 (core 2)).spareUsed (channelOf 320) 0 = false ∧
    (after (exec (.serviceDone) (serving 4 35 8 (core 2)))).service.ways = [35] ∧
    (after (exec (.serviceDone) (serving 5 66 8 (core 2)))).service.ctxRows = [66] ∧
    (after (exec (.serviceDone) (serving 3 18 8 (core 2)))).rf (Reg.seedMem 1) 47 32 = 1 := by
  decide +kernel

/-- The cascade links have trained. -/
def trainedLinks : State := { core 2 with casc := { Casc.reset with trained := true } }

theorem test_monitors :
    ((core 2).monitorOn (.lane 11) = false ∧ trainedLinks.monitorOn (.lane 11) = true ∧ (core 2).part.hasPcn 3 = true) ∧
    (((after (exec (.monitorSample (.core 3) 70000 0 false) (core 2))).age 3).n = 1 ∧ (after (exec (.monitorSample (.core 3) 70000 0 false) (core 2))).rf (Reg.ageCore 3) 63 48 = 65535) ∧
    (((core 2).setAge 3 { AgeRec.reset with n := 2, sum := 10 }).age 3).n ≠ 0 ∧
    ((after (exec (.monitorHour (.core 3)) ((core 2).setAge 3 { AgeRec.reset with n := 2, sum := 10 }))).age 3).means = [5] ∧
    (after (exec (.monitorSample (.lane 11) 7 8 false) trainedLinks)).rf (Reg.ageLane 11) 63 48 = 7 := by
  decide +kernel

theorem test_trackers :
    (((core 2).age (monKey (.ctxRow 0 5))).noticed = false ∧ (core 2).ageThr 7 < (core 2).ageThr 7 + 1) ∧
    ((after (exec (.monitorSample (.ctxRow 0 5) (Part.reset.memSize) 0 false) (core 2))).age (monKey (.ctxRow 0 5))).noticed = true ∧
    ((after (exec (.monitorSample (.ctxRow 0 5) ((core 2).ageThr 7) 0 false) (core 2))).age (monKey (.ctxRow 0 5))).noticed = false ∧
    ((after (exec (.monitorSample (.way 2 3) 0 0 true) (core 2))).age (monKey (.way 2 3))).noticed = true := by
  decide +kernel

theorem test_monitor_hours :
    (trainedLinks.monitorOn (.lane 11) = true ∧ ((after (exec (.monitorHour (.lane 11)) (trainedLinks.setAge 111 { AgeRec.reset with n := 2, sum := 10 }))).age 111).n = 0) ∧
    ((core 2).monitorOn (.ctxRow 1 2) = true ∧ ((core 2).age (monKey (.ctxRow 1 2))).n = 0 ∧ monKey (.ctxRow 1 2) = 1066) ∧
    ((after (exec (.monitorHour (.ctxRow 1 2)) ((core 2).setAge 1066 { AgeRec.reset with n := 2, sum := 10 }))).age 1066).means = [5] := by
  decide +kernel

/-- A tracker's count rising by one an hour comes to its threshold of 8 from 6 in two hours (R500). -/
theorem test_estimate_up :
    estimateUp 6 8 (slopeOf [4, 5, 6]).1 (slopeOf [4, 5, 6]).2 = some 2 ∧ estimateUp 6 8 (slopeOf [6, 5]).1 (slopeOf [6, 5]).2 = none := by
  decide +kernel

theorem test_links :
    (after (exec (.monitorSample (.link 1) 1 0 false) (core 2))).rf Reg.eclStat 62 62 = 1 ∧
    (after (exec (.monitorSample (.link 3) 0 0 false) (core 2))).rf Reg.ecpStat 58 58 = 0 := by
  decide +kernel

/-- The MCHK_CONTAINED alert of SCN 7 masked. -/
def masked : State := runWith { regsAt 2 words with status := 0x010082 }

/-- The line of 0x2000 Modified in the Crib of core 0, in the cache of barn 0 or in the last-level cache. -/
def holding (k : Nat) : State :=
  let s := core 0
  if k = 0 then s.setCore 0 { s.core 0 with cribOn := true, crib := [(0, ⟨0x20, ⟨.m, List.replicate 8 nil⟩, .invalid, .invalid, .invalid⟩)] }
  else if k = 1 then s.setBarn 0 { BarnCache.reset with lines := [(0, ⟨0x20, ⟨⟨.m, 1, []⟩, ⟨.i, 0, []⟩, ⟨.i, 0, []⟩, ⟨.i, 0, []⟩⟩⟩)] }
  else { s with llc := [(0x20, ⟨0, ⟨⟨.m, 1⟩, ⟨.i, 0⟩, ⟨.i, 0⟩, ⟨.i, 0⟩⟩⟩)] }

theorem test_context_row :
    (masked.part.hasPcn 0 = true ∧ masked.hcnAt 0 5 = some 5 ∧ (masked.slot 5).scn = some 7 ∧ natBit (masked.alertMask 7).1 0 = true) ∧
    look 0 (after (exec (.monitorSample (.ctxWord 0 5) 0 0 false) masked)).hourCe 400 = 1 ∧
    ((masked.hcnAt 0 6).all (fun n => (masked.slot n).scn.isNone) = true ∧ (after (exec (.monitorSample (.ctxWord 0 6) 0 0 true) masked)).slots = masked.slots) ∧
    ((((after (exec (.monitorSample (.ctxWord 0 5) 0 4 true) masked)).slot 5).regs.getW 3).type = 0x32 ∧ ((after (exec (.monitorSample (.ctxWord 0 5) 0 4 true) masked)).ctx 7).pend = 1) ∧
    (slotSel 4 = 3 ∧ ((after (exec (.monitorSample (.ctxWord 0 5) 0 4 true) masked)).slot 5).dirty = (masked.slot 5).dirty ||| selGroup 3) ∧
    ((masked.ctx 7).st ≠ .spilled ∧ (after (exec (.monitorSample (.ctxWord 0 5) 0 1 true) masked)).slot 5 ≠ masked.slot 5) := by
  decide +kernel

theorem test_array_crib :
    ((holding 0).arrayOn (.crib 0) = true ∧ (holding 0).arrayState (wordOf 0x200C) (.crib 0) = .m ∧ (holding 0).arrayStale (wordOf 0x200C) (.crib 0) = false) ∧
    (((after (exec (.monitorSample (.word (.crib 0) 0x200C) 0 0 true) (holding 0))).memWord 0x2008).type = 0x32 ∧ (after (exec (.monitorSample (.word (.crib 0) 0x200C) 0 0 true) (holding 0))).memWord 0x2000 = (holding 0).memWord 0x2000) ∧
    look 0 (after (exec (.monitorSample (.word (.crib 0) 0x200C) 0 0 false) (holding 0))).hourCe (arrayUnit (.crib 0)) = 1 ∧
    ((holding 0).arrayState (wordOf 0x3000) (.crib 0) = .i ∧ (after (exec (.monitorSample (.word (.crib 0) 0x3000) 0 0 true) (holding 0))).hourCe = []) ∧
    look 0 (after (exec (.monitorSample (.entry (.crib 0) 0x20) 0 0 false) (holding 0))).hourCe (arrayUnit (.crib 0)) = 1 ∧
    ((after (exec (.monitorSample (.entry (.crib 0) 0x30) 0 0 true) (holding 0))).hourCe = [] ∧ (lineSectors 0x30).all (fun pa => (holding 0).arrayState pa (.crib 0) = .i) = true) := by
  decide +kernel

theorem test_array_barn :
    ((holding 1).arrayOn (.barn 0) = true ∧ (holding 1).arrayState (wordOf 0x200C) (.barn 0) = .m ∧ (holding 1).arrayStale (wordOf 0x200C) (.barn 0) = false) ∧
    (((after (exec (.monitorSample (.word (.barn 0) 0x200C) 0 0 true) (holding 1))).memWord 0x2008).type = 0x32 ∧ (after (exec (.monitorSample (.word (.barn 0) 0x200C) 0 0 true) (holding 1))).memWord 0x2000 = (holding 1).memWord 0x2000) ∧
    look 0 (after (exec (.monitorSample (.word (.barn 0) 0x200C) 0 0 false) (holding 1))).hourCe (arrayUnit (.barn 0)) = 1 ∧
    ((holding 1).arrayState (wordOf 0x3000) (.barn 0) = .i ∧ (after (exec (.monitorSample (.word (.barn 0) 0x3000) 0 0 true) (holding 1))).hourCe = []) ∧
    look 0 (after (exec (.monitorSample (.entry (.barn 0) 0x20) 0 0 false) (holding 1))).hourCe (arrayUnit (.barn 0)) = 1 ∧
    ((after (exec (.monitorSample (.entry (.barn 0) 0x30) 0 0 true) (holding 1))).hourCe = [] ∧ (lineSectors 0x30).all (fun pa => (holding 1).arrayState pa (.barn 0) = .i) = true) := by
  decide +kernel

theorem test_array_llc :
    ((holding 2).arrayOn (.llc 2) = true ∧ (holding 2).arrayState (wordOf 0x200C) (.llc 2) = .m ∧ (holding 2).arrayStale (wordOf 0x200C) (.llc 2) = false) ∧
    (((after (exec (.monitorSample (.word (.llc 2) 0x200C) 0 0 true) (holding 2))).memWord 0x2008).type = 0x32 ∧ (after (exec (.monitorSample (.word (.llc 2) 0x200C) 0 0 true) (holding 2))).memWord 0x2000 = (holding 2).memWord 0x2000) ∧
    look 0 (after (exec (.monitorSample (.word (.llc 2) 0x200C) 0 0 false) (holding 2))).hourCe (arrayUnit (.llc 2)) = 1 ∧
    ((holding 2).arrayState (wordOf 0x3000) (.llc 2) = .i ∧ (after (exec (.monitorSample (.word (.llc 2) 0x3000) 0 0 true) (holding 2))).hourCe = []) ∧
    look 0 (after (exec (.monitorSample (.entry (.llc 2) 0x20) 0 0 false) (holding 2))).hourCe (arrayUnit (.llc 2)) = 1 ∧
    ((after (exec (.monitorSample (.entry (.llc 2) 0x30) 0 0 true) (holding 2))).hourCe = [] ∧ (lineSectors 0x30).all (fun pa => (holding 2).arrayState pa (.llc 2) = .i) = true) := by
  decide +kernel

theorem test_core_errors :
    ((after (exec (.monitorSample (.entry (.crib 0) 0x20) 0 0 true) (holding 0))).core 0).halt = some 4 ∧
    (((after (exec (.monitorSample (.coreState 0) 0 0 false) (core 2))).core 0).halt = none ∧ ((after (exec (.monitorSample (.coreState 0) 0 0 true) (core 2))).core 0).halt = some 4) ∧
    (look 0 ((after (exec (.monitorSample (.patchWord 3 17) 0 0 false) (core 2))).core 3).pramErr 17 = 1 ∧ look 0 ((after (exec (.monitorSample (.patchWord 3 17) 0 0 true) (core 2))).core 3).pramErr 17 = 2) := by
  decide +kernel

/-- A record waits in the queue. -/
def recorded (frozen : Option Nat) : State :=
  { core 2 with hourCe := [(1, 2)], recorder := ⟨[⟨9, 77, 3, .event, false, 1, 0, 0, 0, 0, 5⟩], none, 10, 4, frozen, 0⟩ }

theorem test_recorder :
    (((after (exec (.recordWrite) (recorded (some 1)))).mramWord 288 = 77 ∧ (after (exec (.recordWrite) (recorded (some 1)))).recorder.queue = []) ∧
      ((recorded (some 1)).recorder.frozen.isSome = true ∧ (recorded (some 1)).recorder.ovf = none) ∧
      (after (exec (.recordWrite) (recorded none))).mramWord 312 = 5) ∧
    Admits (recorded none) (.ctx 7 2) Reg.frecCtrl ∧
    (after (exec (.freeze (.ctx 7 2)) (recorded none))).recorder.queue.length = 2 ∧
    (after (exec (.unfreeze (.ctx 7 2)) (recorded (some 1)))).recorder.frozen = none ∧
    (after (exec (.hourlySummary) (recorded none))).hourCe = [] ∧
    (after (exec (.powerFail) (core 2))).life.failed = true :=
  ⟨by decide +kernel, admits_of (by decide +kernel), by decide +kernel⟩

/-! Resets, boot, pins, JTAG. -/

theorem test_resets :
    ((core 2).fnAnswers (.ctx 7 2) = true ∧ (core 2).kernel2 (.ctx 7 2) = true) ∧
    (after (exec (.deviceReset .pf 5 1 2 false) (core 2))).rf Reg.devRsvWrites 31 0 = 1 := by
  decide +kernel

/-- The clock running, MEMORY initialised or not, flash or host boot. -/
def boot (memOk hostLoad : Bool) (src : Nat) : State :=
  let s := State.reset
  { s with dtRun := true, part := { s.part with bootSrc := BitVec.ofNat 2 src }, life := { s.life with memOk := memOk, hostLoad := hostLoad } }

/-- The first 32 bytes of the header of an image of one word, loaded at 0x2000, entered at offset 4. -/
def header : List Byte :=
  natBytes 4 0x544F4F42 ++ natBytes 2 1 ++ natBytes 2 0 ++ natBytes 4 8 ++ natBytes 4 0 ++ natBytes 8 0x2000 ++ natBytes 4 4 ++
    natBytes 4 (crc32 [1, 2, 3, 4, 5, 6, 7, 8])

/-- The image. -/
def image : List Byte := header ++ natBytes 4 (crc32 header) ++ natBytes 4 0 ++ [1, 2, 3, 4, 5, 6, 7, 8]

theorem test_boot :
    (State.reset.dtRun = false ∧ (after (exec (.pllLock true) State.reset)).dtRun = true) ∧
    (boot false false 0).life.memOk = false ∧
    (after (exec (.memoryInitDone) (boot false false 1))).life.memOk = true ∧
    (after (exec (.memoryInitDone) (boot false false 3))).devState = 4 ∧
    ((boot true false 0).devState = 1 ∧ imageErr (boot true false 0).part image = 0 ∧ (boot true false 0).params = none) ∧
    ((after (exec (.bootLoadDone (some image) none none) (boot true false 0))).devState = 2 ∧ ((after (exec (.bootLoadDone (some image) none none) (boot true false 0))).slot 0).regs.pc = 0x2004) ∧
    (after (exec (.bootLoadDone (some image) none none) (boot true false 0))).memWord 0x2000 = raw 0x0807060504030201 ∧
    (copyErr (boot true false 0).part none = 2 ∧ copyErr (boot true false 0).part (some []) = 3) ∧
    (after (exec (.bootLoadDone none (some []) none) (boot true false 0))).devState = 4 ∧
    (after (exec (.bootLoadDone none (some []) none) (boot true false 2))).life.hostLoad = true := by
  decide +kernel

theorem test_boot_go :
    Admits (boot true true 1) .pf Reg.devBootCtrl ∧
    ((boot true true 1).devState = 1 ∧
      (after (exec (.bootGo .pf) (boot true true 1))).rf Reg.devBootCtrl 62 62 = 1) ∧
    Admits (core 2) (.ctx 7 2) Reg.devState ∧
    (after (exec (.readySet (.ctx 7 2)) ((core 2).setRf Reg.devState 63 60 2))).devState = 3 :=
  ⟨admits_of (by decide +kernel), by decide +kernel, admits_of (by decide +kernel), by decide +kernel⟩

theorem test_core_reset :
    Admits (core 2) (.ctx 7 2) Reg.devCoreRst ∧
    ((core 2).rf Reg.devCoreRst 56 56 = 0 ∧ (core 2).part.hasPcn 100 = false) ∧
    (after (exec (.coreReset (.ctx 7 2) 100) (core 2))).rf Reg.devCoreRst 55 52 = 2 ∧
    (after (exec (.coreReset (.ctx 7 2) 10) ((core 2).setRf (Reg.seedSlot 10) 63 61 3))).rf Reg.devCoreRst 55 52 = 3 ∧
    ((core 2).rf (Reg.seedSlot 0) 63 61 < 3 ∧ (core 2).otherSlots 0 = true) ∧
    (after (exec (.coreReset (.ctx 7 2) 0) (core 2))).rf Reg.devCoreRst 55 52 = 1 ∧
    ((core 2).otherSlots 10 = false ∧ ((core 2).core 10).dirtySectors = [] ∧ ((core 2).core 10).halt = none) ∧
    (after (exec (.coreReset (.ctx 7 2) 10) (core 2))).rf Reg.devCoreRst 55 52 = 0 :=
  ⟨admits_of (by decide +kernel), by decide +kernel⟩

/-- The kick at DT 5 of a window of 1 ms, at a DT. -/
def kicked (dt : BitVec 64) : State :=
  let s := (core 2).setRf Reg.devAlert 55 48 1
  { s with dt := dt, dtRun := true, life := { s.life with kick := some 5 } }

theorem test_pins :
    (((kicked 6).setRf Reg.devStraps 56 55 2).rf Reg.devStraps 56 55 = 2 ∧
      (after (exec (.tbLost) ((kicked 6).setRf Reg.devStraps 56 55 2))).rf Reg.devStraps 56 55 = 3) ∧
    Admits (kicked 6) (.ctx 7 2) Reg.devAlert ∧
    (after (exec (.kick (.ctx 7 2)) (kicked 6))).life.kick = some 6 ∧
    (after (exec (.heartbeatToggle) (kicked 1000004))).life.beat = true ∧
    ((after (exec (.heartbeatLost) (kicked 1000005))).life.kick = none ∧ (after (exec (.heartbeatLost) (kicked 1000005))).rf Reg.devAlert 0 0 = 1) ∧
    (after (exec (.heartbeatLost) (kicked 1000004))).life.kick = some 5 :=
  ⟨by decide +kernel, admits_of (by decide +kernel), by decide +kernel⟩

theorem test_temperature :
    ((after (exec (.tempSample 0x190) (core 2))).rf Reg.devTherm 63 48 = 0x190 ∧ (after (exec (.tempSample 0x190) (core 2))).rf Reg.devTherm 19 18 = (core 2).rf Reg.devTherm 19 18) ∧
    (core 2).route 0 = none ∧
    ((after (exec (.tempSample 0x7F0) (core 2))).rf Reg.devTherm 19 18 = 2 ∧ (after (exec (.tempSample 0x7F0) (core 2))).rf Reg.devAlert 2 2 = 1) := by
  decide +kernel

/-- JTAG unlocked, the DEBUG alert of SCN 7 masked. -/
def jtag : State :=
  let s := runWith { regsAt 2 words with status := 0x100082 }
  { s.setMemWord 0x2000 (fix 5) with jtagUnlocked := true }

theorem test_jtag :
    (core 2).jtagUnlocked = false ∧
    ((jtag.ctx 7).st ≠ .none ∧ natBit (jtag.alertMask 7).1 4 = true) ∧
    ((after (exec (.jtagHalt 7) jtag)).ctx 7).pend = 16 ∧
    ((after (exec (.jtagHalt 7) (core 2))).ctx 7).pend = 0 ∧
    (jtag.planted = [] ∧ 0x2000 < jtag.part.memSize) ∧
    (after (exec (.jtagAccess .store 0x2000 (fix 9)) jtag)).memWord 0x2000 = fix 9 ∧
    (after (exec (.jtagAccess .load 0x2000 (fix 9)) jtag)).out = [.completion .jtag 0 5] ∧
    regionOf jtag.part (deviceBase + 8) = .device := by
  decide +kernel

/-! More clauses of the statements, each by hand from the rule cited. -/

/-- The words of a CODE object of LENGTH 6 (R51, R145). -/
theorem test_meets_code_object :
    (lengthOk 0x18 6 = true ∧ hdrPin ((freshWords 0x18 6 false 0).headD nil) = true) ∧
    (freshWords 0x18 6 false 0).tail = [fix 16, nil, nil, fix 0, raw 0, raw 0] := by
  decide +kernel

/-- A page table at 0: a word of level 0 that names the table at 0x8000, a POISON word behind it. -/
def table : State :=
  ((core 2).setMemWord 0x6000 (raw 0x8000000000008000)).setMemWord 0x6008 ⟨0x32, 0⟩

/-- Whether a walk's outcome has a property. -/
def walks (x : WalkRes × State) (f : WalkRes → Bool) : Bool := f x.1

theorem test_meets_walk_stops :
    (regionOf table.part 0x5000000000 = .outside ∧ regionOf table.part 0x4000000008 = .device ∧ (table.binOf 0x6000).hall = 0) ∧
    (walks (table.walk 0 0 false 0 0x5000000000 0 3) fun w => decide (w = .fail 0x0D 0x5000000000)) = true ∧
    (walks (table.walk 0 0 false 0 0x4000000008 0 3) fun w => decide (w = .fail 0x0E 0x4000000008)) = true ∧
    (walks (table.walk 0 3 true 0 0x6000 0 3) fun w => decide (w = .fail 0x0E 0x6000)) = true ∧
    (walks (table.walk 0 0 true 0 0x6008 0 3) fun w => decide (w = .fail 0x0D 0x6008)) = true := by
  decide +kernel

theorem test_meets_walk_goes_on :
    table.Faithful 0 ∧
    (bit (table.memWord 0x6000).payload 63 = true ∧ bit (table.memWord 0x6000).payload 62 = false ∧
      fld (table.memWord 0x6000).payload 39 14 = 2) ∧
    (walks (table.walk 0 0 false 0 0x6000 2 1) fun w => decide (w = .leaf 2 0x8000000000008000)) = true ∧
    (walks ((table.setMemWord 0x8008 (raw 0xC000000000010000)).walk 0 0 false (2 ^ 25) 0x6000 0 3) fun w =>
      decide (w = .leaf 1 0xC000000000010000)) = true :=
  ⟨faithful_of (by decide +kernel), by decide +kernel⟩

theorem test_meets_scan_of_hall :
    (scanned.compat 0 = false ∧ (scanned.ctx 9).deferred = []) ∧
    (scanned.staleRef (.core 0) 0 ((scanned.slot 6).regs.getW 4) = true ∧
      scanned.staleRef (.core 0) 0 ((scanned.slot 6).regs.getW 1) = false) ∧
    (after (exec (.registerScan 6) scanned)).staleRef (.core 0) 0 (((after (exec (.registerScan 6) scanned)).slot 6).regs.getW 4) = false := by
  decide +kernel

/-- A crossing wait of SPEC.OPEN that CANCEL ends (log entry 18). -/
theorem test_meets_cancel_crossing :
    let s := scn9 .waiting .ready (some (.crossing 0))
    s.mayCommand (.ctx 7 2) .cancel 9 = true ∧ Waits s 9 (.crossing 0) ∧
    ((after (exec (.cancel (.ctx 7 2) 9) s)).slot 6).regs.pc = 0x1004 ∧
    ((after (exec (.cancel (.ctx 7 2) 9) s)).slot 6).regs.speck = 0 :=
  ⟨by decide +kernel, ⟨by decide +kernel, by decide +kernel, by decide +kernel⟩, by decide +kernel⟩

theorem test_meets_abandoned_code :
    (State.reset.abandoned (.vf 3) Reg.cascJoin true).2.rf Reg.devXstat 31 16 = 0x1203 ∧
    (after (exec (.accessTimeout (.ctx 7 1) Reg.cascJoin true 0) posted)).rf Reg.devXstat 31 16 = 5 := by
  decide +kernel

theorem test_meets_crib_plain :
    (∀ a, (((crib false 1).barn (barnOf 0)).sec a).alt = []) ∧
    ((after (exec (.cribEnable 0) (crib false 1))).core 0).cribOn = true :=
  ⟨fun a => barnPlain_sec (by decide +kernel) a, by decide +kernel⟩

theorem test_meets_given_zeroed :
    ((after (exec (.assignRoot (.ctx 7 2) 3 1 false 100) (granary.setMemWord (binSize * 100 + 8) nil))).memWord
      (binSize * 100 + 8) = Word.fix0 ∧
    (after (exec (.assignPlain (.ctx 7 2) 3 1 false 100) (granary.setMemWord (binSize * 101 - 8) nil))).memWord
      (binSize * 101 - 8) = Word.fix0) := by
  decide +kernel

/-- Calibration words applied: the delay of A of axis 1 (511 ps), of output 3 (2,000 ps) and of mark input 9
(3,000 ps), and gain 0.5 with an offset of 32 sixteenths for MS channel 2 (R516). -/
def calibrated (s : State) : State :=
  ((((s.setReg (Reg.calWord 89) (511)).setReg (Reg.calWord 27) 2000).setReg (Reg.calWord 9) 3000).setReg
    (Reg.calWord 18) (setFld 0x4000 31 16 32))

theorem test_calibrated_inputs :
    ((after (exec (.encoderEdge 1 ⟨true, false, 10, 10⟩) (calibrated (axis 1 ten)))).axr 1).chgDt = 1999999 ∧
    (after (exec (.markEdge 9 4 true) (calibrated (marked 0)))).reg (Reg.markDt 9) = 2000001 ∧
    (look [] (after (exec (.msSample 2 400) (calibrated (channel false)))).ms 2).head? = some ⟨2000000, 202, true⟩ ∧
    ((calibrated (cam [⟨true, none, some 1002⟩])).switchDt 3 1002 = 1000 ∧
      (after (exec (.camFire 3) (calibrated (cam [⟨true, none, some 1002⟩])))).camQ 3 = [] ∧
      (after (exec (.camFire 3) (cam [⟨true, none, some 1002⟩]))).camQ 3 = [⟨true, none, some 1002⟩]) := by
  decide +kernel

/-- An edge within FILT of the accepted one is counted and leaves LEVEL (log entry 36). -/
theorem test_mark_filtered :
    (look 0 (marked 1999990).marks 9 ≠ 0 ∧ 2000000 < look 0 (marked 1999990).marks 9 - 1 + 5 * (marked 1999990).rf (Reg.markCfg 9) 57 50) ∧
    (after (exec (.markEdge 9 0 true) (marked 1999990))).rf (Reg.markStat 9) 31 16 = 1 ∧
    (after (exec (.markEdge 9 0 true) (marked 1999990))).rf (Reg.markStat 9) 15 15 = 0 := by
  decide +kernel

/-- Hall 3 stopped, with a collection running and a scan to come in slot 6 of SCN 9; COMPAT set. -/
def compatStart : State :=
  let s := ((hall 1 0 true).setRf (Reg.hallCfg 3) 0 0 1).setGl 3 { GlHall.reset with phase := .flip }
  let s := s.setSlot 6 { Slot.reset with scn := some 9, scan := true, regs := regsAt 0 words }
  s.setCtx 9 { SwCtx.reset with st := .ready, hcn := 6, hall := 3 }

theorem test_compatible_start :
    Admits compatStart (.ctx 7 2) (Reg.hallCtrl 3) ∧
    (compatStart.hstate 3 = 1 ∧ compatStart.vfOn 3 = true ∧ (compatStart.glh 3).metas = [] ∧ keysRise compatStart.slots = true) ∧
    ((after (exec (.hallCtrlStart (.ctx 7 2) 3) compatStart)).hstate 3 = 2 ∧
      ((after (exec (.hallCtrlStart (.ctx 7 2) 3) compatStart)).glh 3).phase = .idle ∧
      ((after (exec (.hallCtrlStart (.ctx 7 2) 3) compatStart)).slot 6).scan = false) :=
  ⟨admits_of (by decide +kernel), by decide +kernel⟩

/-- PERST_N low: the link is down. -/
def linkless : State := { hall 0 0 true with life := { (hall 0 0 true).life with link := none } }

theorem test_link_down :
    linkless.linkUp = false ∧
    ((after (exec (.vfEnableWrite true 2) linkless)).numVfs = 3 ∧ (after (exec .pfFlr linkless)).numVfs = 3 ∧
      (after (exec (.d3hot 2 (.power true)) linkless)).d3hot = []) ∧
    (after (exec .perst linkless)).linkUp = true := by
  decide +kernel

theorem test_function_sizes :
    ((fnd FnCfg.reset).linkUp = true ∧ ((fnd FnCfg.reset).fnCfg 2).payload = 128) ∧
    (((after (exec (.d3hot 2 (.maxPayload 512)) (fnd FnCfg.reset))).fnCfg 2).payload = 512 ∧
      ((after (exec (.d3hot 2 (.maxPayload 1024)) (fnd FnCfg.reset))).fnCfg 2).payload = 128) ∧
    ((after (exec (.d3hot 2 (.maxReadReq 4096)) (fnd FnCfg.reset))).fnCfg 2).readReq = 4096 ∧
    (((after (exec (.d3hot 2 (.cplTimeout 6 true)) (fnd FnCfg.reset))).fnCfg 2).cplRange = 6 ∧
      ((after (exec (.d3hot 2 (.cplTimeout 3 true)) (fnd FnCfg.reset))).fnCfg 2).cplOff = false) ∧
    ((after (exec (.d3hot 2 .clearAer) (fnd { FnCfg.reset with aer := [1] }))).fnCfg 2).aer = [] := by
  decide +kernel

/-- FENCE descriptors: one fetched behind another of its queue, and the same at its start with a bad header. -/
def fenced : State := { queued 1 4 3 15 with xe := [⟨3, 4, 0, 0, 14, true, [0, 0, 0, 0], true, 0, 0, 0, false⟩] }

def fenceWord : BitVec 64 := setFld (setBit 0 6 true) 63 40 16

theorem test_fence_fetched :
    (fenced.fetchable 3 4 = true ∧ (XeOp.mk 3 4 0 1 15 true [fenceWord, 0x9000, 0, 0] true 0 0 0 false).fence = true) ∧
    badDescriptor ⟨3, 4, 0, 1, 15, true, [fenceWord, 0x9000, 0, 0], true, 0, 0, 0, false⟩ = false ∧
    fenced.xeOps 3 < fenced.rf (Reg.hallShare 3) 47 34 ∧
    ((after (exec (.descriptorFetch 3 4 (some [fenceWord, 0x9000, 0, 0])) fenced)).xe.map (·.waits)) = [false, true] := by
  decide +kernel

/-- The FENCE descriptor alone at its engine, whose object's header is no HDR. -/
def fenceFirst : State :=
  { queued 1 4 3 3 with xe := [⟨3, 4, 0, 1, 2, true, [fenceWord, 0x9000, 0x9000, 0], true, 0, 0x5000, 8, true⟩] }

theorem test_fence_started :
    (fenceFirst.xeNext 3 0).isSome = true ∧ (fenceFirst.xe.all (fun o => !fenceFirst.xeFenced o)) = true ∧
    (fenceFirst.xe.all (fun o => decide ((fenceFirst.xeBuffer o).1 ≠ 0))) = true ∧
    (after (exec (.descriptorComplete 3 0 [] 0 false false []) fenceFirst)).rf (Reg.xeHcnt 3 0) 31 0 = 1 := by
  decide +kernel

/-- Before the device kernel runs no path is served (R465). -/
theorem test_kernel_down :
    ((core 2).kernelUp = false ∧ (core 2).pathOpen 0 = false ∧ (core 2).pathOpen 1 = false) ∧
    (after (exec (.storeParameters 1 0x65766173) (core 2))).params = none ∧
    (after (exec (.stopObject 1 1) (core 2))).stopState = 0 := by
  decide +kernel

/-- All 1,024 transactions in flight. -/
def full (s : State) : State := { s with casc := { s.casc with handOut := List.replicate 1024 ⟨0, 3, 0⟩ } }

theorem test_window_waits :
    ((full (answered (some 3) 2 8 [] (hall 2 0 true))).netFlight = 1024 ∧
      3 ∉ (full (answered (some 3) 2 8 [] (hall 2 0 true))).casc.odWait) ∧
    ((after (exec (.reqSeq (some 3) 6) (full (answered (some 3) 2 8 [] (hall 2 0 true))))).casc.odWait = [3] ∧
      (after (exec (.reqSeq (some 3) 6) (full (answered (some 3) 2 8 [] (hall 2 0 true))))).out = []) := by
  decide +kernel

/-- The line with a period of 1,000 µs at a DT, and the plant's sync managers. -/
def lineDue (dt : BitVec 64) (mode : Nat) : State := { (line 1 false).setRf Reg.eclCfg 61 61 mode with dt := dt }

theorem test_line_due :
    ((lineDue 0 0).linePeriod ≠ 0 ∧ (lineDue 0 0).lineAt 0 = true) ∧
    ((lineDue (BitVec.ofNat 64 ((lineDue 0 0).linePeriod - 2000)) 0).lineAt 2000 = true ∧
      (after (exec .outputSnapshot (lineDue (BitVec.ofNat 64 ((lineDue 0 0).linePeriod - 2000)) 0))).line.snap =
        (lineDue (BitVec.ofNat 64 ((lineDue 0 0).linePeriod - 2000)) 0).lineCycleNo 2000 + 1) ∧
    ((lineDue 5000 0).lineAt 0 = false ∧ (after (exec .lineCycleStart (lineDue 5000 0))).lineOpen = false ∧
      (after (exec .outputSnapshot (lineDue 5000 0))).line.snap = 0) := by
  decide +kernel

/-- A FOLLOW cycle sent at DT 0 is open. -/
def followed : State := (line 1 true).setRf Reg.eclCfg 61 61 0

/-- The reference clock's time as a FOLLOW frame brings it, with the measured delay (R472). -/
theorem test_line_news :
    (followed.line.sent = some 0 ∧ followed.lineTime 500 = 500) ∧
    ((after (exec (.frameReturn [] none ⟨some 1500, some 500, some 4⟩) followed)).line.delay = 500 ∧
      (after (exec (.frameReturn [] none ⟨some 1500, some 500, some 4⟩) followed)).line.low = 4 ∧
      (after (exec (.frameReturn [] none ⟨some 1500, some 500, some 4⟩) followed)).rf Reg.eclDc 31 0 = 1000) := by
  decide +kernel

theorem test_plant_managers :
    (look SmCfg.reset (after (exec (.alStateRequest (.sm 0 { SmCfg.reset with on := true, bytes := 1024 })) (core 2))).plant.sms 0).on = true ∧
    (after (exec (.alStateRequest (.sm 0 { SmCfg.reset with on := true, bytes := 512 })) (core 2))).plant = (core 2).plant ∧
    (look FmmuCfg.reset (after (exec (.alStateRequest (.fmmu 2 { FmmuCfg.reset with on := true })) (core 2))).plant.fmmus 2).on = true ∧
    (after (exec (.alStateRequest (.fmmu 3 { FmmuCfg.reset with on := true })) (core 2))).plant = (core 2).plant := by
  decide +kernel

theorem test_sync_steps :
    ((casc 1 { Casc.reset with trained := true }).dt.toNat : Int) - 9000000 - 100 ≤ -1000000 ∧
    (after (exec (.syncCell ⟨3, 0, 0⟩ 10 9000000 100 (casc 1 { Casc.reset with trained := true }).joinVals)
      (casc 1 { Casc.reset with trained := true }))).dt = 9000100 ∧
    (after (exec (.syncCell ⟨3, 0, 2⟩ 10 9000000 100 (casc 1 { Casc.reset with trained := true }).joinVals)
      (casc 1 { Casc.reset with trained := true }))).dt = 2000000 ∧
    ((after (exec (.syncCell ⟨(casc 5 Casc.reset).cascId, 0, 0⟩ 9 5 5 []) (casc 5 Casc.reset))).casc.lastSync = some 2000000 ∧
      (after (exec .syncLoss (casc 3 { Casc.reset with lastSync := some 5 }))).cascSt = 6) := by
  decide +kernel

/-- Cells that are not for this part: one from part 3 to part 2, which goes on, and one with its own identity. -/
def passing (src dest : Nat) : List Word := fixN (3 * 2 ^ 60 + dest * 2 ^ 57 + src * 2 ^ 54) :: clone.drop 1

theorem test_handoff_passes :
    ((passing 3 2).length = 8 ∧ (hand [] [] 4).cascId = 0) ∧
    ((after (exec (.handoffReceive 1 0 (passing 3 2)) (hand [] [] 4))).out.head?.any (fun o => match o with
      | .cell "handoff" 3 2 [0] _ => true
      | _ => false)) = true ∧
    ((after (exec (.handoffReceive 1 0 (passing 0 2)) (hand [] [] 4))).cascSt = 3 ∧
      (after (exec (.handoffReceive 1 0 (passing 0 2)) (hand [] [] 4))).rf Reg.cascState 59 56 = 5) := by
  decide +kernel

/-- Slot 64 of core 1 holds SCN 9 of hall 3, which has flipped on the seed core 8 only. -/
def respared : State :=
  let s := (serving 1 1 0 (core 2)).setSlot 64 { Slot.reset with scn := some 9, regs := regsAt 0 words }
  let s := s.setCtx 9 { SwCtx.reset with st := .ready, hcn := 64, hall := 3 }
  s.setCore 8 { s.core 8 with flipped := [3] }

theorem test_respare_scan :
    (respared.pcnOfLcn 1 = 1 ∧ seedOf 1 = 8 ∧ (respared.core 1).run = none ∧ 64 / 8 = 1 * 8 + 0) ∧
    ((after (exec .respareGroup respared)).slot 64).scan = true := by
  decide +kernel

/-- SCN 7 in speculation 0, alerts masked. -/
def maskedSpec : State := { masked with gal := [(0, { GalRec.reset with st := .opened, scn := 7 })] }

theorem test_context_words :
    (maskedSpec.specOf 7 = some 0 ∧ natBit (maskedSpec.alertMask 7).1 0 = true) ∧
    ((((after (exec (.monitorSample (.ctxWord 0 5) 0 132 true) maskedSpec)).galr 0).ckpt.getW 3).type = 0x32 ∧
      ((after (exec (.monitorSample (.ctxWord 0 5) 0 132 true) maskedSpec)).ctx 7).pend = 1) ∧
    ((after (exec (.monitorSample (.link 4) 4 2 false) (core 2))).life.link = some ⟨4, 2⟩ ∧
      (after (exec (.monitorSample (.link 4) 0 0 false) (core 2))).life.link = none) := by
  decide +kernel

/-- A host boot whose GO waits, with the PF's Bus Master on. -/
def hostBoot : State :=
  ((boot true true 1).setRf Reg.devBootCtrl 62 62 1).setReg Reg.devBootHost 0x9000 |> fun s =>
    s.setFn 0 { FnCfg.reset with master := true }

theorem test_host_boot :
    (hostBoot.devState = 1 ∧ hostBoot.requests 0 = true ∧ imageErr hostBoot.part image = 0 ∧ hostBoot.params = none) ∧
    ((after (exec (.bootLoadDone none none (some image)) hostBoot)).devState = 2 ∧
      (after (exec (.bootLoadDone none none (some image)) hostBoot)).out.contains (.hostRead 0 0x9000 40) = true ∧
      (after (exec (.bootLoadDone none none (some image)) hostBoot)).out.contains (.hostRead 0 0x9028 8) = true) ∧
    (stStair ((after (exec (.bootLoadDone (some image) none none) (boot true false 0))).slot 0).regs.status = 2 ∧
      stSth ((after (exec (.bootLoadDone (some image) none none) (boot true false 0))).slot 0).regs.status = false) := by
  decide +kernel

theorem test_jtag_scans :
    ((after (exec (.jtagAccess (.scan .bypass) 0 nil) (core 2))).out = [.jtag 1 0] ∧
      (after (exec (.jtagAccess (.scan .extest) 0 nil) (core 2))).life.ir = .extest) ∧
    ((after (exec (.jtagAccess (.scan .idcode) 0 nil) (core 2))).out.head?.any (fun o => match o with
      | .jtag 32 _ => true
      | _ => false)) = true ∧
    jtag.planted = [] := by
  decide +kernel

/-! Invariant, idle step, front of the queue. -/

theorem test_mem_ok :
    State.reset.MemOk := by unfold State.MemOk; decide +kernel

theorem test_step_front :
    (after (step { core 2 with pending := [.sync0 5, .sync0 6] })).reg Reg.ecpDcPlant = 5 ∧
    (after (step { core 2 with pending := [.sync0 5, .sync0 6] })).pending = [.sync0 6] ∧
    (after (step (core 2))).pending = [] := by
  decide +kernel

/-! Ill-formed commands, one for each check of WellFormed, which refuses them. -/

theorem test_ill_formed_0 :
    WellFormed (.nop 72) = false ∧
    WellFormed (.respare (.ctx 7 2) 64) = false ∧
    WellFormed (.jtagHalt 65536) = false ∧
    WellFormed (.registerScan 4608) = false ∧
    WellFormed (.flr 64) = false ∧
    WellFormed (.zIndex ⟨8, 10⟩) = false ∧
    WellFormed (.camFire 64) = false ∧
    WellFormed (.markEdge 16 0 true) = false := by
  decide +kernel

theorem test_ill_formed_1 :
    WellFormed (.markEdge 3 5 true) = false ∧
    WellFormed (.msSample 8 0) = false ∧
    WellFormed (.msSample 3 4096) = false ∧
    WellFormed (.descriptorFetch 3 32 none) = false ∧
    WellFormed (.registerWrite .pf 0x1000000 0 0) = false ∧
    WellFormed (.registerWrite .pf 4 0 0) = false ∧
    WellFormed (.commitTimeout 66) = false ∧
    WellFormed (.ringBreak 2) = false := by
  decide +kernel

theorem test_ill_formed_2 :
    WellFormed (.joinAnnouncement ⟨8, 0, 0⟩ []) = false ∧
    WellFormed (.pdoMapping 0 65536 0 0) = false ∧
    WellFormed (.sdoRequest .download 0x2000 256 false []) = false ∧
    WellFormed (.release (.ctx 7 2) 3 1 8192) = false ∧
    WellFormed (.release (.ctx 7 2) 3 16384 5) = false ∧
    WellFormed (.alStateRequest (.al 16)) = false ∧
    WellFormed (.setprio (.ctx 7 2) 9 (2 ^ 32)) = false ∧
    WellFormed (.odRead (some 0)) = false := by
  decide +kernel

theorem test_ill_formed_3 :
    WellFormed (.odRead (some 64)) = false ∧
    WellFormed (.bootGo (.ctx 65536 0)) = false ∧
    WellFormed (.bootGo (.ctx 5 3)) = false ∧
    WellFormed (.bootGo (.engine 8)) = false ∧
    WellFormed (.bootGo (.gleaner 8)) = false ∧
    WellFormed (.bootGo (.vf 0)) = false ∧
    WellFormed (.bootGo (.vf 64)) = false ∧
    WellFormed (.stopReq (.req (.engine 9))) = false := by
  decide +kernel

theorem test_ill_formed_4 :
    WellFormed (.monitorHour (.core 72)) = false ∧
    WellFormed (.monitorHour (.lane 12)) = false ∧
    WellFormed (.monitorHour (.channel 8)) = false ∧
    WellFormed (.monitorHour (.row (2 ^ 34))) = false ∧
    WellFormed (.monitorHour (.way 16 0)) = false ∧
    WellFormed (.monitorHour (.ctxRow 0 64)) = false ∧
    WellFormed (.monitorSample (.word (.crib 72) 0) 0 0 true) = false ∧
    WellFormed (.monitorSample (.word (.barn 8) 0) 0 0 true) = false := by
  decide +kernel

theorem test_ill_formed_5 :
    WellFormed (.monitorSample (.word (.llc 16) 0) 0 0 true) = false ∧
    WellFormed (.monitorSample (.word (.llc 0) (2 ^ 34)) 0 0 true) = false ∧
    WellFormed (.monitorSample (.entry (.crib 0) (2 ^ 26)) 0 0 true) = false ∧
    WellFormed (.monitorSample (.coreState 72) 0 0 true) = false ∧
    WellFormed (.monitorSample (.patchWord 0 0x2000) 0 0 true) = false ∧
    WellFormed (.monitorSample (.patchWord 0 0x17FF) 0 0 true) = false ∧
    WellFormed (.d3hot 64 .read) = false ∧
    WellFormed (.maintGo .pf 0 4 true) = false := by
  decide +kernel

theorem test_ill_formed_6 :
    WellFormed (.swap .pf 0 2048) = false ∧
    WellFormed (.iptrTail .pf 0 65536) = false ∧
    WellFormed (.hallSlotCmd .pf 0 64 1 0) = false ∧
    WellFormed (.hallSlotCmd .pf 0 0 128 0) = false ∧
    WellFormed (.hallResetGo .pf 1 false 256 1) = false ∧
    WellFormed (.hallReset 1 0 5 32) = false ∧
    WellFormed (.vfEnableWrite true 65536) = false ∧
    WellFormed (.hallSetShare 1 256 0 0 0) = false := by
  decide +kernel

theorem test_ill_formed_7 :
    WellFormed (.clearOverride 1 6 0) = false ∧
    WellFormed (.handoffReceive 0 0 []) = false ∧
    WellFormed (.rowspare .pf (2 ^ 34)) = false ∧
    WellFormed (.ctxrow .pf 0 64) = false ∧
    WellFormed (.tempSample 65536) = false ∧
    WellFormed (.jtagAccess .store (2 ^ 40) Word.fix0) = false := by
  decide +kernel

theorem test_well_formed :
    (WellFormed (.nop 71) = true ∧ WellFormed (.registerWrite .pf 0xFFFFF8 0 0) = true ∧ WellFormed (.odRead none) = true) ∧
    (WellFormed (.monitorHour (.ctxRow 71 63)) = true ∧ WellFormed (.bootGo (.ctx 65535 2)) = true) := by
  decide +kernel

/-! Parcels written out from the encoding tables (R84 to R94), one or more of every family of core instructions. -/

theorem test_parcels_arith :
    decodeParcels 3 0b0000101101010110 0 0 = some (.gadd 3 (.rr 5 6)) ∧
    decodeParcels 3 0b1000001100011001 0b0100110000000010 0 = some (.gsub 3 (.r 17 18 19)) ∧
    decodeParcels 3 0b1000001000010001 0b0000110000000011 0 = some (.gmul 3 1 2 3) ∧
    decodeParcels 3 0b0010111111011001 0 0 = some (.gaddi 3 (.ri7 9 (-3))) ∧
    decodeParcels 3 0b1000010100011001 0b0111111111111011 0 = some (.gaddi 3 (.i 17 18 (-5))) ∧
    decodeParcels 3 0b1000001000001010 0b0101010000000100 0 = some (.gcmp 3 (.r 20 21)) ∧
    decodeParcels 3 0b0000111000010010 0 0 = some (.wcmp 3 (.rr 1 2)) ∧
    decodeParcels 3 0b1000001001001010 0b0101010000000100 0 = none := by
  decide +kernel

theorem test_parcels_move :
    decodeParcels 3 0b0000100000010010 0 0 = some (.mov 3 (.rr 1 2)) ∧
    decodeParcels 3 0b1000001100011001 0b0000000000000110 0 = some (.mov 3 (.r 17 18)) ∧
    decodeParcels 3 0b0010010000000011 0 0 = some (.ldi 3 (.ri7 3 (-64))) ∧
    decodeParcels 3 0b1000011100011111 0b1111111111110111 0 = some (.ldi 3 (.u 17 (-9))) ∧
    decodeParcels 3 0b0011001101110000 0 0 = some (.ldk 3 7 3) ∧
    decodeParcels 3 0b1000100100011000 0b1010101111001101 0 = some (.ldik 3 17 2 0xABCD) ∧
    decodeParcels 3 0b1000101100011001 0b0000101000000000 0 = some (.tagi 3 17 18 5) ∧
    decodeParcels 3 0b1000110100011001 0b0111111000000000 0 = some (.typeq 3 17 18 0x3F) ∧
    decodeParcels 3 0b1100010100011001 0b0100100110000000 0 = some (.tagw 3 17 18 0x93) ∧
    decodeParcels 3 0b1000100100011001 0b1010101111001101 0 = none := by
  decide +kernel

theorem test_parcels_branch :
    decodeParcels 3 0b0011110000000000 0 0 = some (.br 3 (.b11 (-1024))) ∧
    decodeParcels 3 0b1001001111111111 0b1111111111111110 0 = some (.br 3 (.j (-2))) ∧
    decodeParcels 3 0b0100010111111001 0 0 = some (.bcond 3 (.bc16 5 (-7))) ∧
    decodeParcels 3 0b1001000010111111 0b1111111111111001 0 = some (.bcond 3 (.bc32 2 (-7))) ∧
    decodeParcels 3 0b0100111110010100 0 0 = some (.bnil 3 (.br7 4 (-7))) ∧
    decodeParcels 3 0b1001010100011111 0b1111111111111001 0 = some (.bnnil 3 (.bn 17 (-7))) ∧
    decodeParcels 3 0b1000111100010100 0b1011111111111001 0 = some (.tbr 3 17 0x12 true (-7)) ∧
    decodeParcels 3 0b1001011000001000 0b1000000000000000 0 = some (.jmp 3 17) ∧
    decodeParcels 3 0b1001100100010000 0b1000000000000001 0 = some (.callm 3 17 0x8001) ∧
    decodeParcels 3 0b0000000000000011 0 0 = some (.retm 3) ∧
    decodeParcels 3 0b0000000000000100 0 0 = some (.brk 3) ∧
    decodeParcels 3 0b0000000000000001 0 0 = some (.nop 3) ∧
    decodeParcels 3 0b0000000000000000 0 0 = none := by
  decide +kernel

theorem test_parcels_rep :
    decodeParcels 3 0b0000000000000010 0b0000000000000001 0 = some (.rep 3 .nop none) ∧
    decodeParcels 3 0b0000000000000010 0b1000001000010001 0b0000110000000011 = some (.rep 3 (.gmul 1 2 3) none) ∧
    decodeParcels 3 0b0000000000000010 0b0000000000000011 0 = none := by
  decide +kernel

theorem test_parcels_memory :
    decodeParcels 3 0b0001011100010010 0 0 = some (.ld 3 (.ls 1 2 7)) ∧
    decodeParcels 3 0b1010001100011001 0b0111111111111011 0 = some (.st 3 (.i 17 18 (-5))) ∧
    decodeParcels 3 0b1010010000010001 0b0000110000000000 0 = some (.ldx 3 1 2 3) ∧
    decodeParcels 3 0b1010011000010001 0b0000110000000000 0 = some (.stx 3 1 2 3) ∧
    decodeParcels 3 0b0101111001000101 0 0 = some (.ldsp 3 5 100) ∧
    decodeParcels 3 0b0110011001000101 0 0 = some (.stsp 3 5 100) ∧
    decodeParcels 3 0b1100001000000000 0b0000000000000011 0 = some (.fence 3) := by
  decide +kernel

theorem test_parcels_lists :
    decodeParcels 3 0b0000100100010010 0 0 = some (.car 3 (.rr 1 2)) ∧
    decodeParcels 3 0b1011000100011001 0b0000000000000010 0 = some (.cdr 3 (.r 17 18)) ∧
    decodeParcels 3 0b1011000000010001 0b0000110000000011 0 = some (.cons 3 1 2 3) ∧
    decodeParcels 3 0b1011000000000001 0b0000110000000100 0 = some (.rplaca 3 2 3) ∧
    decodeParcels 3 0b1011000000000001 0b0000110000000101 0 = some (.rplacd 3 2 3) ∧
    decodeParcels 3 0b1011000000010001 0b0000110000000110 0 = some (.memq 3 1 2 3 none) ∧
    decodeParcels 3 0b1011000000010001 0b0000110000000111 0 = some (.assq 3 1 2 3 none) ∧
    decodeParcels 3 0b1011000000010001 0b0000000000001000 0 = some (.llen 3 1 2 none) := by
  decide +kernel

theorem test_parcels_vectors :
    decodeParcels 3 0b1011001000010001 0b0000110000000001 0 = some (.vref 3 1 2 3) ∧
    decodeParcels 3 0b1011001000010001 0b0000110000000010 0 = some (.vset 3 1 2 3) ∧
    decodeParcels 3 0b1011001000010001 0b0000110000000011 0 = some (.vfill 3 1 2 3 none) ∧
    decodeParcels 3 0b1011001000010001 0b0000110000000100 0 = some (.vcopy 3 1 2 3 none) ∧
    decodeParcels 3 0b1011010100011001 0b0010010100000001 0 = some (.alloc 3 17 18 0x12 true 1) ∧
    decodeParcels 3 0b1011010100011001 0b0010010100000010 0 = none ∧
    decodeParcels 3 0b1011010100011001 0b0010000100000001 0 = none := by
  decide +kernel

theorem test_parcels_system :
    decodeParcels 3 0b1100110100010100 0b0001000000000000 0 = some (.gets 3 17 0x41) ∧
    decodeParcels 3 0b1100111100010000 0b0001000000000000 0 = some (.sets 3 1 17) ∧
    decodeParcels 3 0b1100000000010000 0b0000000000000000 0 = some (.scall 3 true) ∧
    decodeParcels 3 0b1100001000000000 0b0000000000000001 0 = some (.sret 3) ∧
    decodeParcels 3 0b1100001000000000 0b0000000000000010 0 = some (.xret 3) ∧
    decodeParcels 3 0b1100011100010000 0b0011000000000000 0 = some (.wget 3 17 3) ∧
    decodeParcels 3 0b1100100100010000 0b0011000000000000 0 = some (.wput 3 3 17) := by
  decide +kernel

theorem test_parcels_special :
    decodeParcels 3 0b1100101000000001 0b0000110000000001 0 = some (.tlbwi 3 2 3) ∧
    decodeParcels 3 0b1100101000000001 0b0000000000000010 0 = some (.tlbwr 3 2) ∧
    decodeParcels 3 0b1100101000000001 0b0000000000000011 0 = some (.tlbi 3 2) ∧
    decodeParcels 3 0b1100101000010001 0b0000000000000100 0 = some (.twalk 3 1 2) ∧
    decodeParcels 3 0b1011011000010001 0b0000000000000000 0 = some (.waitp 3 1 2) ∧
    decodeParcels 3 0b1011100000000001 0b0000110000000001 0 = some (.specOpen 3 2 3) ∧
    decodeParcels 3 0b1011100000000000 0b0000000000000010 0 = some (.specClose 3) ∧
    decodeParcels 3 0b1011100000000000 0b1000000000000010 0 = none ∧
    decodeParcels 3 0b0110100000000000 0 0 = none := by
  decide +kernel

end Sys2Proof.Tests
end

namespace Sys2Proof.Machine

/-! What a command leaves (R3, R437): every command ends in a next state, which evolves from the state it found. -/

/-- The command ends in a next state: neither a fault nor a refusal. -/
def Completes (o : Host.Outcome State Fault Refusal) : Prop := ∃ t, o = .next t

theorem completes_next (t : State) : Completes (.next t) := ⟨t, rfl⟩

/-! The commands whose meaning asks about the state before it answers. -/

theorem execLargeInitDone_completes (scn : Nat) (s : State) : Completes (execLargeInitDone scn s) := by
  unfold execLargeInitDone
  dsimp only
  split <;> exact completes_next _

theorem execIllegalEncoding_completes (p : Nat) (s : State) : Completes (execIllegalEncoding p s) := by
  unfold execIllegalEncoding
  split
  · exact completes_next _
  · dsimp only
    split
    · exact completes_next _
    · split
      · exact completes_next _
      · split
        · exact completes_next _
        · split <;> exact completes_next _

theorem execAlertDelivery_completes (p : Nat) (s : State) : Completes (execAlertDelivery p s) := by
  unfold execAlertDelivery
  split
  · exact completes_next _
  · split <;> exact completes_next _

theorem execDispatch_completes (p : Nat) (s : State) : Completes (execDispatch p s) := by
  unfold execDispatch
  split
  · split <;> exact completes_next _
  · exact completes_next _

theorem execPreemption_completes (p : Nat) (s : State) : Completes (execPreemption p s) := by
  unfold execPreemption
  split
  · exact completes_next _
  · split
    · exact completes_next _
    · split <;> exact completes_next _

theorem execQuantumEnd_completes (p : Nat) (s : State) : Completes (execQuantumEnd p s) := by
  unfold execQuantumEnd
  split
  · exact completes_next _
  · split <;> exact completes_next _

theorem execFillOnDemand_completes (s : State) : Completes (execFillOnDemand s) := by
  unfold execFillOnDemand
  dsimp only
  split <;> exact completes_next _

theorem execWatchdog_completes (h : Nat) (s : State) : Completes (execWatchdog h s) := by
  unfold execWatchdog
  dsimp only
  split <;> exact completes_next _

/-- Every command completes; the meaning of a command not named here is a next state as it is written. -/
theorem exec_completes (i : Instr) (s : State) : Completes (exec i s) := by
  cases i with
  | largeInitDone scn => exact execLargeInitDone_completes scn s
  | illegalEncoding p => exact execIllegalEncoding_completes p s
  | alertDelivery p => exact execAlertDelivery_completes p s
  | dispatch p => exact execDispatch_completes p s
  | preemption p => exact execPreemption_completes p s
  | quantumEnd p => exact execQuantumEnd_completes p s
  | fillOnDemand => exact execFillOnDemand_completes s
  | watchdog h => exact execWatchdog_completes h s
  | _ => exact completes_next _

/-- Every command answers a state that evolves from the one it found. -/
theorem exec_evolves (i : Instr) (s : State) : ∃ t, exec i s = .next t ∧ Evolves s t := by
  obtain ⟨t, ht⟩ := exec_completes i s
  have hev : OutEv s (exec i s) := exec_ev (Evolves.refl s) i
  rw [ht] at hev
  exact ⟨t, ht, hev⟩

/-- A step answers a state that evolves from the one without the oldest command. -/
theorem step_evolves (s : State) : ∃ t, step s = .next t ∧ Evolves { s with pending := s.pending.tail } t := by
  unfold step
  split
  case h_1 h =>
    have hidle : s.pending.tail = s.pending := by rw [h, List.tail_nil]
    rw [hidle]
    exact ⟨s.tick, rfl, State.tick_ev (Evolves.refl s)⟩
  case h_2 c rest h =>
    rw [h, List.tail_cons]
    exact exec_evolves c _

theorem Evolves.pending_eq {s t : State} (h : Evolves s t) : t.pending = s.pending := by
  obtain ⟨-, hpending, -⟩ := h
  exact hpending

theorem Evolves.frame {s t : State} (h : Evolves s t) :
    s.out <:+ t.out ∧ s.free ≤ t.free ∧ t.part.variant = s.part.variant ∧ t.part.stepping = s.part.stepping := by
  obtain ⟨-, -, hvariant, hstepping, hfree, hout⟩ := h
  exact ⟨hout, hfree, hvariant, hstepping⟩

/-- Settles O3: every command is total and evolves the state, so a step only takes the oldest command from the queue. -/
theorem stepFrame : Obligations.StepFrame := by
  refine ⟨⟨fun i s => ?_, fun s => ?_⟩, fun s t hst => ?_⟩
  · obtain ⟨t, ht, hev⟩ := exec_evolves i s
    exact ⟨t, ht, hev.pending_eq⟩
  · obtain ⟨t, ht, hev⟩ := step_evolves s
    exact ⟨t, ht, hev.pending_eq⟩
  · obtain ⟨u, hu, hev⟩ := step_evolves s
    obtain rfl : u = t := Host.Outcome.next.inj (hu.symm.trans hst)
    exact hev.frame

end Sys2Proof.Machine

namespace Sys2Proof.Machine

/-! Absent units (R6). -/

theorem regValue_absent {s : State} {off : Nat} (h : s.absentUnit off = true) : s.regValue off = 0 := by
  unfold State.regValue
  split
  · rfl
  · rw [if_pos h]

/-- The process images belong to no absent unit: every variant has them. -/
theorem absentUnit_image (s : State) {off : Nat} (h : (0xA10000 ≤ off && off < 0xA13000) = true) :
    s.absentUnit off = false := by
  simp only [Bool.and_eq_true, decide_eq_true_eq] at h
  obtain ⟨hlo, hhi⟩ := h
  have hhall : offHall off = none := by
    unfold offHall
    simp only [Bool.and_eq_true, decide_eq_true_eq]
    repeat rw [if_neg (by omega)]
  unfold State.absentUnit
  simp only [hhall, Option.any_none, Bool.false_or, Bool.and_eq_true, decide_eq_true_eq]
  repeat rw [if_neg (by omega)]

/-- A read of an absent unit's register, by any initiator. -/
theorem readReg_absent {s : State} {off : Nat} (who : Initiator) (h : s.absentUnit off = true) :
    s.readReg who off = (0, s) := by
  have hv := regValue_absent h
  unfold State.readReg
  split
  · rfl
  · split
    · cases who <;> simp only [hv, ite_self]
    · split
      case isTrue himage => exact absurd h (by simp [absentUnit_image s himage])
      case isFalse => rw [hv]

/-- A write that nothing holds back is applied in its home domain at once (R31, R33). -/
theorem writeReg_applies {s : State} {who : Initiator} {off : Nat} {mask v : BitVec 64}
    (hposted : s.posted.any (fun w => w.of who (homeKey off)) = false) (hfree : s.stalled off = false) :
    s.writeReg who off mask v = s.applyReg who off mask v := by
  simp only [State.writeReg]
  rw [drainPosted_none _ hposted]
  simp [hfree, hposted]

/-- A write that reaches an address of an absent unit or of no register is only counted (R6). -/
theorem writeReg_counts {s : State} {who : Initiator} {off : Nat} {mask v : BitVec 64}
    (hposted : s.posted.any (fun w => w.of who (homeKey off)) = false) (hfree : s.stalled off = false)
    (hanswers : s.fnAnswers who = true) (hreaches : initReaches who off = true)
    (hnone : (regDesc off).isNone = true ∨ s.absentUnit off = true) :
    s.writeReg who off mask v = s.countRsv 0 off := by
  have hnone : ((regDesc off).isNone || s.absentUnit off) = true := by rwa [Bool.or_eq_true]
  rw [writeReg_applies hposted hfree, State.applyReg, hanswers, hreaches, if_neg (by simp), if_pos hnone, State.countReg]

/-- Settles O10: an absent unit's register has the value 0, and its write is counted and goes no further. -/
theorem absentUnits : Obligations.AbsentUnits := by
  intro s who off mask v habsent
  refine ⟨readReg_absent who habsent, fun hposted hfree hanswers hreaches => ?_⟩
  exact congrArg Host.Outcome.next (writeReg_counts hposted hfree hanswers hreaches (.inr habsent))

end Sys2Proof.Machine

namespace Sys2Proof.Machine

/-! Values under a mask. -/

/-- Two values agree under a mask where they agree at each of its bits. -/
theorem and_eq_and_iff {a b m : BitVec 64} :
    a &&& m = b &&& m ↔ ∀ i, m.getLsbD i = true → a.getLsbD i = b.getLsbD i := by
  constructor
  · intro e i hm
    have hbit := congrArg (BitVec.getLsbD · i) e
    simpa only [BitVec.getLsbD_and, hm, Bool.and_true] using hbit
  · intro h
    apply BitVec.eq_of_getLsbD_eq
    intro i _
    simp only [BitVec.getLsbD_and]
    cases hm : m.getLsbD i
    · simp only [Bool.and_false]
    · rw [h i hm]

/-- Two masks are apart where no bit of one is a bit of the other. -/
theorem getLsbD_of_apart {k n : BitVec 64} (h : k &&& n = 0) {i : Nat} (hn : n.getLsbD i = true) : k.getLsbD i = false := by
  have hbit := congrArg (BitVec.getLsbD · i) h
  simpa [hn] using hbit

theorem fmask_and_fmask {h l h' l' : Nat} (hh : h < 64) (hh' : h' < 64) (hapart : h < l' ∨ h' < l) :
    fmask h l &&& fmask h' l' = 0 := by
  apply BitVec.eq_of_getLsbD_eq
  intro i _
  rw [BitVec.getLsbD_and, getLsbD_fmask _ _ _ hh, getLsbD_fmask _ _ _ hh', ← Bool.decide_and]
  simp only [BitVec.ofNat_eq_ofNat, BitVec.getLsbD_zero, decide_eq_false_iff_not]
  omega

/-- A field of a value is fixed by the bits under its mask. -/
theorem fld_eq_of_and_fmask {v w : BitVec 64} {h l : Nat} (hh : h < 64) (e : v &&& fmask h l = w &&& fmask h l) :
    fld v h l = fld w h l := by
  apply Nat.eq_of_testBit_eq
  intro i
  rw [testBit_fld, testBit_fld]
  by_cases hi : i < h + 1 - l
  · rw [and_eq_and_iff.mp e (l + i) (by rw [getLsbD_fmask _ _ _ hh]; exact decide_eq_true (by omega))]
  · simp only [hi, decide_false, Bool.false_and]

theorem bit_eq_of_and_fmask {v w : BitVec 64} {i : Nat} (hi : i < 64) (e : v &&& fmask i i = w &&& fmask i i) :
    bit v i = bit w i :=
  and_eq_and_iff.mp e i (by rw [getLsbD_fmask _ _ _ hi]; exact decide_eq_true (by omega))

/-- A value written through the part of a mask that lies in a field reads, in the field, as one written through the mask. -/
theorem merge_and_field {a old m : BitVec 64} (mask v : BitVec 64) (e : a &&& m = old &&& m) :
    ((a &&& ~~~(m &&& mask)) ||| (v &&& (m &&& mask))) &&& m = ((old &&& ~~~mask) ||| (v &&& mask)) &&& m := by
  refine and_eq_and_iff.mpr fun i hm => ?_
  simp [and_eq_and_iff.mp e i hm, hm]

theorem merge_and_apart (a v : BitVec 64) {k n : BitVec 64} (h : k &&& n = 0) :
    ((a &&& ~~~k) ||| (v &&& k)) &&& n = a &&& n := by
  refine and_eq_and_iff.mpr fun i hn => ?_
  simp only [BitVec.getLsbD_or, BitVec.getLsbD_and, BitVec.getLsbD_not, getLsbD_of_apart h hn,
    decide_eq_true (BitVec.lt_of_getLsbD hn), Bool.not_false, Bool.and_true, Bool.and_false, Bool.or_false]

theorem clear_and_apart (a v : BitVec 64) {k n : BitVec 64} (h : k &&& n = 0) : a &&& ~~~(v &&& k) &&& n = a &&& n := by
  refine and_eq_and_iff.mpr fun i hn => ?_
  simp only [BitVec.getLsbD_and, BitVec.getLsbD_not, getLsbD_of_apart h hn, decide_eq_true (BitVec.lt_of_getLsbD hn),
    Bool.not_false, Bool.and_true, Bool.and_false]

theorem raise_and_apart (a v : BitVec 64) {k n : BitVec 64} (h : k &&& n = 0) : (a ||| (v &&& k)) &&& n = a &&& n := by
  refine and_eq_and_iff.mpr fun i hn => ?_
  simp [getLsbD_of_apart h hn]

/-! What one field makes of a write (R19, R21). -/

section Field

variable {f : Field} {k : BitVec 64} (old mask v : BitVec 64) (w : Wr)

theorem Wr.field_ro (hty : f.ty = .ro) : Wr.field old mask v w f = w := by
  simp only [Wr.field, hty, ite_self]

theorem Wr.field_rw_takes (hty : f.ty = .rw) (hk : k = fmask f.hi f.lo &&& mask)
    (htakes : f.takes (fld ((old &&& ~~~k) ||| (v &&& k)) f.hi f.lo) = true) :
    Wr.field old mask v w f = { w with new := (w.new &&& ~~~k) ||| (v &&& k) } := by
  subst hk
  simp only [Wr.field, hty, htakes, if_true]
  split
  case isTrue hzero =>
    simp only [hzero, BitVec.ofNat_eq_ofNat, BitVec.and_zero, BitVec.not_zero, BitVec.and_allOnes, BitVec.or_zero]
  case isFalse => rfl

theorem Wr.field_rw_refuses (hty : f.ty = .rw) (hk : k = fmask f.hi f.lo &&& mask) (hne : k ≠ 0)
    (htakes : f.takes (fld ((old &&& ~~~k) ||| (v &&& k)) f.hi f.lo) = false) :
    Wr.field old mask v w f = { w with bad := true } := by
  subst hk
  simp only [Wr.field, hty, htakes, if_neg hne, Bool.false_eq_true, if_false]

theorem Wr.field_w1c (hty : f.ty = .w1c) (hk : k = fmask f.hi f.lo &&& mask) :
    Wr.field old mask v w f = { w with new := w.new &&& ~~~(v &&& k) } := by
  subst hk
  simp only [Wr.field, hty]
  split
  case isTrue hzero =>
    simp only [hzero, BitVec.ofNat_eq_ofNat, BitVec.and_zero, BitVec.not_zero, BitVec.and_allOnes]
  case isFalse => rfl

theorem Wr.field_w1s (hty : f.ty = .w1s) (hk : k = fmask f.hi f.lo &&& mask) :
    Wr.field old mask v w f = { w with act := w.act ||| (v &&& k) } := by
  subst hk
  simp only [Wr.field, hty]
  split
  case isTrue hzero =>
    simp only [hzero, BitVec.ofNat_eq_ofNat, BitVec.and_zero, BitVec.or_zero]
  case isFalse => rfl

end Field

/-! What the other fields of the register leave of it. -/

/-- One result of a write goes on from another without touching the bits of a mask; a mark stays. -/
structure Wr.Leaves (m : BitVec 64) (w u : Wr) : Prop where
  new : u.new &&& m = w.new &&& m
  act : u.act &&& m = w.act &&& m
  bad : w.bad = true → u.bad = true

theorem Wr.Leaves.refl (m : BitVec 64) (w : Wr) : Wr.Leaves m w w := ⟨rfl, rfl, id⟩

theorem Wr.Leaves.trans {m : BitVec 64} {w u x : Wr} (h : Wr.Leaves m w u) (h' : Wr.Leaves m u x) : Wr.Leaves m w x :=
  ⟨h'.new.trans h.new, h'.act.trans h.act, h'.bad ∘ h.bad⟩

theorem Wr.field_leaves (old mask v : BitVec 64) (w : Wr) {f : Field} {m : BitVec 64} (h : fmask f.hi f.lo &&& m = 0) :
    Wr.Leaves m w (Wr.field old mask v w f) := by
  have hk : fmask f.hi f.lo &&& mask &&& m = 0 := by
    rw [BitVec.and_assoc, BitVec.and_comm mask, ← BitVec.and_assoc, h, BitVec.ofNat_eq_ofNat, BitVec.zero_and]
  unfold Wr.field
  dsimp only
  split
  · exact .refl m w
  · split
    case h_1 => exact .refl m w
    case h_2 =>
      split
      · exact ⟨merge_and_apart _ _ hk, rfl, id⟩
      · exact ⟨rfl, rfl, fun _ => rfl⟩
    case h_3 => exact ⟨clear_and_apart _ _ hk, rfl, id⟩
    case h_4 => exact ⟨rfl, raise_and_apart _ _ hk, id⟩
    case h_5 =>
      split
      · exact ⟨rfl, raise_and_apart _ _ hk, id⟩
      · exact ⟨rfl, rfl, fun _ => rfl⟩

theorem Wr.fields_leave (old mask v : BitVec 64) {m : BitVec 64} (fs : List Field) (w : Wr)
    (h : ∀ g ∈ fs, fmask g.hi g.lo &&& m = 0) : Wr.Leaves m w (fs.foldl (Wr.field old mask v) w) := by
  induction fs generalizing w with
  | nil => exact .refl m w
  | cons g fs ih =>
    exact (Wr.field_leaves old mask v w (h g List.mem_cons_self)).trans
      (ih _ fun x hx => h x (List.mem_cons_of_mem g hx))

/-- A field of a register whose other fields share no bit with it. -/
structure RegDesc.Alone (d : RegDesc) (f : Field) : Prop where
  mem : f ∈ d.fields
  apart : ∀ g, g ∈ d.fields → g ≠ f → g.hi < f.lo ∨ f.hi < g.lo
  width : ∀ g, g ∈ d.fields → g.hi < 64
  nodup : d.fields.Nodup

/-- The field acts on a result that holds the old value there, and the rest of the write leaves what it made. -/
theorem RegDesc.Alone.write_around {d : RegDesc} {f : Field} (h : d.Alone f) (old mask v : BitVec 64) :
    ∃ w : Wr, w.new &&& fmask f.hi f.lo = old &&& fmask f.hi f.lo ∧ w.act &&& fmask f.hi f.lo = 0 ∧
      Wr.Leaves (fmask f.hi f.lo) (Wr.field old mask v w f) (d.write old mask v) := by
  obtain ⟨xs, ys, hsplit⟩ := List.append_of_mem h.mem
  have hnodup := h.nodup
  rw [hsplit, List.nodup_append, List.nodup_cons] at hnodup
  obtain ⟨-, ⟨hys, -⟩, hxs⟩ := hnodup
  have hzero : ∀ g, g ∈ d.fields → g ≠ f → fmask g.hi g.lo &&& fmask f.hi f.lo = 0 := fun g hg hne =>
    fmask_and_fmask (h.width g hg) (h.width f h.mem) (h.apart g hg hne)
  have hzeroXs : ∀ g ∈ xs, fmask g.hi g.lo &&& fmask f.hi f.lo = 0 := fun g hg =>
    hzero g (hsplit ▸ List.mem_append_left _ hg) (hxs g hg f List.mem_cons_self)
  have hzeroYs : ∀ g ∈ ys, fmask g.hi g.lo &&& fmask f.hi f.lo = 0 := fun g hg =>
    hzero g (hsplit ▸ List.mem_append_right _ (List.mem_cons_of_mem f hg)) fun e => hys (e ▸ hg)
  have hbefore := Wr.fields_leave old mask v xs ⟨old, 0, v &&& mask &&& ~~~d.bits ≠ 0⟩ hzeroXs
  refine ⟨_, hbefore.new, hbefore.act.trans BitVec.zero_and, ?_⟩
  rw [RegDesc.write, hsplit, List.foldl_append, List.foldl_cons]
  exact Wr.fields_leave old mask v ys _ hzeroYs

/-- A 1 in a bit of no field marks the write (R21). -/
theorem RegDesc.write_reserved (d : RegDesc) {old mask v : BitVec 64} (h : v &&& mask &&& ~~~d.bits ≠ 0) :
    (d.write old mask v).bad = true :=
  (Wr.fields_leave old mask v (m := 0) d.fields ⟨old, 0, _⟩ fun _ _ => BitVec.and_zero).bad (decide_eq_true h)

/-! A write of a register at one field of it (R19, R21). -/

section Alone

variable {d : RegDesc} {f : Field} {m : BitVec 64} (h : d.Alone f) (hm : m = fmask f.hi f.lo) (old mask v : BitVec 64)

/-- The field asks of the bits it gets what the whole written value would ask of it. -/
theorem fld_merge_field (hh : f.hi < 64) :
    fld ((old &&& ~~~(fmask f.hi f.lo &&& mask)) ||| (v &&& (fmask f.hi f.lo &&& mask))) f.hi f.lo =
      fld ((old &&& ~~~mask) ||| (v &&& mask)) f.hi f.lo :=
  fld_eq_of_and_fmask hh (merge_and_field mask v rfl)

include h hm

theorem RegDesc.Alone.write_ro (hty : f.ty = .ro) : (d.write old mask v).new &&& m = old &&& m := by
  subst hm
  obtain ⟨w, hnew, -, hleaves⟩ := h.write_around old mask v
  rw [Wr.field_ro _ _ _ _ hty] at hleaves
  exact hleaves.new.trans hnew

theorem RegDesc.Alone.write_rw_takes (hty : f.ty = .rw)
    (htakes : f.takes (fld ((old &&& ~~~mask) ||| (v &&& mask)) f.hi f.lo) = true) :
    (d.write old mask v).new &&& m = ((old &&& ~~~mask) ||| (v &&& mask)) &&& m := by
  subst hm
  obtain ⟨w, hnew, -, hleaves⟩ := h.write_around old mask v
  rw [← fld_merge_field old mask v (h.width f h.mem)] at htakes
  rw [Wr.field_rw_takes _ _ _ _ hty rfl htakes] at hleaves
  exact hleaves.new.trans (merge_and_field mask v hnew)

theorem RegDesc.Alone.write_rw_refuses (hty : f.ty = .rw) (hne : m &&& mask ≠ 0)
    (htakes : f.takes (fld ((old &&& ~~~mask) ||| (v &&& mask)) f.hi f.lo) = false) :
    (d.write old mask v).new &&& m = old &&& m ∧ (d.write old mask v).bad = true := by
  subst hm
  obtain ⟨w, hnew, -, hleaves⟩ := h.write_around old mask v
  rw [← fld_merge_field old mask v (h.width f h.mem)] at htakes
  rw [Wr.field_rw_refuses _ _ _ _ hty rfl hne htakes] at hleaves
  exact ⟨hleaves.new.trans hnew, hleaves.bad rfl⟩

theorem RegDesc.Alone.write_w1c (hty : f.ty = .w1c) : (d.write old mask v).new &&& m = old &&& ~~~(v &&& mask) &&& m := by
  subst hm
  obtain ⟨w, hnew, -, hleaves⟩ := h.write_around old mask v
  rw [Wr.field_w1c _ _ _ _ hty rfl] at hleaves
  refine hleaves.new.trans (and_eq_and_iff.mpr fun i hi => ?_)
  simp [and_eq_and_iff.mp hnew i hi, hi]

theorem RegDesc.Alone.write_w1s (hty : f.ty = .w1s) :
    (d.write old mask v).new &&& m = old &&& m ∧ (d.write old mask v).act &&& m = v &&& mask &&& m := by
  subst hm
  obtain ⟨w, hnew, hact, hleaves⟩ := h.write_around old mask v
  rw [Wr.field_w1s _ _ _ _ hty rfl] at hleaves
  refine ⟨hleaves.new.trans hnew, hleaves.act.trans (and_eq_and_iff.mpr fun i hi => ?_)⟩
  simp [getLsbD_of_apart hact hi, hi]

end Alone

/-- An RW field that takes every value holds what a write of all 64 bits brings it. -/
theorem RegDesc.Alone.fld_write_full {d : RegDesc} {f : Field} (h : d.Alone f) (old v : BitVec 64) (hty : f.ty = .rw)
    (hok : f.ok = []) : fld (d.write old full64 v).new f.hi f.lo = fld v f.hi f.lo := by
  refine fld_eq_of_and_fmask (h.width f h.mem) ?_
  rw [h.write_rw_takes rfl old full64 v hty (by simp only [Field.takes, hok, List.isEmpty_nil, Bool.true_or]), full64_and]
  have hold : old &&& ~~~full64 = 0 := by simp only [full64, BitVec.not_allOnes, BitVec.ofNat_eq_ofNat, BitVec.and_zero]
  rw [hold, BitVec.ofNat_eq_ofNat, BitVec.zero_or]

/-! The stored write: what it leaves of the state. -/

section Store

variable (s : State) (off : Nat) (mask v : BitVec 64)

/-- The stored part of a write, with its count, changes the control registers alone. -/
theorem State.store64_frame : ∃ c, (s.store64 off mask v).2 = { s with ctl := c } := by
  unfold State.store64
  split
  · exact ⟨_, rfl⟩
  · dsimp only
    split <;> exact ⟨_, rfl⟩

variable {s off mask v} {d : RegDesc}

theorem State.store64_act (hd : regDesc off = some d) : (s.store64 off mask v).1 = (d.write (s.reg off) mask v).act := by
  simp only [State.store64, hd]

theorem State.plain_eq (hd : regDesc off = some d) :
    s.plain off mask v =
      if (d.write (s.reg off) mask v).bad then (s.setReg off (d.write (s.reg off) mask v).new).countRsv 0 off
      else s.setReg off (d.write (s.reg off) mask v).new := by
  simp only [State.plain, State.store64, State.countReg, hd]

theorem State.reg_store64 (hd : regDesc off = some d) (hoff : off ≠ Reg.devRsvWrites) :
    (s.store64 off mask v).2.reg off = (d.write (s.reg off) mask v).new := by
  have hplain : (s.store64 off mask v).2 = s.plain off mask v := rfl
  rw [hplain, State.plain_eq hd]
  split <;> simp [State.countRsv, hoff]

end Store

/-! EVR_CTXTAB. -/

/-- The map of EVR_CTXTAB (R160). -/
def evrCtxtabMap : RegDesc := ⟨"EVR_CTXTAB", 0xE00000, 0x8, 1, 0x8, 1, 0, .device, .fab, [⟨39, 19, .rw, 0, []⟩]⟩

theorem regDesc_evrCtxtab : regDesc Reg.evrCtxtab = some evrCtxtabMap := rfl

theorem evrCtxtabMap_write (old mask v : BitVec 64) :
    evrCtxtabMap.write old mask v =
      ⟨(old &&& ~~~(fmask 39 19 &&& mask)) ||| (v &&& (fmask 39 19 &&& mask)), 0,
        v &&& mask &&& ~~~fmask 39 19 ≠ 0⟩ := by
  have hbits : evrCtxtabMap.bits = fmask 39 19 := rfl
  have hfold : evrCtxtabMap.write old mask v =
      Wr.field old mask v ⟨old, 0, v &&& mask &&& ~~~evrCtxtabMap.bits ≠ 0⟩ ⟨39, 19, .rw, 0, []⟩ := rfl
  rw [hfold, hbits, Wr.field_rw_takes _ _ _ _ rfl rfl rfl]

theorem writeReg_evrCtxtab {s : State} {who : Initiator} {mask v : BitVec 64} (h : Admits s who Reg.evrCtxtab) :
    s.writeReg who Reg.evrCtxtab mask v =
      s.gate (s.privileged who) who Reg.evrCtxtab (s.plain Reg.evrCtxtab mask v) := by
  rw [writeReg_admits h rfl, flagged_none rfl]
  rfl

/-! EVR_ALERT_ROUTE. -/

/-- The map of EVR_ALERT_ROUTE[h] (R213). -/
def evrAlertRouteMap : RegDesc :=
  ⟨"EVR_ALERT_ROUTE[h]", 0xE01000, 0x8, 64, 0x8, 1, 0, .hall, .fab,
    [⟨63, 63, .rw, 0, []⟩, ⟨55, 40, .rw, 0, []⟩, ⟨16, 16, .w1s, 0, []⟩, ⟨15, 0, .rw, 0, []⟩]⟩

theorem evrAlertRouteMap_alone {f : Field} (hf : f ∈ evrAlertRouteMap.fields) : evrAlertRouteMap.Alone f where
  mem := hf
  apart := by
    revert f
    decide
  width := by decide
  nodup := by decide

section AlertRoute

variable {s : State} {who : Initiator} {h : Nat} {v : BitVec 64}

theorem regDesc_evrAlertRoute (hh : h < 64) : regDesc (Reg.evrAlertRoute h) = some evrAlertRouteMap := by
  revert h
  decide

theorem regFn_evrAlertRoute (hh : h < 64) : regFn (Reg.evrAlertRoute h) = none := by
  revert h
  decide

theorem blockWrite_evr {off : Nat} {mask : BitVec 64} (hoff : 0xE00000 ≤ off) :
    s.blockWrite who off mask v = s.evrWrite who off mask v := by
  unfold State.blockWrite
  repeat rw [if_neg (by omega)]

theorem evrWrite_evrAlertRoute (hh : h < 64) (mask : BitVec 64) :
    s.evrWrite who (Reg.evrAlertRoute h) mask v = s.alertRouteWrite who h mask v := by
  have hne : Reg.evrAlertRoute h ≠ Reg.evrCtxCmd := by simp only [Reg.evrAlertRoute, Reg.evrCtxCmd]; omega
  have hin : 0xE01000 ≤ Reg.evrAlertRoute h ∧ Reg.evrAlertRoute h < 0xE01200 := by simp only [Reg.evrAlertRoute]; omega
  have hinst : (Reg.evrAlertRoute h - 0xE01000) / 8 = h := by simp only [Reg.evrAlertRoute]; omega
  unfold State.evrWrite
  rw [if_neg hne, if_pos (by simp only [hin, decide_true, Bool.and_self]), hinst]

/-- A full write of the register by one that may make it, while the hall is not being reset (R213, R423). -/
theorem write64_evrAlertRoute (hh : h < 64) (hadm : Admits s who (Reg.evrAlertRoute h))
    (hmay : (s.kernelOrPf who || s.isCtxOf who h) = true) (hrun : h = 0 ∨ s.resetting h = false)
    {act : BitVec 64} {t : State} (hstore : s.store64 (Reg.evrAlertRoute h) full64 v = (act, t)) :
    s.write64 who (Reg.evrAlertRoute h) v =
      if bit act 16 || t.rf (Reg.evrAlertRoute h) 15 0 ≠ s.rf (Reg.evrAlertRoute h) 15 0 then t.restartWdog h else t := by
  have hreset : ¬ (h ≠ 0 && s.resetting h) = true := by rcases hrun with h0 | hr <;> simp [*]
  have hd : (regDesc (Reg.evrAlertRoute h)).isNone = false := by rw [regDesc_evrAlertRoute hh]; rfl
  rw [write64_admits hadm hd, flagged_none (regFn_evrAlertRoute hh),
    blockWrite_evr (by simp only [Reg.evrAlertRoute]; omega), evrWrite_evrAlertRoute hh, State.alertRouteWrite,
    State.gate, if_pos hmay]
  dsimp only
  rw [if_neg hreset, hstore]

/-- The stored part of a full write: the RW fields hold what was written, and bit 16 is handed on (R19). -/
theorem store64_evrAlertRoute (hh : h < 64) {act : BitVec 64} {t : State}
    (hstore : s.store64 (Reg.evrAlertRoute h) full64 v = (act, t)) :
    bit act 16 = bit v 16 ∧ ∀ f ∈ evrAlertRouteMap.fields, f.ty = .rw →
      t.rf (Reg.evrAlertRoute h) f.hi f.lo = fld v f.hi f.lo := by
  have hd := regDesc_evrAlertRoute hh
  have hact : act = (s.store64 (Reg.evrAlertRoute h) full64 v).1 := by rw [hstore]
  have ht : t = (s.store64 (Reg.evrAlertRoute h) full64 v).2 := by rw [hstore]
  constructor
  · obtain ⟨-, hw1s⟩ := (evrAlertRouteMap_alone (f := ⟨16, 16, .w1s, 0, []⟩) (by decide)).write_w1s rfl
      (s.reg (Reg.evrAlertRoute h)) full64 v rfl
    rw [hact, State.store64_act hd]
    exact bit_eq_of_and_fmask (by decide) (by rw [hw1s, full64_and])
  · intro f hf hty
    have hne : Reg.evrAlertRoute h ≠ Reg.devRsvWrites := by simp only [Reg.evrAlertRoute, Reg.devRsvWrites]; omega
    have hok : f.ok = [] := by
      revert f
      decide
    rw [State.rf, ht, State.reg_store64 hd hne]
    exact (evrAlertRouteMap_alone hf).fld_write_full _ v hty hok

/-- What such a write does (R213): the route is stored, and the watchdog starts again at a 1 in bit 16 or a new period. -/
theorem evrAlertRoute_stored (hh : h < 64) (hadm : Admits s who (Reg.evrAlertRoute h))
    (hmay : (s.kernelOrPf who || s.isCtxOf who h) = true) (hrun : h = 0 ∨ s.resetting h = false) {t : State}
    (ht : t = s.write64 who (Reg.evrAlertRoute h) v) :
    (t.rf (Reg.evrAlertRoute h) 63 63 = fld v 63 63 ∧ t.rf (Reg.evrAlertRoute h) 55 40 = fld v 55 40 ∧
      t.rf (Reg.evrAlertRoute h) 15 0 = fld v 15 0) ∧
    (bit v 16 = true ∨ fld v 15 0 ≠ s.rf (Reg.evrAlertRoute h) 15 0 → look 0 t.wdogFrom h = s.dt.toNat) ∧
    (bit v 16 = false ∧ fld v 15 0 = s.rf (Reg.evrAlertRoute h) 15 0 → t.wdogFrom = s.wdogFrom) ∧
    t.slots = s.slots ∧ t.mem = s.mem := by
  obtain ⟨act, u, hstore⟩ : ∃ act u, s.store64 (Reg.evrAlertRoute h) full64 v = (act, u) := ⟨_, _, rfl⟩
  have hkeep : u.slots = s.slots ∧ u.mem = s.mem ∧ u.dt = s.dt ∧ u.wdogFrom = s.wdogFrom := by
    obtain ⟨c, hc⟩ := s.store64_frame (Reg.evrAlertRoute h) full64 v
    rw [hstore] at hc
    subst hc
    exact ⟨rfl, rfl, rfl, rfl⟩
  obtain ⟨hslots, hmem, hdt, hwdog⟩ := hkeep
  obtain ⟨hbit, hfld⟩ := store64_evrAlertRoute hh hstore
  have hroute : u.rf (Reg.evrAlertRoute h) 63 63 = fld v 63 63 ∧ u.rf (Reg.evrAlertRoute h) 55 40 = fld v 55 40 ∧
      u.rf (Reg.evrAlertRoute h) 15 0 = fld v 15 0 :=
    ⟨hfld ⟨63, 63, .rw, 0, []⟩ (by decide) rfl, hfld ⟨55, 40, .rw, 0, []⟩ (by decide) rfl,
      hfld ⟨15, 0, .rw, 0, []⟩ (by decide) rfl⟩
  rw [write64_evrAlertRoute hh hadm hmay hrun hstore, hbit, hroute.right.right] at ht
  by_cases hstart : bit v 16 = true ∨ fld v 15 0 ≠ s.rf (Reg.evrAlertRoute h) 15 0
  · rw [if_pos (by simpa using hstart)] at ht
    subst ht
    refine ⟨hroute, fun _ => ?_, fun ⟨h16, hsame⟩ => ?_, hslots, hmem⟩
    · simp only [State.restartWdog, Laws.look_put, if_true, hdt]
    · simp [h16, hsame] at hstart
  · rw [if_neg (by simpa using hstart)] at ht
    subst ht
    exact ⟨hroute, fun hstarts => absurd hstarts hstart, fun _ => hwdog, hslots, hmem⟩

theorem execAlertRouteWrite_eq (hh : h < 64) :
    exec (.alertRouteWrite who h v) s = .next (s.write64 who (Reg.evrAlertRoute h) v) := by
  have he : exec (.alertRouteWrite who h v) s = .next (s.write64 who (Reg.evrAlertRoute (h % 64)) v) := rfl
  rw [he, Nat.mod_eq_of_lt hh]

theorem execWatchdogKick_eq (hh : h < 64) : exec (.watchdogKick who h) s =
    .next (s.write64 who (Reg.evrAlertRoute h) (setBit (s.reg (Reg.evrAlertRoute h)) 16 true)) := by
  have he : exec (.watchdogKick who h) s = .next (s.write64 who (Reg.evrAlertRoute (h % 64))
      (setBit (s.reg (Reg.evrAlertRoute (h % 64))) 16 true)) := rfl
  rw [he, Nat.mod_eq_of_lt hh]

end AlertRoute

/-- Settles O35: the fields of a register are written each alone, and the rows' writes are that write of their register. -/
theorem registerWrites : Obligations.RegisterWrites := by
  refine ⟨?_, fun who s mask v => ⟨?_, ?_, ?_⟩⟩
  · rintro d old mask v f hf hapart hwidth hnodup w m rfl hm
    have h : d.Alone f := ⟨hf, hapart, hwidth, hnodup⟩
    exact ⟨h.write_ro hm old mask v, h.write_rw_takes hm old mask v, h.write_rw_refuses hm old mask v,
      h.write_w1c hm old mask v, h.write_w1s hm old mask v, d.write_reserved⟩
  · rintro hadm u rfl
    have hwrite : exec (.registerWrite who Reg.evrCtxtab mask v) s = .next (s.gate (s.privileged who) who Reg.evrCtxtab
        (s.plain Reg.evrCtxtab mask v)) := congrArg Host.Outcome.next (writeReg_evrCtxtab hadm)
    rw [hwrite, State.plain_eq regDesc_evrCtxtab, evrCtxtabMap_write]
    refine ⟨fun hmay hnone => ?_, fun hmay hsome => ?_, fun hnot => ?_⟩
    · rw [State.gate, if_pos hmay, if_neg (by simp [hnone])]
    · rw [State.gate, if_pos hmay, if_pos (decide_eq_true hsome)]
    · rw [State.gate, if_neg (by simp [hnot])]
  · intro off hposted hfree hanswers hreaches hnone
    exact congrArg Host.Outcome.next (writeReg_counts hposted hfree hanswers hreaches (.inl (by rw [hnone]; rfl)))
  · intro h hh hadm hmay hrun
    refine ⟨⟨_, execAlertRouteWrite_eq hh, ?_⟩, ⟨_, execWatchdogKick_eq hh, ?_⟩⟩
    · obtain ⟨⟨h63, h55, h15⟩, hstart, hidle, hslots, hmem⟩ := evrAlertRoute_stored hh hadm hmay hrun (v := v) rfl
      exact ⟨h63, h55, h15, hstart, hidle, hslots, hmem⟩
    · obtain ⟨⟨-, -, h15⟩, hstart, -, hslots, hmem⟩ := evrAlertRoute_stored hh hadm hmay hrun
        (v := setBit (s.reg (Reg.evrAlertRoute h)) 16 true) rfl
      refine ⟨hstart (.inl (bit_setBit _ _ _ (by decide))), h15.trans ?_, hslots, hmem⟩
      exact fld_setFld_other _ _ _ _ _ _ (by decide) (by decide)

end Sys2Proof.Machine

namespace Sys2Proof.Machine

/-! A write of a w register: what it leaves of the state (R225). -/

section SetW

variable (s : State) (r : Run) (n : Nat) (w : Word)

theorem State.getW_setW_self : (s.setW r n w).getW r n = strip (s.compat r.hall) w := by
  rw [State.getW_setW, if_pos rfl, strip_strip]

theorem State.getW_setW_other {m : Nat} (h : m ≠ n) : (s.setW r n w).getW r m = s.getW r m := by
  rw [State.getW_setW, if_neg h]

theorem State.regs_setW_other {q : Run} (h : q.hcn ≠ r.hcn) : (s.setW r n w).regs q = s.regs q := by
  simp only [State.regs, State.setW, State.setRegs, State.slot_setSlot, if_neg h]

@[simp] theorem State.setW_memWord_of (a : Nat) : (s.setW r n w).memWord a = s.memWord a := rfl
@[simp] theorem State.setW_reg_of (a : Nat) : (s.setW r n w).reg a = s.reg a := rfl
@[simp] theorem State.setW_sys_of (h k : Nat) : (s.setW r n w).sys h k = s.sys h k := rfl

end SetW

/-- Settles O9: the write replaces one w register of one slot. -/
theorem registerReadsWhatWasWritten : Obligations.RegisterReadsWhatWasWritten := by
  intro s r n w t
  have hregs : t.regs r = (s.regs r).putW n (strip (s.compat r.hall) w) := s.regs_setW r n w
  have hpc : (t.regs r).pc = (s.regs r).pc := by rw [hregs, Regs.putW]
  have hcnt : (t.regs r).cnt = (s.regs r).cnt := by rw [hregs, Regs.putW]
  exact ⟨s.getW_setW_self r n w, fun _ => s.getW_setW_other r n w, hpc, s.status_setW r n w, hcnt,
    fun _ => s.regs_setW_other r n w, s.setW_memWord_of r n w, s.setW_reg_of r n w, s.setW_sys_of r n w⟩

end Sys2Proof.Machine

namespace Sys2Proof.Machine

/-! The page-table walk and a barn cache that lists a line more than once (R259, R274, R288).

`State.Faithful` speaks of the copy of a sector that `BarnCache.sec` finds, which is the first listed. A walk's load may evict
that copy: where the Crib has no entry for the table's line, the fetch of the next line takes a way that holds another copy of
it, and the eviction drops the first. The load then reads the copy behind it, of which the premise says nothing. -/

/-- A line of a barn cache with all its sectors alike. -/
def barnCopy (line : Nat) (x : BarnSector) : BarnLine := ⟨line, Quad.all x⟩

/-- Line 0 seventeen times: first a copy without data of its own, then, in every way of the next line's set, one that holds
POISON beside MEMORY's word. -/
def repeatedLine : BarnCache :=
  { BarnCache.reset with
    lines := (0, barnCopy 0 ⟨.i, 0, []⟩) ::
      (List.range 16).map fun w => (16 + w, barnCopy 0 ⟨.e, 0, [poisonWord 0]⟩) }

/-- Core 0 fetches next lines (CRIB_CTRL.NLEN), and its own loads may allocate no entry (CRIB_AMASK_MUT 0). -/
def repeatedLineState : State :=
  { State.reset with
    ctl := [(Reg.cribCtrl 0, 3), (Reg.cribAmaskMut 0, 0)]
    barns := [(0, repeatedLine)] }

/-- The copy of line 0 that is found is the one without data, and no other line is listed. -/
theorem repeatedLine_find (line : Nat) : repeatedLine.find line = if line = 0 then some 0 else none := by
  split
  case isTrue h =>
    subst h
    decide
  case isFalse h =>
    have hline : ∀ e ∈ repeatedLine.lines, e.2.line = 0 := by decide
    have hnone : repeatedLine.lines.find? (fun e => e.2.line = line) = none := by
      refine List.find?_eq_none.mpr fun e he hfound => h ?_
      rw [← of_decide_eq_true hfound, hline e he]
    rw [BarnCache.find, hnone, Option.map_none]

theorem repeatedLine_alt (a : Nat) : (repeatedLine.sec a).alt = [] := by
  unfold BarnCache.sec
  rw [repeatedLine_find]
  by_cases h : a / 256 = 0
  · have hsec : ∀ k, (Quad.all (⟨.i, 0, []⟩ : BarnSector)).get k = ⟨.i, 0, []⟩ := fun k => by
      simp only [Quad.get, Quad.all, ite_self]
    rw [if_pos h]
    exact congrArg BarnSector.alt (hsec (sectorOf a))
  · rw [if_neg h]

theorem CribEntry.sector_invalid (k : Nat) : CribEntry.invalid.sector k = Sector.invalid := by
  simp only [CribEntry.sector, CribEntry.invalid, ite_self]

theorem repeatedLineState_faithful : repeatedLineState.Faithful 0 :=
  ⟨⟨rfl, by decide⟩, repeatedLine_alt, fun _ _ k => .inr (congrArg Sector.alt (CribEntry.sector_invalid k))⟩

/-- The walk meets the POISON of a copy behind the first, where MEMORY holds FIX 0. -/
theorem repeatedLineState_walk : (repeatedLineState.walk 0 0 false 0 0 0 1).1 = .fail 0x0D 0 := by
  decide +kernel

/-- Refutes O28: with line 0 more than once in a barn cache, the walk of a faithful core ends at a word that MEMORY does not
hold. -/
theorem not_tableWalks : ¬ Obligations.TableWalks := by
  rintro ⟨hwalk, -⟩
  obtain ⟨-, -, -, hmemory⟩ := hwalk repeatedLineState _ 0 0 0 0 0 false 0 _ rfl rfl
  obtain ⟨-, hleaf, -⟩ := hmemory (by decide) (.inl rfl) repeatedLineState_faithful
  have hends := congrArg Prod.fst (hleaf (by decide) (.inl (by decide)))
  rw [repeatedLineState_walk] at hends
  exact Walk.noConfusion hends

end Sys2Proof.Machine

namespace Sys2Proof.Machine

/-! A lost context row and a deferred SPILL (R170, R212, R506). -/

/-- SCN 7, Parked in slot 5 of core 0, with MCHK_CONTAINED masked (bit 16 of STATUS). A SPILL is deferred for it though it has
no open speculation, which is how `State.cmdSpill` leaves a context whose spill routine could not end. -/
def spillDueState : State :=
  { State.reset with
    slots := [(5, { Slot.reset with scn := some 7, regs := { Regs.zero with status := 0x10000 } })]
    ctxs := [(7, { SwCtx.reset with st := .parked, hcn := 5, desc := 0x400, deferred := [.spill] })] }

/-- The alert of the lost word w0 has the deferred SPILL applied, masked as it is, and the slot is empty behind it. -/
theorem spillDueState_emptied :
    ((spillDueState.monitorSample (.ctxWord 0 5) 0 1 true).slot 5).regs.getW 0 = Word.fix0 := by
  decide +kernel

/-- Slot 1 of a descriptor names w0, which becomes the word given. -/
theorem Regs.getW_lose_first (x : Regs) (w : Word) : (x.lose (slotSel 1) w).getW 0 = w := by
  have hlose : x.lose (slotSel 1) w = x.putW 0 w := rfl
  rw [hlose, Regs.getW_putW, if_pos rfl]

/-- Refutes O57: the slot of a context with a deferred SPILL does not keep the POISON of a lost register, since the alert that
the loss raises has the SPILL applied. -/
theorem not_monitorsAndRecorder : ¬ Obligations.MonitorsAndRecorder := by
  intro h
  obtain ⟨-, -, -, -, -, -, -, -, -, hrow, -⟩ := h spillDueState
  obtain ⟨-, -, hlost⟩ := hrow 0 5 0 1 (by decide) (by decide)
  obtain ⟨hreg, -⟩ := hlost 5 7 (by decide) (by decide) (by decide) (by decide) (by decide)
  obtain ⟨t, i, hnext, hregs, -⟩ := hreg (by decide) (by decide) (by decide)
  obtain rfl : spillDueState.monitorSample (.ctxWord 0 5) 0 1 true = t := Host.Outcome.next.inj hnext
  have hword := congrArg (Regs.getW · 0) hregs
  simp only [spillDueState_emptied, Regs.getW_lose_first] at hword
  exact absurd (congrArg Word.tag hword) (by decide : (0 : Byte) ≠ 0x32)

end Sys2Proof.Machine

namespace Sys2Proof.Machine

/-! The enable bit of a Crib while a speculation is open on its core (R284, R285). -/

/-- The map of CRIB_CTRL. -/
def cribCtrlMap : RegDesc :=
  ⟨"CRIB_CTRL", 0x107000, 0x10000, 72, 0x8, 1, 0, .core, .core, [⟨1, 1, .rw, 1, []⟩, ⟨0, 0, .rw, 1, []⟩]⟩

theorem cribCtrlMap_alone {f : Field} (hf : f ∈ cribCtrlMap.fields) : cribCtrlMap.Alone f where
  mem := hf
  apart := by
    revert f
    decide
  width := by decide
  nodup := by decide

section CribCtrl

variable {s : State} {p : Nat}

theorem regDesc_cribCtrl (hp : p < 72) : regDesc (Reg.cribCtrl p) = some cribCtrlMap := by
  revert p
  decide

theorem regFn_cribCtrl (hp : p < 72) : regFn (Reg.cribCtrl p) = none := by
  revert p
  decide

theorem cribCtrl_ne_cribStat (p q : Nat) : Reg.cribCtrl p ≠ Reg.cribStat q := by
  simp only [Reg.cribCtrl, Reg.cribStat]
  omega

theorem cribCtrl_ne_devRsvWrites (p : Nat) : Reg.cribCtrl p ≠ Reg.devRsvWrites := by
  simp only [Reg.cribCtrl, Reg.devRsvWrites]
  omega

/-- A privileged write of CRIB_CTRL comes to its own rule. -/
theorem blockWrite_cribCtrl (hp : p < 72) {who : Initiator} (hpriv : s.privileged who = true) (mask v : BitVec 64) :
    s.blockWrite who (Reg.cribCtrl p) mask v = s.cribCtrlWrite p mask v := by
  have hlow : ¬ Reg.cribCtrl p < 0x100000 := by simp only [Reg.cribCtrl]; omega
  have hblock : Reg.cribCtrl p < 0x600000 := by simp only [Reg.cribCtrl]; omega
  have hpcn : offPcn (Reg.cribCtrl p) = p := by simp only [offPcn, Reg.cribCtrl]; omega
  have hinner : (Reg.cribCtrl p - 0x100000) % 0x10000 = 0x7000 := by simp only [Reg.cribCtrl]; omega
  rw [State.blockWrite, if_neg hlow, if_pos hblock, State.coreWrite, State.gate, if_pos hpriv, hpcn, hinner,
    if_neg (by decide), if_pos (by decide), State.cribWrite, if_pos rfl]

theorem writeReg_cribCtrl (hp : p < 72) {who : Initiator} (hadm : Admits s who (Reg.cribCtrl p))
    (hpriv : s.privileged who = true) (mask v : BitVec 64) :
    s.writeReg who (Reg.cribCtrl p) mask v = s.cribCtrlWrite p mask v := by
  have hd : (regDesc (Reg.cribCtrl p)).isNone = false := by rw [regDesc_cribCtrl hp]; rfl
  rw [writeReg_admits hadm hd, flagged_none (regFn_cribCtrl hp), blockWrite_cribCtrl hp hpriv]

/-- EN = 0 written over 1 while a speculation is open: EN is written as 1, and REFUSED is set. -/
theorem cribCtrlWrite_refused {v : BitVec 64} (hen : s.rf (Reg.cribCtrl p) 0 0 = 1) (hv : bit v 0 = false)
    (hspec : s.specOnCore p = true) :
    s.cribCtrlWrite p full64 v =
      (s.plain (Reg.cribCtrl p) full64 (setBit v 0 true)).setRf (Reg.cribStat p) 62 62 1 := by
  have hfull : bit full64 0 = true := by decide
  rw [State.cribCtrlWrite, if_pos (by simp only [hen, hfull, hv, hspec]; rfl)]

/-- A field of CRIB_STAT, REFUSED among them, is no part of CRIB_CTRL. -/
theorem rf_cribCtrl_setRf_cribStat (s : State) (p hi lo x h l : Nat) :
    (s.setRf (Reg.cribStat p) hi lo x).rf (Reg.cribCtrl p) h l = s.rf (Reg.cribCtrl p) h l := by
  rw [State.rf, State.reg_setRf, if_neg (cribCtrl_ne_cribStat p p), State.rf]

theorem State.rf_setRf_self (s : State) (off x : Nat) {hi : Nat} (lo : Nat) (h : hi < 64) :
    (s.setRf off hi lo x).rf off hi lo = x % 2 ^ (hi + 1 - lo) := by
  rw [State.rf, State.reg_setRf, if_pos rfl, fld_setFld _ _ _ _ h]

/-- With EN = 1 nothing is to be applied. -/
theorem cribDisable_of_enabled (hen : s.rf (Reg.cribCtrl p) 0 0 = 1) : s.cribDisable p = s := by
  rw [State.cribDisable, if_pos (by simp only [hen, decide_true, Bool.or_true])]

/-- A disable that is due while a speculation is open is refused. -/
theorem cribDisable_refused (hpcn : s.part.hasPcn p = true) (hon : (s.core p).cribOn = true)
    (hen : s.rf (Reg.cribCtrl p) 0 0 = 0) (hspec : s.specOnCore p = true) :
    s.cribDisable p = (s.setRf (Reg.cribCtrl p) 0 0 1).setRf (Reg.cribStat p) 62 62 1 := by
  rw [State.cribDisable, if_neg (by simp [hpcn, hon, hen]), if_pos hspec]

/-- An open speculation of a context in a core's context store. -/
theorem specOnCore_of_mem {i : Nat} {g : GalRec} (hg : (i, g) ∈ s.gal) (hopen : g.st ≠ .free)
    (hspilled : (s.ctx g.scn).st ≠ .spilled) (hnone : (s.ctx g.scn).st ≠ .none) (hcore : s.pcnOf (s.ctx g.scn).hcn = p) :
    s.specOnCore p = true :=
  List.any_eq_true.mpr ⟨(i, g), hg, by simp [hopen, hspilled, hnone, hcore]⟩

end CribCtrl

/-- Settles O39: EN is 1 behind the refusal, whether the write is refused or the disable that it left due. -/
theorem cribStaysOnUnderSpeculation : Obligations.CribStaysOnUnderSpeculation := by
  rintro s p hp hpcn hon ⟨i, g, hg, hopen, hspilled, hnone, hcore⟩
  have hspec : s.specOnCore p = true := specOnCore_of_mem hg hopen hspilled hnone hcore
  constructor
  · intro who v hadm hpriv hen hv
    have hwrite : exec (.registerWrite who (Reg.cribCtrl p) full64 v) s =
        .next ((s.plain (Reg.cribCtrl p) full64 (setBit v 0 true)).setRf (Reg.cribStat p) 62 62 1) :=
      congrArg Host.Outcome.next ((writeReg_cribCtrl hp hadm hpriv full64 v).trans (cribCtrlWrite_refused hen hv hspec))
    have hone : (s.plain (Reg.cribCtrl p) full64 (setBit v 0 true)).rf (Reg.cribCtrl p) 0 0 = 1 := by
      have hplain := State.reg_store64 (s := s) (mask := full64) (v := setBit v 0 true) (regDesc_cribCtrl hp)
        (cribCtrl_ne_devRsvWrites p)
      have hfield := (cribCtrlMap_alone (f := ⟨0, 0, .rw, 1, []⟩) (by decide)).fld_write_full
        (s.reg (Reg.cribCtrl p)) (setBit v 0 true) rfl rfl
      rw [State.rf, State.plain, hplain]
      exact hfield.trans (fld_setFld v 0 0 1 (by decide))
    obtain ⟨c, hframe⟩ : ∃ c, s.plain (Reg.cribCtrl p) full64 (setBit v 0 true) = { s with ctl := c } :=
      s.store64_frame (Reg.cribCtrl p) full64 (setBit v 0 true)
    have hrefused := (rf_cribCtrl_setRf_cribStat _ p 62 62 1 0 0).trans hone
    refine ⟨_, hwrite, hrefused, State.rf_setRf_self _ _ _ _ (by decide), ?_, ?_, ?_, ?_,
      congrArg Host.Outcome.next (cribDisable_of_enabled hrefused)⟩ <;> rw [hframe] <;> rfl
  · intro hen
    have hone : ((s.setRf (Reg.cribCtrl p) 0 0 1).setRf (Reg.cribStat p) 62 62 1).rf (Reg.cribCtrl p) 0 0 = 1 :=
      (rf_cribCtrl_setRf_cribStat _ p 62 62 1 0 0).trans (State.rf_setRf_self s _ _ _ (by decide))
    refine ⟨_, congrArg Host.Outcome.next (cribDisable_refused hpcn hon hen hspec), hone,
      State.rf_setRf_self _ _ _ _ (by decide), rfl, ⟨fun off hoff => ?_, ⟨rfl, rfl⟩, rfl, rfl⟩,
      congrArg Host.Outcome.next (cribDisable_of_enabled hone)⟩
    simp only [List.mem_cons, List.not_mem_nil, or_false, not_or] at hoff
    obtain ⟨hctrl, hstat⟩ := hoff
    rw [State.reg_setRf, if_neg hstat, State.reg_setRf, if_neg hctrl]

end Sys2Proof.Machine

namespace Sys2Proof.Machine

/-! The enable of a Crib and a barn cache that lists a line more than once (R286, R288).

The premise on the barn cache's own copies speaks of `BarnCache.sec`, which finds the first copy listed. The registration of one
line may evict that copy: the one behind it is then the barn cache's, and its words become the coherent view where the Crib's
next line is registered in E. -/

/-- An entry of a Crib that holds sector 0 of a line in E. -/
def exclusiveEntry (line : Nat) : CribEntry := { CribEntry.invalid with line := line, s0 := ⟨.e, []⟩ }

/-- Core 0, its Crib disabled and EN written as 1: the Crib holds line 1, whose set in the barn cache is full of copies of
line 0, and then line 0. -/
def enableDueState : State :=
  { State.reset with
    cores := [(0, { Core.reset with cribOn := false, crib := [(0, exclusiveEntry 1), (1, exclusiveEntry 0)] })]
    barns := [(0, repeatedLine)] }

/-- The enable leaves the POISON of a copy behind the first in MEMORY, which held FIX 0. -/
theorem enableDueState_poisoned : (enableDueState.cribEnable 0).memWord 0 = poisonWord 0 := by
  decide +kernel

/-- Refutes O38: with line 0 more than once in the barn cache, an enable without an M sector changes MEMORY. -/
theorem not_cribAndMemory : ¬ Obligations.CribAndMemory := by
  intro h
  obtain ⟨-, henable, -⟩ := h enableDueState 0 (by decide)
  obtain ⟨t, hnext, -, -, -, htags, -⟩ :=
    henable (by decide) (by decide) ⟨rfl, by decide⟩ (by decide) (by decide) repeatedLine_alt
  obtain rfl : enableDueState.cribEnable 0 = t := Host.Outcome.next.inj hnext
  have htag : ((enableDueState.cribEnable 0).memWord 0).tag = 0 := by
    rw [State.memWord, htags]
    rfl
  rw [enableDueState_poisoned] at htag
  exact absurd htag (by decide)

end Sys2Proof.Machine
